-- ==== Sys2Proof/Word.lean ====
section
/-! DEFINITION. The word types of the machine (R6, R7, R8): 64-bit scalars, 512-bit rows, 32-bit
syllables and 48-bit addresses. Everything a test could show wrong stands under Machine/. -/

namespace Sys2Proof

/-- A scalar register or a 64-bit word of memory. -/
abbrev Word := BitVec 64

/-- A row: 64 aligned bytes, also a vector register and an operand word (R7). -/
abbrev Row := BitVec 512

/-- One syllable of a bundle (R68). -/
abbrev Syl := BitVec 32

/-- A 48-bit virtual address (R6, R34). -/
abbrev Addr := BitVec 48

abbrev Byte := BitVec 8

end Sys2Proof
end

