-- ==== Sys2Proof/Syntax.lean ====
section
/-! DEFINITION. The steps of the part: one constructor of `Instr` per row of the table of operations
and events. A syllable's operands are the fields of its format (R77, R79, R82, R84, R87, R89), each at
its width; `g` is the guard field (R16, R69). An event's operands say where and with what it happens.
`Instr` holds no row of an encoding: `Sys2Proof.Decode` does. -/

namespace Sys2Proof

/-- A trap to be taken: the fields of cause (R32), the fault address (R33) and the address for epc
(R34). -/
structure Trap where
  code  : BitVec 6
  slot  : BitVec 3
  info  : BitVec 32
  fat   : Bool
  faddr : Word
  epc   : Addr
deriving DecidableEq, Repr

/-- A machine check as it is raised: source, unit, rank, address and detail (R391, R392). -/
structure McReport where
  src   : BitVec 8
  unit  : BitVec 8
  vrank : BitVec 16
  addr  : Word
  det   : Word
deriving DecidableEq, Repr

/-- The agents of the memory model (R229). -/
inductive Agent where
  | context   (core : Nat) (fw : Bool)
  | engine    (core : Nat) (fw : Bool) (chan ident : Nat)
  /-- a collective engine at work for the binding that a context installed under a channel and identifier -/
  | collective (core : Nat) (fw : Bool) (chan ident : Nat)
  | collectiveEngine
  | sparseMerge
  | queueController
  | caribou
  | switch
  | baseDie   (stack : Nat)
  | port      (b : Bool)
  | remote    (node tag : Nat)
deriving DecidableEq, Repr

/-- The read-modify-writes a base die or the hub performs (R145, R397), with plain loads and stores. -/
inductive MemOp where
  | load | store | aadd | amin | amax | aminn | amaxn | aand | aor | axor | aswp | acas | afadd
deriving DecidableEq, Repr

/-- A flit: the header words, the payload row and its class-1 operand (R364). -/
structure Flit where
  w0 : Word
  w1 : Word
  w2 : Word
  w3 : Word
  payload : Row
deriving DecidableEq, Repr

/-- A control-transport message: the header's fields and the payload bytes (R412). `portB` says
through which port it came, `len` is the UDP payload's length less 32. -/
structure PortMsg where
  portB : Bool
  magic : BitVec 16
  ver   : BitVec 8
  op    : BitVec 8
  sess  : BitVec 16
  plen  : BitVec 16
  seq   : Word
  asid  : BitVec 16
  addr  : Addr
  arg   : BitVec 32
  udp   : Bool
  body  : List Byte
  status : BitVec 32 := 0
deriving DecidableEq, Repr

/-- The collective a flit or a binding belongs to (R352, R364). -/
structure CollKey where
  job : BitVec 16
  gid : BitVec 12
  cid : BitVec 16
deriving DecidableEq, Repr

/-- The steps of the part. -/
inductive Instr where
  /-- R70. -/
  | nop (g : BitVec 4)
  /-- R98. -/
  | br (g : BitVec 4) (d : BitVec 22)
  /-- R98. -/
  | brl (g : BitVec 4) (l : BitVec 6) (d : BitVec 16)
  /-- R98. -/
  | jr (g : BitVec 4) (a : BitVec 6)
  /-- R98. -/
  | jrl (g : BitVec 4) (d : BitVec 6) (a : BitVec 6)
  /-- R99. -/
  | jt (g : BitVec 4) (a : BitVec 6) (i : BitVec 6) (l : BitVec 6) (p : BitVec 4)
  /-- R100. -/
  | loop (g : BitVec 4) (k : BitVec 3) (a : BitVec 6) (e : BitVec 13)
  /-- R100. -/
  | loopi (g : BitVec 4) (k : BitVec 3) (n : BitVec 10) (e : BitVec 9)
  /-- R104. -/
  | lbrk (g : BitVec 4) (k : BitVec 3)
  /-- R107. -/
  | wfmt (g : BitVec 4) (a : BitVec 6)
  /-- R108. -/
  | mfs (g : BitVec 4) (a : BitVec 6) (n : BitVec 8)
  /-- R108. -/
  | mts (g : BitVec 4) (a : BitVec 6) (n : BitVec 8)
  /-- R109. -/
  | trap (g : BitVec 4) (i : BitVec 16)
  /-- R109. -/
  | bkpt (g : BitVec 4) (i : BitVec 16)
  /-- R38. -/
  | tret (g : BitVec 4)
  /-- R112. -/
  | susp (g : BitVec 4)
  /-- R112. -/
  | yield (g : BitVec 4)
  /-- R112. -/
  | exitS (g : BitVec 4) (a : BitVec 6)
  /-- R111. -/
  | chk (g : BitVec 4) (c : BitVec 1) (r : BitVec 6) (d : BitVec 15)
  /-- R112. -/
  | stepB (g : BitVec 4)
  /-- R114. -/
  | grel (g : BitVec 4)
  /-- R226. -/
  | tlbiPage (g : BitVec 4) (a : BitVec 6) (b : BitVec 6)
  /-- R226. -/
  | tlbiAsid (g : BitVec 4) (a : BitVec 6) (b : BitVec 6)
  /-- R226. -/
  | tlbiAll (g : BitVec 4) (a : BitVec 6) (b : BitVec 6)
  /-- R226. -/
  | asw (g : BitVec 4) (a : BitVec 6)
  /-- R226. -/
  | ctxs (g : BitVec 4) (a : BitVec 6)
  /-- R226. -/
  | ctxr (g : BitVec 4) (a : BitVec 6)
  /-- R226. -/
  | fwsh (g : BitVec 4) (i : BitVec 7)
  /-- R228. -/
  | qscQuiesce (g : BitVec 4) (a : BitVec 6)
  /-- R228. -/
  | qscEndQuiesce (g : BitVec 4) (a : BitVec 6)
  /-- R228. -/
  | qscQueueInvalidate (g : BitVec 4) (a : BitVec 6)
  /-- R39. -/
  | cres (g : BitVec 4)
  /-- R228. -/
  | ckill (g : BitVec 4)
  /-- R117. -/
  | add (g : BitVec 4) (d : BitVec 6) (a : BitVec 6) (b : BitVec 6)
  /-- R117. -/
  | sub (g : BitVec 4) (d : BitVec 6) (a : BitVec 6) (b : BitVec 6)
  /-- R117. -/
  | sAnd (g : BitVec 4) (d : BitVec 6) (a : BitVec 6) (b : BitVec 6)
  /-- R117. -/
  | sOr (g : BitVec 4) (d : BitVec 6) (a : BitVec 6) (b : BitVec 6)
  /-- R117. -/
  | sXor (g : BitVec 4) (d : BitVec 6) (a : BitVec 6) (b : BitVec 6)
  /-- R117. -/
  | andn (g : BitVec 4) (d : BitVec 6) (a : BitVec 6) (b : BitVec 6)
  /-- R117. -/
  | shl (g : BitVec 4) (d : BitVec 6) (a : BitVec 6) (b : BitVec 6)
  /-- R117. -/
  | shr (g : BitVec 4) (d : BitVec 6) (a : BitVec 6) (b : BitVec 6)
  /-- R117. -/
  | sar (g : BitVec 4) (d : BitVec 6) (a : BitVec 6) (b : BitVec 6)
  /-- R117. -/
  | ror (g : BitVec 4) (d : BitVec 6) (a : BitVec 6) (b : BitVec 6)
  /-- R117. -/
  | mul (g : BitVec 4) (d : BitVec 6) (a : BitVec 6) (b : BitVec 6)
  /-- R117. -/
  | mulh (g : BitVec 4) (d : BitVec 6) (a : BitVec 6) (b : BitVec 6)
  /-- R117. -/
  | mulhn (g : BitVec 4) (d : BitVec 6) (a : BitVec 6) (b : BitVec 6)
  /-- R118. -/
  | div (g : BitVec 4) (d : BitVec 6) (a : BitVec 6) (b : BitVec 6)
  /-- R118. -/
  | divn (g : BitVec 4) (d : BitVec 6) (a : BitVec 6) (b : BitVec 6)
  /-- R118. -/
  | rem (g : BitVec 4) (d : BitVec 6) (a : BitVec 6) (b : BitVec 6)
  /-- R118. -/
  | remn (g : BitVec 4) (d : BitVec 6) (a : BitVec 6) (b : BitVec 6)
  /-- R117. -/
  | sMin (g : BitVec 4) (d : BitVec 6) (a : BitVec 6) (b : BitVec 6)
  /-- R117. -/
  | sMax (g : BitVec 4) (d : BitVec 6) (a : BitVec 6) (b : BitVec 6)
  /-- R117. -/
  | minn (g : BitVec 4) (d : BitVec 6) (a : BitVec 6) (b : BitVec 6)
  /-- R117. -/
  | maxn (g : BitVec 4) (d : BitVec 6) (a : BitVec 6) (b : BitVec 6)
  /-- R119. -/
  | ext (g : BitVec 4) (d : BitVec 6) (a : BitVec 6) (b : BitVec 6)
  /-- R119. -/
  | extn (g : BitVec 4) (d : BitVec 6) (a : BitVec 6) (b : BitVec 6)
  /-- R119. -/
  | ins (g : BitVec 4) (d : BitVec 6) (a : BitVec 6) (b : BitVec 6)
  /-- R119. -/
  | clz (g : BitVec 4) (d : BitVec 6) (a : BitVec 6)
  /-- R119. -/
  | ctz (g : BitVec 4) (d : BitVec 6) (a : BitVec 6)
  /-- R119. -/
  | pcnt (g : BitVec 4) (d : BitVec 6) (a : BitVec 6)
  /-- R120. -/
  | sel (g : BitVec 4) (d : BitVec 6) (a : BitVec 6) (b : BitVec 6) (f : BitVec 4)
  /-- R121. -/
  | cmp (g : BitVec 4) (j : BitVec 3) (c : BitVec 3) (a : BitVec 6) (b : BitVec 6)
  /-- R121. -/
  | cmpi (g : BitVec 4) (j : BitVec 3) (c : BitVec 3) (a : BitVec 6) (i : BitVec 10)
  /-- R122. -/
  | pand (g : BitVec 4) (d : BitVec 4) (a : BitVec 4) (b : BitVec 4) (n : BitVec 1) (m : BitVec 1)
  /-- R122. -/
  | por (g : BitVec 4) (d : BitVec 4) (a : BitVec 4) (b : BitVec 4) (n : BitVec 1) (m : BitVec 1)
  /-- R122. -/
  | pxor (g : BitVec 4) (d : BitVec 4) (a : BitVec 4) (b : BitVec 4) (n : BitVec 1) (m : BitVec 1)
  /-- R123. -/
  | addi (g : BitVec 4) (d : BitVec 6) (a : BitVec 6) (i : BitVec 10)
  /-- R123. -/
  | andi (g : BitVec 4) (d : BitVec 6) (a : BitVec 6) (i : BitVec 10)
  /-- R123. -/
  | ori (g : BitVec 4) (d : BitVec 6) (a : BitVec 6) (i : BitVec 10)
  /-- R123. -/
  | xori (g : BitVec 4) (d : BitVec 6) (a : BitVec 6) (i : BitVec 10)
  /-- R123. -/
  | shli (g : BitVec 4) (d : BitVec 6) (a : BitVec 6) (s : BitVec 6)
  /-- R123. -/
  | shri (g : BitVec 4) (d : BitVec 6) (a : BitVec 6) (s : BitVec 6)
  /-- R123. -/
  | sari (g : BitVec 4) (d : BitVec 6) (a : BitVec 6) (s : BitVec 6)
  /-- R81. -/
  | li (g : BitVec 4) (d : BitVec 6) (imm : BitVec 38)
  /-- R81. -/
  | lih (g : BitVec 4) (d : BitVec 6) (imm : BitVec 38)
  /-- R125. -/
  | agb (g : BitVec 4) (n : BitVec 4) (a : BitVec 6)
  /-- R125. -/
  | ags (g : BitVec 4) (n : BitVec 4) (k : BitVec 3) (a : BitVec 6)
  /-- R125. -/
  | agr (g : BitVec 4) (d : BitVec 6) (n : BitVec 4)
  /-- R129. -/
  | ldw (g : BitVec 4) (t : BitVec 6) (a : BitVec 16)
  /-- R129. -/
  | stw (g : BitVec 4) (t : BitVec 6) (a : BitVec 16)
  /-- R129. -/
  | ldr (g : BitVec 4) (t : BitVec 6) (a : BitVec 16)
  /-- R129. -/
  | str (g : BitVec 4) (t : BitVec 6) (a : BitVec 16)
  /-- R131. -/
  | ldsy (g : BitVec 4) (t : BitVec 6) (a : BitVec 16)
  /-- R131. -/
  | stsy (g : BitVec 4) (t : BitVec 6) (a : BitVec 16)
  /-- R133. -/
  | feq (g : BitVec 4) (j : BitVec 3) (a : BitVec 16)
  /-- R133. -/
  | fes (g : BitVec 4) (v : BitVec 1) (a : BitVec 16)
  /-- R134. -/
  | tlr (g : BitVec 4) (d : BitVec 6) (t : BitVec 6)
  /-- R135. -/
  | tls (g : BitVec 4) (t : BitVec 6) (s : BitVec 2)
  /-- R137. -/
  | barv (g : BitVec 4) (t : BitVec 6) (a : BitVec 16)
  /-- R138. -/
  | barw (g : BitVec 4) (t : BitVec 6) (a : BitVec 16)
  /-- R140. -/
  | gldw (g : BitVec 4) (t : BitVec 6) (b : BitVec 6) (d : BitVec 10)
  /-- R140. -/
  | gstw (g : BitVec 4) (t : BitVec 6) (b : BitVec 6) (d : BitVec 10)
  /-- R140. -/
  | gldr (g : BitVec 4) (t : BitVec 6) (b : BitVec 6) (d : BitVec 10)
  /-- R140. -/
  | gstr (g : BitVec 4) (t : BitVec 6) (b : BitVec 6) (d : BitVec 10)
  /-- R143. -/
  | gldws (g : BitVec 4) (t : BitVec 6) (b : BitVec 6) (d : BitVec 10)
  /-- R143. -/
  | gldrs (g : BitVec 4) (t : BitVec 6) (b : BitVec 6) (d : BitVec 10)
  /-- R145. -/
  | aadd (g : BitVec 4) (d : BitVec 6) (a : BitVec 6) (v : BitVec 6) (w : BitVec 1) (q : BitVec 1) (r : BitVec 1)
  /-- R145. -/
  | amin (g : BitVec 4) (d : BitVec 6) (a : BitVec 6) (v : BitVec 6) (w : BitVec 1) (k : BitVec 1) (q : BitVec 1) (r : BitVec 1)
  /-- R145. -/
  | amax (g : BitVec 4) (d : BitVec 6) (a : BitVec 6) (v : BitVec 6) (w : BitVec 1) (k : BitVec 1) (q : BitVec 1) (r : BitVec 1)
  /-- R145. -/
  | aand (g : BitVec 4) (d : BitVec 6) (a : BitVec 6) (v : BitVec 6) (w : BitVec 1) (q : BitVec 1) (r : BitVec 1)
  /-- R145. -/
  | aor (g : BitVec 4) (d : BitVec 6) (a : BitVec 6) (v : BitVec 6) (w : BitVec 1) (q : BitVec 1) (r : BitVec 1)
  /-- R145. -/
  | axor (g : BitVec 4) (d : BitVec 6) (a : BitVec 6) (v : BitVec 6) (w : BitVec 1) (q : BitVec 1) (r : BitVec 1)
  /-- R145. -/
  | aswp (g : BitVec 4) (d : BitVec 6) (a : BitVec 6) (v : BitVec 6) (w : BitVec 1) (q : BitVec 1) (r : BitVec 1)
  /-- R145. -/
  | acas (g : BitVec 4) (d : BitVec 6) (a : BitVec 6) (v : BitVec 6) (w : BitVec 1) (q : BitVec 1) (r : BitVec 1)
  /-- R145. -/
  | afadd (g : BitVec 4) (d : BitVec 6) (a : BitVec 6) (v : BitVec 6) (w : BitVec 1) (q : BitVec 1) (r : BitVec 1)
  /-- R148. -/
  | aoadd (g : BitVec 4) (d : BitVec 6) (a : BitVec 6) (v : BitVec 6) (w : BitVec 1) (k : BitVec 1) (r : BitVec 1)
  /-- R152. -/
  | phase (g : BitVec 4) (s : BitVec 4)
  /-- R215. -/
  | copy (g : BitVec 4) (c : BitVec 4) (a : BitVec 6) (d : BitVec 6) (q : BitVec 1) (r : BitVec 1) (s : BitVec 4)
  /-- R218. -/
  | gath (g : BitVec 4) (c : BitVec 4) (a : BitVec 6) (d : BitVec 6) (q : BitVec 1) (r : BitVec 1) (s : BitVec 4)
  /-- R218. -/
  | scat (g : BitVec 4) (c : BitVec 4) (a : BitVec 6) (d : BitVec 6) (q : BitVec 1) (r : BitVec 1) (s : BitVec 4)
  /-- R219. -/
  | wstr (g : BitVec 4) (c : BitVec 4) (a : BitVec 6) (d : BitVec 6) (q : BitVec 1) (s : BitVec 4)
  /-- R220. -/
  | cwid (g : BitVec 4) (c : BitVec 4) (a : BitVec 6) (s : BitVec 1)
  /-- R220. -/
  | cwcnt (g : BitVec 4) (c : BitVec 4) (a : BitVec 6) (s : BitVec 1)
  /-- R221. -/
  | trig (g : BitVec 4) (c : BitVec 4) (a : BitVec 6) (b : BitVec 6)
  /-- R223. -/
  | enq (g : BitVec 4) (p : BitVec 4) (a : BitVec 6) (v : BitVec 6)
  /-- R224. -/
  | deq (g : BitVec 4) (v : BitVec 6) (a : BitVec 6) (s : BitVec 1)
  /-- R352. -/
  | cbind (g : BitVec 4) (c : BitVec 4) (a : BitVec 6) (d : BitVec 6) (q : BitVec 1) (r : BitVec 1) (s : BitVec 4)
  /-- R338. -/
  | bred (g : BitVec 4) (c : BitVec 4) (a : BitVec 6) (d : BitVec 6) (q : BitVec 1) (r : BitVec 1) (s : BitVec 4)
  /-- R225. -/
  | hist (g : BitVec 4) (c : BitVec 4) (a : BitVec 6) (d : BitVec 6) (r : BitVec 1) (s : BitVec 4)
  /-- R225. -/
  | sarv (g : BitVec 4)
  /-- R156. -/
  | vadd (g : BitVec 4) (d : BitVec 5) (a : BitVec 6) (b : BitVec 6) (m : BitVec 3) (t : BitVec 2)
  /-- R156. -/
  | vsub (g : BitVec 4) (d : BitVec 5) (a : BitVec 6) (b : BitVec 6) (m : BitVec 3) (t : BitVec 2)
  /-- R156. -/
  | vmul (g : BitVec 4) (d : BitVec 5) (a : BitVec 6) (b : BitVec 6) (m : BitVec 3) (t : BitVec 2)
  /-- R156. -/
  | vmulh (g : BitVec 4) (d : BitVec 5) (a : BitVec 6) (b : BitVec 6) (m : BitVec 3) (t : BitVec 2)
  /-- R156. -/
  | vmin (g : BitVec 4) (d : BitVec 5) (a : BitVec 6) (b : BitVec 6) (m : BitVec 3) (t : BitVec 2)
  /-- R156. -/
  | vmax (g : BitVec 4) (d : BitVec 5) (a : BitVec 6) (b : BitVec 6) (m : BitVec 3) (t : BitVec 2)
  /-- R156. -/
  | vminn (g : BitVec 4) (d : BitVec 5) (a : BitVec 6) (b : BitVec 6) (m : BitVec 3) (t : BitVec 2)
  /-- R156. -/
  | vmaxn (g : BitVec 4) (d : BitVec 5) (a : BitVec 6) (b : BitVec 6) (m : BitVec 3) (t : BitVec 2)
  /-- R156. -/
  | vand (g : BitVec 4) (d : BitVec 5) (a : BitVec 6) (b : BitVec 6) (m : BitVec 3) (t : BitVec 2)
  /-- R156. -/
  | vor (g : BitVec 4) (d : BitVec 5) (a : BitVec 6) (b : BitVec 6) (m : BitVec 3) (t : BitVec 2)
  /-- R156. -/
  | vxor (g : BitVec 4) (d : BitVec 5) (a : BitVec 6) (b : BitVec 6) (m : BitVec 3) (t : BitVec 2)
  /-- R158. -/
  | vsel (g : BitVec 4) (d : BitVec 5) (a : BitVec 6) (b : BitVec 6) (m : BitVec 3) (t : BitVec 2)
  /-- R157. -/
  | vshli (g : BitVec 4) (d : BitVec 5) (a : BitVec 6) (i : BitVec 6) (m : BitVec 3) (t : BitVec 2)
  /-- R157. -/
  | vshri (g : BitVec 4) (d : BitVec 5) (a : BitVec 6) (i : BitVec 6) (m : BitVec 3) (t : BitVec 2)
  /-- R157. -/
  | vsari (g : BitVec 4) (d : BitVec 5) (a : BitVec 6) (i : BitVec 6) (m : BitVec 3) (t : BitVec 2)
  /-- R159. -/
  | vperm (g : BitVec 4) (d : BitVec 5) (a : BitVec 6) (b : BitVec 6) (m : BitVec 3) (t : BitVec 2)
  /-- R160. -/
  | vbc (g : BitVec 4) (d : BitVec 5) (s : BitVec 6) (m : BitVec 3) (t : BitVec 2)
  /-- R160. -/
  | vins (g : BitVec 4) (d : BitVec 5) (s : BitVec 6) (l : BitVec 6) (m : BitVec 3) (t : BitVec 2)
  /-- R161. -/
  | vext (g : BitVec 4) (d : BitVec 6) (a : BitVec 6) (l : BitVec 6) (t : BitVec 2)
  /-- R162. -/
  | vcmp (g : BitVec 4) (m : BitVec 3) (a : BitVec 6) (b : BitVec 6) (c : BitVec 3) (t : BitVec 2)
  /-- R164. -/
  | mand (g : BitVec 4) (d : BitVec 3) (a : BitVec 3) (b : BitVec 3)
  /-- R164. -/
  | mor (g : BitVec 4) (d : BitVec 3) (a : BitVec 3) (b : BitVec 3)
  /-- R164. -/
  | mxor (g : BitVec 4) (d : BitVec 3) (a : BitVec 3) (b : BitVec 3)
  /-- R164. -/
  | mandn (g : BitVec 4) (d : BitVec 3) (a : BitVec 3) (b : BitVec 3)
  /-- R164. -/
  | mset (g : BitVec 4) (d : BitVec 3) (a : BitVec 6)
  /-- R165. -/
  | vfaddF64 (g : BitVec 4) (d : BitVec 5) (a : BitVec 6) (b : BitVec 6) (m : BitVec 2) (r : BitVec 3)
  /-- R165. -/
  | vfaddF32 (g : BitVec 4) (d : BitVec 5) (a : BitVec 6) (b : BitVec 6) (m : BitVec 2) (r : BitVec 3)
  /-- R165. -/
  | vfaddBf16 (g : BitVec 4) (d : BitVec 5) (a : BitVec 6) (b : BitVec 6) (m : BitVec 2) (r : BitVec 3)
  /-- R165. -/
  | vfaddF16 (g : BitVec 4) (d : BitVec 5) (a : BitVec 6) (b : BitVec 6) (m : BitVec 2) (r : BitVec 3)
  /-- R165. -/
  | vfsubF64 (g : BitVec 4) (d : BitVec 5) (a : BitVec 6) (b : BitVec 6) (m : BitVec 2) (r : BitVec 3)
  /-- R165. -/
  | vfsubF32 (g : BitVec 4) (d : BitVec 5) (a : BitVec 6) (b : BitVec 6) (m : BitVec 2) (r : BitVec 3)
  /-- R165. -/
  | vfsubBf16 (g : BitVec 4) (d : BitVec 5) (a : BitVec 6) (b : BitVec 6) (m : BitVec 2) (r : BitVec 3)
  /-- R165. -/
  | vfsubF16 (g : BitVec 4) (d : BitVec 5) (a : BitVec 6) (b : BitVec 6) (m : BitVec 2) (r : BitVec 3)
  /-- R165. -/
  | vfmulF64 (g : BitVec 4) (d : BitVec 5) (a : BitVec 6) (b : BitVec 6) (m : BitVec 2) (r : BitVec 3)
  /-- R165. -/
  | vfmulF32 (g : BitVec 4) (d : BitVec 5) (a : BitVec 6) (b : BitVec 6) (m : BitVec 2) (r : BitVec 3)
  /-- R165. -/
  | vfmulBf16 (g : BitVec 4) (d : BitVec 5) (a : BitVec 6) (b : BitVec 6) (m : BitVec 2) (r : BitVec 3)
  /-- R165. -/
  | vfmulF16 (g : BitVec 4) (d : BitVec 5) (a : BitVec 6) (b : BitVec 6) (m : BitVec 2) (r : BitVec 3)
  /-- R165. -/
  | vfmaF64 (g : BitVec 4) (d : BitVec 5) (a : BitVec 6) (b : BitVec 6) (m : BitVec 2) (r : BitVec 3)
  /-- R165. -/
  | vfmaF32 (g : BitVec 4) (d : BitVec 5) (a : BitVec 6) (b : BitVec 6) (m : BitVec 2) (r : BitVec 3)
  /-- R165. -/
  | vfmaBf16 (g : BitVec 4) (d : BitVec 5) (a : BitVec 6) (b : BitVec 6) (m : BitVec 2) (r : BitVec 3)
  /-- R165. -/
  | vfmaF16 (g : BitVec 4) (d : BitVec 5) (a : BitVec 6) (b : BitVec 6) (m : BitVec 2) (r : BitVec 3)
  /-- R166. -/
  | vfmin (g : BitVec 4) (d : BitVec 5) (a : BitVec 6) (b : BitVec 6) (m : BitVec 3) (t : BitVec 2)
  /-- R166. -/
  | vfmax (g : BitVec 4) (d : BitVec 5) (a : BitVec 6) (b : BitVec 6) (m : BitVec 3) (t : BitVec 2)
  /-- R163. -/
  | vfcmp (g : BitVec 4) (m : BitVec 3) (a : BitVec 6) (b : BitVec 6) (c : BitVec 3) (t : BitVec 2)
  /-- R170. -/
  | vcvt (g : BitVec 4) (d : BitVec 5) (a : BitVec 6) (f : BitVec 4) (t : BitVec 4) (r : BitVec 3)
  /-- R167. -/
  | vrcpe (g : BitVec 4) (d : BitVec 5) (a : BitVec 6) (m : BitVec 3) (t : BitVec 2)
  /-- R167. -/
  | vrsqe (g : BitVec 4) (d : BitVec 5) (a : BitVec 6) (m : BitVec 3) (t : BitVec 2)
  /-- R168. -/
  | vrcps (g : BitVec 4) (d : BitVec 5) (a : BitVec 6) (b : BitVec 6) (m : BitVec 3) (t : BitVec 2)
  /-- R168. -/
  | vrsqs (g : BitVec 4) (d : BitVec 5) (a : BitVec 6) (b : BitVec 6) (m : BitVec 3) (t : BitVec 2)
  /-- R169. -/
  | vexp2 (g : BitVec 4) (d : BitVec 5) (a : BitVec 6) (m : BitVec 3) (t : BitVec 2)
  /-- R169. -/
  | vlog2 (g : BitVec 4) (d : BitVec 5) (a : BitVec 6) (m : BitVec 3) (t : BitVec 2)
  /-- R172. -/
  | vredi (g : BitVec 4) (d : BitVec 5) (a : BitVec 6) (o : BitVec 3) (m : BitVec 3) (t : BitVec 2)
  /-- R172. -/
  | vredf (g : BitVec 4) (d : BitVec 5) (a : BitVec 6) (o : BitVec 3) (m : BitVec 3) (t : BitVec 2)
  /-- R180. -/
  | vrfill (g : BitVec 4) (d : BitVec 5) (m : BitVec 3) (t : BitVec 2)
  /-- R181. -/
  | vhist (g : BitVec 4) (a : BitVec 6) (f : BitVec 4) (m : BitVec 3)
  /-- R173. -/
  | vrmg031 (g : BitVec 4) (d : BitVec 5) (a : BitVec 6) (b : BitVec 6) (s : BitVec 5)
  /-- R173. -/
  | vrmg3263 (g : BitVec 4) (d : BitVec 5) (a : BitVec 6) (b : BitVec 6) (s : BitVec 5)
  /-- R174. -/
  | vbpt (g : BitVec 4) (d : BitVec 5) (a : BitVec 6) (t : BitVec 2)
  /-- R175. -/
  | vpack (g : BitVec 4) (d : BitVec 5) (a : BitVec 6) (b : BitVec 6) (w : BitVec 2) (v : BitVec 1) (o : BitVec 1)
  /-- R176. -/
  | vunpk (g : BitVec 4) (d : BitVec 5) (a : BitVec 6) (w : BitVec 2) (v : BitVec 1) (o : BitVec 1)
  /-- R177. -/
  | vdig (g : BitVec 4) (d : BitVec 5) (a : BitVec 6) (b : BitVec 6) (w : BitVec 2) (v : BitVec 1) (o : BitVec 1)
  /-- R178. -/
  | vbq (g : BitVec 4) (d : BitVec 5) (a : BitVec 6) (f : BitVec 4) (t : BitVec 4) (r : BitVec 3)
  /-- R179. -/
  | vbdq (g : BitVec 4) (d : BitVec 5) (a : BitVec 6) (f : BitVec 4) (t : BitVec 4) (r : BitVec 3)
  /-- R191. -/
  | push (g : BitVec 4) (q : BitVec 3) (r : BitVec 1)
  /-- R192. -/
  | shift (g : BitVec 4)
  /-- R189. -/
  | acc (g : BitVec 4) (x : BitVec 1) (a : BitVec 3) (b : BitVec 3) (r : BitVec 2)
  /-- R190. -/
  | dacc (g : BitVec 4) (x : BitVec 1) (a : BitVec 3) (r : BitVec 1)
  /-- R198. -/
  | drd (g : BitVec 4) (x : BitVec 1) (a : BitVec 8) (c : BitVec 1)
  /-- R200. -/
  | drc (g : BitVec 4) (x : BitVec 1) (a : BitVec 8) (c : BitVec 1)
  /-- R193. -/
  | mclr (g : BitVec 4) (x : BitVec 2)
  /-- R195. -/
  | sldA (g : BitVec 4) (q : BitVec 3)
  /-- R195. -/
  | sldB (g : BitVec 4) (q : BitVec 3)
  /-- R201. -/
  | a2v (g : BitVec 4) (d : BitVec 5) (a : BitVec 8) (q : BitVec 2)
  /-- R201. -/
  | v2a (g : BitVec 4) (a : BitVec 8) (q : BitVec 2) (v : BitVec 6)
  /-- R202. -/
  | a2s (g : BitVec 4) (a : BitVec 8) (t : BitVec 4) (r : BitVec 3) (n : BitVec 4)
  /-- R194. -/
  | aclr (g : BitVec 4) (a : BitVec 8) (n : BitVec 8)
  /-- R25. -/
  | resultLanding (core : Nat) (fw : Bool) (ser : Nat)
  /-- R27. -/
  | interlockedBundleEffect (core : Nat) (fw : Bool)
  /-- R102. -/
  | loopBoundary (core : Nat) (fw : Bool)
  /-- R37. -/
  | delegatedTrapEntry (core : Nat) (t : Trap)
  /-- R39. -/
  | programContextStop (core : Nat) (t : Trap)
  /-- R40. -/
  | coreMachineCheck (core : Nat) (t : Trap)
  /-- R41. -/
  | asyncEventTaken (core : Nat)
  /-- R33. -/
  | globalTimeAlarm (core : Nat)
  /-- R310. -/
  | preemptionRequest (core : Nat)
  /-- R390. -/
  | machineCheck (m : McReport)
  /-- R215. -/
  | engineRowWrite (core : Nat) (fw : Bool) (chan ident : Nat)
  /-- R210. -/
  | transferComplete (core : Nat) (fw : Bool) (chan ident : Nat)
  /-- R222. -/
  | triggerFire (core : Nat) (fw : Bool) (chan : Nat)
  /-- R265. -/
  | wstrTileStart (core : Nat) (fw : Bool) (chan ident : Nat)
  /-- R265. -/
  | wstrTileReady (core : Nat) (fw : Bool) (chan ident : Nat)
  /-- R114. -/
  | grelRelease (gang : Nat)
  /-- R353. -/
  | collectiveFire (core tile : Nat)
  /-- R359. -/
  | collectiveNodeCombine (key : CollKey) (lo k : Nat)
  /-- R355. -/
  | collectiveComplete (core tile : Nat)
  /-- R364, R365: a flit with the number of its trailer, and whether the trailer's CRC is the flit's. -/
  | linkFlitReceive (port : Nat) (lseq : BitVec 12) (crcOk : Bool) (f : Flit)
  /-- R365. -/
  | negativeAcknowledgement (port : Nat) (lseq : BitVec 12)
  /-- R367. -/
  | routeResendTimeout (dst cls : Nat)
  /-- R404. -/
  | nodeLost (node : Nat)
  /-- R449. -/
  | collectiveFlit (f : Flit)
  /-- R364. -/
  | readRequest (f : Flit)
  /-- R364. -/
  | readResponse (f : Flit)
  /-- R364. -/
  | rowWrite (f : Flit)
  /-- R364. -/
  | wordWrite (f : Flit)
  /-- R364. -/
  | atomicRequest (f : Flit)
  /-- R364. -/
  | atomicResponse (f : Flit)
  /-- R364. -/
  | writeAcknowledgement (f : Flit)
  /-- R341. -/
  | retryWithWaitHint (f : Flit)
  /-- R374. -/
  | bindingUpdate (f : Flit)
  /-- R374. -/
  | bindingUpdateApply (idx : Nat)
  /-- R374. -/
  | marker (f : Flit)
  /-- R373. -/
  | caribouData (f : Flit)
  /-- R373. -/
  | caribouDone (f : Flit)
  /-- R367. -/
  | routeAcknowledgement (f : Flit)
  /-- R331. -/
  | localMove
  /-- R373. -/
  | migrateOut
  /-- R371. -/
  | loadRankMap
  /-- R371. -/
  | loadPortTable
  /-- R289. -/
  | dispatchTake (core : Nat)
  /-- R299. -/
  | launchPacketTake (core : Nat)
  /-- R299. -/
  | gangReservationComplete (gang : Nat)
  /-- R252. -/
  | partitionChange (core : Nat)
  /-- R299. -/
  | gangRelease (gang : Nat)
  /-- R303. -/
  | readyWaitPreemption (die : Nat)
  /-- R306. -/
  | stepBoundary (vrank : BitVec 16)
  /-- R450. -/
  | readyPacketReclaim (idx : Nat)
  /-- R336. -/
  | memsideOperation (idx : Nat)
  /-- R149. -/
  | orderedAddArrival (idx : Nat)
  /-- R339. -/
  | reductionBlockRun (stack : Nat)
  /-- R334. -/
  | parityDifferenceApply (idx : Nat)
  /-- R343. -/
  | uncorrectableRead (row : Nat)
  /-- R344. -/
  | rowRemap (channel pseudo bank dramRow : Nat)
  /-- R345. -/
  | remapTableReload (channel : Nat)
  /-- R236. -/
  | writeReachesAgent (write : Nat) (a : Agent)
  /-- R326. -/
  | tlbiComplete (core : Nat)
  /-- R393. -/
  | coreStateError (core : Nat) (fw : Bool) (det : Nat)
  /-- R401. -/
  | quiesceRecordUpdate (asid : BitVec 16)
  /-- R406. -/
  | mirrorAccept (idx : Nat)
  /-- R272. -/
  | limiterWindowBoundary (core : Nat)
  /-- R441. -/
  | thermalCapAdjust
  /-- R440. -/
  | temperatureUpdate (tmax tin : BitVec 8)
  /-- R438. -/
  | powerTrip
  /-- R422. -/
  | powerUp
  /-- R432. -/
  | identityTreeReady
  /-- R445. -/
  | linkUp (port : Nat) (refNode : BitVec 12) (refTime : Nat)
  /-- R446. -/
  | referenceChange (refNode : BitVec 12) (off : Int)
  /-- R417. -/
  | sessionLinkTimeout (port : Bool)
  /-- R413. -/
  | hostRead (m : PortMsg)
  /-- R413. -/
  | hostWrite (m : PortMsg)
  /-- R413. -/
  | queueAppend (m : PortMsg)
  /-- R413. -/
  | regRead (m : PortMsg)
  /-- R419. -/
  | regWrite (m : PortMsg)
  /-- R421. -/
  | semAcquire (m : PortMsg)
  /-- R421. -/
  | semRelease (m : PortMsg)
  /-- R424. -/
  | imageChunk (m : PortMsg)
  /-- R425. -/
  | commitBoot (m : PortMsg)
  /-- R427. -/
  | commitHandOver (m : PortMsg)
  /-- R433. -/
  | attest (m : PortMsg)
  /-- R435. -/
  | compareManifest (m : PortMsg)
  /-- R415. -/
  | openSession (m : PortMsg)
  /-- R417. -/
  | closeSession (m : PortMsg)
  /-- R420. -/
  | notify (m : PortMsg)
  /-- R429. -/
  | hodone (core : Nat) (v : Word)
  /-- R430. -/
  | handoverTimeout
  /-- R397. -/
  | firmwareRequestWord (core : Nat) (op : MemOp) (v cmp : Word)
  /-- R284. -/
  | regionAnnounce (v : Word)
  /-- R439. -/
  | rampWordWrite (v : Word)
  /-- R324. -/
  | tkey7Write (core : Nat) (v : Word)
  /-- R332. -/
  | tregWrite (core : Nat) (v : Word)
  /-- R378. -/
  | cacheLineWriteBack (row : Nat)
  /-- R422. -/
  | inputPowerLoss
  /-- R446. -/
  | timeReferenceSettled
  /-- R332. -/
  | regionTableLoadComplete
  /-- R412. -/
  | badControlFrame (m : PortMsg)
  /-- R364. -/
  | reservedCodeFlit (f : Flit)
deriving DecidableEq, Repr

end Sys2Proof
end

