-- ==== Sys2Proof/WellFormed.lean ====
section
/-! DEFINITION. The operand rules of R73 and R74: which operand codes are reserved in which
instruction, whatever the issuing context. The rules that depend on the context are `contextOk`. -/

namespace Sys2Proof

/-- The lane width that the field t gives an integer instruction (R87). -/
def laneWidth (t : BitVec 2) : Nat := 8 * 2 ^ t.toNat

/-- A lane number below the lane count (R87). -/
def laneOk (l : BitVec 6) (t : BitVec 2) : Bool := decide (l.toNat * laneWidth t < 512)

/-- An L-slot address field: with bit 15 set, bits [10:0] are 0 (R82). -/
def laOk (la : BitVec 16) : Bool := la.extractLsb' 15 1 == 0#1 || la.extractLsb' 0 11 == 0#11

/-- The scope field of format EC: codes 0 to 11, and 0 with neither flag (R84, R6). -/
def scopeOk (aq rl : BitVec 1) (sc : BitVec 4) : Bool :=
  sc.ult 12#4 && (aq == 1#1 || rl == 1#1 || sc == 0#4)

/-- The element codes of a block quantise (wide side, block side) and, for a binary32 wide side, its
even register number of at most 30 (R178, R179). -/
def wfQuantise (wide blk : BitVec 4) (reg : BitVec 6) : Bool :=
  (blk == 12#4 || blk == 13#4 || blk == 0#4) &&
  (wide == 10#4 || wide == 11#4 || (wide == 9#4 && reg.extractLsb' 0 1 == 0#1 && reg.ult 31#6))

/-- The operand rules of one instruction (R74, R77, R79, R82, R84, R87, R89). -/
def Instr.wf : Instr → Bool
  | .jt _ _ _ _ p => p != 0#4
  | .loop _ k _ e => k.ult 6#3 && e != 0#13
  | .loopi _ k _ e => k.ult 6#3 && e != 0#9
  | .lbrk _ k => k.ult 6#3
  | .chk _ c r _ => c == 0#1 || r.ult 32#6
  | .tlbiAll _ a b => a == 0#6 && b == 0#6
  | .cmp _ _ c _ _ => c != 7#3
  | .cmpi _ _ c _ _ => c != 7#3
  | .pand _ d _ _ _ _ => d != 0#4
  | .por _ d _ _ _ _ => d != 0#4
  | .pxor _ d _ _ _ _ => d != 0#4
  | .ags _ _ k _ => k.ult 6#3
  | .ldw _ _ a => laOk a
  | .stw _ _ a => laOk a
  | .ldr _ t a => laOk a && t.ult 32#6
  | .str _ t a => laOk a && t.ult 32#6
  | .ldsy _ t a => laOk a && t.ult 32#6
  | .stsy _ t a => laOk a && t.ult 32#6
  | .feq _ _ a => laOk a
  | .fes _ _ a => laOk a
  | .barv _ _ a => laOk a
  | .barw _ _ a => laOk a
  | .gldr _ t _ _ => t.ult 32#6
  | .gstr _ t _ _ => t.ult 32#6
  | .gldrs _ t _ _ => t.ult 32#6
  | .phase _ s => s.ult 12#4
  | .copy _ _ _ _ q r s => scopeOk q r s
  | .gath _ _ _ _ q r s => scopeOk q r s
  | .scat _ _ _ _ q r s => scopeOk q r s
  | .wstr _ _ _ _ q s => scopeOk q 0#1 s
  | .enq _ p _ v => p != 0#4 && v.ult 32#6
  | .deq _ v _ _ => v.ult 32#6
  | .cbind _ _ _ _ q r s => scopeOk q r s
  | .bred _ _ _ _ q r s => scopeOk q r s
  | .hist _ _ _ _ r s => scopeOk 0#1 r s
  | .vshli _ _ _ i _ t => decide (i.toNat < laneWidth t)
  | .vshri _ _ _ i _ t => decide (i.toNat < laneWidth t)
  | .vsari _ _ _ i _ t => decide (i.toNat < laneWidth t)
  | .vins _ _ _ l _ t => laneOk l t
  | .vext _ _ _ l t => laneOk l t
  | .vcmp _ m _ _ c _ => m != 0#3 && c.ult 6#3
  | .mand _ d _ _ => d != 0#3
  | .mor _ d _ _ => d != 0#3
  | .mxor _ d _ _ => d != 0#3
  | .mandn _ d _ _ => d != 0#3
  | .mset _ d _ => d != 0#3
  | .vfaddF64 _ _ _ _ _ r => r != 7#3
  | .vfaddF32 _ _ _ _ _ r => r != 7#3
  | .vfaddBf16 _ _ _ _ _ r => r != 7#3
  | .vfaddF16 _ _ _ _ _ r => r != 7#3
  | .vfsubF64 _ _ _ _ _ r => r != 7#3
  | .vfsubF32 _ _ _ _ _ r => r != 7#3
  | .vfsubBf16 _ _ _ _ _ r => r != 7#3
  | .vfsubF16 _ _ _ _ _ r => r != 7#3
  | .vfmulF64 _ _ _ _ _ r => r != 7#3
  | .vfmulF32 _ _ _ _ _ r => r != 7#3
  | .vfmulBf16 _ _ _ _ _ r => r != 7#3
  | .vfmulF16 _ _ _ _ _ r => r != 7#3
  | .vfmaF64 _ _ _ _ _ r => r != 7#3
  | .vfmaF32 _ _ _ _ _ r => r != 7#3
  | .vfmaBf16 _ _ _ _ _ r => r != 7#3
  | .vfmaF16 _ _ _ _ _ r => r != 7#3
  | .vfcmp _ m _ _ c _ => m != 0#3 && c.ult 5#3
  | .vcvt _ _ _ f t r => f.ult 14#4 && t.ult 14#4 && r != 7#3
  | .vredi _ _ _ o _ _ => o.ult 5#3
  | .vredf _ _ _ o _ _ => o.ult 3#3
  | .vhist _ _ f _ => (7#4).ult f && f.ult 14#4
  | .vbpt _ _ _ t => t.ult 2#2
  | .vunpk _ _ _ w _ o => !(w == 0#2 && o == 1#1)
  | .vbq _ _ a f t r => wfQuantise f t a && r != 7#3
  | .vbdq _ d _ f t r => wfQuantise t f (0#1 ++ d) && r != 7#3
  | .mclr _ x => x != 0#2
  | .a2s _ _ t r _ => t.ult 14#4 && r != 7#3
  | .aclr _ a n => decide (a.toNat + n.toNat ≤ 255)
  | _ => true

/-- A special register of the program context (R19). -/
def specialInProgram (n : Nat) : Bool :=
  n ≤ 0x0D || (0x10 ≤ n && n ≤ 0x13) || (0x20 ≤ n && n ≤ 0x2F)

/-- A special register of the firmware context (R19, R324). -/
def specialInFirmware (n : Nat) : Bool :=
  (2 ≤ n && n ≤ 0x0C) || (0x20 ≤ n && n ≤ 0x23) || (0x80 ≤ n && n ≤ 0x87) || (0xC0 ≤ n && n ≤ 0xCE)

/-- What the issuing context allows: its special registers (R20), the vector form of chk (R111), the
format register (R107) and the channels below its limit (R84, R285). -/
def Instr.contextOk (fw : Bool) (nchan : Nat) : Instr → Bool
  | .mfs _ _ n | .mts _ _ n => if fw then specialInFirmware n.toNat else specialInProgram n.toNat
  | .wfmt _ _ => !fw
  | .chk _ c _ _ => !fw || c == 0#1
  | .copy _ c _ _ _ _ _ => decide (c.toNat < nchan)
  | .gath _ c _ _ _ _ _ => decide (c.toNat < nchan)
  | .scat _ c _ _ _ _ _ => decide (c.toNat < nchan)
  | .wstr _ c _ _ _ _ => decide (c.toNat < nchan)
  | .cbind _ c _ _ _ _ _ => decide (c.toNat < nchan)
  | .bred _ c _ _ _ _ _ => decide (c.toNat < nchan)
  | .hist _ c _ _ _ _ => decide (c.toNat < nchan)
  | .cwid _ c _ _ => decide (c.toNat < nchan)
  | .cwcnt _ c _ _ => decide (c.toNat < nchan)
  | .trig _ c _ _ => decide (c.toNat < nchan)
  | _ => true

end Sys2Proof
end

