-- ==== Sys2Proof/Decode.lean ====
section
/-! DEFINITION. The bundle and syllable formats (R68 to R90): the encoder, the decode fates of R75 with
their reasons, the long-immediate pair of R81 and the bundle. -/

namespace Sys2Proof

/-- The word of one syllable (R69 and the format tables); the events and the long-immediate pair have
none here (see `encodePair`). -/
def encode : Instr → Option Syl
  | .nop g => some (g ++ 0#6 ++ 0#22)
  | .br g d => some (g ++ 1#6 ++ d)
  | .brl g l d => some (g ++ 2#6 ++ l ++ d)
  | .jr g a => some (g ++ 3#6 ++ a ++ 0#16)
  | .jrl g d a => some (g ++ 4#6 ++ d ++ a ++ 0#10)
  | .jt g a i l p => some (g ++ 5#6 ++ a ++ i ++ l ++ p)
  | .loop g k a e => some (g ++ 6#6 ++ k ++ a ++ e)
  | .loopi g k n e => some (g ++ 7#6 ++ k ++ n ++ e)
  | .lbrk g k => some (g ++ 8#6 ++ k ++ 0#19)
  | .wfmt g a => some (g ++ 9#6 ++ a ++ 0#16)
  | .mfs g a n => some (g ++ 10#6 ++ a ++ n ++ 0#8)
  | .mts g a n => some (g ++ 11#6 ++ a ++ n ++ 0#8)
  | .trap g i => some (g ++ 12#6 ++ 0#6 ++ i)
  | .bkpt g i => some (g ++ 13#6 ++ 0#6 ++ i)
  | .tret g => some (g ++ 14#6 ++ 0#22)
  | .susp g => some (g ++ 15#6 ++ 0#22)
  | .yield g => some (g ++ 16#6 ++ 0#22)
  | .exitS g a => some (g ++ 17#6 ++ a ++ 0#16)
  | .chk g c r d => some (g ++ 18#6 ++ c ++ r ++ d)
  | .stepB g => some (g ++ 19#6 ++ 0#22)
  | .grel g => some (g ++ 20#6 ++ 0#22)
  | .tlbiPage g a b => some (g ++ 48#6 ++ a ++ b ++ 0#10)
  | .tlbiAsid g a b => some (g ++ 48#6 ++ a ++ b ++ 1#10)
  | .tlbiAll g a b => some (g ++ 48#6 ++ a ++ b ++ 2#10)
  | .asw g a => some (g ++ 49#6 ++ a ++ 0#16)
  | .ctxs g a => some (g ++ 50#6 ++ a ++ 0#16)
  | .ctxr g a => some (g ++ 51#6 ++ a ++ 0#16)
  | .fwsh g i => some (g ++ 52#6 ++ 0#15 ++ i)
  | .qscQuiesce g a => some (g ++ 53#6 ++ a ++ 0#16)
  | .qscEndQuiesce g a => some (g ++ 53#6 ++ a ++ 0#16)
  | .qscQueueInvalidate g a => some (g ++ 53#6 ++ a ++ 0#16)
  | .cres g => some (g ++ 54#6 ++ 0#22)
  | .ckill g => some (g ++ 55#6 ++ 0#22)
  | .add g d a b => some (g ++ 1#6 ++ d ++ a ++ b ++ 0#4)
  | .sub g d a b => some (g ++ 2#6 ++ d ++ a ++ b ++ 0#4)
  | .sAnd g d a b => some (g ++ 3#6 ++ d ++ a ++ b ++ 0#4)
  | .sOr g d a b => some (g ++ 4#6 ++ d ++ a ++ b ++ 0#4)
  | .sXor g d a b => some (g ++ 5#6 ++ d ++ a ++ b ++ 0#4)
  | .andn g d a b => some (g ++ 6#6 ++ d ++ a ++ b ++ 0#4)
  | .shl g d a b => some (g ++ 7#6 ++ d ++ a ++ b ++ 0#4)
  | .shr g d a b => some (g ++ 8#6 ++ d ++ a ++ b ++ 0#4)
  | .sar g d a b => some (g ++ 9#6 ++ d ++ a ++ b ++ 0#4)
  | .ror g d a b => some (g ++ 10#6 ++ d ++ a ++ b ++ 0#4)
  | .mul g d a b => some (g ++ 11#6 ++ d ++ a ++ b ++ 0#4)
  | .mulh g d a b => some (g ++ 12#6 ++ d ++ a ++ b ++ 0#4)
  | .mulhn g d a b => some (g ++ 13#6 ++ d ++ a ++ b ++ 0#4)
  | .div g d a b => some (g ++ 14#6 ++ d ++ a ++ b ++ 0#4)
  | .divn g d a b => some (g ++ 15#6 ++ d ++ a ++ b ++ 0#4)
  | .rem g d a b => some (g ++ 16#6 ++ d ++ a ++ b ++ 0#4)
  | .remn g d a b => some (g ++ 17#6 ++ d ++ a ++ b ++ 0#4)
  | .sMin g d a b => some (g ++ 18#6 ++ d ++ a ++ b ++ 0#4)
  | .sMax g d a b => some (g ++ 19#6 ++ d ++ a ++ b ++ 0#4)
  | .minn g d a b => some (g ++ 20#6 ++ d ++ a ++ b ++ 0#4)
  | .maxn g d a b => some (g ++ 21#6 ++ d ++ a ++ b ++ 0#4)
  | .ext g d a b => some (g ++ 22#6 ++ d ++ a ++ b ++ 0#4)
  | .extn g d a b => some (g ++ 23#6 ++ d ++ a ++ b ++ 0#4)
  | .ins g d a b => some (g ++ 24#6 ++ d ++ a ++ b ++ 0#4)
  | .clz g d a => some (g ++ 25#6 ++ d ++ a ++ 0#10)
  | .ctz g d a => some (g ++ 26#6 ++ d ++ a ++ 0#10)
  | .pcnt g d a => some (g ++ 27#6 ++ d ++ a ++ 0#10)
  | .sel g d a b f => some (g ++ 28#6 ++ d ++ a ++ b ++ f)
  | .cmp g j c a b => some (g ++ 29#6 ++ j ++ c ++ a ++ b ++ 0#4)
  | .cmpi g j c a i => some (g ++ 30#6 ++ j ++ c ++ a ++ i)
  | .pand g d a b n m => some (g ++ 31#6 ++ d ++ a ++ b ++ n ++ m ++ 0#8)
  | .por g d a b n m => some (g ++ 32#6 ++ d ++ a ++ b ++ n ++ m ++ 0#8)
  | .pxor g d a b n m => some (g ++ 33#6 ++ d ++ a ++ b ++ n ++ m ++ 0#8)
  | .addi g d a i => some (g ++ 34#6 ++ d ++ a ++ i)
  | .andi g d a i => some (g ++ 35#6 ++ d ++ a ++ i)
  | .ori g d a i => some (g ++ 36#6 ++ d ++ a ++ i)
  | .xori g d a i => some (g ++ 37#6 ++ d ++ a ++ i)
  | .shli g d a s => some (g ++ 38#6 ++ d ++ a ++ 0#4 ++ s)
  | .shri g d a s => some (g ++ 39#6 ++ d ++ a ++ 0#4 ++ s)
  | .sari g d a s => some (g ++ 40#6 ++ d ++ a ++ 0#4 ++ s)
  | .agb g n a => some (g ++ 44#6 ++ n ++ a ++ 0#12)
  | .ags g n k a => some (g ++ 45#6 ++ n ++ k ++ a ++ 0#9)
  | .agr g d n => some (g ++ 46#6 ++ d ++ n ++ 0#12)
  | .ldw g t a => some (g ++ 1#6 ++ t ++ a)
  | .stw g t a => some (g ++ 2#6 ++ t ++ a)
  | .ldr g t a => some (g ++ 3#6 ++ t ++ a)
  | .str g t a => some (g ++ 4#6 ++ t ++ a)
  | .ldsy g t a => some (g ++ 5#6 ++ t ++ a)
  | .stsy g t a => some (g ++ 6#6 ++ t ++ a)
  | .feq g j a => some (g ++ 7#6 ++ j ++ 0#3 ++ a)
  | .fes g v a => some (g ++ 8#6 ++ v ++ 0#5 ++ a)
  | .tlr g d t => some (g ++ 9#6 ++ d ++ t ++ 0#10)
  | .tls g t s => some (g ++ 10#6 ++ 0#6 ++ t ++ s ++ 0#8)
  | .barv g t a => some (g ++ 11#6 ++ t ++ a)
  | .barw g t a => some (g ++ 12#6 ++ t ++ a)
  | .gldw g t b d => some (g ++ 1#6 ++ t ++ b ++ d)
  | .gstw g t b d => some (g ++ 2#6 ++ t ++ b ++ d)
  | .gldr g t b d => some (g ++ 3#6 ++ t ++ b ++ d)
  | .gstr g t b d => some (g ++ 4#6 ++ t ++ b ++ d)
  | .gldws g t b d => some (g ++ 5#6 ++ t ++ b ++ d)
  | .gldrs g t b d => some (g ++ 6#6 ++ t ++ b ++ d)
  | .aadd g d a v w q r => some (g ++ 7#6 ++ d ++ a ++ v ++ w ++ 0#1 ++ q ++ r)
  | .amin g d a v w k q r => some (g ++ 8#6 ++ d ++ a ++ v ++ w ++ k ++ q ++ r)
  | .amax g d a v w k q r => some (g ++ 9#6 ++ d ++ a ++ v ++ w ++ k ++ q ++ r)
  | .aand g d a v w q r => some (g ++ 10#6 ++ d ++ a ++ v ++ w ++ 0#1 ++ q ++ r)
  | .aor g d a v w q r => some (g ++ 11#6 ++ d ++ a ++ v ++ w ++ 0#1 ++ q ++ r)
  | .axor g d a v w q r => some (g ++ 12#6 ++ d ++ a ++ v ++ w ++ 0#1 ++ q ++ r)
  | .aswp g d a v w q r => some (g ++ 13#6 ++ d ++ a ++ v ++ w ++ 0#1 ++ q ++ r)
  | .acas g d a v w q r => some (g ++ 14#6 ++ d ++ a ++ v ++ w ++ 0#1 ++ q ++ r)
  | .afadd g d a v w q r => some (g ++ 15#6 ++ d ++ a ++ v ++ w ++ 0#1 ++ q ++ r)
  | .aoadd g d a v w k r => some (g ++ 16#6 ++ d ++ a ++ v ++ w ++ k ++ 0#1 ++ r)
  | .phase g s => some (g ++ 17#6 ++ s ++ 0#18)
  | .copy g c a d q r s => some (g ++ 18#6 ++ c ++ a ++ d ++ q ++ r ++ s)
  | .gath g c a d q r s => some (g ++ 19#6 ++ c ++ a ++ d ++ q ++ r ++ s)
  | .scat g c a d q r s => some (g ++ 20#6 ++ c ++ a ++ d ++ q ++ r ++ s)
  | .wstr g c a d q s => some (g ++ 21#6 ++ c ++ a ++ d ++ q ++ 0#1 ++ s)
  | .cwid g c a s => some (g ++ 22#6 ++ c ++ a ++ s ++ 0#11)
  | .cwcnt g c a s => some (g ++ 23#6 ++ c ++ a ++ s ++ 0#11)
  | .trig g c a b => some (g ++ 24#6 ++ c ++ a ++ b ++ 0#6)
  | .enq g p a v => some (g ++ 25#6 ++ p ++ a ++ v ++ 0#6)
  | .deq g v a s => some (g ++ 26#6 ++ v ++ a ++ s ++ 0#9)
  | .cbind g c a d q r s => some (g ++ 27#6 ++ c ++ a ++ d ++ q ++ r ++ s)
  | .bred g c a d q r s => some (g ++ 28#6 ++ c ++ a ++ d ++ q ++ r ++ s)
  | .hist g c a d r s => some (g ++ 29#6 ++ c ++ a ++ d ++ 0#1 ++ r ++ s)
  | .sarv g => some (g ++ 30#6 ++ 0#22)
  | .vadd g d a b m t => some (g ++ 1#6 ++ d ++ a ++ b ++ m ++ t)
  | .vsub g d a b m t => some (g ++ 2#6 ++ d ++ a ++ b ++ m ++ t)
  | .vmul g d a b m t => some (g ++ 3#6 ++ d ++ a ++ b ++ m ++ t)
  | .vmulh g d a b m t => some (g ++ 4#6 ++ d ++ a ++ b ++ m ++ t)
  | .vmin g d a b m t => some (g ++ 5#6 ++ d ++ a ++ b ++ m ++ t)
  | .vmax g d a b m t => some (g ++ 6#6 ++ d ++ a ++ b ++ m ++ t)
  | .vminn g d a b m t => some (g ++ 7#6 ++ d ++ a ++ b ++ m ++ t)
  | .vmaxn g d a b m t => some (g ++ 8#6 ++ d ++ a ++ b ++ m ++ t)
  | .vand g d a b m t => some (g ++ 9#6 ++ d ++ a ++ b ++ m ++ t)
  | .vor g d a b m t => some (g ++ 10#6 ++ d ++ a ++ b ++ m ++ t)
  | .vxor g d a b m t => some (g ++ 11#6 ++ d ++ a ++ b ++ m ++ t)
  | .vsel g d a b m t => some (g ++ 12#6 ++ d ++ a ++ b ++ m ++ t)
  | .vshli g d a i m t => some (g ++ 13#6 ++ d ++ a ++ i ++ m ++ t)
  | .vshri g d a i m t => some (g ++ 14#6 ++ d ++ a ++ i ++ m ++ t)
  | .vsari g d a i m t => some (g ++ 15#6 ++ d ++ a ++ i ++ m ++ t)
  | .vperm g d a b m t => some (g ++ 16#6 ++ d ++ a ++ b ++ m ++ t)
  | .vbc g d s m t => some (g ++ 17#6 ++ d ++ s ++ 0#6 ++ m ++ t)
  | .vins g d s l m t => some (g ++ 18#6 ++ d ++ s ++ l ++ m ++ t)
  | .vext g d a l t => some (g ++ 19#6 ++ d ++ a ++ l ++ 0#2 ++ t)
  | .vcmp g m a b c t => some (g ++ 20#6 ++ m ++ a ++ b ++ c ++ 0#2 ++ t)
  | .mand g d a b => some (g ++ 21#6 ++ d ++ a ++ b ++ 0#13)
  | .mor g d a b => some (g ++ 22#6 ++ d ++ a ++ b ++ 0#13)
  | .mxor g d a b => some (g ++ 23#6 ++ d ++ a ++ b ++ 0#13)
  | .mandn g d a b => some (g ++ 24#6 ++ d ++ a ++ b ++ 0#13)
  | .mset g d a => some (g ++ 25#6 ++ d ++ a ++ 0#13)
  | .vfaddF64 g d a b m r => some (g ++ 26#6 ++ d ++ a ++ b ++ m ++ r)
  | .vfaddF32 g d a b m r => some (g ++ 27#6 ++ d ++ a ++ b ++ m ++ r)
  | .vfaddBf16 g d a b m r => some (g ++ 28#6 ++ d ++ a ++ b ++ m ++ r)
  | .vfaddF16 g d a b m r => some (g ++ 29#6 ++ d ++ a ++ b ++ m ++ r)
  | .vfsubF64 g d a b m r => some (g ++ 30#6 ++ d ++ a ++ b ++ m ++ r)
  | .vfsubF32 g d a b m r => some (g ++ 31#6 ++ d ++ a ++ b ++ m ++ r)
  | .vfsubBf16 g d a b m r => some (g ++ 32#6 ++ d ++ a ++ b ++ m ++ r)
  | .vfsubF16 g d a b m r => some (g ++ 33#6 ++ d ++ a ++ b ++ m ++ r)
  | .vfmulF64 g d a b m r => some (g ++ 34#6 ++ d ++ a ++ b ++ m ++ r)
  | .vfmulF32 g d a b m r => some (g ++ 35#6 ++ d ++ a ++ b ++ m ++ r)
  | .vfmulBf16 g d a b m r => some (g ++ 36#6 ++ d ++ a ++ b ++ m ++ r)
  | .vfmulF16 g d a b m r => some (g ++ 37#6 ++ d ++ a ++ b ++ m ++ r)
  | .vfmaF64 g d a b m r => some (g ++ 38#6 ++ d ++ a ++ b ++ m ++ r)
  | .vfmaF32 g d a b m r => some (g ++ 39#6 ++ d ++ a ++ b ++ m ++ r)
  | .vfmaBf16 g d a b m r => some (g ++ 40#6 ++ d ++ a ++ b ++ m ++ r)
  | .vfmaF16 g d a b m r => some (g ++ 41#6 ++ d ++ a ++ b ++ m ++ r)
  | .vfmin g d a b m t => some (g ++ 42#6 ++ d ++ a ++ b ++ m ++ t)
  | .vfmax g d a b m t => some (g ++ 43#6 ++ d ++ a ++ b ++ m ++ t)
  | .vfcmp g m a b c t => some (g ++ 44#6 ++ m ++ a ++ b ++ c ++ 0#2 ++ t)
  | .vcvt g d a f t r => some (g ++ 45#6 ++ d ++ a ++ f ++ t ++ r)
  | .vrcpe g d a m t => some (g ++ 46#6 ++ d ++ a ++ 0#6 ++ m ++ t)
  | .vrsqe g d a m t => some (g ++ 47#6 ++ d ++ a ++ 0#6 ++ m ++ t)
  | .vrcps g d a b m t => some (g ++ 48#6 ++ d ++ a ++ b ++ m ++ t)
  | .vrsqs g d a b m t => some (g ++ 49#6 ++ d ++ a ++ b ++ m ++ t)
  | .vexp2 g d a m t => some (g ++ 50#6 ++ d ++ a ++ 0#6 ++ m ++ t)
  | .vlog2 g d a m t => some (g ++ 51#6 ++ d ++ a ++ 0#6 ++ m ++ t)
  | .vredi g d a o m t => some (g ++ 52#6 ++ d ++ a ++ o ++ 0#3 ++ m ++ t)
  | .vredf g d a o m t => some (g ++ 53#6 ++ d ++ a ++ o ++ 0#3 ++ m ++ t)
  | .vrfill g d m t => some (g ++ 54#6 ++ d ++ 0#12 ++ m ++ t)
  | .vhist g a f m => some (g ++ 55#6 ++ 0#5 ++ a ++ f ++ 0#2 ++ m ++ 0#2)
  | .vrmg031 g d a b s => some (g ++ 56#6 ++ d ++ a ++ b ++ s)
  | .vrmg3263 g d a b s => some (g ++ 57#6 ++ d ++ a ++ b ++ s)
  | .vbpt g d a t => some (g ++ 58#6 ++ d ++ a ++ 0#9 ++ t)
  | .vpack g d a b w v o => some (g ++ 59#6 ++ d ++ a ++ b ++ w ++ v ++ o ++ 0#1)
  | .vunpk g d a w v o => some (g ++ 60#6 ++ d ++ a ++ 0#6 ++ w ++ v ++ o ++ 0#1)
  | .vdig g d a b w v o => some (g ++ 61#6 ++ d ++ a ++ b ++ w ++ v ++ o ++ 0#1)
  | .vbq g d a f t r => some (g ++ 62#6 ++ d ++ a ++ f ++ t ++ r)
  | .vbdq g d a f t r => some (g ++ 63#6 ++ d ++ a ++ f ++ t ++ r)
  | .push g q r => some (g ++ 1#6 ++ q ++ 1#1 ++ r ++ 0#17)
  | .shift g => some (g ++ 2#6 ++ 2097152#22)
  | .acc g x a b r => some (g ++ 3#6 ++ x ++ a ++ b ++ r ++ 0#13)
  | .dacc g x a r => some (g ++ 4#6 ++ x ++ a ++ 0#3 ++ r ++ 0#14)
  | .drd g x a c => some (g ++ 5#6 ++ x ++ a ++ 0#3 ++ c ++ 0#9)
  | .drc g x a c => some (g ++ 6#6 ++ x ++ a ++ 0#3 ++ c ++ 0#9)
  | .mclr g x => some (g ++ 7#6 ++ x ++ 0#20)
  | .sldA g q => some (g ++ 8#6 ++ 0#1 ++ q ++ 0#18)
  | .sldB g q => some (g ++ 8#6 ++ 1#1 ++ q ++ 0#18)
  | .a2v g d a q => some (g ++ 9#6 ++ d ++ a ++ q ++ 0#7)
  | .v2a g a q v => some (g ++ 10#6 ++ a ++ q ++ v ++ 0#6)
  | .a2s g a t r n => some (g ++ 11#6 ++ a ++ t ++ r ++ n ++ 0#3)
  | .aclr g a n => some (g ++ 12#6 ++ a ++ n ++ 0#6)
  | _ => none

/-- The two words of a long immediate, X then Y (R81, R124). -/
def encodePair : Instr → Option (Syl × Syl)
  | .li g d imm => some (g ++ 41#6 ++ d ++ imm.extractLsb' 22 16, g ++ 43#6 ++ imm.extractLsb' 0 22)
  | .lih g d imm => some (g ++ 42#6 ++ d ++ imm.extractLsb' 22 16, g ++ 43#6 ++ imm.extractLsb' 0 22)
  | _ => none

/-- The major opcode (R69). -/
def opcode (w : Syl) : Nat := (w.extractLsb' 22 6).toNat

/-- The control slot (R78), before the operand rules. Code 53 reads as the quiesce mode; the mode that the register holds picks the step at issue (R228). -/
def rawControl (w : Syl) : Option Instr :=
  match opcode w with
  | 1 => some (.br (w.extractLsb' 28 4) (w.extractLsb' 0 22))
  | 2 => some (.brl (w.extractLsb' 28 4) (w.extractLsb' 16 6) (w.extractLsb' 0 16))
  | 3 => some (.jr (w.extractLsb' 28 4) (w.extractLsb' 16 6))
  | 4 => some (.jrl (w.extractLsb' 28 4) (w.extractLsb' 16 6) (w.extractLsb' 10 6))
  | 5 => some (.jt (w.extractLsb' 28 4) (w.extractLsb' 16 6) (w.extractLsb' 10 6) (w.extractLsb' 4 6) (w.extractLsb' 0 4))
  | 6 => some (.loop (w.extractLsb' 28 4) (w.extractLsb' 19 3) (w.extractLsb' 13 6) (w.extractLsb' 0 13))
  | 7 => some (.loopi (w.extractLsb' 28 4) (w.extractLsb' 19 3) (w.extractLsb' 9 10) (w.extractLsb' 0 9))
  | 8 => some (.lbrk (w.extractLsb' 28 4) (w.extractLsb' 19 3))
  | 9 => some (.wfmt (w.extractLsb' 28 4) (w.extractLsb' 16 6))
  | 10 => some (.mfs (w.extractLsb' 28 4) (w.extractLsb' 16 6) (w.extractLsb' 8 8))
  | 11 => some (.mts (w.extractLsb' 28 4) (w.extractLsb' 16 6) (w.extractLsb' 8 8))
  | 12 => some (.trap (w.extractLsb' 28 4) (w.extractLsb' 0 16))
  | 13 => some (.bkpt (w.extractLsb' 28 4) (w.extractLsb' 0 16))
  | 14 => some (.tret (w.extractLsb' 28 4))
  | 15 => some (.susp (w.extractLsb' 28 4))
  | 16 => some (.yield (w.extractLsb' 28 4))
  | 17 => some (.exitS (w.extractLsb' 28 4) (w.extractLsb' 16 6))
  | 18 => some (.chk (w.extractLsb' 28 4) (w.extractLsb' 21 1) (w.extractLsb' 15 6) (w.extractLsb' 0 15))
  | 19 => some (.stepB (w.extractLsb' 28 4))
  | 20 => some (.grel (w.extractLsb' 28 4))
  | 48 => if w.extractLsb' 0 2 == 0#2 then some (.tlbiPage (w.extractLsb' 28 4) (w.extractLsb' 16 6) (w.extractLsb' 10 6))
      else if w.extractLsb' 0 2 == 1#2 then some (.tlbiAsid (w.extractLsb' 28 4) (w.extractLsb' 16 6) (w.extractLsb' 10 6))
      else some (.tlbiAll (w.extractLsb' 28 4) (w.extractLsb' 16 6) (w.extractLsb' 10 6))
  | 49 => some (.asw (w.extractLsb' 28 4) (w.extractLsb' 16 6))
  | 50 => some (.ctxs (w.extractLsb' 28 4) (w.extractLsb' 16 6))
  | 51 => some (.ctxr (w.extractLsb' 28 4) (w.extractLsb' 16 6))
  | 52 => some (.fwsh (w.extractLsb' 28 4) (w.extractLsb' 0 7))
  | 53 => some (.qscQuiesce (w.extractLsb' 28 4) (w.extractLsb' 16 6))
  | 54 => some (.cres (w.extractLsb' 28 4))
  | 55 => some (.ckill (w.extractLsb' 28 4))
  | _ => none

/-- The scalar slots (R80), less the long-immediate codes 41 to 43. -/
def rawScalar (w : Syl) : Option Instr :=
  match opcode w with
  | 1 => some (.add (w.extractLsb' 28 4) (w.extractLsb' 16 6) (w.extractLsb' 10 6) (w.extractLsb' 4 6))
  | 2 => some (.sub (w.extractLsb' 28 4) (w.extractLsb' 16 6) (w.extractLsb' 10 6) (w.extractLsb' 4 6))
  | 3 => some (.sAnd (w.extractLsb' 28 4) (w.extractLsb' 16 6) (w.extractLsb' 10 6) (w.extractLsb' 4 6))
  | 4 => some (.sOr (w.extractLsb' 28 4) (w.extractLsb' 16 6) (w.extractLsb' 10 6) (w.extractLsb' 4 6))
  | 5 => some (.sXor (w.extractLsb' 28 4) (w.extractLsb' 16 6) (w.extractLsb' 10 6) (w.extractLsb' 4 6))
  | 6 => some (.andn (w.extractLsb' 28 4) (w.extractLsb' 16 6) (w.extractLsb' 10 6) (w.extractLsb' 4 6))
  | 7 => some (.shl (w.extractLsb' 28 4) (w.extractLsb' 16 6) (w.extractLsb' 10 6) (w.extractLsb' 4 6))
  | 8 => some (.shr (w.extractLsb' 28 4) (w.extractLsb' 16 6) (w.extractLsb' 10 6) (w.extractLsb' 4 6))
  | 9 => some (.sar (w.extractLsb' 28 4) (w.extractLsb' 16 6) (w.extractLsb' 10 6) (w.extractLsb' 4 6))
  | 10 => some (.ror (w.extractLsb' 28 4) (w.extractLsb' 16 6) (w.extractLsb' 10 6) (w.extractLsb' 4 6))
  | 11 => some (.mul (w.extractLsb' 28 4) (w.extractLsb' 16 6) (w.extractLsb' 10 6) (w.extractLsb' 4 6))
  | 12 => some (.mulh (w.extractLsb' 28 4) (w.extractLsb' 16 6) (w.extractLsb' 10 6) (w.extractLsb' 4 6))
  | 13 => some (.mulhn (w.extractLsb' 28 4) (w.extractLsb' 16 6) (w.extractLsb' 10 6) (w.extractLsb' 4 6))
  | 14 => some (.div (w.extractLsb' 28 4) (w.extractLsb' 16 6) (w.extractLsb' 10 6) (w.extractLsb' 4 6))
  | 15 => some (.divn (w.extractLsb' 28 4) (w.extractLsb' 16 6) (w.extractLsb' 10 6) (w.extractLsb' 4 6))
  | 16 => some (.rem (w.extractLsb' 28 4) (w.extractLsb' 16 6) (w.extractLsb' 10 6) (w.extractLsb' 4 6))
  | 17 => some (.remn (w.extractLsb' 28 4) (w.extractLsb' 16 6) (w.extractLsb' 10 6) (w.extractLsb' 4 6))
  | 18 => some (.sMin (w.extractLsb' 28 4) (w.extractLsb' 16 6) (w.extractLsb' 10 6) (w.extractLsb' 4 6))
  | 19 => some (.sMax (w.extractLsb' 28 4) (w.extractLsb' 16 6) (w.extractLsb' 10 6) (w.extractLsb' 4 6))
  | 20 => some (.minn (w.extractLsb' 28 4) (w.extractLsb' 16 6) (w.extractLsb' 10 6) (w.extractLsb' 4 6))
  | 21 => some (.maxn (w.extractLsb' 28 4) (w.extractLsb' 16 6) (w.extractLsb' 10 6) (w.extractLsb' 4 6))
  | 22 => some (.ext (w.extractLsb' 28 4) (w.extractLsb' 16 6) (w.extractLsb' 10 6) (w.extractLsb' 4 6))
  | 23 => some (.extn (w.extractLsb' 28 4) (w.extractLsb' 16 6) (w.extractLsb' 10 6) (w.extractLsb' 4 6))
  | 24 => some (.ins (w.extractLsb' 28 4) (w.extractLsb' 16 6) (w.extractLsb' 10 6) (w.extractLsb' 4 6))
  | 25 => some (.clz (w.extractLsb' 28 4) (w.extractLsb' 16 6) (w.extractLsb' 10 6))
  | 26 => some (.ctz (w.extractLsb' 28 4) (w.extractLsb' 16 6) (w.extractLsb' 10 6))
  | 27 => some (.pcnt (w.extractLsb' 28 4) (w.extractLsb' 16 6) (w.extractLsb' 10 6))
  | 28 => some (.sel (w.extractLsb' 28 4) (w.extractLsb' 16 6) (w.extractLsb' 10 6) (w.extractLsb' 4 6) (w.extractLsb' 0 4))
  | 29 => some (.cmp (w.extractLsb' 28 4) (w.extractLsb' 19 3) (w.extractLsb' 16 3) (w.extractLsb' 10 6) (w.extractLsb' 4 6))
  | 30 => some (.cmpi (w.extractLsb' 28 4) (w.extractLsb' 19 3) (w.extractLsb' 16 3) (w.extractLsb' 10 6) (w.extractLsb' 0 10))
  | 31 => some (.pand (w.extractLsb' 28 4) (w.extractLsb' 18 4) (w.extractLsb' 14 4) (w.extractLsb' 10 4) (w.extractLsb' 9 1) (w.extractLsb' 8 1))
  | 32 => some (.por (w.extractLsb' 28 4) (w.extractLsb' 18 4) (w.extractLsb' 14 4) (w.extractLsb' 10 4) (w.extractLsb' 9 1) (w.extractLsb' 8 1))
  | 33 => some (.pxor (w.extractLsb' 28 4) (w.extractLsb' 18 4) (w.extractLsb' 14 4) (w.extractLsb' 10 4) (w.extractLsb' 9 1) (w.extractLsb' 8 1))
  | 34 => some (.addi (w.extractLsb' 28 4) (w.extractLsb' 16 6) (w.extractLsb' 10 6) (w.extractLsb' 0 10))
  | 35 => some (.andi (w.extractLsb' 28 4) (w.extractLsb' 16 6) (w.extractLsb' 10 6) (w.extractLsb' 0 10))
  | 36 => some (.ori (w.extractLsb' 28 4) (w.extractLsb' 16 6) (w.extractLsb' 10 6) (w.extractLsb' 0 10))
  | 37 => some (.xori (w.extractLsb' 28 4) (w.extractLsb' 16 6) (w.extractLsb' 10 6) (w.extractLsb' 0 10))
  | 38 => some (.shli (w.extractLsb' 28 4) (w.extractLsb' 16 6) (w.extractLsb' 10 6) (w.extractLsb' 0 6))
  | 39 => some (.shri (w.extractLsb' 28 4) (w.extractLsb' 16 6) (w.extractLsb' 10 6) (w.extractLsb' 0 6))
  | 40 => some (.sari (w.extractLsb' 28 4) (w.extractLsb' 16 6) (w.extractLsb' 10 6) (w.extractLsb' 0 6))
  | 44 => some (.agb (w.extractLsb' 28 4) (w.extractLsb' 18 4) (w.extractLsb' 12 6))
  | 45 => some (.ags (w.extractLsb' 28 4) (w.extractLsb' 18 4) (w.extractLsb' 15 3) (w.extractLsb' 9 6))
  | 46 => some (.agr (w.extractLsb' 28 4) (w.extractLsb' 16 6) (w.extractLsb' 12 4))
  | _ => none

/-- The local slot (R83). -/
def rawLocal (w : Syl) : Option Instr :=
  match opcode w with
  | 1 => some (.ldw (w.extractLsb' 28 4) (w.extractLsb' 16 6) (w.extractLsb' 0 16))
  | 2 => some (.stw (w.extractLsb' 28 4) (w.extractLsb' 16 6) (w.extractLsb' 0 16))
  | 3 => some (.ldr (w.extractLsb' 28 4) (w.extractLsb' 16 6) (w.extractLsb' 0 16))
  | 4 => some (.str (w.extractLsb' 28 4) (w.extractLsb' 16 6) (w.extractLsb' 0 16))
  | 5 => some (.ldsy (w.extractLsb' 28 4) (w.extractLsb' 16 6) (w.extractLsb' 0 16))
  | 6 => some (.stsy (w.extractLsb' 28 4) (w.extractLsb' 16 6) (w.extractLsb' 0 16))
  | 7 => some (.feq (w.extractLsb' 28 4) (w.extractLsb' 19 3) (w.extractLsb' 0 16))
  | 8 => some (.fes (w.extractLsb' 28 4) (w.extractLsb' 21 1) (w.extractLsb' 0 16))
  | 9 => some (.tlr (w.extractLsb' 28 4) (w.extractLsb' 16 6) (w.extractLsb' 10 6))
  | 10 => some (.tls (w.extractLsb' 28 4) (w.extractLsb' 10 6) (w.extractLsb' 8 2))
  | 11 => some (.barv (w.extractLsb' 28 4) (w.extractLsb' 16 6) (w.extractLsb' 0 16))
  | 12 => some (.barw (w.extractLsb' 28 4) (w.extractLsb' 16 6) (w.extractLsb' 0 16))
  | _ => none

/-- The global slot (R85). -/
def rawGlobal (w : Syl) : Option Instr :=
  match opcode w with
  | 1 => some (.gldw (w.extractLsb' 28 4) (w.extractLsb' 16 6) (w.extractLsb' 10 6) (w.extractLsb' 0 10))
  | 2 => some (.gstw (w.extractLsb' 28 4) (w.extractLsb' 16 6) (w.extractLsb' 10 6) (w.extractLsb' 0 10))
  | 3 => some (.gldr (w.extractLsb' 28 4) (w.extractLsb' 16 6) (w.extractLsb' 10 6) (w.extractLsb' 0 10))
  | 4 => some (.gstr (w.extractLsb' 28 4) (w.extractLsb' 16 6) (w.extractLsb' 10 6) (w.extractLsb' 0 10))
  | 5 => some (.gldws (w.extractLsb' 28 4) (w.extractLsb' 16 6) (w.extractLsb' 10 6) (w.extractLsb' 0 10))
  | 6 => some (.gldrs (w.extractLsb' 28 4) (w.extractLsb' 16 6) (w.extractLsb' 10 6) (w.extractLsb' 0 10))
  | 7 => some (.aadd (w.extractLsb' 28 4) (w.extractLsb' 16 6) (w.extractLsb' 10 6) (w.extractLsb' 4 6) (w.extractLsb' 3 1) (w.extractLsb' 1 1) (w.extractLsb' 0 1))
  | 8 => some (.amin (w.extractLsb' 28 4) (w.extractLsb' 16 6) (w.extractLsb' 10 6) (w.extractLsb' 4 6) (w.extractLsb' 3 1) (w.extractLsb' 2 1) (w.extractLsb' 1 1) (w.extractLsb' 0 1))
  | 9 => some (.amax (w.extractLsb' 28 4) (w.extractLsb' 16 6) (w.extractLsb' 10 6) (w.extractLsb' 4 6) (w.extractLsb' 3 1) (w.extractLsb' 2 1) (w.extractLsb' 1 1) (w.extractLsb' 0 1))
  | 10 => some (.aand (w.extractLsb' 28 4) (w.extractLsb' 16 6) (w.extractLsb' 10 6) (w.extractLsb' 4 6) (w.extractLsb' 3 1) (w.extractLsb' 1 1) (w.extractLsb' 0 1))
  | 11 => some (.aor (w.extractLsb' 28 4) (w.extractLsb' 16 6) (w.extractLsb' 10 6) (w.extractLsb' 4 6) (w.extractLsb' 3 1) (w.extractLsb' 1 1) (w.extractLsb' 0 1))
  | 12 => some (.axor (w.extractLsb' 28 4) (w.extractLsb' 16 6) (w.extractLsb' 10 6) (w.extractLsb' 4 6) (w.extractLsb' 3 1) (w.extractLsb' 1 1) (w.extractLsb' 0 1))
  | 13 => some (.aswp (w.extractLsb' 28 4) (w.extractLsb' 16 6) (w.extractLsb' 10 6) (w.extractLsb' 4 6) (w.extractLsb' 3 1) (w.extractLsb' 1 1) (w.extractLsb' 0 1))
  | 14 => some (.acas (w.extractLsb' 28 4) (w.extractLsb' 16 6) (w.extractLsb' 10 6) (w.extractLsb' 4 6) (w.extractLsb' 3 1) (w.extractLsb' 1 1) (w.extractLsb' 0 1))
  | 15 => some (.afadd (w.extractLsb' 28 4) (w.extractLsb' 16 6) (w.extractLsb' 10 6) (w.extractLsb' 4 6) (w.extractLsb' 3 1) (w.extractLsb' 1 1) (w.extractLsb' 0 1))
  | 16 => some (.aoadd (w.extractLsb' 28 4) (w.extractLsb' 16 6) (w.extractLsb' 10 6) (w.extractLsb' 4 6) (w.extractLsb' 3 1) (w.extractLsb' 2 1) (w.extractLsb' 0 1))
  | 17 => some (.phase (w.extractLsb' 28 4) (w.extractLsb' 18 4))
  | 18 => some (.copy (w.extractLsb' 28 4) (w.extractLsb' 18 4) (w.extractLsb' 12 6) (w.extractLsb' 6 6) (w.extractLsb' 5 1) (w.extractLsb' 4 1) (w.extractLsb' 0 4))
  | 19 => some (.gath (w.extractLsb' 28 4) (w.extractLsb' 18 4) (w.extractLsb' 12 6) (w.extractLsb' 6 6) (w.extractLsb' 5 1) (w.extractLsb' 4 1) (w.extractLsb' 0 4))
  | 20 => some (.scat (w.extractLsb' 28 4) (w.extractLsb' 18 4) (w.extractLsb' 12 6) (w.extractLsb' 6 6) (w.extractLsb' 5 1) (w.extractLsb' 4 1) (w.extractLsb' 0 4))
  | 21 => some (.wstr (w.extractLsb' 28 4) (w.extractLsb' 18 4) (w.extractLsb' 12 6) (w.extractLsb' 6 6) (w.extractLsb' 5 1) (w.extractLsb' 0 4))
  | 22 => some (.cwid (w.extractLsb' 28 4) (w.extractLsb' 18 4) (w.extractLsb' 12 6) (w.extractLsb' 11 1))
  | 23 => some (.cwcnt (w.extractLsb' 28 4) (w.extractLsb' 18 4) (w.extractLsb' 12 6) (w.extractLsb' 11 1))
  | 24 => some (.trig (w.extractLsb' 28 4) (w.extractLsb' 18 4) (w.extractLsb' 12 6) (w.extractLsb' 6 6))
  | 25 => some (.enq (w.extractLsb' 28 4) (w.extractLsb' 18 4) (w.extractLsb' 12 6) (w.extractLsb' 6 6))
  | 26 => some (.deq (w.extractLsb' 28 4) (w.extractLsb' 16 6) (w.extractLsb' 10 6) (w.extractLsb' 9 1))
  | 27 => some (.cbind (w.extractLsb' 28 4) (w.extractLsb' 18 4) (w.extractLsb' 12 6) (w.extractLsb' 6 6) (w.extractLsb' 5 1) (w.extractLsb' 4 1) (w.extractLsb' 0 4))
  | 28 => some (.bred (w.extractLsb' 28 4) (w.extractLsb' 18 4) (w.extractLsb' 12 6) (w.extractLsb' 6 6) (w.extractLsb' 5 1) (w.extractLsb' 4 1) (w.extractLsb' 0 4))
  | 29 => some (.hist (w.extractLsb' 28 4) (w.extractLsb' 18 4) (w.extractLsb' 12 6) (w.extractLsb' 6 6) (w.extractLsb' 4 1) (w.extractLsb' 0 4))
  | 30 => some (.sarv (w.extractLsb' 28 4))
  | _ => none

/-- The vector slots, both maps (R88). -/
def rawVector (w : Syl) : Option Instr :=
  match opcode w with
  | 1 => some (.vadd (w.extractLsb' 28 4) (w.extractLsb' 17 5) (w.extractLsb' 11 6) (w.extractLsb' 5 6) (w.extractLsb' 2 3) (w.extractLsb' 0 2))
  | 2 => some (.vsub (w.extractLsb' 28 4) (w.extractLsb' 17 5) (w.extractLsb' 11 6) (w.extractLsb' 5 6) (w.extractLsb' 2 3) (w.extractLsb' 0 2))
  | 3 => some (.vmul (w.extractLsb' 28 4) (w.extractLsb' 17 5) (w.extractLsb' 11 6) (w.extractLsb' 5 6) (w.extractLsb' 2 3) (w.extractLsb' 0 2))
  | 4 => some (.vmulh (w.extractLsb' 28 4) (w.extractLsb' 17 5) (w.extractLsb' 11 6) (w.extractLsb' 5 6) (w.extractLsb' 2 3) (w.extractLsb' 0 2))
  | 5 => some (.vmin (w.extractLsb' 28 4) (w.extractLsb' 17 5) (w.extractLsb' 11 6) (w.extractLsb' 5 6) (w.extractLsb' 2 3) (w.extractLsb' 0 2))
  | 6 => some (.vmax (w.extractLsb' 28 4) (w.extractLsb' 17 5) (w.extractLsb' 11 6) (w.extractLsb' 5 6) (w.extractLsb' 2 3) (w.extractLsb' 0 2))
  | 7 => some (.vminn (w.extractLsb' 28 4) (w.extractLsb' 17 5) (w.extractLsb' 11 6) (w.extractLsb' 5 6) (w.extractLsb' 2 3) (w.extractLsb' 0 2))
  | 8 => some (.vmaxn (w.extractLsb' 28 4) (w.extractLsb' 17 5) (w.extractLsb' 11 6) (w.extractLsb' 5 6) (w.extractLsb' 2 3) (w.extractLsb' 0 2))
  | 9 => some (.vand (w.extractLsb' 28 4) (w.extractLsb' 17 5) (w.extractLsb' 11 6) (w.extractLsb' 5 6) (w.extractLsb' 2 3) (w.extractLsb' 0 2))
  | 10 => some (.vor (w.extractLsb' 28 4) (w.extractLsb' 17 5) (w.extractLsb' 11 6) (w.extractLsb' 5 6) (w.extractLsb' 2 3) (w.extractLsb' 0 2))
  | 11 => some (.vxor (w.extractLsb' 28 4) (w.extractLsb' 17 5) (w.extractLsb' 11 6) (w.extractLsb' 5 6) (w.extractLsb' 2 3) (w.extractLsb' 0 2))
  | 12 => some (.vsel (w.extractLsb' 28 4) (w.extractLsb' 17 5) (w.extractLsb' 11 6) (w.extractLsb' 5 6) (w.extractLsb' 2 3) (w.extractLsb' 0 2))
  | 13 => some (.vshli (w.extractLsb' 28 4) (w.extractLsb' 17 5) (w.extractLsb' 11 6) (w.extractLsb' 5 6) (w.extractLsb' 2 3) (w.extractLsb' 0 2))
  | 14 => some (.vshri (w.extractLsb' 28 4) (w.extractLsb' 17 5) (w.extractLsb' 11 6) (w.extractLsb' 5 6) (w.extractLsb' 2 3) (w.extractLsb' 0 2))
  | 15 => some (.vsari (w.extractLsb' 28 4) (w.extractLsb' 17 5) (w.extractLsb' 11 6) (w.extractLsb' 5 6) (w.extractLsb' 2 3) (w.extractLsb' 0 2))
  | 16 => some (.vperm (w.extractLsb' 28 4) (w.extractLsb' 17 5) (w.extractLsb' 11 6) (w.extractLsb' 5 6) (w.extractLsb' 2 3) (w.extractLsb' 0 2))
  | 17 => some (.vbc (w.extractLsb' 28 4) (w.extractLsb' 17 5) (w.extractLsb' 11 6) (w.extractLsb' 2 3) (w.extractLsb' 0 2))
  | 18 => some (.vins (w.extractLsb' 28 4) (w.extractLsb' 17 5) (w.extractLsb' 11 6) (w.extractLsb' 5 6) (w.extractLsb' 2 3) (w.extractLsb' 0 2))
  | 19 => some (.vext (w.extractLsb' 28 4) (w.extractLsb' 16 6) (w.extractLsb' 10 6) (w.extractLsb' 4 6) (w.extractLsb' 0 2))
  | 20 => some (.vcmp (w.extractLsb' 28 4) (w.extractLsb' 19 3) (w.extractLsb' 13 6) (w.extractLsb' 7 6) (w.extractLsb' 4 3) (w.extractLsb' 0 2))
  | 21 => some (.mand (w.extractLsb' 28 4) (w.extractLsb' 19 3) (w.extractLsb' 16 3) (w.extractLsb' 13 3))
  | 22 => some (.mor (w.extractLsb' 28 4) (w.extractLsb' 19 3) (w.extractLsb' 16 3) (w.extractLsb' 13 3))
  | 23 => some (.mxor (w.extractLsb' 28 4) (w.extractLsb' 19 3) (w.extractLsb' 16 3) (w.extractLsb' 13 3))
  | 24 => some (.mandn (w.extractLsb' 28 4) (w.extractLsb' 19 3) (w.extractLsb' 16 3) (w.extractLsb' 13 3))
  | 25 => some (.mset (w.extractLsb' 28 4) (w.extractLsb' 19 3) (w.extractLsb' 13 6))
  | 26 => some (.vfaddF64 (w.extractLsb' 28 4) (w.extractLsb' 17 5) (w.extractLsb' 11 6) (w.extractLsb' 5 6) (w.extractLsb' 3 2) (w.extractLsb' 0 3))
  | 27 => some (.vfaddF32 (w.extractLsb' 28 4) (w.extractLsb' 17 5) (w.extractLsb' 11 6) (w.extractLsb' 5 6) (w.extractLsb' 3 2) (w.extractLsb' 0 3))
  | 28 => some (.vfaddBf16 (w.extractLsb' 28 4) (w.extractLsb' 17 5) (w.extractLsb' 11 6) (w.extractLsb' 5 6) (w.extractLsb' 3 2) (w.extractLsb' 0 3))
  | 29 => some (.vfaddF16 (w.extractLsb' 28 4) (w.extractLsb' 17 5) (w.extractLsb' 11 6) (w.extractLsb' 5 6) (w.extractLsb' 3 2) (w.extractLsb' 0 3))
  | 30 => some (.vfsubF64 (w.extractLsb' 28 4) (w.extractLsb' 17 5) (w.extractLsb' 11 6) (w.extractLsb' 5 6) (w.extractLsb' 3 2) (w.extractLsb' 0 3))
  | 31 => some (.vfsubF32 (w.extractLsb' 28 4) (w.extractLsb' 17 5) (w.extractLsb' 11 6) (w.extractLsb' 5 6) (w.extractLsb' 3 2) (w.extractLsb' 0 3))
  | 32 => some (.vfsubBf16 (w.extractLsb' 28 4) (w.extractLsb' 17 5) (w.extractLsb' 11 6) (w.extractLsb' 5 6) (w.extractLsb' 3 2) (w.extractLsb' 0 3))
  | 33 => some (.vfsubF16 (w.extractLsb' 28 4) (w.extractLsb' 17 5) (w.extractLsb' 11 6) (w.extractLsb' 5 6) (w.extractLsb' 3 2) (w.extractLsb' 0 3))
  | 34 => some (.vfmulF64 (w.extractLsb' 28 4) (w.extractLsb' 17 5) (w.extractLsb' 11 6) (w.extractLsb' 5 6) (w.extractLsb' 3 2) (w.extractLsb' 0 3))
  | 35 => some (.vfmulF32 (w.extractLsb' 28 4) (w.extractLsb' 17 5) (w.extractLsb' 11 6) (w.extractLsb' 5 6) (w.extractLsb' 3 2) (w.extractLsb' 0 3))
  | 36 => some (.vfmulBf16 (w.extractLsb' 28 4) (w.extractLsb' 17 5) (w.extractLsb' 11 6) (w.extractLsb' 5 6) (w.extractLsb' 3 2) (w.extractLsb' 0 3))
  | 37 => some (.vfmulF16 (w.extractLsb' 28 4) (w.extractLsb' 17 5) (w.extractLsb' 11 6) (w.extractLsb' 5 6) (w.extractLsb' 3 2) (w.extractLsb' 0 3))
  | 38 => some (.vfmaF64 (w.extractLsb' 28 4) (w.extractLsb' 17 5) (w.extractLsb' 11 6) (w.extractLsb' 5 6) (w.extractLsb' 3 2) (w.extractLsb' 0 3))
  | 39 => some (.vfmaF32 (w.extractLsb' 28 4) (w.extractLsb' 17 5) (w.extractLsb' 11 6) (w.extractLsb' 5 6) (w.extractLsb' 3 2) (w.extractLsb' 0 3))
  | 40 => some (.vfmaBf16 (w.extractLsb' 28 4) (w.extractLsb' 17 5) (w.extractLsb' 11 6) (w.extractLsb' 5 6) (w.extractLsb' 3 2) (w.extractLsb' 0 3))
  | 41 => some (.vfmaF16 (w.extractLsb' 28 4) (w.extractLsb' 17 5) (w.extractLsb' 11 6) (w.extractLsb' 5 6) (w.extractLsb' 3 2) (w.extractLsb' 0 3))
  | 42 => some (.vfmin (w.extractLsb' 28 4) (w.extractLsb' 17 5) (w.extractLsb' 11 6) (w.extractLsb' 5 6) (w.extractLsb' 2 3) (w.extractLsb' 0 2))
  | 43 => some (.vfmax (w.extractLsb' 28 4) (w.extractLsb' 17 5) (w.extractLsb' 11 6) (w.extractLsb' 5 6) (w.extractLsb' 2 3) (w.extractLsb' 0 2))
  | 44 => some (.vfcmp (w.extractLsb' 28 4) (w.extractLsb' 19 3) (w.extractLsb' 13 6) (w.extractLsb' 7 6) (w.extractLsb' 4 3) (w.extractLsb' 0 2))
  | 45 => some (.vcvt (w.extractLsb' 28 4) (w.extractLsb' 17 5) (w.extractLsb' 11 6) (w.extractLsb' 7 4) (w.extractLsb' 3 4) (w.extractLsb' 0 3))
  | 46 => some (.vrcpe (w.extractLsb' 28 4) (w.extractLsb' 17 5) (w.extractLsb' 11 6) (w.extractLsb' 2 3) (w.extractLsb' 0 2))
  | 47 => some (.vrsqe (w.extractLsb' 28 4) (w.extractLsb' 17 5) (w.extractLsb' 11 6) (w.extractLsb' 2 3) (w.extractLsb' 0 2))
  | 48 => some (.vrcps (w.extractLsb' 28 4) (w.extractLsb' 17 5) (w.extractLsb' 11 6) (w.extractLsb' 5 6) (w.extractLsb' 2 3) (w.extractLsb' 0 2))
  | 49 => some (.vrsqs (w.extractLsb' 28 4) (w.extractLsb' 17 5) (w.extractLsb' 11 6) (w.extractLsb' 5 6) (w.extractLsb' 2 3) (w.extractLsb' 0 2))
  | 50 => some (.vexp2 (w.extractLsb' 28 4) (w.extractLsb' 17 5) (w.extractLsb' 11 6) (w.extractLsb' 2 3) (w.extractLsb' 0 2))
  | 51 => some (.vlog2 (w.extractLsb' 28 4) (w.extractLsb' 17 5) (w.extractLsb' 11 6) (w.extractLsb' 2 3) (w.extractLsb' 0 2))
  | 52 => some (.vredi (w.extractLsb' 28 4) (w.extractLsb' 17 5) (w.extractLsb' 11 6) (w.extractLsb' 8 3) (w.extractLsb' 2 3) (w.extractLsb' 0 2))
  | 53 => some (.vredf (w.extractLsb' 28 4) (w.extractLsb' 17 5) (w.extractLsb' 11 6) (w.extractLsb' 8 3) (w.extractLsb' 2 3) (w.extractLsb' 0 2))
  | 54 => some (.vrfill (w.extractLsb' 28 4) (w.extractLsb' 17 5) (w.extractLsb' 2 3) (w.extractLsb' 0 2))
  | 55 => some (.vhist (w.extractLsb' 28 4) (w.extractLsb' 11 6) (w.extractLsb' 7 4) (w.extractLsb' 2 3))
  | 56 => some (.vrmg031 (w.extractLsb' 28 4) (w.extractLsb' 17 5) (w.extractLsb' 11 6) (w.extractLsb' 5 6) (w.extractLsb' 0 5))
  | 57 => some (.vrmg3263 (w.extractLsb' 28 4) (w.extractLsb' 17 5) (w.extractLsb' 11 6) (w.extractLsb' 5 6) (w.extractLsb' 0 5))
  | 58 => some (.vbpt (w.extractLsb' 28 4) (w.extractLsb' 17 5) (w.extractLsb' 11 6) (w.extractLsb' 0 2))
  | 59 => some (.vpack (w.extractLsb' 28 4) (w.extractLsb' 17 5) (w.extractLsb' 11 6) (w.extractLsb' 5 6) (w.extractLsb' 3 2) (w.extractLsb' 2 1) (w.extractLsb' 1 1))
  | 60 => some (.vunpk (w.extractLsb' 28 4) (w.extractLsb' 17 5) (w.extractLsb' 11 6) (w.extractLsb' 3 2) (w.extractLsb' 2 1) (w.extractLsb' 1 1))
  | 61 => some (.vdig (w.extractLsb' 28 4) (w.extractLsb' 17 5) (w.extractLsb' 11 6) (w.extractLsb' 5 6) (w.extractLsb' 3 2) (w.extractLsb' 2 1) (w.extractLsb' 1 1))
  | 62 => some (.vbq (w.extractLsb' 28 4) (w.extractLsb' 17 5) (w.extractLsb' 11 6) (w.extractLsb' 7 4) (w.extractLsb' 3 4) (w.extractLsb' 0 3))
  | 63 => some (.vbdq (w.extractLsb' 28 4) (w.extractLsb' 17 5) (w.extractLsb' 11 6) (w.extractLsb' 7 4) (w.extractLsb' 3 4) (w.extractLsb' 0 3))
  | _ => none

/-- The matrix slot (R90). -/
def rawMatrix (w : Syl) : Option Instr :=
  match opcode w with
  | 1 => some (.push (w.extractLsb' 28 4) (w.extractLsb' 19 3) (w.extractLsb' 17 1))
  | 2 => some (.shift (w.extractLsb' 28 4))
  | 3 => some (.acc (w.extractLsb' 28 4) (w.extractLsb' 21 1) (w.extractLsb' 18 3) (w.extractLsb' 15 3) (w.extractLsb' 13 2))
  | 4 => some (.dacc (w.extractLsb' 28 4) (w.extractLsb' 21 1) (w.extractLsb' 18 3) (w.extractLsb' 14 1))
  | 5 => some (.drd (w.extractLsb' 28 4) (w.extractLsb' 21 1) (w.extractLsb' 13 8) (w.extractLsb' 9 1))
  | 6 => some (.drc (w.extractLsb' 28 4) (w.extractLsb' 21 1) (w.extractLsb' 13 8) (w.extractLsb' 9 1))
  | 7 => some (.mclr (w.extractLsb' 28 4) (w.extractLsb' 20 2))
  | 8 => if w.extractLsb' 21 1 == 0#1 then some (.sldA (w.extractLsb' 28 4) (w.extractLsb' 18 3)) else some (.sldB (w.extractLsb' 28 4) (w.extractLsb' 18 3))
  | 9 => some (.a2v (w.extractLsb' 28 4) (w.extractLsb' 17 5) (w.extractLsb' 9 8) (w.extractLsb' 7 2))
  | 10 => some (.v2a (w.extractLsb' 28 4) (w.extractLsb' 14 8) (w.extractLsb' 12 2) (w.extractLsb' 6 6))
  | 11 => some (.a2s (w.extractLsb' 28 4) (w.extractLsb' 14 8) (w.extractLsb' 10 4) (w.extractLsb' 7 3) (w.extractLsb' 3 4))
  | 12 => some (.aclr (w.extractLsb' 28 4) (w.extractLsb' 14 8) (w.extractLsb' 6 8))
  | _ => none

/-- The low bits of the port fields of a vector-slot opcode (R87): a field that an instruction leaves
unused is a port field still (R73). -/
def vectorPorts (op : Nat) : List Nat :=
  if op == 20 || op == 44 then [13, 7]
  else if op == 19 then [10]
  else if op == 13 || op == 14 || op == 15 || op == 45 || op == 52 || op == 53 || op == 55 || op == 62 || op == 63 then [11]
  else if op == 17 || op == 18 || (21 ≤ op && op ≤ 25) then []
  else [11, 5]

/-- No port field of the word holds 33 to 63 (R18, R75). -/
def portsOk (slot : Nat) (w : Syl) : Bool :=
  if slot == 5 || slot == 6 then (vectorPorts (opcode w)).all fun lo => (w.extractLsb' lo 6).ult 33#6
  else if slot == 7 && opcode w == 10 then (w.extractLsb' 6 6).ult 33#6
  else true

/-- The slots a syllable may stand in: 0 C, 1 X, 2 Y, 3 L, 4 G, 5 V, 6 W, 7 M (R12). The opcode is one
the slot's map has for this context (R78, R80, R83, R85, R88, R90); the codes marked absent for the
firmware context are not. -/
def raw (fw : Bool) (slot : Nat) (w : Syl) : Option Instr :=
  let op := opcode w
  match slot with
  | 0 => rawControl w
  | 1 => if op == 44 || op == 45 || op == 46 then none else rawScalar w
  | 2 => rawScalar w
  | 3 => if fw && (3 ≤ op && op ≤ 6 || 9 ≤ op && op ≤ 12) then none else rawLocal w
  | 4 => if fw && (op == 3 || op == 4 || op == 6 || op == 25 || op == 26) then none else rawGlobal w
  | 5 => if 56 ≤ op then none else rawVector w
  | 6 => if 26 ≤ op && op ≤ 55 then none else rawVector w
  | 7 => rawMatrix w
  | _ => none

/-- The decode fate of one syllable (R70, R75), with the illegal-bundle reason of a refused one: the
first matching row of the table. `nchan` is the number of channels the context may name. -/
def decodeSyl (fw : Bool) (nchan slot : Nat) (w : Syl) : Except (BitVec 32) Instr :=
  if fw && 5 ≤ slot then (if w == 0#32 then .ok (.nop 0#4) else .error 1)
  else if opcode w == 0 then
    (if w.extractLsb' 0 22 == 0#22 then .ok (.nop (w.extractLsb' 28 4)) else .error 3)
  else
    match raw fw slot w with
    | none => .error 0
    | some i =>
      if slot == 0 && !fw && 48 ≤ opcode w then .error 2
      else if !portsOk slot w then .error 5
      else if encode i == some w && i.wf && i.contextOk fw nchan then .ok i
      else .error 3

/-- The X and Y syllables of one bundle (R81): a long-immediate pair reads as one instruction of the X
slot, and a broken pair refuses the syllable that R81 names. -/
def decodeScalars (fw : Bool) (nchan : Nat) (x y : Syl) : List (Nat × Except (BitVec 32) Instr) :=
  let long := opcode x == 41 || opcode x == 42
  let low := opcode y == 43
  if long && low then
    if x.extractLsb' 28 4 == y.extractLsb' 28 4 then
      let imm := x.extractLsb' 0 16 ++ y.extractLsb' 0 22
      [(1, .ok (if opcode x == 41 then .li (x.extractLsb' 28 4) (x.extractLsb' 16 6) imm
        else .lih (x.extractLsb' 28 4) (x.extractLsb' 16 6) imm))]
    else [(1, .error 3)]
  else
    [(1, if long then .error 3 else decodeSyl fw nchan 1 x),
     (2, if low then .error 3 else decodeSyl fw nchan 2 y)]

/-- The eight syllables of a bundle given as one 256-bit value, syllable i at bits [32i+31:32i] (R68). -/
def syllable (b : BitVec 256) (i : Nat) : Syl := b.extractLsb' (32 * i) 32

/-- The decode fates of a bundle, in slot order. -/
def decodeBundle (fw : Bool) (nchan : Nat) (b : BitVec 256) : List (Nat × Except (BitVec 32) Instr) :=
  [(0, decodeSyl fw nchan 0 (syllable b 0))] ++
  decodeScalars fw nchan (syllable b 1) (syllable b 2) ++
  [3, 4, 5, 6, 7].map fun k => (k, decodeSyl fw nchan k (syllable b k))

/-- The bundle that bytes of memory give, the first byte least significant (R68). -/
def bundleOfBytes (bs : List Byte) : BitVec 256 :=
  BitVec.ofNat 256 (bs.foldr (fun x acc => x.toNat + 256 * acc) 0)

/-- The slots in which a lone syllable is tried: the program context's slots in ascending order, then
the firmware context's control slot.
Log 7: DESIGN CHOICE, safe. -/
def tableSlots : List (Bool × Nat) :=
  [(false, 0), (true, 0), (false, 1), (false, 2), (false, 3), (false, 4), (false, 5), (false, 6), (false, 7)]

/-- Where the word of a lone syllable decodes: the first slot of `tableSlots` whose decoder accepts it.
Log 7: DESIGN CHOICE, safe. -/
def tableSlot (w : Syl) : Option (Bool × Nat) :=
  tableSlots.find? fun p => match decodeSyl p.1 16 p.2 w with | .ok _ => true | .error _ => false

/-- The instruction that the decoder reads from a table row's word, in the slot that `tableSlot` gives
(one word may stand for different instructions in different slots).
Log 7: DESIGN CHOICE, safe. -/
def decodeTableWord (_nbits w : Nat) : Option Instr :=
  let v := BitVec.ofNat 32 w
  match tableSlot v with
  | some p => (decodeSyl p.1 16 p.2 v).toOption
  | none => none

end Sys2Proof
end

