-- ==== Sys2Proof/Config.lean ====
section
/-! DEFINITION. What an implementation fixes and the free values: constants with no body, so that no
proof can see a value of them. -/

namespace Sys2Proof.Config

/-- The free value of an undefined or unstated result of `w` bits (R10, R25, R26, R328). The list
names the use it is drawn for: a tag, the machine's counter of steps, and the place.
Log 4: DESIGN CHOICE, safe. -/
opaque free (w : Nat) (use : List Nat) : BitVec w

/-- SHA-256, by which the image measurements and manifest digests are taken (R423, R435).
Log 101: DESIGN CHOICE, safe. -/
opaque sha256 (bytes : List (BitVec 8)) : BitVec 256

/-- LMS verification of the signed image under the vendor key in the boot ROM (R423, R425).
Log 101: DESIGN CHOICE, safe. -/
opaque lmsVerify (message signature : List (BitVec 8)) : Bool

/-- The top-tree signature over the per-boot public key of boot `bctr`, 2668 bytes (R431, R433).
Log 101: DESIGN CHOICE, safe. -/
opaque topSignature (bctr : Nat) : Vector (BitVec 8) 2668

/-- The per-boot public key of boot `bctr`, 56 bytes (R431, R433). -/
opaque bootKey (bctr : Nat) : Vector (BitVec 8) 56

/-- The per-boot signature of leaf `q` over a report body, 2828 bytes (R432, R433).
Log 101: DESIGN CHOICE, safe. -/
opaque leafSignature (bctr q : Nat) (body : List (BitVec 8)) : Vector (BitVec 8) 2828

/-- XTS-AES-256 of IEEE 1619 on one row: data key, tweak key and the row number as tweak (R328).
A permutation of rows, so that deciphering undoes enciphering under the same keys and tweak.
Log 101: DESIGN CHOICE, safe. -/
opaque xts (dataKey tweakKey : BitVec 256) (tweak : BitVec 128) : Equiv.Perm (BitVec 512)

/-- The measurement of the boot ROM (hub page offset 0x0080, R419). -/
opaque romm : BitVec 256

/-- The minimum image version held in OTP (hub page offset 0x0010, R419). -/
opaque msvn : BitVec 16

/-- The OTP boot counter before the first power-up the model sees (R422). -/
opaque otpCounter : BitVec 16

/-- A choice the manual leaves to the implementation, numbered by its use.
Log 5: DESIGN CHOICE, safe. -/
opaque choice (use : List Nat) : Nat

end Sys2Proof.Config
end

