-- ==== Sys2Proof/Machine/Table.lean ====
section
/-! DEFINITION. Sparse tables: lists of key and value pairs with rising keys, where a key that is not
listed reads as a given default. Registers, rows, cells and cores are held in them; memory is one whose
entries never equal the default, so that equal memories are equal lists. -/

namespace Sys2Proof.Machine

abbrev Tab (α : Type) := List (Nat × α)

/-- The value at key `i`, `d` where the table lists none. -/
def Tab.get {α : Type} (d : α) : Tab α → Nat → α
  | [], _ => d
  | (k, v) :: t, i => if i = k then v else Tab.get d t i

/-- The table with key `i` no longer listed. -/
def Tab.erase {α : Type} : Tab α → Nat → Tab α
  | [], _ => []
  | (k, v) :: t, i => if i = k then Tab.erase t i else (k, v) :: Tab.erase t i

/-- An entry put before the first greater key. -/
def Tab.insert {α : Type} : Tab α → Nat → α → Tab α
  | [], i, v => [(i, v)]
  | (k, w) :: t, i, v => if i < k then (i, v) :: (k, w) :: t else (k, w) :: Tab.insert t i v

/-- The table with `v` at key `i`. -/
def Tab.put {α : Type} (t : Tab α) (i : Nat) (v : α) : Tab α := Tab.insert (Tab.erase t i) i v

/-- The table with `v` at key `i`, not listed where `v` is the default. -/
def Tab.set {α : Type} [DecidableEq α] (d : α) (t : Tab α) (i : Nat) (v : α) : Tab α :=
  if v = d then Tab.erase t i else Tab.put t i v

/-- Strictly rising keys. -/
def Tab.rising {α : Type} : Tab α → Bool
  | [] => true
  | [_] => true
  | (k, _) :: (k', v') :: t => decide (k < k') && Tab.rising ((k', v') :: t)

/-- The canonical form of a table whose default is `d`. -/
def Tab.canonical {α : Type} [DecidableEq α] (d : α) (t : Tab α) : Bool :=
  Tab.rising t && t.all fun e => decide (e.2 ≠ d)

/-- A list of numbers as a set: rising, no repeats. -/
def insertNat : List Nat → Nat → List Nat
  | [], i => [i]
  | k :: t, i => if i < k then i :: k :: t else if i = k then k :: t else k :: insertNat t i

/-- The list without `i`. -/
def removeNat (l : List Nat) (i : Nat) : List Nat := l.filter fun k => k != i

/-- The list with the element at `i` replaced. -/
def replaceAt {α : Type} : List α → Nat → α → List α
  | [], _, _ => []
  | _ :: t, 0, v => v :: t
  | x :: t, n + 1, v => x :: replaceAt t n v

end Sys2Proof.Machine
end

