-- ==== Sys2Proof/Machine/State.lean ====
section
/-! DEFINITION. The state of one module: its cores with their two contexts, scratchpads and matrix
units, memory, the base dies, the dispatchers, the collective engines, the fabric switch, the migration
engine, the hub with its control ports, and the turns that say which agent acts next. Plain data. -/

namespace Sys2Proof.Machine

/-! ## Translated accesses -/

/-- What an access needs of a page (R320). -/
inductive AccKind where
  | fetch | read | write | atomic
deriving DecidableEq, Repr

/-- The attributes of a page; `big` says that it is one of 128 MiB. -/
structure Leaf where
  r : Bool
  w : Bool
  x : Bool
  c : Bool
  ms : Bool
  sh : Bool
  ek : Nat
  frame : Nat
  home : Nat
  own : Nat
  big : Bool := false
deriving DecidableEq, Repr

/-- A translated access: the physical address and the attributes of its page. -/
structure Acc where
  pa : Nat
  leaf : Leaf
deriving DecidableEq, Repr

/-! ## One context -/

/-- Where an in-flight result goes. -/
inductive Dest where
  | s (i : Nat) | p (i : Nat) | v (i : Nat) | m (i : Nat) | row (i : Nat) | none
deriving DecidableEq, Repr

/-- A fixed-latency result between issue and landing (R25, R26): the bits under `live` are still to be
written, those under `mask` read as undefined until `due`. -/
structure Pend where
  dest   : Dest
  val    : Row
  mask   : Row
  live   : Row
  issued : Nat
  due    : Nat
  slot   : Nat
  ser    : Nat
  flags  : BitVec 7
  defer  : Bool
  /-- a result of the same destination that was issued later has landed, so that this one no longer writes what a landing
  writes beside its bits (R26) -/
  late   : Bool := false
deriving DecidableEq, Repr

/-- A hardware loop level (R254). -/
structure LoopLevel where
  act   : Bool := false
  count : Word := 0
  start : Addr := 0
  fin   : Addr := 0
deriving DecidableEq, Repr

/-- An address generator (R255). -/
structure AddrGen where
  cur     : Word := 0
  strides : Tab Word := []
deriving DecidableEq, Repr

/-- The command of a transfer (R211, R225, R226). -/
inductive XKind where
  | copy | gath | scat | wstr | hist | cbind | bred | ctxs | ctxr
deriving DecidableEq, Repr

/-- A transfer that has issued and is not complete (R209, R210). The descriptor is kept with the address
generators' offsets already added. -/
structure Xfer where
  fw    : Bool
  chan  : Nat
  ident : Nat
  kind  : XKind
  desc  : List Word := []
  aq    : Bool := false
  rl    : Bool := false
  sc    : Nat := 0
  asid  : BitVec 16 := 0
  /-- units already moved, and in all: bytes, elements, ring rows or image rows, by kind -/
  pos   : Nat := 0
  total : Nat := 0
  /-- the index list; for a weight stream, the offset of the present block -/
  index : List Int := []
  /-- the histogram as read at issue; for a weight stream, the rows of the present block -/
  data  : List Row := []
  /-- bytes of elements not yet whole, each with its place among the bytes moved, to be counted into the histogram (R217); of a
  reduction its flags -/
  carry : List (Nat × Nat) := []
  /-- translations held since the probe: page number and leaf words (R213) -/
  held  : List (Nat × Word × Word) := []
  /-- tiles on which it is outstanding (R135) -/
  tiles : List Nat := []
  /-- some destination row has been written (R311) -/
  wrote : Bool := false
  /-- the rest of a weight stream is written as zero (R267); the image then records it with no bytes left -/
  bad   : Bool := false
  /-- the core's cycle at issue, so that a suspension of the same bundle does not wait for it (R112) -/
  born  : Nat := 0
  /-- rows asked of remote homes, their answers, and remote writes not yet acknowledged -/
  asked : List Nat := []
  answers : Tab Row := []
  posted : Nat := 0
  /-- the rank that its issuer acted for (R229) -/
  vrank : Option (BitVec 16) := none
deriving DecidableEq, Repr

/-- A pending trigger (R221, R269): its threshold and the command it fires. -/
structure Trig where
  thr : Word
  x   : Xfer
deriving DecidableEq, Repr

/-- A copy channel (R208, R269): newest identifier, watermark, completed identifiers above it. -/
structure Chan where
  iss   : Word := 0
  tw    : Word := 0
  done  : List Nat := []
  trigs : List Trig := []
deriving DecidableEq, Repr

/-- What a stalled bundle waits for (R27).
Log 16: DEDUCED, safe. -/
inductive Wait where
  | full (row : Nat) (want : Bool)
  | barrier (off : Nat) (phase : BitVec 16)
  | chan (c : Nat) (target : Word) (count : Bool)
  | packet (hdr : Addr)
  | drain
  | gang (g : Nat)
  /-- an access to a remote home: how and at which address it was translated, and to what; `rel` is the scope at which
  the context publishes before it is sent -/
  | remote (k : AccKind) (va : Word) (acc : Acc) (op : MemOp) (word : BitVec 4) (w32 : Bool) (val cmp : Word)
      (rel : Option Nat)
  /-- the take of the packet at the read index of a remote queue (R224) -/
  | take (va : Word) (acc : Acc) (ri : Word)
  /-- the posted atomics and ordered adds of the context must have been performed (R112, R150) -/
  | performed
  /-- rows that the hub keeps for the context's rank are on their way from another module (R322) -/
  | hub (rows : List (BitVec 16 × Word))
  /-- the claim of a slot at a remote queue whose write index was read as `wi` (R293), with the slot's translation -/
  | claim (va : Word) (acc : Acc) (wi : Word) (asid : BitVec 16) (rel : Nat) (slotVa : Word) (slot : Acc)
  /-- the parameter block of an engine command: a row of a remote home, or one of a region that is being loaded (R27) -/
  | params (va : Word) (acc : Acc)
  | paramsRegion (pa : Nat)
  /-- operations that the context has posted to other modules must be performed before an access of its own to a page;
  `write` says that the access writes (R141, R236, R245) -/
  | ordered (page : Nat) (write : Bool)
  /-- rows of a remote home to be read again -/
  | reask (rows : List Nat)
  /-- a channel wait or a dequeue that suspends its strand (R220, R224, R291) -/
  | chanSusp (c : Nat) (target : Word) (count : Bool)
  | packetSusp (hdr wq : Addr)
  /-- a dequeue that will suspend its strand once nothing of it is outstanding (R112, R294) -/
  | packetDrain (hdr : Addr)
  | reduction (stack : Nat)
  /-- a region table is being loaded over the accessed region (R332) -/
  | region (pa : Nat)
  | partition
  /-- results issued earlier by the context have still to land (R20, R27, R112) -/
  | landed
deriving DecidableEq, Repr

/-- What a context is doing. -/
inductive RunState where
  /-- held in reset, or never released -/
  | off
  /-- the program context holds no strand -/
  | idle
  | running
  /-- stopped under R39, R310 or R393 -/
  | stopped
  /-- the firmware context after susp or yield, until an event is pending (R115); the program context of a
  pinned strand that is suspended or waits for its rank's next step (R290) -/
  | sleeping
deriving DecidableEq, Repr

/-- The registers that both contexts have (R15, R19). -/
structure Ctx where
  run   : RunState := .off
  pc    : Addr := 0
  s     : Tab Word := []
  sdef  : BitVec 64 := 0
  p     : Tab Bool := []
  loops : Tab LoopLevel := []
  ags   : Tab AddrGen := []
  chans : Tab Chan := []
  cause : Word := 0
  epc   : Addr := 0
  faddr : Word := 0
  tvec  : Addr := 0
  inh   : Bool := false
  fsc   : BitVec 3 := 0
  tscr  : Word := 0
  asid  : BitVec 16 := 0
  rcb   : Word := 0
  vrank : BitVec 16 := 0
  pend  : List Pend := []
  waits : List Wait := []
  /-- the stalled bundle as it was fetched, which is not fetched again -/
  bundle : Option (BitVec 256) := none
  /-- the stalled bundle waits for nothing more and takes effect when the context next issues, before any stop (R27) -/
  ended : Bool := false
  /-- the stalled bundle holds an atomic or an enq, which a stop waits for beside its other waits (R27) -/
  mixed : Bool := false
  /-- the pc was set by a taken transfer, for cause.fat (R30) -/
  jumped : Bool := false
  /-- the pc was set by a loop-back at the last boundary (R105) -/
  looped : Bool := false
  /-- the end of the bundle just completed, until its loop-back examination (R102) -/
  boundary : Option Addr := none
  /-- answers of remote homes not yet used, by home and row (R364) -/
  answers : Tab Row := []
  /-- rows asked of remote homes: 0, or 1 where the bundle that asked was given up and its answer is to be dropped -/
  asked : Tab Nat := []
  /-- translations that the stalled bundle's requests were sent under (R326) -/
  sentAs : List (AccKind × Word × Acc) := []
deriving DecidableEq, Repr

/-- An operand ring (R263). -/
structure Ring where
  rcur : Nat := 0
  nt   : Nat := 0
  hd   : Nat := 0
  tl   : Nat := 0
  pos  : Tab Nat := []
deriving DecidableEq, Repr

/-- Tile states (R134). -/
inductive TileState where
  | empty | filling | ready | draining
deriving DecidableEq, Repr

/-- A tile-table entry (R258). -/
structure Tile where
  bnd   : Bool := false
  rv    : Bool := false
  rq    : Nat := 0
  vr    : Nat := 0
  st    : TileState := .empty
  rows  : Nat := 0
  first : Nat := 0
deriving DecidableEq, Repr

/-- The matrix unit (R183). Cells are numbered 16r + c, the cells of PA1 and G1 from 128 on; Q128 slot
bits 8 to a cell; store entries 16·row + column. -/
structure Matrix where
  ea  : Tab Row := []
  eb  : Tab Row := []
  ob  : Tab Row := []
  pa  : Tab (BitVec 1024) := []
  g   : Tab Word := []
  sticky : Tab (BitVec 3) := []
  d0  : Nat := 0
  d1  : Nat := 0
  h0  : Nat := 0
  h1  : Nat := 0
  sa  : Tab Byte := []
  sb  : Tab Byte := []
  acc : Tab (BitVec 128) := []
deriving DecidableEq, Repr

/-- The registers that the program context alone has (R15, R19, R23).
Log 117: DESIGN CHOICE, unsafe. -/
structure ProgX where
  fmt    : Word := 0x11FE0000
  shVal  : Word := 0
  shCnt  : Nat := 0
  fpstat : BitVec 7 := 0
  fmtsv  : Word := 0
  rkey0  : Word := 0
  rcnt0  : Word := 0
  rkey1  : Word := 0
  rcnt1  : Word := 0
  v      : Tab Row := []
  vdef   : BitVec 32 := 0
  m      : Tab Word := []
  latch  : Tab Row := []
  rings  : Tab Ring := []
  tiles  : Tab Tile := []
  mx     : Matrix := {}
  hist   : Tab (BitVec 32) := []
deriving DecidableEq, Repr

/-- An asynchronous event pending at a firmware context (R33). -/
structure Async where
  code  : BitVec 6
  info  : BitVec 32
  faddr : Word
deriving DecidableEq, Repr

/-- The registers that the firmware context alone has (R19, R324). -/
structure FwX where
  fwshare : Nat := 4
  tdeleg  : Word := 0
  fwev    : BitVec 2 := 0
  /-- tlbi instructions not yet complete, as the translations they name (R326) -/
  tlbis   : List (Nat × BitVec 16 × Addr) := []
  tkix    : BitVec 5 := 0
  tkeys   : Tab Word := []
  events  : List Async := []
  /-- cycles of the firmware bundles issued while the program context was ready (R13) -/
  issued  : List Nat := []
deriving DecidableEq, Repr

/-- The scratchpad of one core (R128, R130, R252, R394).
Log 117: DESIGN CHOICE, unsafe. -/
structure Scratch where
  part : Nat := 0
  rows : Tab Row := []
  full : Tab Bool := []
  bad  : List Nat := []
  /-- engines whose completion an observation of this place carries (R242): a row's full mark by its number,
  arrivals of a barrier word's open phase at 2^20 + word, of its finished phases at 2^21 + word, a tile at
  2^22 + tile -/
  marks : List (Nat × Agent) := []
deriving DecidableEq, Repr

/-- The ramp limiter of one core (R272): the beats of the present and the last window, the limits that the present
window began with and those that the next one takes (R439, R441). -/
structure Limiter where
  beats : Nat := 0
  prev  : Nat := 0
  up    : Nat := 200
  dn    : Nat := 200
  cap   : Nat := 1600
  up'   : Nat := 200
  dn'   : Nat := 200
  cap'  : Nat := 1600
deriving DecidableEq, Repr

/-- The strand a program context holds (R287). -/
structure Strand where
  record : Addr
  rcb   : Addr
  vrank : BitVec 16
  asid  : BitVec 16
  pin   : Nat
  sid   : BitVec 32
  gang  : Option Nat
  /-- step word of the rank block when the strand was taken (R148) -/
  stepNo : Word
  nchan : Nat
  /-- global time of the take, by which the youngest is found (R303) -/
  taken : Nat
  /-- a pinned strand suspended or waiting for its rank's next step, its state kept on the core (R290) -/
  asleep : Bool := false
  /-- the channel wait on which a pinned strand has suspended: channel, target, by count (R291) -/
  wake  : Option (Nat × Word × Bool) := none
deriving DecidableEq, Repr

/-- One core (R3, R9, R12). -/
structure Core where
  prog  : Ctx := { run := .off }
  fw    : Ctx := {}
  px    : ProgX := {}
  fx    : FwX := {}
  sp    : Scratch := {}
  lim   : Limiter := {}
  xfers : List Xfer := []
  strand : Option Strand := none
  cycle : Nat := 0
  ser   : Nat := 0
  /-- the gang that has reserved the core (R299) -/
  held  : Option Nat := none
  /-- the partition change asked for by a launch or take (R252) -/
  repart : Option Nat := none
  lastAsid : Option (BitVec 16) := none
  /-- stopped by a core machine check until the module is reset (R392) -/
  dead  : Bool := false
  /-- handed over in the present hand-over (R429) -/
  handed : Bool := false
  /-- the switch to the new firmware is due at the next bundle boundary (R429, R430) -/
  swap  : Bool := false
  /-- the pc that the switch gives (R429) -/
  swapTo : Addr := 0
  /-- the switch is the hub's own, after its timeout (R430) -/
  forced : Bool := false
  preempt : Bool := false
  /-- a kill of the program context, due when its remote atomic has been answered (R27, R228) -/
  kill  : Bool := false
  /-- the program context stopped by pre-emption or was restored, so that its live shadow stands (R310) -/
  pre   : Bool := false
  /-- cancelled transfers of a restored image, issued again at cres (R314) -/
  parked : List Xfer := []
  /-- the image of a pinned strand is to be saved at its rank's step boundary (R306) -/
  toSave : Bool := false
  /-- the locked instruction store of a gang: rows by virtual row number (R299) -/
  code  : Tab Row := []
  /-- an error in the program context's state that has still to stop it, with its structure code (R393) -/
  faulty : Option Nat := none
deriving DecidableEq, Repr

/-! ## Memory -/

/-- A scope as an access of agent `who` names it: its code, the rank that `who` acts for, the ranks that it admits and
the other modules on which one of them stands, all as they are when the access issues (R232, R233). -/
structure Scope where
  code  : Nat
  who   : Agent
  rank  : Option (BitVec 16) := none
  ranks : List (BitVec 16) := []
  nodes : List Nat := []
deriving DecidableEq, Repr

/-- A write in coherence order that some agent may not see yet (R230, R234, R236).
Log 41: DESIGN CHOICE, unsafe. -/
structure WriteRec where
  ident  : Nat
  row    : Nat
  val    : Row
  prev   : Row
  by_    : Agent
  /-- the rank that its agent acted for -/
  rank   : Option (BitVec 16)
  /-- not yet at the home: a dirty line (R251, R378) -/
  dirty  : Bool
  /-- its value has been performed at the home -/
  homed  : Bool
  /-- it reached every agent, at that place in the order of all such events (R236, R244) -/
  all    : Option Nat
  /-- published: the scope, and the number of writes issued by then (R235) -/
  pub    : List (Scope × Nat)
  /-- the agents it has reached, each with the place of that event in the order of all (R236) -/
  reached : List (Agent × Nat)
  /-- scopes whose members it has reached, with the place of that event -/
  spread : List (Scope × Nat)
  viewed : List Agent
  /-- the context that issued it through a mapping that is not cached: it is in that context's view, but the context's
  loads through a cached mapping may still return an older row (R251) -/
  beside : List Agent := []
  /-- the core and the array position of the dirty line that holds it -/
  line : Option (Nat × Nat) := none
deriving DecidableEq, Repr

/-- A posted memory-side store or atomic not yet performed (R245), or an ordered add on its way.
Log 46: DEDUCED, safe. -/
structure Posted where
  by_   : Agent
  row   : Nat
  va    : Addr
  /-- the frame of its page, within which a context's accesses keep their order (R245) -/
  page  : Nat
  op    : MemOp
  /-- the word or 32-bit element within the row; 16 names the whole row -/
  word  : Nat
  w32   : Bool
  val   : Word
  rowVal : Row
  /-- the bits of the row that a store of some of its bytes writes; 0 for every other operation -/
  mask   : Row := 0
  /-- its context has been killed since (R150) -/
  cut    : Bool := false
  /-- the core's cycle at issue (R112) -/
  born  : Nat
  /-- the number of the next write at issue, and at the first publication that covers it (R152) -/
  made  : Nat
  pub   : Option Nat := none
  /-- a phase of its context at PKG or wider has covered it (R251) -/
  wide  : Bool := false
  /-- the rank that its agent acts for -/
  rank  : Option (BitVec 16) := none
  /-- of one homed on another module: the home, the flit to send, the key index of its page, and whether it waits to be
  sent (0), for the row that it rewrites (1) or for its acknowledgement (2) -/
  out   : Option (Nat × Flit) := none
  ek    : Nat := 0
  stage : Nat := 0
deriving DecidableEq, Repr

/-- An ordered add on its way to its buffer (R148, R149). -/
structure OrdAdd where
  stack : Nat
  vrank : BitVec 16
  va    : Addr
  pa    : Nat
  page  : Nat
  w     : Bool
  k     : Bool
  q     : Nat
  op    : Word
  stepNo : Word
  by_   : Agent
  born  : Nat
  made  : Nat
  pub   : Option Nat := none
  rank  : Option (BitVec 16) := none
  /-- its context has been killed since (R150) -/
  cut   : Bool := false
  /-- the module on which its rank stands, where that is another -/
  node  : Option Nat := none
deriving DecidableEq, Repr

/-- An open sequence of an ordered-atomic buffer (R148, R149). -/
structure OrdSeq where
  stack : Nat
  vrank : BitVec 16
  va    : Addr
  pa    : Nat
  w     : Bool
  k     : Bool
  next  : Nat
  err   : Bool
  held  : List (Nat × Word)
  /-- the held adds that stand in the rank's spill area, with their record numbers (R337); 2^32 while the module that holds the
  area has not answered -/
  spilled : List (Nat × Nat)
  /-- the cores that issued the held adds, where they are known (R392) -/
  cores : List (Nat × Nat) := []
  /-- the module on which its rank stands, where that is another -/
  node  : Option Nat := none
deriving DecidableEq, Repr

/-- A block held by a reduction engine (R338). -/
structure RedBlock where
  stack : Nat
  core  : Nat
  fw    : Bool
  chan  : Nat
  ident : Nat
  asid  : BitVec 16
  words : List Word
  rl    : Bool
  sc    : Nat
deriving DecidableEq, Repr

/-- A region-table entry (R332). -/
structure RegionEnt where
  kind : Nat
  base : Nat
  size : Nat
  copy : Nat
deriving DecidableEq, Repr

/-- A valid page-table entry in some translation cache of the package (R325, R326): its level (0 the ASID table, 1, 2,
3), the ASID and an address that it translates, its words, and whether the accesses of the coming turns use it.
Log 42: DESIGN CHOICE, safe. -/
structure TlbEnt where
  level : Nat
  asid  : Nat
  va    : Nat
  w0    : Word
  w1    : Word
  live  : Bool := false
  /-- cores whose tlbi has named it, which use it no more (R227) -/
  barred : List Nat := []
deriving DecidableEq, Repr

/-- Memory, the base dies and translation. -/
structure Mem where
  /-- the homes: physical bytes, in canonical form -/
  cells  : List Host.Cell := []
  /-- what the capacity tier keeps without power: the bytes of the rows made durable (R250), in canonical form -/
  durable : List Host.Cell := []
  bad    : List Nat := []
  log    : List WriteRec := []
  nextId : Nat := 1
  /-- counts the events by which writes reach agents -/
  arrivals : Nat := 0
  posted : List Posted := []
  adds   : List OrdAdd := []
  seqs   : List OrdSeq := []
  /-- the open step of each rank (R148) -/
  open_  : Tab Word := []
  /-- the other modules to which each rank has sent ordered adds since its sequences last closed -/
  addNodes : List (BitVec 16 × Nat) := []
  red    : List RedBlock := []
  /-- parity differences on their way: parity row and difference (R334) -/
  diffs  : List (Nat × Row) := []
  regions : List RegionEnt := []
  regionsIn : Option (List RegionEnt) := none
  tatb   : Word := 0
  treg   : Word := 0
  tregErr : Bool := false
  tferr  : Word := 0
  /-- format errors that walks of the hub and the base dies have met and not yet reported: ASID and entry (R321) -/
  walkErrs : List (Nat × Nat) := []
  /-- the entries that translation caches hold -/
  tlb    : List TlbEnt := []
  /-- data and tweak keys by index (R324) -/
  keys   : Tab (BitVec 256 × BitVec 256) := []
  /-- remap tables: pseudo-channel to its 64 entries, the two SRAM copies and the authoritative one (R344) -/
  remapA : Tab (Tab (BitVec 32)) := []
  remapB : Tab (Tab (BitVec 32)) := []
  remapM : Tab (Tab (BitVec 32)) := []
  /-- rows that the ECC cannot correct when they are read (R343) -/
  uncorr : List Nat := []
  /-- corrected errors of each DRAM row since power-up or since it was remapped (R344) -/
  corrected : Tab Nat := []
  /-- SRAM copies of channels' remap tables that are uncorrectable, false the first copy (R345) -/
  sramBad : List (Nat × Bool) := []
  /-- banks under refresh, each with the wait hint that a request meets there (R341) -/
  refresh : List (Nat × Nat) := []
  /-- what the base dies have found and not yet reported, and the recoveries not yet counted (R343, R344, R403) -/
  reports : List McReport := []
  recoveries : Nat := 0
deriving DecidableEq, Repr

/-! ## The dispatchers -/

/-- The effective values of a region (R284). -/
structure Eff where
  ncore : Nat
  nrow  : Nat
  nslot : Nat
  nchan : Nat
  prio  : Nat
  fdom  : Nat
deriving DecidableEq, Repr

/-- A region as the dispatchers know it. -/
structure Region where
  asid  : BitVec 16
  rcb   : Addr
  vrank : BitVec 16
  eff   : Option Eff
  /-- the blocks above it with their effective ncore, as found when its effective values were computed -/
  chain : List (Addr × Nat)
  /-- a format error was found (R284) -/
  err   : Bool := false
  /-- ready records taken from the ready queue and eligible under R289: record, age, time -/
  ready : List (Addr × Nat × Nat)
  /-- launch packets waiting to be chosen: slot index and packet -/
  launches : List (Nat × Row)
  /-- packets taken whose record has still to be read at another module -/
  pkts  : List (Nat × Row) := []
  /-- its ready queue, which another module holds, may still hold packets -/
  far   : Bool := false
  /-- announced since its effective values were computed (R284) -/
  again : Bool := false
deriving DecidableEq, Repr

/-- A gang from its reservation to the exit of its last member (R299).
Log 60: DESIGN CHOICE, safe. -/
structure Gang where
  ident : Nat
  asid  : BitVec 16
  vrank : BitVec 16
  rcb   : Addr
  img   : Word
  pre   : Word
  part  : Nat
  /-- the image's header, its tile and ring records and the preset list, as the launch was checked -/
  hdr   : List Word
  tiles : Tab Tile
  rings : Tab Ring
  presets : List (Word × Word)
  cores : List Nat
  got   : List Nat
  /-- the partition has been asked for, the member cores are loaded, the entry bundles have been released -/
  asked : Bool
  loaded : Bool
  released : Bool
  relTime : Nat
  left  : List Nat
  /-- the time that the dispatcher has chosen for the present grel, and the cores that may pass it (R114) -/
  grelAt : Option Nat
  grel  : List Nat
deriving DecidableEq, Repr

/-- A resident rank (R282, R305).
Log 58: DEDUCED, safe. -/
structure Rank where
  vrank : BitVec 16
  asid  : BitVec 16
  block : Addr
  /-- a root strand has executed step in the current step (R305) -/
  stepped : Bool := false
  /-- where the rank stands at its step boundary (R306): 0 within a step, 1 images being saved, 2 the next step
  not yet opened -/
  phase : Nat := 0
  /-- its last move left pages in the capacity tier (R330) -/
  cold  : Bool := false
  /-- trace entries consumed ahead of tpos in replay mode (R308) -/
  consumed : List Nat := []
  /-- the collectives that it has bound in its current step (R352) -/
  bound : List CollKey := []
deriving DecidableEq, Repr

structure Disp where
  ranks : List Rank := []
  regions : List Region := []
  /-- region blocks in the order in which their ready queues first received a packet, and per priority the current one of
  its round (R302) -/
  firsts : List (BitVec 16 × Addr) := []
  rounds : Tab (BitVec 16 × Addr) := []
  gangs : List Gang := []
  nextGang : Nat := 1
  /-- ready packets held because their queue is full (R450): ASID, queue header, packet -/
  holds : List (BitVec 16 × Addr × Row) := []
  /-- readiness of records whose region block or own row cannot be read yet (R450): ASID, block where known, record -/
  unread : List (BitVec 16 × Option Addr × Addr) := []
  /-- images of pre-empted unpinned strands: record and image address (R313) -/
  images : List (BitVec 16 × Addr × Addr) := []
  /-- the records whose packets the dispatchers have taken, and those of gang members -/
  known : List (BitVec 16 × Addr) := []
  /-- the records of gang members, which the dispatcher creates and holds (R299) -/
  records : List (BitVec 16 × Addr × Row) := []
deriving DecidableEq, Repr

/-! ## Collectives, fabric, migration -/

/-- The fields every member must agree on (R349, R354). -/
structure CollDesc where
  kind : Nat
  op   : Nat
  el   : Nat
  sat  : Bool
  root : Nat
  chk  : Nat
  span : Nat
  nch  : Nat
  thr  : Nat
deriving DecidableEq, Repr

/-- A binding of a resident rank (R352, R353). -/
structure Binding where
  key   : CollKey
  vrank : BitVec 16
  asid  : BitVec 16
  core  : Nat
  fw    : Bool
  chan  : Nat
  ident : Nat
  tile  : Nat
  pos   : Nat
  desc  : CollDesc
  dva   : Word
  sw    : Nat
  rl    : Bool
  sc    : Nat
  held  : List (Nat × Word × Word)
  /-- the global time of its cbind (R354) -/
  time  : Nat := 0
  /-- cancelled, its identifier to complete once its remote writes are acknowledged (R399, R402) -/
  cut   : Bool := false
  /-- the tile's valid rows at firing -/
  fired : Option Nat := none
  members : List (BitVec 16)
  born  : Nat
  /-- the rows read since firing, whether a poisoned one was among them, and that the input is complete -/
  input : List Row := []
  inBad : Bool := false
  sent  : Bool := false
  /-- rows of the result written so far, to the tile and then to memory; remote ones not yet acknowledged -/
  step  : Nat := 0
  posted : Nat := 0
  /-- the context image that the collective engine uses in place of the core (R312) -/
  image : Option Addr := none
  /-- the collective has ended and waits for its context to be restored -/
  fin   : Bool := false
deriving DecidableEq, Repr

/-- The value of a tree node, on its way up (the operand of Node(lo, k)) or down (what its members receive):
rows, flags, the fields that its members gave with V, and the least tile size. -/
structure NodeVal where
  lo    : Nat
  k     : Nat
  down  : Bool
  rows  : List Row := []
  flags : BitVec 7 := 0
  desc  : Option (CollDesc × Nat) := none
  /-- while its flits come: the codes of the fields that its first two carry -/
  code  : Nat := 0
  cap   : Nat := 0
  /-- with an error status that waited for its member: the fields and V that the other members used (R354) -/
  used  : Option (CollDesc × Option Nat) := none
  /-- and the global time at which the error ended the collective -/
  time  : Nat := 0
  /-- 0, or the error code and the lowest failing position (R356) -/
  err   : Nat := 0
  errPos : Nat := 0
deriving DecidableEq, Repr

/-- A collective in progress at this module. -/
structure Coll where
  key   : CollKey
  vals  : List NodeVal := []
  /-- values whose flits have not all come -/
  parts : List NodeVal := []
  /-- its result or error has been found here -/
  ended : Bool := false
deriving DecidableEq, Repr

/-- A link's receive and send sides (R365).
Log 73: DEDUCED, unsafe. -/
structure Link where
  up    : Bool := false
  rxNext : BitVec 12 := 0
  txNext : BitVec 12 := 0
  replay : List Flit := []
  /-- resends in a row that failed, and the number that the last negative acknowledgement named -/
  fails : Nat := 0
  naked : Option (BitVec 12) := none
  downAt : Nat := 0
deriving DecidableEq, Repr

/-- A route's source and destination sides (R367). -/
structure Route where
  peer  : BitVec 12
  cls   : Nat
  tx    : BitVec 32 := 0
  /-- accepted flits not yet acknowledged: flit, time of acceptance, time of the last sending, resends -/
  unacked : List (Flit × Nat × Nat × Nat) := []
  rx    : BitVec 32 := 0
  ahead : List Flit := []
deriving DecidableEq, Repr

structure Fabric where
  links : Tab Link := []
  ports : Tab Word := []
  maps  : List (BitVec 16 × Tab (BitVec 16)) := []
  routes : List Route := []
  /-- flits handed to the wire, newest last: port, trailer and flit (R364) -/
  sent  : List (Nat × Word × Flit) := []
  /-- flits held because their table entry is unreadable or credit is withheld -/
  stuck : List Flit := []
  lost  : List (BitVec 12) := []
  /-- binding updates received and not yet applied (R374) -/
  updates : List (BitVec 16 × BitVec 16 × BitVec 12 × Nat) := []
  /-- delivered flits waiting for their own step (R364), oldest first -/
  inbox : List Flit := []
  /-- negative acknowledgements sent: port and first missing number (R365) -/
  naks : List (Nat × BitVec 12) := []
  /-- memory requests not yet answered: node and flit (R341) -/
  reqs : List (Nat × Flit) := []
  /-- requests answered with a retry: the earliest time of the resend, node and flit -/
  later : List (Nat × Nat × Flit) := []
  /-- requests held behind a retried one of the same requester to the same row -/
  behind : List (Nat × Flit) := []
  /-- entries of rank maps, by job and rank, and of the port table, of which both copies are uncorrectable (R393) -/
  badMaps : List (BitVec 16 × BitVec 16) := []
  badPorts : List Nat := []
  /-- flits held until the port table is loaded again: node, class and flit -/
  waiting : List (Nat × Nat × Flit) := []
  /-- flits of other modules, and acknowledgements, held in the same way: node and flit -/
  transit : List (Nat × Flit) := []
deriving DecidableEq, Repr

/-- A migrate out in progress (R373). -/
structure Migration where
  job   : BitVec 16
  vrank : BitVec 16
  asid  : BitVec 16
  dn    : BitVec 12
  la    : Addr
  block : Addr
  cw    : Addr
  cv    : Word
  /-- the command's slot -/
  slot  : Word := 0
  /-- 0 reading the landing block, 1 the frame list, 2 copying, 3 waiting for markers, 4 appending the ring -/
  phase : Nat := 0
  asked : Nat := 0
  landing : Option Row := none
  ranks : Nat := 0
  list  : List Word := []
  /-- the valid leaves of the rank's ASID: address, size, words -/
  leaves : List (Nat × Bool × Word × Word) := []
  /-- the leaf and the row that come next, and the list frames used -/
  pos   : Nat := 0
  row   : Nat := 0
  used  : List Nat := []
  t     : Nat := 0
  ring  : Nat := 0
  waiting : List (BitVec 12) := []
deriving DecidableEq, Repr

structure Caribou where
  busy  : Option Migration := none
  /-- ranks arriving: vrank, landing block address and entries in the late area (R372) -/
  landing : List (BitVec 16 × Addr × Nat) := []
deriving DecidableEq, Repr

/-! ## The hub and the ports -/

/-- A message sent by the module: a reply or an event (R412, R418). -/
structure Reply where
  op     : BitVec 8
  sess   : BitVec 16
  seq    : Word
  status : BitVec 32
  value  : BitVec 32
  body   : List Byte
  magic  : BitVec 16 := 0x4656
  ver    : BitVec 8 := 1
  plen   : BitVec 16
  asid   : BitVec 16
  addr   : Addr
deriving DecidableEq, Repr

/-- A control-port session (R415).
Log 90: DEDUCED, unsafe. -/
structure Session where
  next  : Word := 2
  held  : List PortMsg := []
  replies : List Reply := []
  /-- the request under execution, the bytes of it done, and what it has asked of remote homes -/
  busy  : Option PortMsg := none
  pos   : Nat := 0
  asked : List Nat := []
  answers : Tab Row := []
  posted : Nat := 0
  /-- the request under execution began while its ASID was being quiesced (R401) -/
  late  : Bool := false
deriving DecidableEq, Repr

/-- A control port (R410, R417, R418). -/
structure Port where
  up    : Bool := false
  /-- the global time at which its link went down (R417) -/
  downAt : Nat := 0
  sessions : Tab Session := []
  last  : Option Nat := none
  evSeq : Word := 0
  /-- replies and events sent, newest last -/
  out   : List Reply := []
deriving DecidableEq, Repr

/-- A packet of a mirrored queue that is not yet accepted (R406): the queue's ASID, header and header row, the packet's index,
the mirror's module and header row, the request of a control port that appended it, whether it has been written to the
mirror, and whether the buddy has acknowledged that. -/
structure Mirror where
  asid  : BitVec 16
  va    : Addr
  row   : Nat
  index : Nat
  bud   : Nat
  mrow  : Nat
  who   : Option PortMsg := none
  sent  : Bool := false
  acked : Bool := false
deriving DecidableEq, Repr

/-- Log 109: DESIGN CHOICE, unsafe. -/
structure Hub where
  tripped : Bool := false
  started : Bool := false
  otp   : BitVec 16 := 0
  bctr  : BitVec 16 := 0
  bst   : BitVec 4 := 0
  node  : BitVec 12 := 0
  tnode : BitVec 12 := 0
  hotg  : Nat := 0
  hocn  : Nat := 0
  hos   : BitVec 3 := 0
  hofr  : Word := 0
  hova  : Word := 0
  hoEntry : Word := 0
  hoAt  : Nat := 0
  lto   : Nat := 100
  hotmo : Nat := 1000
  hotmoNow : Nat := 1000
  curm  : BitVec 256 := 0
  incm  : BitVec 256 := 0
  up    : Nat := 200
  dn    : Nat := 200
  cap   : Nat := 1600
  /-- the microseconds of global time for which the cap has been adjusted (R441) -/
  capAt : Nat := 0
  tmax  : BitVec 8 := 0
  tin   : BitVec 8 := 0
  uns   : Bool := false
  ref   : BitVec 12 := 0
  off   : Int := 0
  /-- module power and vcore current, as last averaged (R443) -/
  power : Word := 0
  linked : Bool := false
  gtime : Nat := 0
  sems  : Tab Word := []
  freq  : Tab Word := []
  /-- counters: word w of port p at 8p + w, the module row at 8·144 + w (R403) -/
  count : Tab Word := []
  stage : List Host.Cell := []
  staged : Nat := 0
  stage2 : List Host.Cell := []
  staged2 : Nat := 0
  portA : Port := {}
  portB : Port := {}
  treeReady : Bool := false
  leaf  : Nat := 0
  mcLost : Nat := 0
  /-- ASIDs being quiesced, and those whose record the hub maintains (R228, R401) -/
  quiesced : List Nat := []
  /-- packets waiting for their mirror's acceptance -/
  mirrors : List Mirror := []
  /-- the commit being verified or loaded (R424, R427) -/
  commit : Option PortMsg := none
  /-- rows of other modules that agents of the hub have asked for, and the answers not yet used, by home and row (R322) -/
  asked : List Nat := []
  answers : Tab Row := []
  /-- waiters still to be moved from waiter queues that another module holds (R294): ASID and waiter queue -/
  moves : List (BitVec 16 × Addr) := []
  /-- strands that wait in a waiter queue here for a queue of another module: ASID, home, header row and waiter queue -/
  remoteWaits : List (BitVec 16 × Nat × Nat × Addr) := []
  /-- cached queue headers: ASID, header address and its words (R295) -/
  queueTable : List (BitVec 16 × Addr × List Word) := []
deriving DecidableEq, Repr

/-! ## The whole -/

/-- The issue frame of the bundle or syllable being executed. -/
structure Issue where
  core  : Nat := 0
  fw    : Bool := false
  slot  : Nat := 0
  /-- the address of the issuing bundle -/
  pc    : Addr := 0
  /-- the choice among the writes that a racy load may return (R238), 0 the newest -/
  pick  : Nat := 0
  /-- a taken transfer was made (R97) -/
  xfer  : Bool := false
  /-- the fault a syllable raised -/
  trap  : Option Trap := none
  waits : List Wait := []
  /-- a fmt write took effect in this bundle (R23) -/
  fmtSet : Bool := false
  /-- words drawn so far in this bundle from each stream (R55) -/
  drawn0 : Nat := 0
  drawn1 : Nat := 0
  /-- physical addresses of the page-table entries with a format error that walks met (R321) -/
  errs : List Nat := []
  /-- the rank that an agent of the hub or of a base die acts for in this step (R448) -/
  acting : Option (BitVec 16) := none
deriving DecidableEq, Repr

/-- An error of on-chip state (R393) beside those of a core's contexts, of the queue table and of the remap tables: an
uncorrectable one of a row of a locked instruction store, of a scratchpad row, of a cached line, of a sequence of the
ordered-atomic buffer, of both copies of an entry of a rank map or of the port table; one that was corrected; or a codeword
of a port that its FEC cannot correct (R403).
Log 134: DEDUCED, unsafe. -/
inductive Damage where
  | code (core row : Nat)
  | pad (core row : Nat)
  | line (row : Nat)
  | sequence (i : Nat)
  | rankMap (job v : BitVec 16)
  | portEntry (node : Nat)
  | corrected
  | codeword (port : Nat)
deriving DecidableEq, Repr

/-- Who acts next: one core, for one bundle; time passing; an event of the table; a walker, whose entries a translation
cache then holds; which cached entries the accesses that follow use (R325); a queue of another module tested again for a
waiter here, or a waiter moved from a waiter queue that another module holds (R294); a packet written to its mirror (R406); an entry of the queue table found uncorrectable (R295); a row that its ECC cannot correct, or an
error that it can (R343, R344); a copy of a remap table found uncorrectable (R345); a bank whose refresh begins, with
the wait hint that it gives, or ends (R341); firmware's write of an entry of the rank table (R282, R396), or its report of
a killed job to the hosts (R396, R418); an error of other on-chip state (R393); or the link of a control port that goes down
or comes back (R417).
Log 1: DESIGN CHOICE, safe; log 2: DESIGN CHOICE, unsafe. -/
inductive Turn where
  | core (c pick hold : Nat)
  | time (ns : Nat)
  | occur (i : Instr)
  | walk (asid : Nat) (va : Addr)
  | cached (live : List Nat)
  | retest (i : Nat)
  | moveWaiter (i : Nat)
  | mirrorWrite (i : Nat)
  | badHeader (i : Nat)
  | cellError (row : Nat)
  | correctedError (row : Nat)
  | sramError (channel : Nat) (second : Bool)
  | refresh (bank hint : Nat)
  | enterRank (block : Addr)
  | freeRank (v : BitVec 16)
  | reportKill (job : BitVec 16)
  | damage (d : Damage)
  | portLink (b : Bool)
deriving DecidableEq, Repr

/-- The state of the module. `fresh` numbers the steps, so that each draws free values of its own.
Log 1: DESIGN CHOICE, safe. -/
structure State where
  cores : Tab Core
  mem   : Mem
  disp  : Disp
  binds : List Binding
  colls : List Coll
  fab   : Fabric
  car   : Caribou
  hub   : Hub
  iss   : Issue
  turns : List Turn
  fresh : Nat
deriving DecidableEq, Repr

/-- Why the machine stops with a fault. -/
inductive Fault where
  /-- An access to a physical address at which there is no memory (R316): the ASID table's base or a
  region's copy names none. Raised by the physical accesses of Machine/Memory. Safe: the hardware's
  behaviour there is not given, and nothing is concluded from it. -/
  | noMemory (pa : Nat)
deriving DecidableEq, Repr

/-- Why the model gives no next state. -/
inductive Refusal where
  /-- An instruction that has no meaning yet; raised by `exec` alone. Safe. -/
  | notModelled (mnemonic : String)
deriving DecidableEq, Repr

/-- A core at release from reset (R15, R183). -/
def Core.reset : Core := {}

/-- The module before power-up has begun (R15, R422): every core held in reset, memory with nothing
listed, the hub's words at their reset values (R419).
Log 8: DESIGN CHOICE, safe; log 10: DESIGN CHOICE, unsafe; log 11: DESIGN CHOICE, unsafe; log 12: DESIGN CHOICE, unsafe; log 117: DESIGN CHOICE, unsafe. -/
def State.reset : State where
  cores := []
  mem := {}
  disp := {}
  binds := []
  colls := []
  fab := {}
  car := {}
  hub := {}
  iss := {}
  turns := []
  fresh := 0

end Sys2Proof.Machine
end

