-- ==== Sys2Proof/Machine/Operands.lean ====
section
/-! DEFINITION. Operands: bit fields, lanes, the registers of the issuing context with their in-flight
results, the port latches, the format register as it stands for the bundle, and how a result is issued
and lands (R15 to R26, R71, R72, R76). -/

namespace Sys2Proof.Machine

/-! ## Bits and lanes -/

/-- Bits [lo + n − 1 : lo] of a number. -/
def fieldNat (x lo n : Nat) : Nat := x / 2 ^ lo % 2 ^ n

/-- Bits [lo + n − 1 : lo] of a word, as a number. -/
def fld (x : Word) (lo n : Nat) : Nat := (x.extractLsb' lo n).toNat

/-- One bit of a word. -/
def bitAt (x : Word) (i : Nat) : Bool := x.getLsbD i

/-- SignExtend(x, n) of R76. -/
def signNat (x n : Nat) : Int :=
  let y := x % 2 ^ n
  if n = 0 then 0 else if y < 2 ^ (n - 1) then (y : Int) else (y : Int) - (2 ^ n : Nat)

/-- An integer modulo 2^n as a number. -/
def wrapNat (n : Nat) (x : Int) : Nat := (x % ((2 ^ n : Nat) : Int)).toNat

/-- Lane i of width w of a row, as a natural number (R17). -/
def lane (w : Nat) (x : Row) (i : Nat) : Nat := x.toNat / 2 ^ (w * i) % 2 ^ w

/-- The number whose n lanes of width w are given (R17). -/
def lanesNat (w : Nat) : List Nat → Nat
  | [] => 0
  | x :: t => x % 2 ^ w + 2 ^ w * lanesNat w t

/-- The row whose lanes, from lane 0, are given. -/
def ofLanes (w : Nat) (l : List Nat) : Row := BitVec.ofNat 512 (lanesNat w l)

/-- The bits of the lanes that a mask enables (R17). -/
def laneMask (w n : Nat) (m : Word) : Row :=
  ofLanes w ((List.range n).map fun i => if m.getLsbD i then 2 ^ w - 1 else 0)

/-- Word j of a row. -/
def rowWord (r : Row) (j : Nat) : Word := r.extractLsb' (64 * j) 64

/-- The row with bits [lo + w − 1 : lo] replaced by x. -/
def setBits (r : Row) (lo w : Nat) (x : Nat) : Row :=
  let m : Row := BitVec.ofNat 512 (2 ^ w - 1) <<< lo
  (r &&& ~~~m) ||| ((BitVec.ofNat 512 (x % 2 ^ w)) <<< lo)

/-- The row with word j replaced. -/
def setRowWord (r : Row) (j : Nat) (x : Word) : Row := setBits r (64 * j) 64 x.toNat

/-- Byte i of a row. -/
def rowByte (r : Row) (i : Nat) : Nat := lane 8 r i

/-- The row made of eight words. -/
def ofWords (l : List Word) : Row := ofLanes 64 (l.map BitVec.toNat)

/-- The eight words of a row. -/
def rowWords (r : Row) : List Word := (List.range 8).map (rowWord r)

/-- The bytes of a row, in address order. -/
def rowBytes (r : Row) : List Nat := (List.range 64).map (rowByte r)

/-! ## The issuing core and context -/

def State.core (s : State) (c : Nat) : Core := Tab.get {} s.cores c

def State.setCore (s : State) (c : Nat) (k : Core) : State := { s with cores := Tab.put s.cores c k }

/-- The issuing core. -/
def State.me (s : State) : Core := s.core s.iss.core

def State.setMe (s : State) (k : Core) : State := s.setCore s.iss.core k

def Core.ctx (k : Core) (fw : Bool) : Ctx := if fw then k.fw else k.prog

def Core.setCtx (k : Core) (fw : Bool) (x : Ctx) : Core :=
  if fw then { k with fw := x } else { k with prog := x }

/-- The issuing context. -/
def State.ctx (s : State) : Ctx := s.me.ctx s.iss.fw

def State.setCtx (s : State) (x : Ctx) : State := s.setMe (s.me.setCtx s.iss.fw x)

def State.px (s : State) : ProgX := s.me.px

def State.setPx (s : State) (x : ProgX) : State := s.setMe { s.me with px := x }

def State.fx (s : State) : FwX := s.me.fx

def State.setFx (s : State) (x : FwX) : State := s.setMe { s.me with fx := x }

def State.sp (s : State) : Scratch := s.me.sp

def State.setSp (s : State) (x : Scratch) : State := s.setMe { s.me with sp := x }

/-- The agent that the issuing context is (R229). -/
def State.agent (s : State) : Agent := .context s.iss.core s.iss.fw

/-! ## Reading registers -/

/-- The bits of a destination that an issued result has not delivered: a read at cycles t + 1 to
t + L − 1 finds them undefined, a read of the issuing bundle does not (R25, R26).
Log 4: DESIGN CHOICE, safe. -/
def undefBits (pend : List Pend) (now : Nat) (d : Dest) : Row :=
  pend.foldl (fun m e => if e.dest = d ∧ e.issued < now ∧ now < e.due then m ||| e.mask else m) 0

/-- A register's value as a read delivers it: its own bits, with free bits where it is undefined (R10,
R25).
Log 4: DESIGN CHOICE, safe; log 14: DEDUCED, safe. -/
def State.through (s : State) (d : Dest) (tag i : Nat) (base : Row) : Row :=
  let u := undefBits s.ctx.pend s.me.cycle d
  if u = 0 then base
  else (base &&& ~~~u) ||| (Config.free 512 [tag, i, s.fresh, s.iss.slot] &&& u)

/-- s[i], with s0 reading zero (R15). -/
def State.readS (s : State) (i : BitVec 6) : Word :=
  if i = 0 then 0
  else (s.through (.s i.toNat) 1 i.toNat ((Tab.get 0 s.ctx.s i.toNat).setWidth 512)).setWidth 64

/-- p[i], with p0 reading true (R15, R122). -/
def State.readP (s : State) (i : BitVec 4) : Bool :=
  if i = 0 then true
  else (s.through (.p i.toNat) 2 i.toNat (if Tab.get false s.ctx.p i.toNat then 1 else 0)).getLsbD 0

/-- v[i] (R15). -/
def State.readV (s : State) (i : Nat) : Row := s.through (.v i) 3 i (Tab.get 0 s.px.v i)

/-- m[i], with m0 all ones (R15). -/
def State.readM (s : State) (i : Nat) : Word :=
  if i = 0 then ~~~0
  else (s.through (.m i) 4 i ((Tab.get 0 s.px.m i).setWidth 512)).setWidth 64

/-- The bits of m[i] that a result still in flight leaves undefined, and with them the lanes they govern (R182). -/
def State.unsureM (s : State) (i : Nat) : Word :=
  if i = 0 then 0 else (undefBits s.ctx.pend s.me.cycle (.m i)).setWidth 64

/-- A row whose lanes under the mask bits `u` are undefined (R182).
Log 4: DESIGN CHOICE, safe. -/
def State.unsureLanes (s : State) (w : Nat) (u : Word) (v : Row) : Row :=
  let k := laneMask w (512 / w) u
  if u = 0 then v else (v &&& ~~~k) ||| (Config.free 512 [5, s.fresh, s.iss.slot] &&& k)

/-- The number of a port's latch: ports A, B and C of slots V, W and M (R18). -/
def latchNo (slot port : Nat) : Nat := (slot - 5) * 3 + port

/-- A read of a register through a port, which its latch captures (R18).
Log 15: DEDUCED, safe. -/
def State.portReg (s : State) (port i : Nat) : Row × State :=
  let r := s.readV i
  (r, s.setPx { s.px with latch := Tab.put s.px.latch (latchNo s.iss.slot port) r })

/-- A six-bit source field: 0 to 31 a register, 32 the port's latch (R18). -/
def State.portRead (s : State) (port : Nat) (code : BitVec 6) : Row × State :=
  if code.ult 32#6 then s.portReg port code.toNat
  else (Tab.get 0 s.px.latch (latchNo s.iss.slot port), s)

/-- fmt as it stands for the bundle: the value held before the write while the shadow lasts (R23). -/
def State.fmt (s : State) : Word := if s.px.shCnt = 0 then s.px.fmt else s.px.shVal

def fmtEfa (f : Word) : Nat := fld f 28 4
def fmtEfb (f : Word) : Nat := fld f 24 4
def fmtPla (f : Word) : Nat := fld f 21 3 + 1
def fmtPlb (f : Word) : Nat := fld f 18 3 + 1
def fmtWidth (f : Word) : Nat := 8 * 2 ^ fld f 16 2
def fmtScm (f : Word) : Nat := fld f 14 2
def fmtPam (f : Word) : Bool := bitAt f 13
def fmtRnd (f : Word) : Nat := fld f 10 3
def fmtSat (f : Word) : Bool := bitAt f 9
def fmtRss (f : Word) : Bool := bitAt f 8
def fmtFtz (f : Word) : Bool := bitAt f 7
def fmtPrd (f : Word) : Bool := bitAt f 6

/-! ## The ramp limiter (R272 to R274, R441) -/

/-- The cycles of a limiter window. -/
def windowLen : Nat := 1600

/-- The most beats that the present window may hold. -/
def Limiter.most (l : Limiter) : Nat := min (l.prev + l.up) l.cap

/-- The fewest beats that it may hold: dummy beats fill only up to the ceiling (R441). -/
def Limiter.least (l : Limiter) : Nat := min (l.prev - l.dn) l.cap

/-- A window that has ended: the dummy beats bring its count to the least that is allowed (R274), and the next one
takes the limits as they then stand. -/
def Limiter.next (l : Limiter) : Limiter :=
  { l with prev := max l.beats l.least, beats := 0, up := l.up', dn := l.dn', cap := l.cap' }

/-- The limiter after the core's cycle count has moved from one cycle to another. -/
def Limiter.windows : Nat → Limiter → Limiter
  | 0, l => l
  | n + 1, l => (l.next).windows n

/-- The core at a later cycle, its limiter's windows passed.
Log 3: DESIGN CHOICE, safe. -/
def Core.toCycle (k : Core) (c : Nat) : Core :=
  { k with cycle := c, lim := k.lim.windows (c / windowLen - k.cycle / windowLen) }

/-! ## Issuing and landing results -/

/-- Results are kept in the order of R26 and R72: by issue, and within one bundle by slot. -/
def insertPend : List Pend → Pend → List Pend
  | [], e => [e]
  | x :: t, e => if x.issued = e.issued ∧ e.slot < x.slot then e :: x :: t else x :: insertPend t e

/-- A result issued now, to land by the bound L (R25). -/
def State.issueBits (s : State) (d : Dest) (val mask : Row) (bound : Nat) (flags : BitVec 7)
    (defer : Bool) : State :=
  let k := s.me
  let c := s.ctx
  let e : Pend :=
    { dest := d, val := val, mask := mask, live := mask, issued := k.cycle, due := k.cycle + bound,
      slot := s.iss.slot, ser := k.ser, flags := flags, defer := defer }
  s.setMe ({ k with ser := k.ser + 1 }.setCtx s.iss.fw { c with pend := insertPend c.pend e })

/-- The 64 bits of a scalar in a row. -/
def scalarMask : Row := 0xFFFFFFFFFFFFFFFF

/-- A scalar result; one into s0 is discarded (R15). -/
def State.issueS (s : State) (i : BitVec 6) (v : Word) (bound : Nat) : State :=
  if i = 0 then s else s.issueBits (.s i.toNat) (v.setWidth 512) scalarMask bound 0 false

/-- A scalar result that sets the deferred-fault bit (R143). -/
def State.issueDeferred (s : State) (i : BitVec 6) : State :=
  if i = 0 then s else s.issueBits (.s i.toNat) 0 scalarMask 1 0 true

/-- A predicate result; one into p0 is ignored (R16). -/
def State.issueP (s : State) (i : Nat) (b : Bool) (bound : Nat) : State :=
  if i = 0 then s else s.issueBits (.p i) (if b then 1 else 0) 1 bound 0 false

/-- A compare's pair: the result to p(2j), its complement to p(2j + 1) (R16). -/
def State.issuePair (s : State) (j : BitVec 3) (b : Bool) (bound : Nat) : State :=
  (s.issueP (2 * j.toNat) b bound).issueP (2 * j.toNat + 1) (!b) bound

/-- A vector result under a mask of bits (R17). -/
def State.issueV (s : State) (i : Nat) (val mask : Row) (bound : Nat) (flags : BitVec 7) : State :=
  s.issueBits (.v i) val mask bound flags false

/-- A whole vector result. -/
def State.issueRow (s : State) (i : Nat) (val : Row) (bound : Nat) (flags : BitVec 7) : State :=
  s.issueV i val (~~~0) bound flags

/-- A mask result. -/
def State.issueM (s : State) (i : Nat) (v : Word) (bound : Nat) (flags : BitVec 7) : State :=
  s.issueBits (.m i) (v.setWidth 512) scalarMask bound flags false

/-- The bits of `x` under `live` written over `old`. -/
def overlay (old x live : Row) : Row := (old &&& ~~~live) ||| (x &&& live)

/-- The same of a word. -/
def overlay64 (old x live : Word) : Word := (old &&& ~~~live) ||| (x &&& live)

/-- What a landing result writes: the live bits of its destination, the deferred-fault bit and the
sticky flags (R17, R26, R48, R110). One that lands after a later result of its destination leaves the deferred-fault bit
and a row's poison as that one left them.
Log 125: DESIGN CHOICE, unsafe. -/
def Core.landWrite (k : Core) (fw : Bool) (e : Pend) : Core :=
  let k := if fw then k else { k with px := { k.px with fpstat := k.px.fpstat ||| e.flags } }
  if e.late ∧ e.live = 0 then k
  else
    let c := k.ctx fw
    match e.dest with
    | .s i =>
      let v := overlay ((Tab.get 0 c.s i).setWidth 512) e.val e.live
      let bit : Word := 1#64 <<< i
      k.setCtx fw { c with s := Tab.put c.s i (v.setWidth 64),
                           sdef := if e.late then c.sdef else if e.defer then c.sdef ||| bit else c.sdef &&& ~~~bit }
    | .p i => k.setCtx fw { c with p := Tab.put c.p i (e.val.getLsbD 0) }
    | .v i =>
      let bit : BitVec 32 := 1#32 <<< i
      let def_ := if e.late then k.px.vdef else if e.defer then k.px.vdef ||| bit else k.px.vdef &&& ~~~bit
      { k with px := { k.px with v := Tab.put k.px.v i (overlay (Tab.get 0 k.px.v i) e.val e.live), vdef := def_ } }
    | .m i =>
      let v := overlay ((Tab.get 0 k.px.m i).setWidth 512) e.val e.live
      { k with px := { k.px with m := Tab.put k.px.m i (v.setWidth 64) } }
    | .row i =>
      let whole := e.mask = ~~~0 ∧ e.late = false
      { k with sp := { k.sp with
          rows := Tab.put k.sp.rows i (overlay (Tab.get 0 k.sp.rows i) e.val e.live),
          bad := if whole then removeNat k.sp.bad i else k.sp.bad } }
    | .none => k

/-- The older results of the same destination lose the bits that a later one has landed, and come late (R26). -/
def shadowOlder (e : Pend) (older : List Pend) : List Pend :=
  older.map fun x => if x.dest = e.dest then { x with live := x.live &&& ~~~e.mask, late := true } else x

/-- Land, oldest first, every result that is due by `now`. -/
def landDueList (fw : Bool) (now : Nat) : List Pend → Core → List Pend → Core × List Pend
  | [], k, kept => (k, kept)
  | e :: t, k, kept =>
    if e.due ≤ now then landDueList fw now t (k.landWrite fw e) (shadowOlder e kept)
    else landDueList fw now t k (kept ++ [e])

/-- The core after every result of a context that is due by `now` has landed. -/
def Core.landDue (k : Core) (fw : Bool) (now : Nat) : Core :=
  let r := landDueList fw now (k.ctx fw).pend k []
  r.1.setCtx fw { r.1.ctx fw with pend := r.2 }

/-- Whether a result that an earlier bundle of the context issued has still to land (R20, R112).
Log 16: DEDUCED, safe. -/
def Core.landing (k : Core) (fw : Bool) : Bool :=
  (k.ctx fw).pend.any fun e => decide (e.issued < k.cycle) && !(e.live == 0 && e.flags == 0)

/-- The greatest bound of the results of a list, and at least `now`. -/
def lastDue (l : List Pend) (now : Nat) : Nat := l.foldl (fun m e => max m e.due) now

/-- The core after it has waited until every result of a context has landed (R37, R41, R112); those of the other context
that are due by then have landed too. -/
def Core.landAll (k : Core) (fw : Bool) : Core :=
  let now := lastDue (k.ctx fw).pend k.cycle
  ((k.landDue fw now).landDue (!fw) now).toCycle now

/-- The core after it has waited for the results issued before the present bundle (R20). -/
def Core.landEarlier (k : Core) (fw : Bool) : Core :=
  let old := (k.ctx fw).pend.filter fun e => e.issued < k.cycle
  let new := (k.ctx fw).pend.filter fun e => !(e.issued < k.cycle)
  let r := landDueList fw (lastDue old k.cycle) old k []
  r.1.setCtx fw { r.1.ctx fw with pend := r.2 ++ new }

end Sys2Proof.Machine
end

