-- ==== Sys2Proof/Machine/Flags.lean ====
section
/-! DEFINITION. Exact arithmetic, rounding and the sticky flags (R43 to R67). A finite value is a sign
and a magnitude given as a quotient of natural numbers; everything is computed exactly and narrowed
once. -/

namespace Sys2Proof.Machine

/-! ## The sticky flags (R20, R48) -/

abbrev Flags := BitVec 7

def flInvalid : Flags := 0x01
def flDivZero : Flags := 0x02
def flOverflow : Flags := 0x04
def flUnderflow : Flags := 0x08
def flInexact : Flags := 0x10
def flSaturated : Flags := 0x20
def flFlushed : Flags := 0x40

/-- A flag, when the condition holds. -/
def flagIf (c : Bool) (f : Flags) : Flags := if c then f else 0

/-! ## Floating formats (R45) -/

/-- A floating format: exponent width, fraction width, bias, and the largest finite magnitude as a bit
pattern without sign. `small` marks the two 8-bit formats. -/
structure Fmt where
  eb : Nat
  fb : Nat
  bias : Nat
  maxMag : Nat
  canon : Nat
  noInf : Bool
  small : Bool
deriving DecidableEq, Repr

def fmtF64 : Fmt := ⟨11, 52, 1023, 0x7FEFFFFFFFFFFFFF, 0x7FF8000000000000, false, false⟩
def fmtF32 : Fmt := ⟨8, 23, 127, 0x7F7FFFFF, 0x7FC00000, false, false⟩
def fmtF16 : Fmt := ⟨5, 10, 15, 0x7BFF, 0x7E00, false, false⟩
def fmtBf16 : Fmt := ⟨8, 7, 127, 0x7F7F, 0x7FC0, false, false⟩
def fmtE4M3 : Fmt := ⟨4, 3, 7, 0x7E, 0x7F, true, true⟩
def fmtE5M2 : Fmt := ⟨5, 2, 15, 0x7B, 0x7E, false, true⟩
def fmtQ128 : Fmt :=
  ⟨15, 112, 16383, 0x7FFEFFFFFFFFFFFFFFFFFFFFFFFFFFFF, 0x7FFF8000000000000000000000000000, false, false⟩

/-- The width of a format. -/
def Fmt.width (F : Fmt) : Nat := 1 + F.eb + F.fb

/-- The pattern of +∞. -/
def Fmt.infMag (F : Fmt) : Nat := (2 ^ F.eb - 1) * 2 ^ F.fb

/-- The exponent of the smallest normal. -/
def Fmt.emin (F : Fmt) : Int := 1 - (F.bias : Int)

/-- A decoded floating value: a NaN (signalling or not), an infinity, or a signed magnitude num / den. -/
inductive Fv where
  | nan (sig : Bool)
  | inf (neg : Bool)
  | fin (neg : Bool) (num den : Nat)
deriving DecidableEq, Repr

/-- num / den scaled by 2^k. -/
def scale2 (num den : Nat) (k : Int) : Nat × Nat :=
  if 0 ≤ k then (num * 2 ^ k.toNat, den) else (num, den * 2 ^ (-k).toNat)

/-- The value of an encoding (R45, R46). -/
def decodeF (F : Fmt) (x : Nat) : Fv :=
  let neg := x / 2 ^ (F.eb + F.fb) % 2 = 1
  let e := x / 2 ^ F.fb % 2 ^ F.eb
  let f := x % 2 ^ F.fb
  if F.noInf ∧ e = 2 ^ F.eb - 1 ∧ f = 2 ^ F.fb - 1 then .nan false
  else if !F.noInf ∧ e = 2 ^ F.eb - 1 then
    if f = 0 then .inf neg else .nan (f < 2 ^ (F.fb - 1))
  else if e = 0 then
    let v := scale2 f 1 (F.emin - F.fb)
    .fin neg v.1 v.2
  else
    let v := scale2 (2 ^ F.fb + f) 1 ((e : Int) - F.bias - F.fb)
    .fin neg v.1 v.2

/-- The sign bit of a format. -/
def signBits (F : Fmt) (neg : Bool) : Nat := if neg then 2 ^ (F.eb + F.fb) else 0

/-- Whether an encoding is a non-zero subnormal. -/
def isSubnormal (F : Fmt) (x : Nat) : Bool := x / 2 ^ F.fb % 2 ^ F.eb == 0 && x % 2 ^ F.fb != 0

/-- An input under fmt.ftz (R49): a subnormal reads as a zero of its sign and sets flushed. -/
def flushIn (F : Fmt) (ftz : Bool) (x : Nat) : Fv × Flags :=
  if ftz && isSubnormal F x then
    (.fin (x / 2 ^ (F.eb + F.fb) % 2 == 1) 0 1, flFlushed)
  else (decodeF F x, 0)

/-- Flags of a NaN input (R46). -/
def nanFlags : Fv → Flags
  | .nan true => flInvalid
  | _ => 0

/-! ## Rounding (R50 to R52) -/

/-- The floor of log2 (num / den), for num > 0. -/
def floorLog2 (num den : Nat) : Int :=
  let k : Int := (num.log2 : Int) - den.log2
  let v := scale2 num den (-k)
  if v.2 ≤ v.1 then k else k - 1

/-- The rounding of num / den to a natural number under mode m, the sign given (R51). -/
def roundNat (m : Nat) (neg : Bool) (num den rb : Nat) : Nat :=
  let n := num / den
  let r := num % den
  match m with
  | 0 => if den < 2 * r ∨ (2 * r = den ∧ n % 2 = 1) then n + 1 else n
  | 1 => n
  | 2 => if 0 < r ∧ neg = false then n + 1 else n
  | 3 => if 0 < r ∧ neg = true then n + 1 else n
  | 4 => if den ≤ 2 * r then n + 1 else n
  | _ => (num * 2 ^ 32 / den + rb) / 2 ^ 32

/-- The result of an overflow (R52): the pattern and its flags. -/
def overflowF (F : Fmt) (m : Nat) (sat neg : Bool) : Nat × Flags :=
  if F.small && sat then (signBits F neg + F.maxMag, flSaturated ||| flInexact)
  else
    let toMax := m = 1 ∨ (m = 2 ∧ neg = true) ∨ (m = 3 ∧ neg = false)
    if toMax then (signBits F neg + F.maxMag, flOverflow ||| flInexact)
    else if F.noInf then (F.canon, flOverflow ||| flInexact)
    else (signBits F neg + F.infMag, flOverflow ||| flInexact)

/-- Round (R51) with its flags (R48), fmt.sat for 8-bit destinations (R52) and fmt.ftz on the result
(R49). The pattern of a magnitude n · 2^(e − fb) is (e − emin) · 2^fb + n, a carry included. -/
def roundF (F : Fmt) (m : Nat) (sat ftz neg : Bool) (num den rb : Nat) : Nat × Flags :=
  if num = 0 then (signBits F neg, 0)
  else
    let e0 := floorLog2 num den
    let e := max e0 F.emin
    let t := scale2 num den (F.fb - e)
    let n := roundNat m neg t.1 t.2 rb
    let mag := (e - F.emin).toNat * 2 ^ F.fb + n
    if F.maxMag < mag then overflowF F m sat neg
    else
      let inexact : Bool := t.1 % t.2 != 0
      let u := scale2 num den (F.fb - e0)
      let n0 := roundNat m neg u.1 u.2 rb
      let tiny : Bool := e0 < F.emin && !(e0 + 1 == F.emin && n0 == 2 ^ (F.fb + 1))
      if ftz && decide (0 < mag) && decide (mag < 2 ^ F.fb) then
        (signBits F neg, flFlushed ||| flUnderflow ||| flInexact)
      else
        (signBits F neg + mag, flagIf inexact flInexact ||| flagIf (tiny && inexact) flUnderflow)

/-- The parameters of a rounding syllable: the resolved mode, fmt.sat and fmt.ftz. -/
structure Rnd where
  mode : Nat
  sat : Bool
  ftz : Bool
deriving DecidableEq, Repr

/-- A value delivered in a format: NaN canonical (R46), infinities kept (R52 for E4M3), finite values
rounded.
Log 126: DESIGN CHOICE, unsafe. -/
def deliver (F : Fmt) (r : Rnd) (rb : Nat) : Fv → Nat × Flags
  | .nan _ => (F.canon, 0)
  | .inf neg =>
    if F.small && r.sat then (signBits F neg + F.maxMag, flSaturated)
    else if F.noInf then (F.canon, 0)
    else (signBits F neg + F.infMag, 0)
  | .fin neg num den => roundF F r.mode r.sat r.ftz neg num den rb

/-- An infinite result of an operation, which no rule of conversion touches. -/
def infBits (F : Fmt) (neg : Bool) : Nat := signBits F neg + F.infMag

/-- The exact sum of two values under R46 and R47, the mode deciding the sign of an exact zero. -/
def addV (m : Nat) (a b : Fv) : Fv × Flags :=
  let nf := nanFlags a ||| nanFlags b
  match a, b with
  | .nan _, _ => (.nan false, nf)
  | _, .nan _ => (.nan false, nf)
  | .inf x, .inf y => if x = y then (.inf x, 0) else (.nan false, flInvalid)
  | .inf x, _ => (.inf x, 0)
  | _, .inf y => (.inf y, 0)
  | .fin x n d, .fin y k e =>
    let p : Int := if x then -((n * e : Nat) : Int) else ((n * e : Nat) : Int)
    let q : Int := if y then -((k * d : Nat) : Int) else ((k * d : Nat) : Int)
    let z := p + q
    if z = 0 then
      if n = 0 ∧ k = 0 ∧ x = y then (.fin x 0 1, 0) else (.fin (m == 3) 0 1, 0)
    else (.fin (decide (z < 0)) z.natAbs (d * e), 0)

/-- A value with its sign turned. -/
def negV : Fv → Fv
  | .nan s => .nan s
  | .inf x => .inf (!x)
  | .fin x n d => .fin (!x) n d

/-- The exact product of two values (R46). -/
def mulV (a b : Fv) : Fv × Flags :=
  let nf := nanFlags a ||| nanFlags b
  match a, b with
  | .nan _, _ => (.nan false, nf)
  | _, .nan _ => (.nan false, nf)
  | .inf x, .inf y => (.inf (x != y), 0)
  | .inf x, .fin y k _ => if k = 0 then (.nan false, flInvalid) else (.inf (x != y), 0)
  | .fin x n _, .inf y => if n = 0 then (.nan false, flInvalid) else (.inf (x != y), 0)
  | .fin x n d, .fin y k e => (.fin (x != y) (n * k) (d * e), 0)

/-- The product of 0 and an infinity, in either order. -/
def zeroTimesInf : Fv → Fv → Bool
  | .inf _, .fin _ k _ => k == 0
  | .fin _ n _, .inf _ => n == 0
  | _, _ => false

/-! ## Integers (R43, R44) -/

/-- An exact integer reduced to w bits (R44). -/
def reduceInt (sat signed : Bool) (w : Nat) (x : Int) : Nat × Flags :=
  let lo : Int := if signed then -((2 ^ (w - 1) : Nat) : Int) else 0
  let hi : Int := if signed then ((2 ^ (w - 1) : Nat) : Int) - 1 else ((2 ^ w : Nat) : Int) - 1
  if sat then
    if x < lo then (wrapNat w lo, flSaturated)
    else if hi < x then (wrapNat w hi, flSaturated)
    else (wrapNat w x, 0)
  else (wrapNat w x, 0)

/-- A floating value converted to an integer (R44). -/
def floatToInt (m : Nat) (signed : Bool) (w rb : Nat) (v : Fv) : Nat × Flags :=
  let lo : Int := if signed then -((2 ^ (w - 1) : Nat) : Int) else 0
  let hi : Int := if signed then ((2 ^ (w - 1) : Nat) : Int) - 1 else ((2 ^ w : Nat) : Int) - 1
  match v with
  | .nan _ => (0, flInvalid)
  | .inf neg => (wrapNat w (if neg then lo else hi), flInvalid)
  | .fin neg num den =>
    let n := roundNat m neg num den rb
    let x : Int := if neg then -(n : Int) else n
    if x < lo then (wrapNat w lo, flInvalid)
    else if hi < x then (wrapNat w hi, flInvalid)
    else (wrapNat w x, flagIf (num % den != 0) flInexact)

/-- An integer as an exact value. -/
def intV (x : Int) : Fv := .fin (decide (x < 0)) x.natAbs 1

/-! ## Element codes (R86) -/

inductive Elem where
  | int (signed : Bool) (w : Nat)
  | flt (F : Fmt)
deriving DecidableEq, Repr

/-- The element format of a code of R86. -/
def elemOf (code : Nat) : Elem :=
  if code < 8 then .int (code < 4) (8 * 2 ^ (code % 4))
  else if code = 8 then .flt fmtF64
  else if code = 9 then .flt fmtF32
  else if code = 10 then .flt fmtBf16
  else if code = 11 then .flt fmtF16
  else if code = 12 then .flt fmtE4M3
  else .flt fmtE5M2

def Elem.width : Elem → Nat
  | .int _ w => w
  | .flt F => F.width

/-- The floating format of a lane-type field (R87). -/
def laneFmt (t : Nat) : Fmt :=
  if t = 0 then fmtF64 else if t = 1 then fmtF32 else if t = 2 then fmtBf16 else fmtF16

/-- One element converted (R171).
Log 126: DESIGN CHOICE, unsafe. -/
def convert (src dst : Elem) (same : Bool) (r : Rnd) (rb x : Nat) : Nat × Flags :=
  match src, dst with
  | .int sg w, .int sg' w' =>
    if same then (x % 2 ^ w, 0)
    else reduceInt r.sat sg' w' (if sg then signNat x w else ((x % 2 ^ w : Nat) : Int))
  | .int sg w, .flt T =>
    deliver T r rb (intV (if sg then signNat x w else ((x % 2 ^ w : Nat) : Int)))
  | .flt F, .int sg' w' =>
    let v := flushIn F r.ftz x
    let y := floatToInt r.mode sg' w' rb v.1
    (y.1, v.2 ||| y.2)
  | .flt F, .flt T =>
    let v := flushIn F r.ftz x
    if same then
      match v.1 with
      | .nan _ => (T.canon, v.2 ||| nanFlags v.1)
      | .inf neg => (infBits T neg, v.2)
      | .fin neg num _ => (if num = 0 then signBits T neg else x % 2 ^ T.width, v.2)
    else
      let y := deliver T r rb v.1
      (y.1, v.2 ||| nanFlags v.1 ||| y.2)

/-! ## Floating operations on patterns -/

/-- A rounded binary operation on two patterns. -/
def addF (F : Fmt) (r : Rnd) (rb a b : Nat) : Nat × Flags :=
  let x := flushIn F r.ftz a
  let y := flushIn F r.ftz b
  let z := addV r.mode x.1 y.1
  let q := deliver F r rb z.1
  (q.1, x.2 ||| y.2 ||| z.2 ||| q.2)

def subF (F : Fmt) (r : Rnd) (rb a b : Nat) : Nat × Flags :=
  let x := flushIn F r.ftz a
  let y := flushIn F r.ftz b
  let z := addV r.mode x.1 (negV y.1)
  let q := deliver F r rb z.1
  (q.1, x.2 ||| y.2 ||| z.2 ||| q.2)

def mulF (F : Fmt) (r : Rnd) (rb a b : Nat) : Nat × Flags :=
  let x := flushIn F r.ftz a
  let y := flushIn F r.ftz b
  let z := mulV x.1 y.1
  let q := deliver F r rb z.1
  (q.1, x.2 ||| y.2 ||| z.2 ||| q.2)

/-- a × b + c with one rounding (R165). -/
def fmaF (F : Fmt) (r : Rnd) (rb a b c : Nat) : Nat × Flags :=
  let x := flushIn F r.ftz a
  let y := flushIn F r.ftz b
  let w := flushIn F r.ftz c
  let p := mulV x.1 y.1
  let z := addV r.mode p.1 w.1
  let q := deliver F r rb z.1
  (q.1, x.2 ||| y.2 ||| w.2 ||| p.2 ||| z.2 ||| q.2)

/-- The order of finite values and infinities, −0 below +0 (R166). -/
def ltV (a b : Fv) : Bool :=
  match a, b with
  | .nan _, _ => false
  | _, .nan _ => false
  | .inf x, .inf y => x && !y
  | .inf x, _ => x
  | _, .inf y => !y
  | .fin x n d, .fin y k e =>
    match x, y with
    | true, false => true
    | false, true => false
    | false, false => n * e < k * d
    | true, true => k * d < n * e

/-- Equality of values, zeros of either sign equal (R163). -/
def eqV (a b : Fv) : Bool :=
  match a, b with
  | .nan _, _ => false
  | _, .nan _ => false
  | .inf x, .inf y => x == y
  | .inf _, _ => false
  | _, .inf _ => false
  | .fin x n d, .fin y k e => (n * e == k * d) && (x == y || n == 0)

def isNanV : Fv → Bool
  | .nan _ => true
  | _ => false

/-- The pattern of an input that is delivered unrounded. -/
def passF (F : Fmt) (ftz : Bool) (x : Nat) : Nat :=
  if ftz && isSubnormal F x then signBits F (x / 2 ^ (F.eb + F.fb) % 2 == 1) else x

/-- vfmin and vfmax (R166). -/
def minmaxF (F : Fmt) (ftz big : Bool) (a b : Nat) : Nat × Flags :=
  let x := flushIn F ftz a
  let y := flushIn F ftz b
  let fl := x.2 ||| y.2 ||| nanFlags x.1 ||| nanFlags y.1
  if isNanV x.1 && isNanV y.1 then (F.canon, fl)
  else if isNanV x.1 then (passF F ftz b, fl)
  else if isNanV y.1 then (passF F ftz a, fl)
  else if (if big then ltV x.1 y.1 else ltV y.1 x.1) then (passF F ftz b, fl)
  else (passF F ftz a, fl)

/-- vfcmp's condition and flags (R163): 0 eq, 1 ne, 2 lt, 3 le, 4 un. -/
def compareF (F : Fmt) (ftz : Bool) (cc a b : Nat) : Bool × Flags :=
  let x := flushIn F ftz a
  let y := flushIn F ftz b
  let nan := isNanV x.1 || isNanV y.1
  let sig := nanFlags x.1 ||| nanFlags y.1
  let fl := x.2 ||| y.2 ||| (if cc = 2 ∨ cc = 3 then flagIf nan flInvalid else sig)
  let eq := eqV x.1 y.1
  let lt := ltV x.1 y.1 && !eq
  (match cc with
   | 0 => !nan && eq
   | 1 => nan || !eq
   | 2 => !nan && lt
   | 3 => !nan && (lt || eq)
   | _ => nan, fl)

/-! ## Estimates and elementary functions (R167 to R169) -/

/-- The floor of the square root, by its binary digits from 2^k down. -/
def isqrtFrom : Nat → Nat → Nat → Nat
  | 0, n, acc => if (acc + 1) * (acc + 1) ≤ n then acc + 1 else acc
  | k + 1, n, acc =>
    let t := acc + 2 ^ (k + 1)
    isqrtFrom k n (if t * t ≤ n then t else acc)

def isqrt (n : Nat) : Nat := isqrtFrom (n.log2 / 2 + 1) n 0

/-- The reduced format G of R167. -/
def estFmt (F : Fmt) : Fmt :=
  let g := min 12 F.fb
  { F with fb := g, maxMag := (2 ^ F.eb - 1) * 2 ^ g - 1 }

/-- m1 · 2^e of R167 for a magnitude, e given apart: m1 in units of 2^-13. -/
def midpoint (num den : Nat) : Nat × Int :=
  let e := floorLog2 num den
  let t := scale2 num den (12 - e)
  (2 * (t.1 / t.2) + 1, e)

/-- An estimate's pattern in F from its pattern in G. -/
def widenEst (F : Fmt) (x : Nat) : Nat := x * 2 ^ (F.fb - (estFmt F).fb)

def rcpEst (F : Fmt) (ftz : Bool) (a : Nat) : Nat × Flags :=
  let x := flushIn F ftz a
  match x.1 with
  | .nan s => (F.canon, x.2 ||| nanFlags (.nan s))
  | .inf neg => (signBits F neg, x.2)
  | .fin neg num den =>
    if num = 0 then (infBits F neg, x.2 ||| flDivZero)
    else
      let m := midpoint num den
      let v := scale2 (2 ^ 13) m.1 (-m.2)
      let y := roundF (estFmt F) 0 false ftz neg v.1 v.2 0
      (widenEst F y.1, x.2 ||| y.2 ||| flInexact)

/-- The square root of num / den in units of 2^-k, doubled, its last bit set where it is inexact: a
quotient that rounds as the root does at any coarser unit. -/
def sqrtSticky (num den k : Nat) : Nat × Nat :=
  let t := num * 2 ^ (2 * k)
  let r := isqrt (t / den)
  (if r * r * den = t then 2 * r else 2 * r + 1, 2 ^ (k + 1))

def rsqEst (F : Fmt) (ftz : Bool) (a : Nat) : Nat × Flags :=
  let x := flushIn F ftz a
  match x.1 with
  | .nan s => (F.canon, x.2 ||| nanFlags (.nan s))
  | .inf neg => if neg then (F.canon, x.2 ||| flInvalid) else (0, x.2)
  | .fin neg num den =>
    if num = 0 then (infBits F neg, x.2 ||| flDivZero)
    else if neg then (F.canon, x.2 ||| flInvalid)
    else
      let m := midpoint num den
      let odd := m.2 % 2 = 1
      let m1 := if odd then 2 * m.1 else m.1
      let e := if odd then m.2 - 1 else m.2
      let q := sqrtSticky (2 ^ 13) m1 40
      let v := scale2 q.1 q.2 (-(e / 2))
      let y := roundF (estFmt F) 0 false ftz false v.1 v.2 0
      (widenEst F y.1, x.2 ||| y.2 ||| flInexact)

/-- vrcps (`half = false`): 2 − a b; vrsqs: (3 − a b) / 2 (R168). -/
def refineF (F : Fmt) (ftz half : Bool) (a b : Nat) : Nat × Flags :=
  let x := flushIn F ftz a
  let y := flushIn F ftz b
  let r : Rnd := ⟨0, false, ftz⟩
  let top : Fv := if half then .fin false 3 1 else .fin false 2 1
  let p := if zeroTimesInf x.1 y.1 then (Fv.fin false 0 1, (0 : Flags)) else mulV x.1 y.1
  let d := addV 0 top (negV p.1)
  let h := match d.1 with
    | .fin neg n e => if half then Fv.fin neg n (2 * e) else .fin neg n e
    | v => v
  let q := deliver F r 0 h
  (q.1, x.2 ||| y.2 ||| p.2 ||| d.2 ||| q.2)

/-- Bounds of 2^(2^-1), 2^(2^-2), … folded over the binary fraction digits of an exponent, `n` digits
from the first: lower and upper bounds in units of 2^-P of the power of two of those digits. -/
def exp2Digits (P : Nat) : Nat → Nat → Nat → Nat → Nat → Nat → Nat × Nat
  | 0, _, _, _, lo, hi => (lo, hi)
  | n + 1, f, rl, rh, lo, hi =>
    let rl' := isqrt (rl * 2 ^ P)
    let rh' := isqrt (rh * 2 ^ P) + 1
    if f / 2 ^ n % 2 = 1 then
      exp2Digits P n f rl' rh' (lo * rl' / 2 ^ P) (hi * rh' / 2 ^ P + 1)
    else exp2Digits P n f rl' rh' lo hi

/-- Strict bounds of 2^(fn / fd), 0 < fn < fd, in units of 2^-P: the first P digits, and 2^t ≤ 1 + t
for the rest. -/
def exp2Bounds (P fn fd : Nat) : Nat × Nat :=
  let f := fn * 2 ^ P / fd
  let b := exp2Digits P P f (2 * 2 ^ P) (2 * 2 ^ P) (2 ^ P) (2 ^ P)
  (b.1, b.2 + b.2 / 2 ^ P + 1)

/-- The first precision at which both bounds round to one pattern. -/
def roundBounds (F : Fmt) (ftz neg : Bool) (bounds : Nat → (Nat × Nat) × (Nat × Nat)) :
    List Nat → Option (Nat × Flags)
  | [] => none
  | P :: t =>
    let b := bounds P
    let x := roundF F 0 false ftz neg b.1.1 b.1.2 0
    let y := roundF F 0 false ftz neg b.2.1 b.2.2 0
    if x = y then some x else roundBounds F ftz neg bounds t

/-- The magnitude of a pattern, the exponent field read as if it were unbounded. -/
def magVal (F : Fmt) (b : Nat) : Nat × Nat :=
  let e := b / 2 ^ F.fb
  let f := b % 2 ^ F.fb
  if e = 0 then scale2 f 1 (F.emin - F.fb) else scale2 (2 ^ F.fb + f) 1 ((e : Int) - F.bias - F.fb)

/-- The value halfway between the magnitudes of patterns b and b + 1. -/
def midOf (F : Fmt) (b : Nat) : Nat × Nat :=
  let x := magVal F b
  let y := magVal F (b + 1)
  (x.1 * y.2 + y.1 * x.2, 2 * x.2 * y.2)

/-- The flags of a rounding whose exact value is irrational. -/
def irrationalFlags (F : Fmt) (ftz : Bool) (mag : Nat) : Nat × Flags :=
  if F.maxMag < mag then (F.infMag, flOverflow ||| flInexact)
  else if mag < 2 ^ F.fb then
    if ftz && decide (0 < mag) then (0, flFlushed ||| flUnderflow ||| flInexact)
    else (mag, flUnderflow ||| flInexact)
  else (mag, flInexact)

/-- The pattern to which an irrational magnitude rounds: the number of midpoints below it. -/
def countBelow (F : Fmt) (ftz : Bool) (below : Nat → Nat → Bool) : Nat × Flags :=
  irrationalFlags F ftz
    ((List.range (F.maxMag + 1)).countP fun b => below (midOf F b).1 (midOf F b).2)

/-- The precisions tried in turn. -/
def precisions : List Nat := [64, 128, 256, 512, 1024]

/-- vexp2 on one lane (R169). -/
def exp2F (F : Fmt) (ftz : Bool) (a : Nat) : Nat × Flags :=
  let x := flushIn F ftz a
  match x.1 with
  | .nan s => (F.canon, x.2 ||| nanFlags (.nan s))
  | .inf neg => if neg then (0, x.2) else (infBits F false, x.2)
  | .fin neg num den =>
    let z : Int := if neg then -(num : Int) else num
    let k0 := z / (den : Int)
    let k := max (-5000) (min 5000 k0)
    let fn := (z % (den : Int)).toNat
    let y :=
      if fn = 0 ∨ k0 ≠ k then
        let v := scale2 1 1 k
        roundF F 0 false ftz false v.1 v.2 0
      else
        match roundBounds F ftz false (fun P =>
            let b := exp2Bounds P fn den
            (scale2 (2 * b.1 + 1) (2 ^ (P + 1)) k, scale2 (2 * b.2 - 1) (2 ^ (P + 1)) k)) precisions with
        | some r => r
        | none => countBelow F ftz fun u v =>
            let w := scale2 u v (-k)
            decide (w.1 ^ den < 2 ^ fn * w.2 ^ den)
    (y.1, x.2 ||| y.2)

/-- The first n binary digits of log2 of a value in [1, 2) with bounds lo, hi in units of 2^-P, by
squaring: bounds of the digits read as an integer. -/
def log2Digits (P : Nat) : Nat → Nat → Nat → Nat
  | 0, _, acc => acc
  | n + 1, x, acc =>
    let y := x * x / 2 ^ P
    if 2 * 2 ^ P ≤ y then log2Digits P n (y / 2) (2 * acc + 1) else log2Digits P n y (2 * acc)

def log2DigitsUp (P : Nat) : Nat → Nat → Nat → Nat
  | 0, _, acc => acc
  | n + 1, x, acc =>
    let y := x * x / 2 ^ P + 1
    if 2 * 2 ^ P ≤ y then log2DigitsUp P n (y / 2 + 1) (2 * acc + 1) else log2DigitsUp P n y (2 * acc)

/-- vlog2 on one lane (R169). -/
def log2F (F : Fmt) (ftz : Bool) (a : Nat) : Nat × Flags :=
  let x := flushIn F ftz a
  match x.1 with
  | .nan s => (F.canon, x.2 ||| nanFlags (.nan s))
  | .inf neg => if neg then (F.canon, x.2 ||| flInvalid) else (infBits F false, x.2)
  | .fin neg num den =>
    if num = 0 then (infBits F true, x.2 ||| flDivZero)
    else if neg then (F.canon, x.2 ||| flInvalid)
    else
      let e := floorLog2 num den
      let m := scale2 num den (-e)
      if m.1 = m.2 then
        let y := roundF F 0 false ftz (decide (e < 0)) e.natAbs 1 0
        (y.1, x.2 ||| y.2)
      else
        let sgn := decide (e < 0)
        let y := match roundBounds F ftz sgn (fun n =>
            let P := 2 * n
            let lo := (log2Digits P n (m.1 * 2 ^ P / m.2) 0 : Int) + e * (2 ^ n : Nat)
            let hi := (log2DigitsUp P n (m.1 * 2 ^ P / m.2 + 1) 0 : Int) + 2 + e * (2 ^ n : Nat)
            if sgn then (((-lo).toNat, 2 ^ n), ((-hi).toNat, 2 ^ n))
            else ((lo.toNat, 2 ^ n), (hi.toNat, 2 ^ n))) precisions with
          | some r => r
          | none =>
            let c := countBelow F ftz fun u v =>
              if sgn then decide (2 ^ u * num ^ v < den ^ v) else decide (2 ^ u * den ^ v < num ^ v)
            (signBits F sgn + c.1, c.2)
        (y.1, x.2 ||| y.2)

/-! ## The random streams (R53) -/

def mix (x0 : Word) : Word :=
  let x1 := (x0 ^^^ (x0 >>> 30)) * 0x8f3c5a1ed97b2c65
  let x2 := (x1 ^^^ (x1 >>> 27)) * 0xc2b741f90e6da537
  x2 ^^^ (x2 >>> 31)

/-- The word that a stream delivers at a counter. -/
def randWord (key cnt : Word) : Word := mix (key ^^^ (cnt * 0x6a09e667f3bcc909))

/-- n words drawn from the stream that fmt.rss names; the draw is counted in the issue frame (R55). -/
def State.draw (s : State) (n : Nat) : List Word × State :=
  if fmtRss s.fmt then
    ((List.range n).map fun k =>
      randWord s.px.rkey1 (s.px.rcnt1 + BitVec.ofNat 64 (s.iss.drawn1 + k)),
     { s with iss := { s.iss with drawn1 := s.iss.drawn1 + n } })
  else
    ((List.range n).map fun k =>
      randWord s.px.rkey0 (s.px.rcnt0 + BitVec.ofNat 64 (s.iss.drawn0 + k)),
     { s with iss := { s.iss with drawn0 := s.iss.drawn0 + n } })

/-- The mode that a rounding field names (R50), and n chunks when it is stochastic (R54). -/
def State.chunks (s : State) (rm : Nat) (n : Nat) : Nat × List Nat × State :=
  let m := if rm = 6 then fmtRnd s.fmt else rm
  if m = 5 then
    let d := s.draw ((n + 1) / 2)
    (m, d.1.flatMap (fun w => [fld w 0 32, fld w 32 32]), d.2)
  else (m, [], s)

/-! ## Bit planes, block integers, packing (R56 to R64) -/

/-- PlaneRead (R57): x a signed element, p planes. -/
def planeRead (x : Int) (p : Nat) (prd : Bool) : Int :=
  let v := x / ((2 ^ (8 - p) : Nat) : Int)
  if p = 1 then v
  else
    let bit := wrapNat 8 x / 2 ^ (7 - p) % 2
    let v := if prd ∧ p < 8 then v + bit else v
    min v (((2 ^ (p - 1) : Nat) : Int) - 1)

/-- Ternary and binary bytes (R58). -/
def ternary (b : Nat) : Int := if b % 4 = 1 then 1 else if b % 4 = 3 then -1 else 0

def binaryElem (b : Nat) : Int := if b % 2 = 1 then 1 else -1

/-- A slot as the element format reads it (R62, R188): format code, planes, prd, slot width. -/
def slotValue (ef p : Nat) (prd : Bool) (w x : Nat) : Int :=
  if ef = 0 then planeRead (signNat x 8) p prd
  else if ef = 2 then ((x % 2 ^ w : Nat) : Int)
  else if ef = 9 then ternary x
  else if ef = 10 then binaryElem x
  else signNat x w

/-- The coefficients of an operand word (R62). -/
def coeffs (ef p : Nat) (prd : Bool) (w : Nat) (r : Row) : List Int :=
  (List.range (512 / w)).map fun i => slotValue ef p prd w (lane w r i)

/-- PackVal of the coefficients, from coefficient 0 (R62). -/
def packVal (w : Nat) : List Int → Int
  | [] => 0
  | x :: t => x + ((2 ^ w : Nat) : Int) * packVal w t

/-- MaxAbs of the coefficients (R63). -/
def maxAbs (l : List Int) : Nat := l.foldl (fun m x => max m x.natAbs) 0

/-- Extract (R64), n2 digits of an integer. -/
def extractDigits (w : Nat) : Nat → Int → List Int
  | 0, _ => []
  | n + 1, v =>
    let d := signNat (wrapNat w v) w
    d :: extractDigits w n ((v - d) / ((2 ^ w : Nat) : Int))

/-- The signed reading of an n-bit vector of any width. -/
def bvInt {n : Nat} (x : BitVec n) : Int := x.toInt

/-- DiagBeat (R66): one output element, the products in chunk-row order. -/
def addQ (a b : Nat) : Nat × Flags := addF fmtQ128 ⟨0, false, false⟩ 0 a b

def mulQ (F : Fmt) (a b : Nat) : Nat × Flags :=
  let z := mulV (decodeF F a) (decodeF F b)
  let q := deliver fmtQ128 ⟨0, false, false⟩ 0 z.1
  (q.1, z.2 ||| q.2)

/-- Sum from the left of Q128 patterns that carry flags. -/
def sumQ : Nat × Flags → List (Nat × Flags) → Nat × Flags
  | acc, [] => acc
  | acc, x :: t =>
    let y := addQ acc.1 x.1
    sumQ (y.1, acc.2 ||| x.2 ||| y.2) t

def sumFirst : List (Nat × Flags) → Nat × Flags
  | [] => (0, 0)
  | x :: t => sumQ x t

def diagBeat (acc : Nat) (P : List (List (Nat × Flags))) : Nat × Flags :=
  let u := sumFirst (P.map sumFirst)
  let y := addQ acc u.1
  (y.1, u.2 ||| y.2)

/-- HistBin (R67) by element code 8 to 13. -/
def histBin (code x : Nat) : Nat :=
  match elemOf code with
  | .int _ _ => 0
  | .flt F =>
    let e := x / 2 ^ F.fb % 2 ^ F.eb
    let f := x % 2 ^ F.fb
    if e = 0 then 0
    else if F.noInf then (if e = 2 ^ F.eb - 1 ∧ f = 2 ^ F.fb - 1 then 255 else e + 120)
    else if e = 2 ^ F.eb - 1 then 255
    else if code = 8 then min 254 (max 1 (e - 896))
    else if code = 9 ∨ code = 10 then e
    else e + 112

/-- A bin after one more count (R67). -/
def binUp (x : BitVec 32) : BitVec 32 := if x = ~~~0 then x else x + 1

/-- The histogram store after the patterns of a list are counted. -/
def histCount (code : Nat) (h : Tab (BitVec 32)) (l : List Nat) : Tab (BitVec 32) :=
  l.foldl (fun h x => let b := histBin code x; Tab.put h b (binUp (Tab.get 0 h b))) h

/-- BlockToInt (R60): scale byte and elements of a block given as patterns of F.
Log 130: DEDUCED, unsafe. -/
def blockToInt (F : Fmt) (ftz : Bool) (p0 rm : Nat) (l : List Nat) : Nat × List Int :=
  let p := if p0 = 1 then 2 else p0
  let m := if rm = 5 then 0 else rm
  let vs := l.map fun x => (flushIn F ftz x).1
  let bad := vs.any fun v => match v with
    | .fin _ _ _ => false
    | _ => true
  if bad then (255, l.map fun _ => 0)
  else
    let e? := vs.foldl (fun (acc : Option Int) v => match v with
      | .fin _ n d =>
        if n = 0 then acc
        else match acc with
          | none => some (floorLog2 n d)
          | some k => some (max k (floorLog2 n d))
      | _ => acc) none
    match e? with
    | none => (0, l.map fun _ => 0)
    | some k =>
      let e := max (-127) (k - ((p : Int) - 2))
      let hi : Int := ((2 ^ (p - 1) : Nat) : Int) - 1
      ((e + 127).toNat, vs.map fun v => match v with
        | .fin neg n d =>
          let t := scale2 n d (-e)
          let q : Int := roundNat m neg t.1 t.2 0
          max (-hi) (min hi (if neg then -q else q))
        | _ => 0)

end Sys2Proof.Machine
end

