-- ==== Sys2Proof/Machine/Memory.lean ====
section
/-! DEFINITION. Memory: bytes at the homes, rows, the coherence order with what each agent has seen of it
(R229 to R251), the cipher (R328) and the parity regions (R332 to R335). Rows are numbered by physical
address divided by 64. -/

namespace Sys2Proof.Machine

/-! ## Bytes and rows at the homes -/

/-- The form of the memory lists, of the homes and of what is durable: rising addresses, no byte equal to what an unlisted
address reads.
Log 10: DESIGN CHOICE, unsafe. -/
abbrev Mem.wf (m : Mem) : Bool := Tab.canonical (0 : Byte) m.cells && Tab.canonical (0 : Byte) m.durable

/-- One byte at a physical address.
Log 10: DESIGN CHOICE, unsafe. -/
def Mem.byte (m : Mem) (pa : Nat) : Byte := Tab.get 0 m.cells pa

/-- The bytes of a row, from its lowest address. -/
def rowByteList (r : Row) : List Byte := (List.range 64).map fun i => r.extractLsb' (8 * i) 8

/-- Consecutive bytes written from an address on. -/
def putBytes (c : List Host.Cell) (pa : Nat) : List Byte → List Host.Cell
  | [] => c
  | b :: t => putBytes (Tab.set 0 c pa b) (pa + 1) t

/-- A row at its home.
Log 43: DESIGN CHOICE, unsafe. -/
def Mem.home (m : Mem) (r : Nat) : Row :=
  ofLanes 8 ((List.range 64).map fun i => (m.byte (64 * r + i)).toNat)

/-- A row at its home replaced. -/
def Mem.setHome (m : Mem) (r : Nat) (v : Row) : Mem :=
  { m with cells := putBytes m.cells (64 * r) (rowByteList v) }

/-- A word of memory at a physical address, its low three bits ignored.
Log 43: DESIGN CHOICE, unsafe. -/
def Mem.word (m : Mem) (pa : Nat) : Word :=
  BitVec.ofNat 64 (lanesNat 8 ((List.range 8).map fun i => (m.byte (pa / 8 * 8 + i)).toNat))

/-! ## The physical map (R316, R317) -/

def hubBase : Nat := 0x7FDFFF0000
/-- The first byte that is reserved to the base dies. -/
def baseDieBase : Nat := 0x7FE0000000
def tierBase : Nat := 0x80000000000
def tierEnd : Nat := 0xA0000000000

/-- Whether n bytes at a physical address are mappable HBM4E. -/
def inHbm (pa n : Nat) : Bool := pa + n ≤ hubBase

/-- Whether n bytes at a physical address are in the capacity tier. -/
def inTier (pa n : Nat) : Bool := tierBase ≤ pa && pa + n ≤ tierEnd

/-- Whether n bytes at a physical address are memory that software may map (R316). -/
def inMemory (pa n : Nat) : Bool := inHbm pa n || inTier pa n

/-- Whether a row lies in the hub page, 64 KiB at `hubBase` (R419). -/
def isHubRow (r : Nat) : Bool := r / 1024 == hubBase / 65536

/-- The offset of a physical address within the hub page. -/
def hubOffset (pa : Nat) : Nat := pa % 65536

/-! ## Regions (R332 to R335) -/

def regionSpan (e : RegionEnt) : Nat := if e.kind = 1 then 8 * e.size * 0x200000 else e.size * 0x200000

/-- The region that holds a physical address. -/
def Mem.region (m : Mem) (pa : Nat) : Option RegionEnt :=
  m.regions.find? fun e => e.kind ≠ 0 ∧ e.base ≤ pa ∧ pa < e.base + regionSpan e

/-- Whether an address lies in a region that is being loaded (R332). -/
def Mem.loading (m : Mem) (pa : Nat) : Bool :=
  match m.regionsIn with
  | some l => (l.any fun e => e.kind ≠ 0 ∧ e.base ≤ pa ∧ pa < e.base + regionSpan e)
  | none => false

/-- The bytes of a range moved to another, over the listed bytes only. -/
def moveCells (c : List Host.Cell) (src dst n : Nat) : List Host.Cell :=
  let cleared := c.filter fun e => !(decide (dst ≤ e.1) && decide (e.1 < dst + n))
  (c.filter fun e => decide (src ≤ e.1) && decide (e.1 < src + n)).foldl
    (fun acc e => Tab.set 0 acc (e.1 - src + dst) e.2) cleared

/-- The parity part of a region set to the exclusive or of its groups (R333). -/
def setParity (c : List Host.Cell) (base S : Nat) : List Host.Cell :=
  let par := base + 7 * S
  let cleared := c.filter fun e => !(decide (par ≤ e.1) && decide (e.1 < par + S))
  (c.filter fun e => decide (base ≤ e.1) && decide (e.1 < par)).foldl
    (fun acc e =>
      let p := par + (e.1 - base) % S
      Tab.set 0 acc p (Tab.get 0 acc p ^^^ e.2)) cleared

/-- The rows that a load fills: the parity part of a parity region, all of a clean-copy region (R333, R335). -/
def RegionEnt.fills (e : RegionEnt) (r : Nat) : Bool :=
  let S := e.size * 0x200000
  if e.kind = 1 then decide (e.base + 7 * S ≤ 64 * r) && decide (64 * r < e.base + 8 * S)
  else e.kind == 2 && decide (e.base ≤ 64 * r) && decide (64 * r < e.base + S)

/-- The row of a filled region that a poisoned row leaves poisoned: the parity row of its group, or its copy. -/
def RegionEnt.spoils (e : RegionEnt) (r : Nat) : Option Nat :=
  let S := e.size * 0x200000
  if e.kind = 1 then
    if e.base ≤ 64 * r ∧ 64 * r < e.base + 7 * S then some ((e.base + 7 * S + (64 * r - e.base) % S) / 64) else none
  else if e.kind = 2 ∧ e.copy ≤ 64 * r ∧ 64 * r < e.copy + S then some ((64 * r - e.copy + e.base) / 64)
  else none

/-- The parity row of a data row, as a row number. -/
def Mem.parityRow (m : Mem) (r : Nat) : Option Nat :=
  match m.region (64 * r) with
  | some e =>
    let S := e.size * 0x200000
    let o := 64 * r - e.base
    if e.kind = 1 ∧ o < 7 * S then some ((e.base + 7 * S + o % S) / 64) else none
  | none => none

/-- The place of a capacity-tier address: channel and byte within it (R317). -/
def tierPlace (pa : Nat) : Nat × Nat := (pa / 2 ^ 12 % 32, pa / 2 ^ 17 % 2 ^ 24 * 4096 + pa % 4096)

/-- The stack that is home to a physical address (R317, R333); of a capacity-tier address, which no stack holds, its
channel modulo 8.
Log 47: PRESUMED, unsafe. -/
def Mem.stackOf (m : Mem) (pa : Nat) : Nat :=
  let g := pa / 4096 % 8
  if inTier pa 1 then (tierPlace pa).1 % 8
  else
    match m.region pa with
    | some e => if e.kind = 1 then (g + (pa - e.base) / (e.size * 0x200000)) % 8 else g
    | none => g

/-! ## Uncorrectable rows and the row-remap table (R343 to R345) -/

/-- The rows of the parity group that holds a row, its parity row last (R333). -/
def Mem.group (m : Mem) (r : Nat) : Option (List Nat) :=
  match m.region (64 * r) with
  | some e =>
    let S := e.size * 0x200000
    let k := (64 * r - e.base) % S
    if e.kind = 1 then some ((List.range 8).map fun i => (e.base + i * S + k) / 64) else none
  | none => none

/-- The copy row of a row of a clean-copy region (R335). -/
def Mem.copyRow (m : Mem) (r : Nat) : Option Nat :=
  match m.region (64 * r) with
  | some e => if e.kind = 2 then some ((e.copy + (64 * r - e.base)) / 64) else none
  | none => none

/-- The place of a row in DRAM (R317): channel of the module, pseudo-channel, bank and DRAM row. The bank is
taken from bits [13:10] of the byte within the pseudo-channel and the DRAM row from those above.
Log 47: PRESUMED, unsafe. -/
def Mem.dramPlace (m : Mem) (r : Nat) : Nat × Nat × Nat × Nat :=
  let x := 64 * r
  let g := x / 4096 % 512
  let o := x / 2 ^ 21 * 4096 + x % 4096
  (m.stackOf x * 32 + g / 8 % 32, g / 256, o / 1024 % 16, o / 16384 % 65536)

/-- The physical address of the first byte of a DRAM row: the granule's stack bits are those that the skew of a parity
region maps to the channel's stack (R333).
Log 47: PRESUMED, unsafe. -/
def Mem.dramAddress (m : Mem) (channel pseudo bank dram : Nat) : Nat :=
  let o := dram * 16384 + bank * 1024
  let at_ (stack : Nat) : Nat := o / 4096 * 2 ^ 21 + (stack + 8 * (channel % 32) + 256 * pseudo) * 4096 + o % 4096
  ((List.range 8).map at_).find? (fun x => m.stackOf x == channel / 32) |>.getD (at_ (channel / 32))

/-- A bank of the module by its place. -/
def bankNumber (channel pseudo bank : Nat) : Nat := (2 * channel + pseudo) * 16 + bank

/-- The bank of a row. -/
def Mem.bankOf (m : Mem) (r : Nat) : Nat :=
  let p := m.dramPlace r
  bankNumber p.1 p.2.1 p.2.2.1

/-- A DRAM row by its place. -/
def dramNumber (channel pseudo bank dram : Nat) : Nat := bankNumber channel pseudo bank * 65536 + dram

/-- A remap entry (R344). -/
def remapWord (bank dram spare : Nat) : BitVec 32 :=
  BitVec.ofNat 32 (2 ^ 31 + bank % 16 * 2 ^ 26 + dram % 65536 * 2 ^ 10 + spare)

/-- A DRAM row moved to the next spare, from which its errors are counted anew: authoritative entry first, then both
copies; with no spare left it is to be reported (R344).
Log 131: DEDUCED, unsafe. -/
def Mem.remap (m : Mem) (channel pseudo bank dram : Nat) : Mem :=
  let k := 2 * channel + pseudo
  let t := Tab.get [] m.remapM k
  let n := t.length
  if 64 ≤ n then
    { m with reports := m.reports ++ [⟨0x0C, BitVec.ofNat 8 (channel / 32), 0,
        BitVec.ofNat 64 (m.dramAddress channel pseudo bank dram), BitVec.ofNat 64 (2 * (channel % 32) + pseudo)⟩] }
  else
    let old (e : Nat × BitVec 32) : Nat × BitVec 32 :=
      if e.2.extractLsb' 10 20 = (remapWord bank dram 0).extractLsb' 10 20 then (e.1, e.2 &&& 0x7FFFFFFF) else e
    let put (x : Tab (BitVec 32)) := Tab.put (x.map old) n (remapWord bank dram n)
    { m with
      remapM := Tab.put m.remapM k (put t),
      remapA := Tab.put m.remapA k (put (Tab.get [] m.remapA k)),
      remapB := Tab.put m.remapB k (put (Tab.get [] m.remapB k)),
      corrected := Tab.erase m.corrected (dramNumber channel pseudo bank dram) }

/-- A channel's tables loaded from their authoritative copies (R345). -/
def Mem.reloadRemap (m : Mem) (channel : Nat) : Mem :=
  let load (t : Tab (Tab (BitVec 32))) (p : Nat) : Tab (Tab (BitVec 32)) :=
    Tab.put t (2 * channel + p) (Tab.get [] m.remapM (2 * channel + p))
  { m with remapA := load (load m.remapA 0) 1, remapB := load (load m.remapB 0) 1,
           sramBad := m.sramBad.filter fun e => e.1 ≠ channel }

/-- Whether both SRAM copies of the tables of a row's channel are uncorrectable (R345). -/
def Mem.blocked (m : Mem) (r : Nat) : Bool :=
  let c := (m.dramPlace r).1
  inHbm (64 * r) 64 && m.sramBad.contains (c, false) && m.sramBad.contains (c, true)

/-- A copy of a channel's remap tables found uncorrectable; one that is alone is rewritten from the other (R345). -/
def Mem.sramError (m : Mem) (channel : Nat) (second : Bool) : Mem :=
  let k (p : Nat) := 2 * channel + p
  if m.sramBad.contains (channel, second) then
    let l := m.sramBad.filter fun e => e ≠ (channel, second)
    if m.sramBad.contains (channel, !second) then m
    else if second then
      { m with sramBad := l,
               remapB := [0, 1].foldl (fun t p => Tab.put t (k p) (Tab.get [] m.remapA (k p))) m.remapB }
    else
      { m with sramBad := l,
               remapA := [0, 1].foldl (fun t p => Tab.put t (k p) (Tab.get [] m.remapB (k p))) m.remapA }
  else { m with sramBad := m.sramBad ++ [(channel, second)] }

/-- A difference applied to its parity row (R334). -/
def Mem.applyDiff (m : Mem) (d : Nat × Row) : Mem := m.setHome d.1 (m.home d.1 ^^^ d.2)

/-- The differences on their way to a group's parity row applied (R334, R343). -/
def Mem.settleGroup (m : Mem) (g : List Nat) : Mem :=
  let mine := m.diffs.filter fun d => g.contains d.1
  mine.foldl Mem.applyDiff { m with diffs := m.diffs.filter fun d => !g.contains d.1 }

/-- A row that no source can rebuild: poisoned, and to be reported (R343, R394). -/
def Mem.poison (m : Mem) (r : Nat) : Mem :=
  { m with bad := insertNat m.bad r,
           reports := m.reports ++ [⟨0x01, BitVec.ofNat 8 (m.stackOf (64 * r)), 0, BitVec.ofNat 64 (64 * r), 0⟩] }

/-- The rows of one region filled (R333, R335): each parity row the XOR of its group, each clean-copy row its copy. What
the rows held before is gone: their poison, the writes to them that some agent might still see, and the differences on
their way; a row made from a poisoned one is poisoned, and a source that its ECC cannot correct, which no region covers yet, is
poisoned first (R343).
Log 48: DEDUCED, unsafe. -/
def Mem.fillRegion (m0 : Mem) (e : RegionEnt) : Mem :=
  let lost := m0.uncorr.filter fun r => (e.spoils r).isSome
  let m := { lost.foldl Mem.poison m0 with uncorr := m0.uncorr.filter fun r => (e.spoils r).isNone && !e.fills r }
  { m with
    cells := if e.kind = 1 then setParity m.cells e.base (e.size * 0x200000)
      else if e.kind = 2 then moveCells m.cells e.copy e.base (regionSpan e)
      else m.cells,
    bad := (m.bad.filter fun r => !e.fills r) ++ m.bad.filterMap e.spoils,
    diffs := m.diffs.filter fun d => !e.fills d.1,
    log := m.log.filter fun w => !e.fills w.row }

/-- The end of a load of the region table (R332). -/
def Mem.loadRegions (m : Mem) : Mem :=
  match m.regionsIn with
  | none => m
  | some l =>
    { l.foldl Mem.fillRegion m with regions := l.filter (fun e => e.kind ≠ 0), regionsIn := none }

/-- A row rewritten by its recovery, which is counted (R403) and remaps its DRAM row (R344). -/
def Mem.recovered (m : Mem) (r : Nat) (v : Row) : Mem :=
  let p := m.dramPlace r
  { m.setHome r v with bad := removeNat m.bad r, recoveries := m.recoveries + 1 }.remap p.1 p.2.1 p.2.2.1 p.2.2.2

/-- A row whose read is uncorrectable recovered in the first way that applies (R343): from its parity group, once every
difference sent to it has been applied, or from its copy; else poisoned. A source that is itself poisoned or
uncorrectable fails. -/
def Mem.recover (m0 : Mem) (r : Nat) : Mem :=
  let fails (i : Nat) : Bool := m0.bad.contains i || m0.uncorr.contains i
  let m := { m0 with uncorr := removeNat m0.uncorr r }
  match m.group r with
  | some g =>
    let m1 := m.settleGroup g
    let others := g.filter fun i => i ≠ r
    if others.any fails then m1.poison r else m1.recovered r (others.foldl (fun v i => v ^^^ m1.home i) 0)
  | none =>
    match m.copyRow r with
    | some c => if fails c then m.poison r else m.recovered r (m.home c)
    | none => m.poison r

/-- Whether accesses to an address wait: for the load of a region table (R332), for the recovery of their row (R343), or
for that of their channel's remap tables (R345). -/
def Mem.stalls (m : Mem) (pa : Nat) : Bool := m.loading pa || m.uncorr.contains (pa / 64) || m.blocked (pa / 64)

/-- Memory once an access to an address waits for none of these. -/
def Mem.opened (m : Mem) (pa : Nat) : Mem :=
  let m1 := if m.loading pa then m.loadRegions else m
  let m2 := if m1.blocked (pa / 64) then m1.reloadRemap (m1.dramPlace (pa / 64)).1 else m1
  if m2.uncorr.contains (pa / 64) then m2.recover (pa / 64) else m2

/-- A row performed at its home, with the difference that a parity region sends, for which the old row is rebuilt first if
it cannot be read (R334). A write of all 64 bytes clears poison (R394). -/
def Mem.perform (m0 : Mem) (r : Nat) (v : Row) : Mem :=
  match m0.parityRow r with
  | some p =>
    let m := if m0.uncorr.contains r then m0.recover r else m0
    { m.setHome r v with diffs := m.diffs ++ [(p, m.home r ^^^ v)], bad := removeNat m.bad r }
  | none => { m0.setHome r v with bad := removeNat m0.bad r, uncorr := removeNat m0.uncorr r }

/-! ## Coherence order -/

/-- The writes to a row, in coherence order. -/
def Mem.recs (m : Mem) (r : Nat) : List WriteRec := m.log.filter fun w => w.row = r

/-- The last write in a row's coherence order, or what the home holds. -/
def Mem.latest (m : Mem) (r : Nat) : Row :=
  match (m.recs r).getLast? with
  | some w => w.val
  | none => m.home r

/-- The row before every write of the log. -/
def Mem.initial (m : Mem) (r : Nat) : Row :=
  match m.recs r with
  | w :: _ => w.prev
  | [] => m.home r

/-- What an agent may read of a row, newest first, each with the write's identifier, 0 for the initial
row (R238). -/
def seenFrom (init : Row) (got viewed : WriteRec → Bool) : List WriteRec → List (Nat × Row)
  | [] => [(0, init)]
  | w :: t =>
    if viewed w then [(w.ident, w.val)]
    else if got w then (w.ident, w.val) :: seenFrom init got viewed t
    else seenFrom init got viewed t

/-- The view of an agent takes in a write and every write before it in its row's order (R234 item 2).
Log 41: DESIGN CHOICE, unsafe. -/
def Mem.see (m : Mem) (a : Agent) (r ident : Nat) : Mem :=
  if (m.recs r).any (fun w => w.ident = ident) then
    let upto := (m.recs r).takeWhile (fun w => w.ident ≠ ident) |>.map WriteRec.ident
    { m with log := m.log.map fun w =>
        if w.row = r ∧ (w.ident = ident ∨ upto.contains w.ident) ∧ !w.viewed.contains a then
          { w with viewed := a :: w.viewed }
        else w }
  else m

/-- Whether a write is in an agent's view (R234). -/
def WriteRec.inView (w : WriteRec) (a : Agent) : Bool := w.viewed.contains a || w.beside.contains a

/-- A cacheable write, last in its row's coherence order; the line, at a place of a core's array, is dirty until it is
written back. -/
def Mem.storeCached (m : Mem) (a : Agent) (rank : Option (BitVec 16)) (line : Option (Nat × Nat)) (r : Nat) (v : Row) : Mem :=
  let w : WriteRec :=
    { ident := m.nextId, row := r, val := v, prev := m.latest r, by_ := a, rank := rank, dirty := true,
      homed := false, all := none, pub := [], reached := [], spread := [], viewed := [a], line := line }
  { m with log := (m.log.map fun x => if x.row = r then { x with dirty := false } else x) ++ [w],
           nextId := m.nextId + 1, bad := removeNat m.bad r }

/-- Whether a write is known to have reached some agent. -/
def WriteRec.known (w : WriteRec) : Bool := w.all.isSome || !w.reached.isEmpty || !w.spread.isEmpty

/-- Whether a write goes ahead of one that now reaches some agents: it has reached some agent before, or has been
published (R236 items 2 and 3).
Log 49: DESIGN CHOICE, unsafe. -/
def WriteRec.goesAhead (w : WriteRec) : Bool := w.known || !w.pub.isEmpty

/-- A write reaches the members of the given scopes, at place n of the order of such events (R236).
Log 49: DESIGN CHOICE, unsafe. -/
def WriteRec.spreadTo (n : Nat) (l : List Scope) (w : WriteRec) : WriteRec :=
  { w with spread := w.spread ++ (l.filter fun c => !(w.spread.any fun p => p.1 == c)).map fun c => (c, n) }

def isContext : Agent → Bool
  | .context _ _ => true
  | _ => false

/-- A write performed at the home: through a memory-side or uncached mapping, or by an agent of the hub (R244, R251).
It reaches every agent, and before it every write that has been published or has reached one (R236 items 2 and 3). `clean`
says that it is coherent with the caches, so that no dirty line survives it; a context's loads through a cached mapping then
take it in only as R251 gives.
Log 49: DESIGN CHOICE, unsafe. -/
def Mem.storeHome (m : Mem) (a : Agent) (rank : Option (BitVec 16)) (clean : Bool) (r : Nat) (v : Row) : Mem :=
  let n := m.arrivals
  let w : WriteRec :=
    { ident := m.nextId, row := r, val := v, prev := m.latest r, by_ := a, rank := rank, dirty := false,
      homed := true, all := some (n + 1), pub := [], reached := [], spread := [],
      viewed := if clean || !isContext a then [a] else [], beside := if clean || !isContext a then [] else [a] }
  let m1 := m.perform r v
  let seen (x : WriteRec) : WriteRec := if x.goesAhead && x.all.isNone then { x with all := some n } else x
  { m1 with log := (m1.log.map fun x => seen (if x.row = r ∧ clean then { x with dirty := false } else x)) ++ [w],
            nextId := m.nextId + 1, arrivals := n + 2 }

/-- A dirty line written back: its row takes the line's value (R251, R378). Where a later write was performed at the
home, the line overwrites it and so stands last in coherence order once more. -/
def Mem.writeBack (m : Mem) (r : Nat) : Mem :=
  match (m.recs r).find? (fun w => w.dirty) with
  | none => m
  | some w =>
    let late := ((m.recs r).dropWhile fun x => x.ident ≠ w.ident).length > 1
    let back : WriteRec :=
      { w with ident := m.nextId, prev := m.latest r, dirty := false, homed := true, all := none, pub := [],
               reached := [], spread := [], viewed := [], line := none }
    let log := m.log.map fun x =>
      if x.ident = w.ident then { x with dirty := false, homed := x.homed || !late } else x
    { (m.perform r w.val) with log := if late then log ++ [back] else log,
                               nextId := if late then m.nextId + 1 else m.nextId }

/-- The last write of a row that has been performed at its home. -/
def Mem.homeIdent (m : Mem) (r : Nat) : Option Nat :=
  ((m.recs r).reverse.find? fun w => w.homed).map fun w => w.ident

/-- An agent that has read a row at its home has that row's last write in its view (R234 item 2). -/
def Mem.seeHome (m : Mem) (a : Agent) (r : Nat) : Mem :=
  match m.homeIdent r with
  | some i => m.see a r i
  | none => m

/-- The rows that hold a dirty line in an agent's view. -/
def Mem.dirtySeen (m : Mem) (a : Agent) : List Nat :=
  (m.log.filter fun w => w.dirty && w.inView a).map WriteRec.row

/-- The rows of the capacity tier that an agent has written or has in its view. -/
def Mem.tierRows (m : Mem) (a : Agent) : List Nat :=
  (m.log.filter fun w => (w.by_ == a || w.inView a) && inTier (64 * w.row) 64).map WriteRec.row

/-- A row of the capacity tier made durable (R250). -/
def Mem.harden (m : Mem) (r : Nat) : Mem :=
  { m with durable := putBytes m.durable (64 * r) (rowByteList (m.home r)) }

/-- A scope that is PKG or wider (R251). -/
def wideScope (code : Nat) : Bool := code == 4 || code == 10 || code == 11

/-- Publication of an agent's view at a scope, whose `who` is the publisher (R235, R242), with the operations that the
publisher has posted (R152); at PKG or wider every published row becomes clean (R251), at TIER a published row of the
capacity tier becomes durable (R250). -/
def Mem.publish (m : Mem) (a : Agent) (sc : Scope) : Mem :=
  let n := m.nextId
  let mark (b : Agent) (p : Option Nat) : Option Nat := if b = sc.who ∧ p = none then some n else p
  let m1 := { m with
    nextId := n + 1,
    posted := m.posted.map (fun p => { p with pub := mark p.by_ p.pub }),
    adds := m.adds.map (fun p => { p with pub := mark p.by_ p.pub }),
    log := m.log.map fun w =>
      if w.inView a then { w with pub := w.pub ++ [(sc, n)] } else w }
  let m2 := if wideScope sc.code then (m1.dirtySeen a).foldl Mem.writeBack m1 else m1
  if sc.code = 11 then (m2.tierRows a).foldl Mem.harden m2 else m2

/-! ## The cipher (R328) -/

/-- The keys installed under an index. -/
def Mem.key (m : Mem) (ek : Nat) : BitVec 256 × BitVec 256 := Tab.get (0, 0) m.keys ek

def Mem.encipher (m : Mem) (ek r : Nat) (v : Row) : Row :=
  if ek = 0 then v else Config.xts (m.key ek).1 (m.key ek).2 (BitVec.ofNat 128 r) v

def Mem.decipher (m : Mem) (ek r : Nat) (v : Row) : Row :=
  if ek = 0 then v else (Config.xts (m.key ek).1 (m.key ek).2 (BitVec.ofNat 128 r)).symm v

end Sys2Proof.Machine
end

