-- ==== Sys2Proof/Machine/Translate.lean ====
section
/-! DEFINITION. Address translation (R318 to R323, R333, R335): the ASID table, the three-level walk, format
errors, permissions, and the translation caches. A walk reads the tables as they stand at their home (R325). -/

namespace Sys2Proof.Machine

/-- The row number of an access. -/
def Acc.row (a : Acc) : Nat := a.pa / 64

/-- The place within which a context's accesses keep their order (R141, R245): the page of a memory-side access, the row
of any other, at its home. -/
def Acc.page (a : Acc) : Nat :=
  a.leaf.home * 2 ^ 48 +
    (if a.leaf.ms then (if a.leaf.big then a.pa / 2 ^ 27 * 2 ^ 27 else a.pa / 2 ^ 16 * 2 ^ 16) else a.pa / 64 * 64)

/-- The key of a row of a home among the answers of remote homes. -/
def homeKey (node row : Nat) : Nat := row + node * 2 ^ 42

def Acc.key (a : Acc) : Nat := homeKey a.leaf.home a.row

/-- The outcome of a walk: an access, a refusal by permission, no translation (with the address of an
entry that has a format error), a table at an address with no memory, or a table whose row the walker must wait for: its
region is being loaded, or its row recovered (R332, R343, R345). -/
inductive Xl where
  | ok (a : Acc)
  | denied
  | none (bad : Option Nat)
  | noMemory (pa : Nat)
  | stall (pa : Nat)
deriving DecidableEq, Repr

/-- A leaf entry's fields (R319). Bit 0 of word 1, zero in a table, marks a page of 128 MiB among the translations that a
transfer holds. -/
def leafOf (w0 w1 : Word) : Leaf where
  r := bitAt w0 61
  w := bitAt w0 60
  x := bitAt w0 59
  c := bitAt w0 58
  ms := bitAt w0 57
  sh := bitAt w0 56
  ek := fld w0 51 5
  frame := fld w0 16 28 * 65536
  home := fld w1 52 12
  own := fld w1 32 16
  big := bitAt w1 0

/-- The bytes that a leaf maps. -/
def leafBytes (big : Bool) : Nat := if big then 0x8000000 else 0x10000

/-- A leaf's format error (R321). -/
def leafBad (w0 w1 : Word) (big : Bool) : Bool :=
  let l := leafOf w0 w1
  let n := leafBytes big
  fld w0 44 7 != 0 || fld w0 0 16 != 0 || fld w1 48 4 != 0 || fld w1 0 32 != 0
    || (big && l.frame % 0x8000000 != 0)
    || (l.ms && (l.c || l.ek != 0))
    || (l.ms && inTier l.frame n)
    || !(inHbm l.frame n || inTier l.frame n ||
          (!big && l.frame == hubBase && l.ms && !l.c && l.ek == 0))

/-- A format error of an entry that names a table of `size` bytes: reserved bits outside [hi:lo], or a table
that is misaligned or outside mappable HBM4E. -/
def tableBad (w0 w1 : Word) (lo size : Nat) : Bool :=
  fld w0 44 18 != 0 || fld w0 0 lo != 0 || w1 != 0 || fld w0 lo (44 - lo) * 2 ^ lo % size != 0
    || !inHbm (fld w0 lo (44 - lo) * 2 ^ lo) size

/-- What R333 and R335 deny. -/
def Mem.regionDenies (m : Mem) (a : Acc) (k : AccKind) : Bool :=
  match m.region a.pa with
  | some e =>
    if e.kind = 1 then decide (7 * e.size * 0x200000 ≤ a.pa - e.base)
    else a.leaf.ek != 0 || k == .write || k == .atomic
  | none => false

/-- The checks on the leaf that a walk has reached (R320). -/
def Mem.checkLeaf (m : Mem) (node asid : Nat) (k : AccKind) (l : Leaf) (off : Nat) : Xl :=
  let a : Acc := ⟨l.frame + off, l⟩
  let allowed := match k with
    | .fetch => l.x
    | .read => l.r
    | .write => l.w
    | .atomic => l.r && l.w && l.ms
  if l.own ≠ asid ∧ l.sh = false then .denied
  else if allowed = false ∨ (l.home = node ∧ m.regionDenies a k = true) then .denied
  else .ok a

/-- The table that an entry of level 1 or 2 names. -/
def tableBase (w0 : Word) : Nat := fld w0 12 32 * 4096

/-- The place of the level-1 entry that translates an address, in the table at `base`. -/
def place1 (base va : Nat) : Nat := base + 16 * (va / 2 ^ 39 % 512)
/-- The place of its level-2 entry. -/
def place2 (base va : Nat) : Nat := base + 16 * (va / 2 ^ 27 % 4096)
/-- The place of its level-3 entry. -/
def place3 (base va : Nat) : Nat := base + 16 * (va / 2 ^ 16 % 2048)

/-- The translation by a level-3 entry, at `p` where it was read from memory (R320, R321). -/
def Mem.with3 (m : Mem) (node asid : Nat) (k : AccKind) (p : Nat) (e f : Word) (va : Nat) : Xl :=
  if bitAt e 63 = false then .none none
  else if bitAt e 62 = false || leafBad e f false then .none (some p)
  else m.checkLeaf node asid k (leafOf e f) (va % 65536)

/-- The translation by a level-2 entry: a leaf, or the way to a level-3 table. -/
def Mem.with2 (m : Mem) (node asid : Nat) (k : AccKind) (p : Nat) (e f : Word) (va : Nat) : Xl :=
  if bitAt e 63 = false then .none none
  else if bitAt e 62 then
    if leafBad e f true then .none (some p)
    else m.checkLeaf node asid k { leafOf e f with big := true } (va % 2 ^ 27)
  else if tableBad e f 12 32768 then .none (some p)
  else
    let q := place3 (tableBase e) va
    if m.stalls q then .stall q else m.with3 node asid k q (m.word q) (m.word (q + 8)) va

/-- The translation by a level-1 entry. -/
def Mem.with1 (m : Mem) (node asid : Nat) (k : AccKind) (p : Nat) (e f : Word) (va : Nat) : Xl :=
  if bitAt e 63 = false then .none none
  else if bitAt e 62 || tableBad e f 12 65536 then .none (some p)
  else
    let q := place2 (tableBase e) va
    if m.stalls q then .stall q else m.with2 node asid k q (m.word q) (m.word (q + 8)) va

/-- The translation by an ASID-table entry. -/
def Mem.with0 (m : Mem) (node asid : Nat) (k : AccKind) (p : Nat) (e f : Word) (va : Nat) : Xl :=
  if bitAt e 63 = false then .none none
  else if bitAt e 62 || tableBad e f 13 8192 then .none (some p)
  else
    let q := place1 (fld e 13 31 * 8192) va
    if m.stalls q then .stall q else m.with1 node asid k q (m.word q) (m.word (q + 8)) va

/-- Whether a cached entry lies on the walk of an address (R326). -/
def TlbEnt.covers (e : TlbEnt) (asid va : Nat) : Bool :=
  e.asid == asid &&
    match e.level with
    | 0 => true
    | 1 => e.va / 2 ^ 39 == va / 2 ^ 39
    | 2 => e.va / 2 ^ 27 == va / 2 ^ 27
    | _ => e.va / 2 ^ 16 == va / 2 ^ 16

/-- The cached entry in use that an access starts from: the one nearest to the leaf. -/
def Mem.cachedEntry (m : Mem) (asid va : Nat) : Option TlbEnt :=
  let at_ (n : Nat) := m.tlb.find? fun e => e.live && e.level == n && e.covers asid va
  (((at_ 3).or (at_ 2)).or (at_ 1)).or (at_ 0)

/-- The translation of a 64-bit address under an ASID (R320, R325): from a cached entry in use, or by a walk.
Log 42: DESIGN CHOICE, safe. -/
def Mem.translate (m : Mem) (node asid : Nat) (k : AccKind) (va : Word) : Xl :=
  if fld va 48 16 ≠ 0 then .none none
  else
    match m.cachedEntry asid va.toNat with
    | some e =>
      if e.level = 0 then m.with0 node asid k 0 e.w0 e.w1 va.toNat
      else if e.level = 1 then m.with1 node asid k 0 e.w0 e.w1 va.toNat
      else if e.level = 2 then m.with2 node asid k 0 e.w0 e.w1 va.toNat
      else m.with3 node asid k 0 e.w0 e.w1 va.toNat
    | none =>
      let p := m.tatb.toNat + 16 * asid
      if inMemory p 16 = false then .noMemory p
      else if m.stalls p then .stall p
      else m.with0 node asid k p (m.word p) (m.word (p + 8)) va.toNat

/-! ## The translation caches (R325, R326) -/

/-- What a walk leaves in a cache of a level-3 entry: a valid one without a format error. -/
def Mem.fill3 (m : Mem) (asid va base : Nat) : List TlbEnt :=
  let p := place3 base va
  let e := m.word p
  let f := m.word (p + 8)
  if bitAt e 63 && bitAt e 62 && !leafBad e f false then [{ level := 3, asid := asid, va := va, w0 := e, w1 := f }] else []

/-- The same from a level-2 table on. -/
def Mem.fill2 (m : Mem) (asid va base : Nat) : List TlbEnt :=
  let p := place2 base va
  let e := m.word p
  let f := m.word (p + 8)
  let here : TlbEnt := { level := 2, asid := asid, va := va, w0 := e, w1 := f }
  if bitAt e 63 = false then []
  else if bitAt e 62 then if leafBad e f true then [] else [here]
  else if tableBad e f 12 32768 then [] else here :: m.fill3 asid va (tableBase e)

/-- The same from a level-1 table on. -/
def Mem.fill1 (m : Mem) (asid va base : Nat) : List TlbEnt :=
  let p := place1 base va
  let e := m.word p
  let f := m.word (p + 8)
  if bitAt e 63 = false || bitAt e 62 || tableBad e f 12 65536 then []
  else { level := 1, asid := asid, va := va, w0 := e, w1 := f } :: m.fill2 asid va (tableBase e)

/-- The same from the ASID table on. -/
def Mem.fill0 (m : Mem) (asid va : Nat) : List TlbEnt :=
  let p := m.tatb.toNat + 16 * asid
  let e := m.word p
  let f := m.word (p + 8)
  if inMemory p 16 = false || bitAt e 63 = false || bitAt e 62 || tableBad e f 13 8192 then []
  else { level := 0, asid := asid, va := va, w0 := e, w1 := f } :: m.fill1 asid va (fld e 13 31 * 8192)

/-- What a walk of an address finds, itself starting from a cached entry in use or from the ASID table. What it finds below an
entry that a tlbi has named is barred like it (R227). -/
def Mem.found (m : Mem) (asid va : Nat) : List TlbEnt :=
  match m.cachedEntry asid va with
  | none => m.fill0 asid va
  | some e =>
    let l :=
      if e.level = 0 then m.fill1 asid va (fld e.w0 13 31 * 8192)
      else if e.level = 1 then m.fill2 asid va (tableBase e.w0)
      else if e.level = 2 ∧ bitAt e.w0 62 = false then m.fill3 asid va (tableBase e.w0)
      else []
    l.map fun x => { x with barred := e.barred }

/-- A walk whose entries a translation cache then holds.
Log 42: DESIGN CHOICE, safe. -/
def Mem.cacheWalk (m : Mem) (asid va : Nat) : Mem :=
  { m with tlb := m.tlb ++ (m.found asid va).filter fun e => !m.tlb.contains e }

/-- The entries in use from now on, by their numbers.
Log 42: DESIGN CHOICE, safe. -/
def Mem.useCached (m : Mem) (l : List Nat) : Mem :=
  { m with tlb := m.tlb.zipIdx.map fun e => { e.1 with live := l.contains e.2 } }

/-- Whether a tlbi names an entry (R326). -/
def TlbEnt.named (e : TlbEnt) (md : Nat) (asid : BitVec 16) (va : Addr) : Bool :=
  md == 2 || (md == 1 && e.asid == asid.toNat) || (md == 0 && e.covers asid.toNat va.toNat)

/-- The entries that a tlbi names, removed (R326).
Log 42: DESIGN CHOICE, safe. -/
def Mem.invalidate (m : Mem) (md : Nat) (asid : BitVec 16) (va : Addr) : Mem :=
  { m with tlb := m.tlb.filter fun e => !e.named md asid va }

/-- The entries that a tlbi names, no longer used by the core that issued it (R227). -/
def Mem.bar (m : Mem) (c : Nat) (md : Nat) (asid : BitVec 16) (va : Addr) : Mem :=
  { m with tlb := m.tlb.map fun e => if e.named md asid va then { e with barred := insertNat e.barred c } else e }

/-- The translation by this module. -/
def State.translate (s : State) (asid : Nat) (k : AccKind) (va : Word) : Xl :=
  s.mem.translate s.hub.tnode.toNat asid k va

/-- The translation by an agent of the issuing core, which uses no entry that a tlbi of the core has named (R227). -/
def State.coreTranslate (s : State) (asid : Nat) (k : AccKind) (va : Word) : Xl :=
  { s.mem with tlb := s.mem.tlb.filter fun e => !e.barred.contains s.iss.core }.translate s.hub.tnode.toNat asid k va

/-- The ASID under which the issuing context translates (R318). -/
def State.ctxAsid (s : State) : Nat := if s.iss.fw then 0 else s.ctx.asid.toNat

end Sys2Proof.Machine
end

