-- ==== Sys2Proof/Machine/Access.lean ====
section
/-! DEFINITION. Agents and scopes (R229 to R233, R448), what an agent may read (R238), the words of the hub
page (R419), and the loads, stores and read-modify-writes of local memory (R140 to R147, R244, R251). -/

namespace Sys2Proof.Machine

/-! ## Agents and scopes -/

/-- The context behind an agent: a context itself, or the one that commands an engine (R233). -/
def contextOf : Agent → Option (Nat × Bool)
  | .context c fw => some (c, fw)
  | .engine c fw _ _ => some (c, fw)
  | _ => none

/-- The rank that a context acts for (R229).
Log 58: DEDUCED, safe. -/
def State.contextRank (s : State) (c : Nat) (fw : Bool) : Option (BitVec 16) :=
  if fw then some (s.core c).fw.vrank else (s.core c).strand.map fun t => t.vrank

/-- The rank that an agent acts for (R229, R448): an engine acts for the rank of its command's issuer, a collective engine
for that of its binding, an agent of the hub, of a base die or of another module for the rank that it serves in this step.
Log 58: DEDUCED, safe. -/
def State.rankOf (s : State) (a : Agent) : Option (BitVec 16) :=
  match a with
  | .context c fw => s.contextRank c fw
  | .collective c fw n i =>
    (s.binds.find? fun b => b.core = c ∧ b.fw = fw ∧ b.chan = n ∧ b.ident = i).map fun b => b.vrank
  | .engine c fw n i =>
    match (s.core c).xfers.find? fun x => x.fw = fw ∧ x.chan = n ∧ x.ident = i with
    | some x => x.vrank
    | none => s.contextRank c fw
  | .port _ => none
  | _ => s.iss.acting

/-- The state in which an agent of the hub or of a base die acts for a rank (R448).
Log 58: DEDUCED, safe. -/
def State.actFor (s : State) (v : Option (BitVec 16)) : State := { s with iss := { s.iss with acting := v } }

/-- An operation that such an agent performs for a rank. -/
def State.serving (s : State) (v : Option (BitVec 16)) (k : State → State) : State := (k (s.actFor v)).actFor s.iss.acting

/-- Whether a rank is resident here.
Log 58: DEDUCED, safe. -/
def State.resident (s : State) (v : BitVec 16) : Bool := s.disp.ranks.any fun r => r.vrank = v

/-- The rank of an ASID. -/
def State.asidRank (s : State) (asid : BitVec 16) : Option (BitVec 16) :=
  (s.disp.ranks.find? fun r => r.asid = asid).map fun r => r.vrank

/-- The ranks of the jobs of a rank, by the rank maps held here. -/
def State.jobRanks (s : State) (v : BitVec 16) : List (BitVec 16) :=
  v :: (s.fab.maps.filter fun m => m.2.any fun e => e.1 = v.toNat ∧ e.2.getLsbD 15 = true).flatMap fun m =>
    m.2.filterMap fun e => if e.2.getLsbD 15 then some (BitVec.ofNat 16 e.1) else none

/-- The other modules on which some of the ranks stand. -/
def State.rankNodes (s : State) (l : List (BitVec 16)) : List Nat :=
  (s.fab.maps.flatMap fun m => m.2.filterMap fun e =>
    if l.contains (BitVec.ofNat 16 e.1) && e.2.getLsbD 15 then some (e.2.toNat % 4096) else none).filter
      fun n => n != s.hub.tnode.toNat

/-- The scope with a code as an access of agent `x` names it now (R232, R233). -/
def State.scopeOf (s : State) (code : Nat) (x : Agent) : Scope :=
  let rank := s.rankOf x
  let ranks : List (BitVec 16) :=
    if code = 6 then rank.toList
    else if code = 7 ∨ code = 8 then s.disp.ranks.map fun r => r.vrank
    else if code = 9 then (rank.map s.jobRanks).getD []
    else []
  let bound := (s.binds.filter fun b => rank == some b.vrank).flatMap fun b => b.members
  { code := code, who := x, rank := rank, ranks := ranks, nodes := if code = 8 then s.rankNodes bound else [] }

/-- The agents of the hub (R448). -/
def isHubAgent : Agent → Bool
  | .collectiveEngine => true
  | .collective _ _ _ _ => true
  | .sparseMerge => true
  | .queueController => true
  | .caribou => true
  | .switch => true
  | _ => false

def isBaseDie : Agent → Bool
  | .baseDie _ => true
  | _ => false

def isPort : Agent → Bool
  | .port _ => true
  | _ => false

/-- Both agents belong to cores that the relation pairs. -/
def sameCores (x a : Agent) (rel : Nat → Nat → Bool) : Bool :=
  match contextOf x, contextOf a with
  | some p, some q => rel p.1 q.1
  | _, _ => false

/-- Whether an agent is one of this module. -/
def isHere : Agent → Bool
  | .remote _ _ => false
  | _ => true

/-- Whether an agent is a collective engine of this module, or its switch. -/
def isCollEngine : Agent → Bool
  | .collectiveEngine => true
  | .collective _ _ _ _ => true
  | .switch => true
  | _ => false

/-- Whether an agent is a collective engine of another module on the routes of a scope's collectives; the tag of its
requests says so. -/
def Scope.names (sc : Scope) : Agent → Bool
  | .remote n tag => sc.nodes.contains n && decide (3 * 2 ^ 14 ≤ tag)
  | _ => false

/-- Members(S, X) holds agent `a`, which acts for rank `v`, for an access to a row of this module (R232, R233, R448). A page
spans the eight stacks (R317), so the base dies at the home of a rank's pages are all of them.
Log 136: DEDUCED, unsafe. -/
def State.member (s : State) (sc : Scope) (row : Nat) (a : Agent) (v : Option (BitVec 16)) : Bool :=
  let pkg := (contextOf a).isSome || isHubAgent a || isBaseDie a
  let ranked := v.any fun q => sc.ranks.contains q
  sc.who == a || match sc.code with
  | 0 => false
  | 1 => sameCores sc.who a fun p q => p == q
  | 2 => sameCores sc.who a fun p q => p / 10 == q / 10
  | 3 => sameCores sc.who a fun p q => p / 50 == q / 50
  | 4 => pkg
  | 5 => a == .baseDie (s.mem.stackOf (64 * row))
  | 6 => ranked || (isBaseDie a && !sc.ranks.isEmpty)
  | 7 => (ranked && isHere a) || isCollEngine a
  | 8 => (ranked && isHere a) || isCollEngine a || sc.names a
  | 9 => ranked || (isBaseDie a && !sc.ranks.isEmpty)
  | 10 => pkg || isPort a
  | _ => pkg

/-- Whether a write has reached an agent (R236, R244). -/
def State.reaches (s : State) (w : WriteRec) (a : Agent) : Bool :=
  w.all.isSome || w.by_ == a || w.reached.any (fun p => p.1 = a) ||
    w.spread.any fun p => s.member p.1 w.row a (s.rankOf a)

/-- The rows that a load of an agent may return, newest first (R238).
Log 41: DESIGN CHOICE, unsafe. -/
def State.candidates (s : State) (a : Agent) (r : Nat) : List (Nat × Row) :=
  seenFrom (s.mem.initial r) (fun w => s.reaches w a) (fun w => w.viewed.contains a)
    (s.mem.recs r).reverse

/-- The candidate that the step's choice names. -/
def pickFrom (l : List (Nat × Row)) (pick : Nat) (d : Nat × Row) : Nat × Row := l.getD (min pick (l.length - 1)) d

/-- The log with every write changed alike. -/
def State.mapLog (s : State) (f : WriteRec → WriteRec) : State :=
  { s with mem := { s.mem with log := s.mem.log.map f } }

/-- A write with an agent added to those in whose view it is. -/
def WriteRec.addView (w : WriteRec) (a : Agent) : WriteRec :=
  if w.viewed.contains a then w else { w with viewed := a :: w.viewed }

/-- A re-snapshot by agent `a` at a scope, as seen from context `x` (R237). -/
def State.snapshot (s : State) (a x : Agent) (scope : Nat) : State :=
  let sc := s.scopeOf scope x
  s.mapLog fun w =>
    if s.reaches w a &&
        (s.member sc w.row w.by_ w.rank || w.pub.any fun p => s.member sc w.row p.1.who p.1.rank) then
      w.addView a
    else w

/-- What must have reached an agent before a further write does: every write that has reached some agent, and every write
published to this one (R236 items 2 and 3).
Log 49: DESIGN CHOICE, unsafe. -/
def State.catchUp (s : State) (a : Agent) : State :=
  let n := s.mem.arrivals
  let v := s.rankOf a
  let s1 := s.mapLog fun w =>
    if !s.reaches w a && (w.known || w.pub.any fun p => s.member p.1 w.row a v) then
      { w with reached := w.reached ++ [(a, n)] }
    else w
  { s1 with mem := { s1.mem with arrivals := n + 1 } }

/-- A write reaches an agent, after all that must come first (R236). -/
def State.reachAgent (s : State) (ident : Nat) (a : Agent) : State :=
  let s1 := s.catchUp a
  let n := s1.mem.arrivals
  let s2 := s1.mapLog fun w =>
    if w.ident = ident ∧ s1.reaches w a = false then { w with reached := w.reached ++ [(a, n)] } else w
  { s2 with mem := { s2.mem with arrivals := n + 1 } }

/-- Every write that has been published to one of the scopes that `mine` selects reaches that scope's members, and with it
every write that must come first (R236).
Log 49: DESIGN CHOICE, unsafe. -/
def State.flushScopes (s : State) (mine : Scope → Bool) : State :=
  let n := s.mem.arrivals
  let l := (s.mem.log.flatMap fun w => (w.pub.map fun p => p.1).filter mine).dedup
  let s1 := s.mapLog fun w => if w.goesAhead then w.spreadTo n l else w
  { s1 with mem := { s1.mem with arrivals := n + 1 } }

/-- What an agent has published reaches the members of its scopes, before a write of the agent is performed for all to see
or leaves for another module (R236 item 2). -/
def State.flushPubs (s : State) (a : Agent) : State := s.flushScopes fun c => c.who == a

/-- A row performed at its home by an agent. -/
def State.writeHome (s : State) (a : Agent) (clean : Bool) (r : Nat) (v : Row) : State :=
  let s1 := s.flushPubs a
  { s1 with mem := s1.mem.storeHome a (s.rankOf a) clean r v }

/-- A publication of agent `a`'s view, the publisher named apart (R235, R242). -/
def State.publish (s : State) (a by_ : Agent) (scope : Nat) : State :=
  { s with mem := s.mem.publish a (s.scopeOf scope by_) }

/-- An engine starts with its issuer's view (R234 item 5). -/
def State.shareView (s : State) (a b : Agent) : State :=
  s.mapLog fun w => if w.inView a then w.addView b else w

/-- An observed completion adds an engine's writes to the observer's view (R242). -/
def State.observe (s : State) (b a : Agent) : State :=
  s.mapLog fun w => if w.by_ == b then w.addView a else w

/-! ## Asynchronous events -/

/-- An asynchronous event pending at a core's firmware context (R33, R40), which issues again if it slept until one would
be (R115). -/
def State.raiseAsync (s : State) (c : Nat) (e : Async) : State :=
  let k := s.core c
  s.setCore c
    { k with fx := { k.fx with events := k.fx.events ++ [e] },
             fw := { k.fw with run := if k.fw.run = .sleeping then .running else k.fw.run } }

/-- The cores of the module. -/
def allCores : List Nat := List.range 200

/-! ## The hub page (R419) -/

/-- Word j of a 256-bit digest. -/
def digestWord (d : BitVec 256) (j : Nat) : Word := d.extractLsb' (64 * j) 64

/-- A signed offset clamped to 32 bits (R446). -/
def clamp32 (x : Int) : Nat := wrapNat 32 (max (-(2 ^ 31 - 1)) (min (2 ^ 31 - 1) x))

/-- A word of the hub page by its offset (R419, R439, R440, R443, R446).
Log 114: DESIGN CHOICE, safe. -/
def State.hubWord (s : State) (off : Nat) : Word :=
  let h := s.hub
  let w := off / 8 * 8
  if w = 0x0 then BitVec.ofNat 64 (h.bctr.toNat * 65536 + h.bst.toNat)
  else if w = 0x8 then h.node.setWidth 64
  else if w = 0x10 then Config.msvn.setWidth 64
  else if w = 0x18 then BitVec.ofNat 64 (h.hotg * 65536 + h.hocn * 256 + h.hos.toNat)
  else if w = 0x20 then h.hofr
  else if w = 0x28 then h.hova
  else if w = 0x38 then BitVec.ofNat 64 h.lto
  else if 0x40 ≤ w ∧ w < 0x60 then digestWord h.curm ((w - 0x40) / 8)
  else if 0x60 ≤ w ∧ w < 0x80 then digestWord h.incm ((w - 0x60) / 8)
  else if 0x80 ≤ w ∧ w < 0xA0 then digestWord Config.romm ((w - 0x80) / 8)
  else if w = 0xA0 then BitVec.ofNat 64 h.hotmo
  else if w = 0x100 then BitVec.ofNat 64 (h.dn * 2 ^ 32 + h.up)
  else if w = 0x108 then BitVec.ofNat 64 (h.cap * 2 ^ 32 + h.tmax.toNat * 256 + h.tin.toNat)
  else if w = 0x110 then h.power
  else if w = 0x118 then
    BitVec.ofNat 64 ((if h.uns then 2 ^ 63 else 0) + h.ref.toNat * 2 ^ 32 + clamp32 h.off)
  else if 0x1000 ≤ w ∧ w < 0x1200 then Tab.get 0 h.sems ((w - 0x1000) / 8)
  else if 0x2000 ≤ w ∧ w < 0x4440 then Tab.get 0 h.count ((w - 0x2000) / 8)
  else if 0x5000 ≤ w ∧ w < 0x5640 then Tab.get 0 h.freq ((w - 0x5000) / 8)
  else 0

/-- A row of the hub page. -/
def State.hubRow (s : State) (r : Nat) : Row :=
  ofWords ((List.range 8).map fun j => s.hubWord (hubOffset (64 * r) + 8 * j))

/-- A firmware request word takes a new value; from zero to non-zero it raises 0x25 (R397). -/
def State.setFreq (s : State) (c : Nat) (v : Word) : State :=
  let old := Tab.get 0 s.hub.freq c
  let s1 := { s with hub := { s.hub with freq := Tab.set 0 s.hub.freq c v } }
  if old = 0 ∧ v ≠ 0 then s1.raiseAsync c ⟨0x25, v.setWidth 32, 0⟩ else s1

/-- A region announcement: the effective values of the block and of each block below it that has been computed are computed
again before the next take (R284). -/
def State.announce (s : State) (v : Word) : State :=
  let asid : BitVec 16 := v.extractLsb' 48 16
  let blk : Addr := BitVec.ofNat 48 (fld v 7 41 * 128)
  let old := s.disp.regions.map fun g =>
    if g.asid = asid ∧ (g.rcb = blk ∨ g.chain.any (fun e => e.1 = blk) = true) then
      { g with eff := none, err := false, again := g.again || g.eff.isSome || g.err || decide (g.rcb = blk) } else g
  let own : List Region :=
    match s.disp.ranks.find? fun r => r.asid = asid with
    | some r =>
      if s.disp.regions.any fun g => g.asid = asid ∧ g.rcb = blk then []
      else [{ asid := asid, rcb := blk, vrank := r.vrank, eff := none, chain := [], ready := [], launches := [], again := true }]
    | none => []
  { s with disp := { s.disp with regions := old ++ own } }

/-- A limit of the ramp word, 1 to 400 (R439). -/
def clampRamp (x : Nat) : Nat := if x = 0 then 1 else min x 400

/-- The ceiling after 1 µs (R441).
Log 112: DEDUCED, unsafe. -/
def nextCap (h : Hub) : Nat :=
  if 95 ≤ h.tmax.toNat then h.cap - h.dn
  else if h.tmax.toNat ≤ 90 then min 1600 (h.cap + h.up)
  else h.cap

/-- The hub after a number of adjustments of the ceiling, one for each 1 µs of global time (R441).
Log 112: DEDUCED, unsafe. -/
def Hub.adjusted : Nat → Hub → Hub
  | 0, h => h
  | n + 1, h => Hub.adjusted n { h with cap := nextCap h, capAt := h.capAt + 1 }

/-- The adjustments that global time has left due made, before what they rest on changes (R441): after 1600 of them in one
direction the ceiling stands.
Log 112: DEDUCED, unsafe. -/
def Hub.caughtUp (h : Hub) : Hub :=
  { Hub.adjusted (min (h.gtime / 1000 - h.capAt) 1601) h with capAt := max h.capAt (h.gtime / 1000) }

/-- A write of the ramp word (R439). -/
def State.setRamp (s : State) (v : Word) : State :=
  { s with hub := { s.hub.caughtUp with up := clampRamp (fld v 0 11), dn := clampRamp (fld v 32 11) } }

/-- An event message (R412, R418): the fields of its header that the spec does not give are free.
Log 91: DESIGN CHOICE, safe. -/
def State.eventReply (s : State) (n : Word) (body : List Byte) : Reply where
  op := 0x40
  sess := 0
  seq := n
  status := 0
  value := 0
  body := body
  plen := BitVec.ofNat 16 body.length
  asid := Config.free 16 [72, s.fresh]
  addr := Config.free 48 [73, s.fresh]

/-- The end of a hand-over, when every core has been counted (R429). -/
def State.handoverEnd (s : State) : State :=
  if s.hub.hos = 2 ∧ s.hub.hotg ≤ s.hub.hocn then
    let h := { s.hub with curm := s.hub.incm, incm := 0, hos := 3 }
    let out (p : Port) : Port :=
      match p.last with
      | some _ =>
        let body := (3 : Byte) :: List.replicate 63 (0 : Byte)
        { p with evSeq := p.evSeq + 1, out := p.out ++ [s.eventReply (p.evSeq + 1) body] }
      | none => p
    { s with hub := { h with portA := out h.portA, portB := out h.portB } }
  else s

/-- A core handed over: counted at once, switched at its next bundle boundary (R429). -/
def State.handOver (s : State) (c : Nat) (forced : Bool) : State :=
  let k := s.core c
  if s.hub.hos = 2 ∧ k.handed = false ∧ k.fw.run ≠ .stopped then
    ({ s with hub := { s.hub with hocn := s.hub.hocn + 1 } }.setCore c
      { k with handed := true, swap := true, forced := forced || (k.swap && k.forced),
               swapTo := (s.hub.hova + s.hub.hoEntry).setWidth 48 &&& 0xFFFFFFFFFFE0 }).handoverEnd
  else s

/-- The bits of a counter word that exist, by its index from the first port row (R403). -/
def countMask (i : Nat) : Word :=
  let full := if i / 8 = 144 then 3 else 2
  if i % 8 < full then ~~~0 else if i % 8 = full then 0xFFFFFFFF else 0

/-- A word of the hub page that firmware alone may write (R419). -/
def firmwareWord (off : Nat) : Bool :=
  let w := off / 8 * 8
  [0x20, 0x28, 0x30, 0x38, 0xA0, 0x100, 0x120].contains w || (decide (0x5000 ≤ w) && decide (w < 0x5640))

/-- Whether an agent is a firmware context, here or, as the tag of its requests says, at another module. -/
def isFirmware : Agent → Bool
  | .context _ fw => fw
  | .remote _ tag => decide (tag < 1024) && tag / 256 % 2 == 1
  | _ => false

/-- The core whose firmware context an agent is; 200 for any other. -/
def coreOfAgent (a : Agent) : Nat :=
  match a with
  | .context c true => c
  | _ => 200

/-- A store of a word to the hub page by core `c`'s firmware, or with 200 by another agent (R419). -/
def State.hubStore (s : State) (c : Nat) (off : Nat) (v : Word) : State :=
  let h := s.hub
  let w := off / 8 * 8
  if w = 0x8 then
    if h.bst.toNat < 4 then { s with hub := { h with node := v.setWidth 12 } } else s
  else if w = 0x20 then { s with hub := { h with hofr := v &&& 0xFFFF8000000 } }
  else if w = 0x28 then { s with hub := { h with hova := v &&& 0xFFFFF8000000 } }
  else if w = 0x30 then if c < 200 ∧ fld v 0 8 = c then s.handOver c false else s
  else if w = 0x38 then { s with hub := { h with lto := max 1 (fld v 0 16) } }
  else if w = 0xA0 then { s with hub := { h with hotmo := max 1 (fld v 0 16) } }
  else if w = 0x100 then s.setRamp v
  else if w = 0x120 then s.announce v
  else if 0x1000 ≤ w ∧ w < 0x1200 then
    { s with hub := { h with sems := Tab.set 0 h.sems ((w - 0x1000) / 8) (v &&& 0xE00000000000FFFF) } }
  else if 0x2000 ≤ w ∧ w < 0x4440 then
    let i := (w - 0x2000) / 8
    { s with hub := { h with count := Tab.set 0 h.count i (v &&& countMask i) } }
  else s

/-- A word of the hub page stored by an agent: firmware's alone are stored by firmware alone (R419), and one stored to a firmware
request word is ORed into it (R397).
Log 115: DEDUCED, unsafe. -/
def State.hubPut (s : State) (a : Agent) (off : Nat) (v : Word) : State :=
  if firmwareWord off && !isFirmware a then s
  else if 0x5000 ≤ off ∧ off < 0x5640 then s.setFreq ((off - 0x5000) / 8) (s.hubWord off ||| v)
  else s.hubStore (coreOfAgent a) off v

/-! ## Regions that are being loaded (R332) -/

/-- The end of a load of the region table. -/
def State.tregDone (s : State) : State := { s with mem := s.mem.loadRegions }

/-- The state in which an access of an agent of the hub, of a port or of another module takes place: held until the load
of its region, the recovery of its row and that of its channel have ended (R332, R343, R345).
Log 48: DEDUCED, unsafe. -/
def State.opened (s : State) (pa : Nat) : State := { s with mem := s.mem.opened pa }

/-! ## Loads and stores of local rows -/

/-- What a translated load delivers: the row, whether it is poisoned, and the view after it. -/
def State.load (s : State) (a : Agent) (acc : Acc) (pick : Nat) : Row × Bool × State :=
  let r := acc.row
  let bad := s.mem.bad.contains r
  if isHubRow r then (s.hubRow r, false, s)
  else if acc.leaf.ms || !acc.leaf.c then
    (s.mem.decipher acc.leaf.ek r (s.mem.home r), bad, { s with mem := s.mem.seeHome a r })
  else
    let x := pickFrom (s.candidates a r) pick (0, s.mem.initial r)
    (s.mem.decipher acc.leaf.ek r x.2, bad, { s with mem := s.mem.see a r x.1 })

/-- The row that a rewrite of part of it starts from, in one single-copy-atomic step (R230, R231): the newest in
coherence order, or the home's through a mapping that is not cached. -/
def State.peek (s : State) (acc : Acc) : Row :=
  let r := acc.row
  if isHubRow r then s.hubRow r
  else if acc.leaf.ms || !acc.leaf.c then s.mem.decipher acc.leaf.ek r (s.mem.home r)
  else s.mem.decipher acc.leaf.ek r (s.mem.latest r)

/-- The row that an agent of the hub or of a base die reads: one that has reached it, which the step's choice names
(R238).
Log 41: DESIGN CHOICE, unsafe. -/
def State.hubSee (s : State) (a : Agent) (acc : Acc) : Row := (s.load a acc s.iss.pick).1

/-- The core that an operation was issued on, as a report of its loss names it (R392): that of a context, of an engine or of a
collective's binding, here or at another module. -/
def issuerCore : Agent → Nat
  | .context c _ => c
  | .engine c _ _ _ => c
  | .collective c _ _ _ => c
  | .remote _ tag => if tag < 1024 ∨ 2 ^ 15 ≤ tag then tag % 256 else 200
  | _ => 200

/-- The bytes of a core's scratchpad and first-level cache together (R252). -/
def arrayBytes : Nat := 327680

/-- The array position of the line that a context's store to a row makes dirty: that of the row's dirty line in the core's cache,
or one that is free to be any above the partition (R252, R378).
Log 138: DESIGN CHOICE, safe. -/
def State.lineFor (s : State) (a : Agent) (r : Nat) : Option (Nat × Nat) :=
  match a with
  | .context c _ =>
    match (s.mem.recs r).findSome? fun w => if w.dirty then w.line.filter fun l => l.1 = c else none with
    | some l => some l
    | none =>
      let P := (s.core c).sp.part
      some (c, P + 64 * ((Config.free 32 [70, s.fresh, r]).toNat % max 1 ((arrayBytes - P) / 64)))
  | _ => none

/-- The dirty line of another row that stands where a line comes to stand written back (R378).
Log 138: DESIGN CHOICE, safe. -/
def Mem.evict (m : Mem) (line : Option (Nat × Nat)) (r : Nat) : Mem :=
  match line with
  | none => m
  | some l => (((m.log.filter fun w => w.dirty && w.row != r && w.line == some l).map WriteRec.row)).foldl Mem.writeBack m

/-- A whole-row write by an agent.
Log 41: DESIGN CHOICE, unsafe. -/
def State.store (s : State) (a : Agent) (acc : Acc) (v : Row) : State :=
  let r := acc.row
  let x := s.mem.encipher acc.leaf.ek r v
  if isHubRow r then
    (List.range 8).foldl (fun s j =>
      s.hubPut a (hubOffset (64 * r) + 8 * j) (rowWord v j)) s
  else if acc.leaf.ms || !acc.leaf.c then s.writeHome a false r x
  else
    let line := s.lineFor a r
    { s with mem := (s.mem.evict line r).storeCached a (s.rankOf a) line r x }

/-- A whole-row write by an agent of the hub, coherent with every cache. -/
def State.put (s : State) (a : Agent) (acc : Acc) (v : Row) : State :=
  if isHubRow acc.row then s
  else s.writeHome a true acc.row (s.mem.encipher acc.leaf.ek acc.row v)

/-- A word of a row rewritten by an agent; a poisoned row keeps its poison and drops the write (R142). -/
def State.storeWord (s : State) (a : Agent) (acc : Acc) (v : Word) : State × Bool :=
  let j := acc.pa / 8 % 8
  if isHubRow acc.row then (s.hubPut a (hubOffset acc.pa) v, false)
  else if s.mem.bad.contains acc.row then (s, true)
  else (s.store a acc (setRowWord (s.peek acc) j v), false)

/-! ## Atomics (R144 to R147) -/

/-- The new value of an element of W bits (R145). -/
def atomicOp (op : MemOp) (W old x cmp : Nat) : Nat :=
  match op with
  | .load => old
  | .store => x % 2 ^ W
  | .aadd => (old + x) % 2 ^ W
  | .amin => if signNat old W ≤ signNat x W then old else x % 2 ^ W
  | .amax => if signNat x W ≤ signNat old W then old else x % 2 ^ W
  | .aminn => min old (x % 2 ^ W)
  | .amaxn => max old (x % 2 ^ W)
  | .aand => old &&& (x % 2 ^ W)
  | .aor => old ||| (x % 2 ^ W)
  | .axor => old ^^^ (x % 2 ^ W)
  | .aswp => x % 2 ^ W
  | .acas => if old = cmp % 2 ^ W then x % 2 ^ W else old
  | .afadd => (addF (if W = 64 then fmtF64 else fmtF32) ⟨0, false, false⟩ 0 old (x % 2 ^ W)).1

/-- The width of an element. -/
def elemBits (w32 : Bool) : Nat := if w32 then 32 else 64

/-- The element of a row at an address within it. -/
def rowElem (w32 : Bool) (v : Row) (pa : Nat) : Nat :=
  if w32 then lane 32 v (pa / 4 % 16) else lane 64 v (pa / 8 % 8)

def setRowElem (w32 : Bool) (v : Row) (pa x : Nat) : Row :=
  if w32 then setBits v (32 * (pa / 4 % 16)) 32 x else setBits v (64 * (pa / 8 % 8)) 64 x

/-- One read-modify-write at the home of a memory-side row or of the hub (R144, R397): the old value, and
whether the row was poisoned, which leaves it as it is. -/
def State.atomic (s : State) (a : Agent) (acc : Acc) (op : MemOp) (w32 : Bool) (x cmp : Nat) :
    Nat × Bool × State :=
  let W := elemBits w32
  if isHubRow acc.row then
    let off := hubOffset acc.pa
    let row := s.hubRow acc.row
    let old := rowElem w32 row acc.pa
    let new := rowWord (setRowElem w32 row acc.pa (atomicOp op W old x cmp)) (acc.pa / 8 % 8)
    if firmwareWord off && !isFirmware a then (old, false, s)
    else if 0x5000 ≤ off ∧ off < 0x5640 then (old, false, s.setFreq ((off - 0x5000) / 8) new)
    else (old, false, s.hubStore (coreOfAgent a) off new)
  else
    let row := s.mem.home acc.row
    let old := rowElem w32 row acc.pa
    if s.mem.bad.contains acc.row then (old, true, s)
    else
      let v := setRowElem w32 row acc.pa (atomicOp op W old x cmp)
      (old, false, s.writeHome a false acc.row v)

end Sys2Proof.Machine
end

