-- ==== Sys2Proof/Machine/Wire.lean ====
section
/-! DEFINITION. The way out of the module: counters (R403), the port table (R366), routes (R367) and links
(R365), and the memory flits of R364. -/

namespace Sys2Proof

/-! ## Fields of a flit (R364); the element index, its width, the code and the asker's tag are this model's
places within arg1, as are bits 5 and 6, a memory-side page and one of 128 MiB; the index of a mirrored slot, the version of
a row, the low half of the mask of a masked row write and a wait hint its bits [47:16]; the rest of such a mask bits [31:16]
of word 1 and [59:44] of word 2; the rank of a memory request its place within word 1 -/

/-- A row write marked, by bit 7 of arg1, for the release that makes it durable in the capacity tier of its home (R250). -/
def Flit.durable (f : Flit) (on : Bool) : Flit := if on then { f with w3 := f.w3 ||| 128 } else f

def Flit.chunk (f : Flit) : Nat := Machine.fld f.w2 32 32
def Flit.dst (f : Flit) : Nat := Machine.fld f.w0 52 12
def Flit.src (f : Flit) : Nat := Machine.fld f.w0 40 12
def Flit.cls (f : Flit) : Nat := Machine.fld f.w0 36 4
def Flit.rseq (f : Flit) : BitVec 32 := f.w0.setWidth 32
def Flit.memOp (f : Flit) : Nat := Machine.fld f.w2 60 4
def Flit.row (f : Flit) : Nat := Machine.fld f.w2 6 38
def Flit.elem (f : Flit) : Nat := Machine.fld f.w3 0 4
def Flit.w32 (f : Flit) : Bool := Machine.bitAt f.w3 4
def Flit.code (f : Flit) : Nat := Machine.fld f.w3 8 4
def Flit.tag (f : Flit) : Nat := Machine.fld f.w3 48 16
def Flit.index (f : Flit) : Nat := Machine.fld f.w3 16 32

/-- A flit with an index in bits [47:16] of arg1. -/
def Flit.withIndex (f : Flit) (n : Nat) : Flit := { f with w3 := f.w3 ||| BitVec.ofNat 64 (n % 2 ^ 32 * 65536) }

/-- A request of which the answer names a row's version. -/
def Flit.withVersion (f : Flit) (n : Nat) : Flit :=
  { f with w3 := f.w3 &&& 0xFFFF00000000FFFF#64 ||| BitVec.ofNat 64 (n % 2 ^ 32 * 65536) }

/-- A memory request marked with the rank that its agent acts for (R448): bits [63:48] of word 1, valid where bit 4 is 1. -/
def Flit.forRank (f : Flit) (v : Option (BitVec 16)) : Flit :=
  match v with
  | some q => { f with w1 := f.w1 ||| BitVec.ofNat 64 (q.toNat * 2 ^ 48 + 16) }
  | none => f

/-- The rank that the agent of a memory request acts for. -/
def Flit.actsFor (f : Flit) : Option (BitVec 16) := if Machine.bitAt f.w1 4 then some (f.w1.extractLsb' 48 16) else none

/-- A row write of the bytes that a mask names. -/
def Flit.withMask (f : Flit) (m : Nat) : Flit :=
  { f.withIndex m with
    w1 := f.w1 ||| BitVec.ofNat 64 (m / 2 ^ 32 % 2 ^ 16 * 2 ^ 16), w2 := f.w2 ||| BitVec.ofNat 64 (m / 2 ^ 48 % 2 ^ 16 * 2 ^ 44) }

/-- The bytes that such a row write names. -/
def Flit.mask (f : Flit) : Nat := f.index + Machine.fld f.w1 16 16 * 2 ^ 32 + Machine.fld f.w2 44 16 * 2 ^ 48

/-- Whether a memory flit asks for an answer: a read, a write or an atomic. -/
def Flit.asks (f : Flit) : Bool := [0, 2, 3, 4].contains f.memOp

/-- Whether two memory flits are of one request's tag and to one row. -/
def Flit.sameRow (f g : Flit) : Bool := f.tag == g.tag && f.row == g.row

/-- The requester of a memory flit: a context's posted requests are its own. -/
def Flit.asker (f : Flit) : Nat := if f.tag < 1024 then f.tag % 512 else f.tag

/-- The rows of the page that a memory flit names. -/
def Flit.pageRows (f : Flit) : Nat := if Machine.bitAt f.w3 6 then 2 ^ 21 else 2 ^ 10

/-- Whether a memory flit must keep its place behind another of the same requester: to the same row, or to the same
memory-side page (R141, R341). -/
def Flit.behind (f g : Flit) : Bool :=
  f.asker == g.asker &&
    (f.row == g.row || (Machine.bitAt f.w3 5 && Machine.bitAt g.w3 5 && f.row / f.pageRows == g.row / f.pageRows))

end Sys2Proof

namespace Sys2Proof.Machine

/-- A half of a counter word raised by one, stopping at 0xFFFF_FFFF (R403).
Log 116: DEDUCED, unsafe. -/
def State.bump (s : State) (i : Nat) (high : Bool) : State :=
  let w := Tab.get 0 s.hub.count i
  let lo := fld w 0 32
  let hi := fld w 32 32
  let v := if high then BitVec.ofNat 64 (min (hi + 1) 0xFFFFFFFF * 2 ^ 32 + lo)
    else BitVec.ofNat 64 (hi * 2 ^ 32 + min (lo + 1) 0xFFFFFFFF)
  { s with hub := { s.hub with count := Tab.set 0 s.hub.count i v } }

/-- A word of the module counter row (R403).
Log 116: DEDUCED, unsafe. -/
def State.bumpModule (s : State) (w : Nat) (high : Bool) : State := s.bump (8 * 144 + w) high

/-- A word of a port's counter row (R403).
Log 116: DEDUCED, unsafe. -/
def State.bumpPort (s : State) (p w : Nat) (high : Bool) : State := s.bump (8 * p + w) high

/-- The module's own node. -/
def State.node (s : State) : Nat := s.hub.tnode.toNat

/-- The ports that an entry of the port table lists, from position `i` on (R366). -/
def listedPorts (e : Word) (i : Nat) : List Nat :=
  let n := fld e 32 3
  if bitAt e 63 then (List.range n).map fun j => fld e (8 * ((i + j) % n)) 8 else []

/-- The port that a flit leaves by: the named one, or the next listed that is up (R366).
Log 76: DEDUCED, unsafe. -/
def State.portFor (s : State) (dst cls chunk : Nat) : Option Nat :=
  let e := if s.fab.badPorts.contains dst then 0 else Tab.get 0 s.fab.ports dst
  let i := if cls = 0 then chunk % max 1 (fld e 32 3) else 0
  (listedPorts e i).find? fun p => (Tab.get {} s.fab.links p).up



/-- One bit of the CRC-32 of IEEE 802.3 (R364). -/
def crcBit (c : Nat) : Nat := if c % 2 = 1 then (c / 2) ^^^ 0xEDB88320 else c / 2

/-- One byte of it. -/
def crcByte (c b : Nat) : Nat := (List.range 8).foldl (fun x _ => crcBit x) (c ^^^ b)

/-- The CRC-32 of bytes. -/
def crc32 (l : List Nat) : Nat := l.foldl crcByte 0xFFFFFFFF ^^^ 0xFFFFFFFF

/-- A flit's header and payload in the order of their bytes. -/
def flitBytes (f : Flit) : List Nat := (rowBytes (ofWords [f.w0, f.w1, f.w2, f.w3])).take 32 ++ rowBytes f.payload

/-- The trailer of a flit on the wire (R364): the link number, the credits returned, which the spec does not count, and the
CRC-32 of the header and the payload.
Log 121: DESIGN CHOICE, safe. -/
def State.trailer (s : State) (lseq : BitVec 12) (f : Flit) : Word :=
  BitVec.ofNat 64 (crc32 (flitBytes f) * 2 ^ 32 + (Config.free 12 [63, s.fresh, s.fab.sent.length]).toNat * 2 ^ 16 +
    lseq.toNat)

/-- A flit put on a link, which keeps it for replay (R365). -/
def State.onLink (s : State) (p : Nat) (f : Flit) : State :=
  let l := Tab.get {} s.fab.links p
  let l' := { l with txNext := l.txNext + 1, replay := (l.replay ++ [f]).drop (l.replay.length + 1 - 2048) }
  { s with fab := { s.fab with links := Tab.put s.fab.links p l', sent := s.fab.sent ++ [(p, s.trailer l.txNext f, f)] } }

/-- The route to a node in a class (R367). -/
def State.route (s : State) (dst : BitVec 12) (cls : Nat) : Route :=
  match s.fab.routes.find? fun r => r.peer = dst ∧ r.cls = cls with
  | some r => r
  | none => { peer := dst, cls := cls }

def State.setRoute (s : State) (r : Route) : State :=
  { s with fab := { s.fab with
      routes := (s.fab.routes.filter fun x => !(x.peer = r.peer ∧ x.cls = r.cls)) ++ [r] } }

/-- A flit accepted by the switch: it takes the next number of its route, is kept until it is acknowledged,
and leaves by a port that is up (R366, R367). A flit for a lost node is dropped and counted (R404); one whose entry of the
port table cannot be read is held (R393). -/
def State.routeFlit (s : State) (dst : Nat) (cls : Nat) (f : Flit) : State :=
  let d : BitVec 12 := BitVec.ofNat 12 dst
  if s.fab.lost.contains d then s.bumpModule 2 true
  else if s.fab.badPorts.contains dst then { s with fab := { s.fab with waiting := s.fab.waiting ++ [(dst, cls, f)] } }
  else
    let r := s.route d cls
    let w0 : Word := BitVec.ofNat 64 (dst % 4096 * 2 ^ 52 + s.node * 2 ^ 40 + cls * 2 ^ 36 + r.tx.toNat)
    let f' := { f with w0 := w0 }
    let now := s.hub.gtime
    let s1 := s.setRoute { r with tx := r.tx + 1, unacked := r.unacked ++ [(f', now, now, 0)] }
    match s1.portFor dst cls f'.chunk with
    | some p => s1.onLink p f'
    | none => s1

/-- A flit sent to a node: a memory request is remembered until it is answered, and held behind an earlier one of
the same requester to the same row or memory-side page that has not been performed, for that one may yet be answered with
a retry (R141, R341).
Log 76: DEDUCED, unsafe. -/
def State.sendFlit (s : State) (dst : Nat) (cls : Nat) (f : Flit) : State :=
  if cls = 1 ∧ f.asks = true then
    if (s.fab.reqs.any fun e => e.1 == dst && f.behind e.2) ∨
        (s.fab.later.any fun e => e.2.1 == dst && f.behind e.2.2) ∨ (s.fab.behind.any fun e => e.1 == dst && f.behind e.2) then
      { s with fab := { s.fab with behind := s.fab.behind ++ [(dst, f)] } }
    else { s with fab := { s.fab with reqs := s.fab.reqs ++ [(dst, f)] } }.routeFlit dst cls f
  else s.routeFlit dst cls f

/-- The code of a read-modify-write within a flit. -/
def memOpCode : MemOp → Nat
  | .load => 0 | .store => 1 | .aadd => 2 | .amin => 3 | .amax => 4 | .aminn => 5 | .amaxn => 6
  | .aand => 7 | .aor => 8 | .axor => 9 | .aswp => 10 | .acas => 11 | .afadd => 12

def memOpOf (n : Nat) : Option MemOp :=
  match n with
  | 0 => some .load | 1 => some .store | 2 => some .aadd | 3 => some .amin | 4 => some .amax
  | 5 => some .aminn | 6 => some .amaxn | 7 => some .aand | 8 => some .aor | 9 => some .axor
  | 10 => some .aswp | 11 => some .acas | 12 => some .afadd | _ => none

/-- The memory flit of R364: op, physical row, and in arg1 the element index [3:0], its width [4], the
atomic code [11:8] and the asker's tag [63:48]. -/
def memFlit (op row elem : Nat) (w32 : Bool) (code tag : Nat) (p : Row) : Flit :=
  ⟨0, 0, BitVec.ofNat 64 (op * 2 ^ 60 + row % 2 ^ 38 * 64),
   BitVec.ofNat 64 (tag * 2 ^ 48 + code * 2 ^ 8 + (if w32 then 16 else 0) + elem % 16), p⟩


/-- A request's flit with the kind of page that it goes to. -/
def Acc.flit (a : Acc) (f : Flit) : Flit :=
  { f with w3 := f.w3 ||| BitVec.ofNat 64 ((if a.leaf.ms then 32 else 0) + if a.leaf.big then 64 else 0) }

/-- The element index of an address within its row. -/
def elemIndex (w32 : Bool) (pa : Nat) : Nat := if w32 then pa / 4 % 16 else pa / 8 % 8

/-- The tag of a context. -/
def ctxTag (c : Nat) (fw : Bool) : Nat := c + (if fw then 256 else 0)

/-- The request for a row of another module. -/
def Acc.readFlit (a : Acc) (tag : Nat) : Flit := a.flit (memFlit 0 a.row 0 false 0 tag 0)

/-- The write of a whole row at another module, enciphered here (R322). -/
def State.rowFlit (s : State) (acc : Acc) (code tag : Nat) (v : Row) : Flit :=
  acc.flit (memFlit 2 acc.row 0 false code tag (s.mem.encipher acc.leaf.ek acc.row v))

/-- The write of one word at another module. -/
def Acc.wordFlit (a : Acc) (tag : Nat) (v : Word) : Flit :=
  a.flit (memFlit 3 a.row (elemIndex false a.pa) false 0 tag (setRowWord 0 0 v))

/-- A write of a whole row at another module.
Log 44: DESIGN CHOICE, safe. -/
def State.remoteRow (s : State) (acc : Acc) (tag : Nat) (v : Row) : State :=
  s.sendFlit acc.leaf.home 1 (s.rowFlit acc 0 tag v)

/-- A write of one word at another module. -/
def State.remoteWord (s : State) (acc : Acc) (tag : Nat) (v : Word) : State :=
  s.sendFlit acc.leaf.home 1 (acc.wordFlit tag v)

/-- Whether an access goes to another module (R322). -/
def State.isRemote (s : State) (acc : Acc) : Bool := acc.leaf.home != s.node

end Sys2Proof.Machine
end

