-- ==== Sys2Proof/Machine/Queue.lean ====
section
/-! DEFINITION. Queues (R292 to R295, R406, R407): headers with the queue table, claims, packets, takes,
waiters, and the readiness that is never lost (R450). -/

namespace Sys2Proof.Machine

/-- A queue header (R292). -/
structure QHdr where
  wi : Word
  ri : Word
  base : Addr
  bud : Nat
  mir : Bool
  qsc : Nat
  lc : Nat
  wq : Addr
  mra : Addr
  own : Addr
  bad : Bool
deriving DecidableEq, Repr

/-- The header that eight words make, on a module of the given node. -/
def hdrOf (node : Nat) (w : List Word) : QHdr :=
  let g (j : Nat) : Word := w.getD j 0
  let mir := bitAt (g 3) 10
  let bud := fld (g 3) 11 12
  { wi := g 0, ri := g 1, base := (g 2).setWidth 48, bud := bud, mir := mir, qsc := fld (g 3) 6 4,
    lc := fld (g 3) 0 5, wq := (g 4).setWidth 48, mra := (g 5).setWidth 48, own := (g 6).setWidth 48,
    bad := fld (g 2) 48 16 != 0 || fld (g 3) 23 41 != 0 || bitAt (g 3) 5 || fld (g 4) 48 16 != 0 ||
      fld (g 5) 48 16 != 0 || fld (g 6) 48 16 != 0 || g 7 != 0 || fld (g 2) 0 6 != 0 ||
      decide (24 < fld (g 3) 0 5) || decide (12 ≤ fld (g 3) 6 4) ||
      (mir && (bud == node || (g 5).setWidth 48 == 0#48)) }

/-- The region block that owns a cached queue, and the blocks above it (R285).
Log 45: DEDUCED, unsafe. -/
def State.ownersOf (s : State) (e : BitVec 16 × Addr × List Word) : List Addr :=
  let own : Addr := (e.2.2.getD 4 0).setWidth 48
  own :: (((s.disp.regions.find? fun g => g.asid = e.1 ∧ g.rcb = own).map fun g => g.chain.map fun c => c.1).getD [])

/-- Room in the queue table for a header (R285, R295): for each block above it that has reached its nslot the least
recently used entry of its subtree goes, and of a full table the least recently used of all. The table is kept in
order of use.
Log 45: DEDUCED, unsafe. -/
def State.headerRoom (s : State) (e : BitVec 16 × Addr × List Word) : List (BitVec 16 × Addr × List Word) :=
  let under (b : Addr) (x : BitVec 16 × Addr × List Word) : Bool := x.1 == e.1 && (s.ownersOf x).contains b
  let nslot (b : Addr) : Nat :=
    ((s.disp.regions.find? fun g => g.asid = e.1 ∧ g.rcb = b).bind fun g => g.eff.map fun f => f.nslot).getD 8192
  let l := (s.ownersOf e).foldl (fun l b =>
    if nslot b ≤ (l.filter (under b)).length then l.eraseP (under b) else l) s.hub.queueTable
  if 8192 ≤ l.length then l.drop 1 else l

/-- The header of a queue whose row is given, at a home: its cached fields, with wi and ri as memory has them; an entry is
filled on first use (R295).
Log 45: DEDUCED, unsafe. -/
def State.headerOf (s : State) (node : Nat) (asid : BitVec 16) (va : Addr) (row : Row) : QHdr × State :=
  let ws := rowWords row
  match s.hub.queueTable.find? fun e => e.1 = asid ∧ e.2.1 = va with
  | some e =>
    (hdrOf node (ws.take 2 ++ e.2.2), { s with hub := { s.hub with
      queueTable := (s.hub.queueTable.eraseP fun x => x == e) ++ [e] } })
  | none =>
    let h := hdrOf node ws
    if h.bad then (h, s)
    else
      let e := (asid, va, ws.drop 2)
      (h, { s with hub := { s.hub with queueTable := s.headerRoom e ++ [e] } })

/-- The header of a queue of this module (R295). -/
def State.queueHdr (s : State) (asid : BitVec 16) (va : Addr) (acc : Acc) : QHdr × State :=
  let r := s.load .queueController acc s.iss.pick
  r.2.2.headerOf s.node asid va r.1

/-- The address of slot i (R292). -/
def QHdr.slot (h : QHdr) (i : Nat) : Word :=
  (h.base + BitVec.ofNat 48 (64 * (i % 2 ^ h.lc))).setWidth 64

/-- The sequence bit for slot index i (R293). -/
def QHdr.seqBit (h : QHdr) (i : Nat) : Bool := (i / 2 ^ h.lc + 1) % 2 = 1

/-- A packet with its sequence bit. -/
def QHdr.stamp (h : QHdr) (i : Nat) (v : Row) : Row :=
  setBits v 511 1 (if h.seqBit i then 1 else 0)

/-! ## What the hub reads -/

/-- The tag of the requests of the hub's agents. -/
def hubTag : Nat := 0xFFFB

/-- A row of another module asked for by an agent of the hub, once (R322). -/
def State.askHub (s : State) (acc : Acc) : State :=
  if s.hub.asked.contains acc.key || s.hub.answers.any fun e => e.1 == acc.key then s
  else { s with hub := { s.hub with asked := acc.key :: s.hub.asked } }.sendFlit acc.leaf.home 1
    ((acc.readFlit hubTag).forRank s.iss.acting)

/-- A row that an agent of the hub reads: of another module the answer that has come; nothing where it is poisoned, or has not
come yet (R322, R394). -/
def State.hubAt (s : State) (acc : Acc) : Option Row :=
  if s.isRemote acc then
    if s.hub.answers.any fun e => e.1 == acc.key + 2 ^ 41 then none
    else (s.hub.answers.find? fun e => e.1 = acc.key).map fun e => s.mem.decipher acc.leaf.ek acc.row e.2
  else if s.mem.bad.contains acc.row then none
  else some (s.hubSee .queueController acc)

/-- A format error that a walk of the hub or of a base die has met, to be reported (R320, R321). -/
def State.noteError (s : State) (asid pa : Nat) : State :=
  { s with mem := { s.mem with tferr := BitVec.ofNat 64 pa, walkErrs := s.mem.walkErrs ++ [(asid, pa)] } }

/-- The rows of page tables that a walk of the hub or of a base die must wait for, in the order in which it meets them: the load of
their region and their recovery have ended (R332, R343, R345). -/
def State.openWalk (s : State) (k : AccKind) (asid : BitVec 16) (va : Word) : Nat → State
  | 0 => s
  | n + 1 =>
    match s.translate asid.toNat k va with
    | .stall pa => (s.opened pa).openWalk k asid va n
    | _ => s

/-- The access of the hub to a row of an address space, before it reads or rewrites it: a format error of the walk is noted
(R321), a region that is loading and a row that is recovered are waited for (R332, R343), the row enters the view of the
agent (R234), and a row of another module is asked for (R322). -/
def State.touchAs (s0 : State) (k : AccKind) (asid : BitVec 16) (va : Word) : State :=
  let s := s0.openWalk k asid va 4
  match s.translate asid.toNat k va with
  | .ok acc =>
    if s.isRemote acc then s.askHub acc else ((s.opened acc.pa).load .queueController acc s.iss.pick).2.2
  | .none (some pa) => s.noteError asid.toNat pa
  | _ => s

/-- The same for a read. -/
def State.touch (s : State) (asid : BitVec 16) (va : Word) : State := s.touchAs .read asid va

/-- Whether a row of an address space is homed on another module. -/
def State.farRow (s : State) (asid : BitVec 16) (va : Addr) : Bool :=
  match s.translate asid.toNat .read (va.setWidth 64) with
  | .ok acc => s.isRemote acc
  | _ => false

/-- Whether the row is there to be read: it is of this module, or its answer has come. -/
def State.rowReadyAs (s : State) (k : AccKind) (asid : BitVec 16) (va : Word) : Bool :=
  match s.translate asid.toNat k va with
  | .ok acc => !s.isRemote acc || s.hub.answers.any fun e => e.1 == acc.key
  | _ => true

/-- The same for a read. -/
def State.rowReady (s : State) (asid : BitVec 16) (va : Word) : Bool := s.rowReadyAs .read asid va

/-- Whether the row of another module is still on its way. -/
def State.rowAsked (s : State) (asid : BitVec 16) (va : Word) : Bool :=
  match s.translate asid.toNat .read va with
  | .ok acc => s.hub.asked.contains acc.key
  | _ => false

/-- The answers of other modules for rows that have been used. -/
def State.dropAnswersAs (s : State) (k : AccKind) (l : List (BitVec 16 × Word)) : State :=
  let keys := l.filterMap fun e => match s.translate e.1.toNat k e.2 with
    | .ok acc => if s.isRemote acc then some acc.key else none
    | _ => none
  { s with hub := { s.hub with answers := s.hub.answers.filter fun a => !keys.any fun k => a.1 == k || a.1 == k + 2 ^ 41 } }

/-- The same for reads. -/
def State.dropAnswers (s : State) (l : List (BitVec 16 × Word)) : State := s.dropAnswersAs .read l

/-- What an agent of the hub does once it has read rows of address spaces; while rows of other modules are on their way it
does nothing yet (R322).
Log 137: DESIGN CHOICE, unsafe. -/
def State.reading (s : State) (l : List (BitVec 16 × Word)) (k : State → State) : State :=
  let s1 := l.foldl (fun s e => s.touch e.1 e.2) s
  if l.all fun e => s1.rowReady e.1 e.2 then (k s1).dropAnswers l else s1

/-- The read index that bounds a claim: the mirror's, on a mirrored queue (R407), once it has been read; the queue's own where
the buddy is lost, for then claims still succeed (R406).
Log 45: DEDUCED, unsafe. -/
def State.boundRi (s : State) (asid : BitVec 16) (h : QHdr) : Option Word :=
  if h.mir && !s.fab.lost.contains (BitVec.ofNat 12 h.bud) then
    match s.translate asid.toNat .read (h.mra.setWidth 64) with
    | .ok m => (s.hubAt m).map fun r => rowWord r 1
    | _ => none
  else some h.ri

/-- Whether the ASID is being quiesced (R228). -/
def State.quiescing (s : State) (asid : BitVec 16) : Bool := s.hub.quiesced.contains asid.toNat

/-- A row of an address space as the hub finds it. -/
def State.hubRead (s : State) (asid : BitVec 16) (va : Addr) : Option Row :=
  match s.disp.records.find? fun e => e.1 = asid ∧ e.2.1 = va with
  | some e => some e.2.2
  | none =>
    match s.translate asid.toNat .read (va.setWidth 64) with
    | .ok acc => s.hubAt acc
    | _ => none

/-- The header address of the ready queue of a region block, where it can be read. -/
def State.readyQueue (s : State) (asid : BitVec 16) (rcb : Addr) : Option Addr :=
  (s.hubRead asid rcb).map fun r => (rowWord r 4).setWidth 48

/-- A region whose ready queue receives its first packet takes its place in the round order (R302). -/
def State.noteFirst (s : State) (asid : BitVec 16) (va own : Addr) : State :=
  if s.disp.firsts.contains (asid, own) || s.readyQueue asid own != some va then s
  else { s with disp := { s.disp with firsts := s.disp.firsts ++ [(asid, own)] } }

/-- A row of which an agent rewrites a part: one that stands poisoned keeps its poison, drops the write and is reported
(R142, R394). -/
def State.putPart (s : State) (a : Agent) (acc : Acc) (v : Row) : State :=
  if s.mem.bad.contains acc.row then
    { s with mem := { s.mem with reports := s.mem.reports ++ [⟨0x02, BitVec.ofNat 8 (s.mem.stackOf acc.pa), (s.rankOf a).getD 0,
        BitVec.ofNat 64 (64 * acc.row), BitVec.ofNat 64 (issuerCore a)⟩] } }
  else s.put a acc v

/-- The conditional update of wi at MEMSIDE (R293): the slot index claimed, if any, under the read index that bounds it. -/
def State.claim (s : State) (a : Agent) (asid : BitVec 16) (va : Addr) (acc : Acc) (h : QHdr) (ri : Word) :
    Option Nat × State :=
  if s.quiescing asid || decide (2 ^ h.lc ≤ (h.wi - ri).toNat) then (none, s)
  else (some h.wi.toNat, (s.noteFirst asid va h.own).putPart a acc (setRowWord (s.peek acc) 0 (h.wi + 1)))

/-- The write of a packet to its slot of a mirror (R406): the ASID in bits [31:16] of word 1, and bits [47:6] of the mirror's
header address in bits [63:48] and [14:5] of word 1 and [59:44] of word 2. -/
def mirrorFlit (m : Acc) (asid : BitVec 16) (mra : Addr) (i : Nat) (v : Row) : Flit :=
  let f := (memFlit 2 m.row 0 false 1 0xFFFF v).withIndex i
  let x := mra.toNat / 64
  { f with w1 := BitVec.ofNat 64 (x % 2 ^ 16 * 2 ^ 48 + asid.toNat * 2 ^ 16 + x / 2 ^ 16 % 2 ^ 10 * 32),
           w2 := f.w2 ||| BitVec.ofNat 64 (x / 2 ^ 26 % 2 ^ 16 * 2 ^ 44) }

/-- The mirror's header address that such a flit carries. -/
def mirrorVa (f : Flit) : Addr :=
  BitVec.ofNat 48 (64 * (fld f.w2 44 16 * 2 ^ 26 + fld f.w1 5 10 * 2 ^ 16 + fld f.w1 48 16))

/-- A packet of a mirrored queue that waits to be accepted. -/
def State.owesMirror (s : State) (asid : BitVec 16) (va : Addr) (row : Nat) (h : QHdr) (i : Nat) (who : Option PortMsg) :
    State :=
  match h.mir, s.translate asid.toNat .write (h.mra.setWidth 64) with
  | true, .ok m =>
    let e : Mirror := { asid := asid, va := va, row := row, index := i, bud := h.bud, mrow := m.row, who := who }
    { s with hub := { s.hub with mirrors := s.hub.mirrors ++ [e] } }
  | true, _ =>
    let e : Mirror := { asid := asid, va := va, row := row, index := i, bud := h.bud, mrow := 0, who := who }
    { s with hub := { s.hub with mirrors := s.hub.mirrors ++ [e] } }
  | false, _ => s

/-- The packets of a mirrored queue that stand in their slots written to the mirror (R406): the same row to the same slot
index. -/
def State.sendMirror (s : State) (e : Mirror) (h : QHdr) (v : Row) : State :=
  match s.translate e.asid.toNat .write (h.mra.setWidth 64) with
  | .ok m =>
    let l := s.hub.mirrors.map fun x => if x = e then { e with bud := h.bud, mrow := m.row, sent := true } else x
    { s with hub := { s.hub with mirrors := l } }.sendFlit h.bud 1 (mirrorFlit m e.asid h.mra e.index v)
  | _ => s

/-- The mirror of a packet whose row has just been written (R406): it waits to be accepted. -/
def State.mirror (s : State) (asid : BitVec 16) (va : Addr) (row : Nat) (h : QHdr) (i : Nat) (v : Row)
    (who : Option PortMsg) : State :=
  let s1 := s.owesMirror asid va row h i who
  match h.mir, s1.hub.mirrors.getLast? with
  | true, some e => s1.sendMirror e h (h.stamp i v)
  | _, _ => s1

/-- How an append ends. -/
inductive App where
  | done (i : Nat)
  | full
  | bad
  /-- the queue's header is poisoned -/
  | poison
  /-- an answer of another module is still on its way -/
  | later
  /-- a translation or permission fault: denied or not, the address, a page-table entry in error -/
  | fault (denied : Bool) (va : Word) (err : Option Nat)
deriving DecidableEq, Repr

/-- A translation that must succeed, as an append sees it. -/
def State.queueAcc (s : State) (asid : BitVec 16) (k : AccKind) (va : Word) : Except App Acc :=
  match s.translate asid.toNat k va with
  | .ok a => .ok a
  | .denied => .error (.fault true va none)
  | .none e => .error (.fault false va e)
  | .noMemory _ => .error (.fault false va none)
  | .stall _ => .error .later

/-- The walk of an access by the hub or a base die, reported where it meets a format error. -/
def State.noteWalk (s0 : State) (asid : BitVec 16) (k : AccKind) (va : Word) : State :=
  let s := s0.openWalk k asid va 4
  match s.translate asid.toNat k va with
  | .none (some pa) => s.noteError asid.toNat pa
  | _ => s

/-- The same of an append or take that has failed. -/
def State.noteApp (s : State) (asid : BitVec 16) (e : App) : State :=
  match e with
  | .fault _ _ (some pa) => s.noteError asid.toNat pa
  | _ => s

/-- The state in which an access by the hub takes place, held while its region is being loaded (R332),
its row recovered (R343), or its walk is held by one of these. -/
def State.openedAt (s0 : State) (asid : BitVec 16) (k : AccKind) (va : Word) : State :=
  let s := s0.openWalk k asid va 4
  match s.translate asid.toNat k va with
  | .ok a => if s.isRemote a then s else s.opened a.pa
  | _ => s

/-- The tag of writes that no asker counts. -/
def freeTag : Nat := 0xFFFE

/-- A packet's row written to its slot, at whichever module is its home (R223, R322). -/
def State.putSlot (s : State) (a : Agent) (slot : Acc) (v : Row) : State :=
  if s.isRemote slot then (s.flushPubs a).remoteRow slot freeTag v else s.put a slot v

/-- Answers of other modules given up. -/
def State.forgetHub (s : State) (keys : List Nat) : State :=
  { s with hub := { s.hub with answers := s.hub.answers.filter fun a => !keys.any fun k => a.1 == k || a.1 == k + 2 ^ 41 } }

/-- The key of an atomic's answer among the answers of remote homes. -/
def answerKey (key : Nat) : Nat := key + 2 ^ 40

/-- A request of the hub that changes something at another module, sent once. -/
def State.askHubOnce (s : State) (acc : Acc) (f : Flit) : State :=
  let key := answerKey acc.key
  if s.hub.asked.contains key then s
  else { s with hub := { s.hub with asked := key :: s.hub.asked } }.sendFlit acc.leaf.home 1 (f.forRank s.iss.acting)

/-- The claim of a slot of a queue of another module, whose write index was read as `wi` (R293). -/
def claimFlit (acc : Acc) (wi : Word) (va : Addr) (tag : Nat) : Flit :=
  acc.flit (memFlit 4 acc.row 0 false 15 tag (ofWords [wi, BitVec.ofNat 64 acc.leaf.own, va.setWidth 64]))

/-- The question whether the packet at an index of a mirrored queue of another module is accepted (R406, R413). -/
def acceptFlit (acc : Acc) (i : Nat) (va : Addr) (tag : Nat) : Flit :=
  let f := claimFlit acc (BitVec.ofNat 64 i) va tag
  { f with w3 := f.w3 ||| 0x4000 }

/-- The take of the packet at a read index of a queue of another module, marked by bit 13 of arg1 (R224, R406). -/
def takeFlit (acc : Acc) (ri : Word) (tag : Nat) : Flit :=
  let f := acc.flit (memFlit 4 acc.row 1 false 11 tag (ofWords [ri + 1, ri]))
  { f with w3 := f.w3 ||| 0x2000 }

/-- An append by the hub to a queue of another module, by the steps of its answers: the header, the claim, then the packet's row
(R223, R293, R450).
Log 45: DEDUCED, unsafe. -/
def State.appendFar (s : State) (a : Agent) (asid : BitVec 16) (va : Addr) (acc : Acc) (v : Row) : App × State :=
  let keys := [acc.key, answerKey acc.key]
  if s.hub.answers.any fun e => e.1 == acc.key + 2 ^ 41 then (.poison, s.forgetHub keys)
  else
    match s.hubAt acc with
    | none => (.later, s.askHub acc)
    | some row =>
      let q := s.headerOf acc.leaf.home asid va row
      let h := q.1
      if h.bad then (.bad, q.2.forgetHub keys)
      else
        match q.2.queueAcc asid .write (h.slot h.wi.toNat) with
        | .error e => (e, q.2.forgetHub keys)
        | .ok slot =>
          match q.2.hub.answers.find? fun e => e.1 = answerKey acc.key with
          | none => (.later, q.2.askHubOnce acc (claimFlit acc h.wi va hubTag))
          | some e =>
            let s1 := q.2.forgetHub keys
            if rowWord e.2 1 = 1 then
              (.done (rowWord e.2 0).toNat, s1.putSlot a slot (h.stamp (rowWord e.2 0).toNat v))
            else (if rowWord e.2 1 = 0 then .full else .later, s1)

/-- An append by an agent to a queue of this module, once the read index that bounds it is known: claim, then one atomic row
write with the sequence bit (R223, R293).
Log 45: DEDUCED, unsafe. -/
def State.appendHere (s : State) (a : Agent) (asid : BitVec 16) (va : Addr) (acc : Acc) (v : Row) (ri : Option Word)
    (who : Option PortMsg) : App × State :=
  let q := s.queueHdr asid va acc
  let h := q.1
  if q.2.mem.bad.contains acc.row then (.poison, q.2)
  else if h.bad then (.bad, q.2)
  else
    let s2 := q.2.openedAt asid .write (h.slot h.wi.toNat)
    match s2.queueAcc asid .write (h.slot h.wi.toNat) with
    | .error e => (e, s2)
    | .ok slot =>
      match ri.or (s2.boundRi asid h) with
      | none => (.later, s2.touch asid (h.mra.setWidth 64))
      | some ri =>
        match s2.claim a asid va acc h ri with
        | (none, s1) => (.full, s1)
        | (some i, s1) =>
          (.done i, ((s1.putSlot a slot (h.stamp i v)).mirror asid va acc.row h i v who).dropAnswers [(asid, h.mra.setWidth 64)])

/-- An append by an agent to a queue (R223, R293).
Log 45: DEDUCED, unsafe. -/
def State.append (s0 : State) (a : Agent) (asid : BitVec 16) (va : Addr) (v : Row)
    (who : Option PortMsg) : App × State :=
  let s := (s0.openedAt asid .atomic (va.setWidth 64)).actFor (s0.asidRank asid)
  let r := match s.queueAcc asid .atomic (va.setWidth 64) with
    | .error e => (e, s)
    | .ok acc => if s.isRemote acc then s.appendFar a asid va acc v else s.appendHere a asid va acc v none who
  (r.1, r.2.actFor s0.iss.acting)

/-- Whether the packet at a queue's read index has come and, while the header names a mirror, is accepted (R224, R406): no
write of it to the present buddy is outstanding. -/
def State.packetIn (s : State) (row : Nat) (h : QHdr) (v : Row) : Bool :=
  v.getLsbD 511 == h.seqBit h.ri.toNat &&
    !(h.mir && s.hub.mirrors.any fun e => e.row == row && e.index == h.ri.toNat && (!e.sent || e.bud == h.bud))

/-- The read index moved past the packet that is taken (R224). -/
def State.takeAt (s : State) (a : Agent) (acc : Acc) (h : QHdr) : State :=
  s.putPart a acc (setRowWord (s.peek acc) 1 (h.ri + 1))

/-- The oldest packet of a queue of this module, taken if it is there and accepted (R224, R406).
Log 45: DEDUCED, unsafe. -/
def State.takeHere (s : State) (a : Agent) (asid : BitVec 16) (va : Addr) : Option (Nat × Row) × State :=
  match s.queueAcc asid .atomic (va.setWidth 64) with
  | .error e => (none, s.noteApp asid e)
  | .ok acc =>
    if s.isRemote acc then (none, s)
    else
      let q := s.queueHdr asid va acc
      let h := q.1
      if q.2.mem.bad.contains acc.row || h.bad || s.quiescing asid || h.ri == h.wi then (none, q.2)
      else
        let s2 := q.2.openedAt asid .read (h.slot h.ri.toNat)
        match s2.queueAcc asid .read (h.slot h.ri.toNat) with
        | .error e => (none, s2.noteApp asid e)
        | .ok slot =>
          let s3 := s2.touch asid (h.slot h.ri.toNat)
          match s3.hubAt slot with
          | none => (none, s3)
          | some v =>
            let s4 := s3.dropAnswers [(asid, h.slot h.ri.toNat)]
            if s4.packetIn acc.row h v then (some (h.ri.toNat, v), s4.takeAt a acc h) else (none, s4)

/-- The same for the rank of the queue's address space (R448).
Log 45: DEDUCED, unsafe. -/
def State.take (s0 : State) (a : Agent) (asid : BitVec 16) (va : Addr) : Option (Nat × Row) × State :=
  let r := ((s0.openedAt asid .atomic (va.setWidth 64)).actFor (s0.asidRank asid)).takeHere a asid va
  (r.1, r.2.actFor s0.iss.acting)

/-- How far the take of a packet of another module's queue has come. -/
inductive Far where
  | taken (i : Nat) (v : Row)
  | empty
  | later
deriving DecidableEq, Repr

/-- A take by the hub from a queue of another module, by the steps of its answers: the header, the packet's row, then the
conditional update of the read index (R224, R294).
Log 45: DEDUCED, unsafe. -/
def State.takeFar (s : State) (asid : BitVec 16) (va : Addr) (acc : Acc) : Far × State :=
  match s.hubAt acc with
  | none => (.later, (s.forgetHub (if s.hub.answers.any fun e => e.1 == acc.key then [acc.key] else [])).askHub acc)
  | some row =>
    let q := s.headerOf acc.leaf.home asid va row
    let h := q.1
    if h.bad || h.ri == h.wi then (.empty, q.2.forgetHub [acc.key])
    else
      let at_ := h.slot h.ri.toNat
      match q.2.queueAcc asid .read at_ with
      | .error e => (.empty, (q.2.noteApp asid e).forgetHub [acc.key])
      | .ok slot =>
        let keys := [acc.key, answerKey acc.key, slot.key]
        let s1 := q.2.touch asid at_
        match s1.hubAt slot with
        | none => (.later, s1)
        | some v =>
          if v.getLsbD 511 ≠ h.seqBit h.ri.toNat then (.later, s1.forgetHub keys)
          else
            match s1.hub.answers.find? fun e => e.1 = answerKey acc.key with
            | none => (.later, s1.askHubOnce acc (takeFlit acc h.ri hubTag))
            | some e => (if rowWord e.2 1 = h.ri then .taken h.ri.toNat v else .later, s1.forgetHub keys)

/-- The ready packet of a record (R289). -/
def readyPacket (rec : Addr) : Row := setRowWord 0 0 (rec.setWidth 64)

/-- A row of another module of which the hub changes a part: each word that changes, under the mask of its changed bits; a row
that its page keeps enciphered, whole (R322).
Log 137: DESIGN CHOICE, unsafe. -/
def State.rewriteFar (s : State) (acc : Acc) (old new : Row) : State :=
  let kept := { s with hub := { s.hub with answers := Tab.put s.hub.answers acc.key (s.mem.encipher acc.leaf.ek acc.row new) } }
  if acc.leaf.ek ≠ 0 then kept.sendFlit acc.leaf.home 1 ((kept.rowFlit acc 0 freeTag new).forRank s.iss.acting)
  else
    (List.range 8).foldl (fun s j =>
      let x := rowWord old j
      let y := rowWord new j
      if x = y then s
      else s.sendFlit acc.leaf.home 1
        ((acc.flit (memFlit 3 acc.row j false 1 freeTag (ofWords [y, x ^^^ y]))).forRank s.iss.acting)) kept

/-- A row of an address space rewritten by an agent of the hub or of a base die for a rank (R448); an address that does not
translate is left alone. -/
def State.rewriteAs (s : State) (a : Agent) (v : Option (BitVec 16)) (asid : BitVec 16) (va : Addr) (f : Row → Row) : State :=
  match s.translate asid.toNat .read (va.setWidth 64) with
  | .ok acc =>
    if s.isRemote acc then
      match s.hubAt acc with
      | some r => s.serving v fun s => s.rewriteFar acc r (f r)
      | none => s
    else (s.opened acc.pa).serving v fun s => s.putPart a acc (f (s.peek acc))
  | .none (some pa) => s.noteError asid.toNat pa
  | _ => s

/-- A row of an address space rewritten by the hub for the rank of that space. -/
def State.hubRewrite (s : State) (asid : BitVec 16) (va : Addr) (f : Row → Row) : State :=
  if s.disp.records.any fun e => e.1 = asid ∧ e.2.1 = va then
    { s with disp := { s.disp with records := s.disp.records.map fun e =>
        if e.1 = asid ∧ e.2.1 = va then (e.1, e.2.1, f e.2.2) else e } }
  else s.rewriteAs .queueController (s.asidRank asid) asid va f

/-- The region block that a record names. -/
def State.recordRegion (s : State) (asid : BitVec 16) (rec : Addr) : Option Addr :=
  (s.hubRead asid rec).map fun r => (rowWord r 1).setWidth 48

/-- A region stopped in its block (R284, R309): word 7, stop. -/
def State.setStop (s : State) (asid : BitVec 16) (rcb : Addr) (code : Nat) : State :=
  s.hubRewrite asid rcb (fun r => setBits r (448 + 48) 8 code)

/-- A ready record's age: the slot of its latest readiness (R287, R289). -/
def State.setAge (s : State) (asid : BitVec 16) (rec : Addr) (i : Nat) : State :=
  s.hubRewrite asid rec fun r =>
    if fld (rowWord r 4) 56 4 = 2 then setRowWord r 2 (BitVec.ofNat 64 i) else r

/-- A packet held while its ready queue cannot take it (R450). -/
def State.holdReady (s : State) (asid : BitVec 16) (q : Addr) (pkt : Row) : State :=
  { s with disp := { s.disp with holds := s.disp.holds ++ [(asid, q, pkt)] } }

/-- A readiness kept until the region block, or the record where no region is known yet, can be read (R450). -/
def State.holdUnread (s : State) (asid : BitVec 16) (rcb : Option Addr) (rec : Addr) : State :=
  { s with disp := { s.disp with unread := s.disp.unread ++ [(asid, rcb, rec)] } }

/-- A ready packet appended behind those held for its queue, or held while the queue is full, its header invalid or its
region block unreadable (R450); the second result says that the region has a format error. -/
def State.appendReady (s0 : State) (asid : BitVec 16) (rcb rec : Addr) : Bool × State :=
  let rows := [(asid, rcb.setWidth 64), (asid, rec.setWidth 64)]
  let s := rows.foldl (fun s e => s.touch e.1 e.2) s0
  match if rows.all fun e => s.rowReady e.1 e.2 then s.readyQueue asid rcb else none with
  | none => (false, s.holdUnread asid (some rcb) rec)
  | some q =>
    let pkt := readyPacket rec
    if s.disp.holds.any fun h => h.1 = asid ∧ h.2.1 = q then (false, (s.holdReady asid q pkt).dropAnswers rows)
    else
      match s.append .queueController asid q pkt none with
      | (.done i, s1) => (false, (s1.setAge asid rec i).dropAnswers rows)
      | (.full, s1) => (false, (s1.holdReady asid q pkt).dropAnswers rows)
      | (.later, s1) => (false, (s1.holdReady asid q pkt).dropAnswers rows)
      | (.poison, s1) => (false, (s1.holdReady asid q pkt).dropAnswers rows)
      | (e, s1) => (true, (((s1.noteApp asid e).holdReady asid q pkt).setStop asid rcb 2).dropAnswers rows)

/-- A packet of a mirrored queue written to the mirror once its row stands in its slot (R406): one that its producer has
written itself, or whose slot another module holds. -/
def State.mirrorWrite (s0 : State) (i : Nat) : State :=
  match s0.hub.mirrors[i]? with
  | none => s0
  | some e =>
    let s := s0.openWalk .read e.asid (e.va.setWidth 64) 4
    match s.queueAcc e.asid .read (e.va.setWidth 64) with
    | .error x => s.noteApp e.asid x
    | .ok acc =>
      if e.sent || s.isRemote acc then s
      else
        let q := s.queueHdr e.asid e.va acc
        let at_ := q.1.slot e.index
        let s1 := q.2.touch e.asid at_
        match (s1.queueAcc e.asid .read at_).toOption.bind s1.hubAt with
        | none => s1
        | some v =>
          let s2 := s1.dropAnswers [(e.asid, at_)]
          if q.1.mir && v.getLsbD 511 == q.1.seqBit e.index then s2.sendMirror e q.1 v else s2

/-- A packet accepted (R406): its buddy has acknowledged it, or firmware has rewritten the header since, so that no write of
it to the present buddy is outstanding. -/
def State.accepted (s : State) (e : Mirror) : Bool :=
  e.acked ||
    match s.queueAcc e.asid .read (e.va.setWidth 64) with
    | .ok acc =>
      let h := (s.queueHdr e.asid e.va acc).1
      !s.isRemote acc && !h.bad && (!h.mir || (e.sent && e.bud != h.bud))
    | .error _ => false

end Sys2Proof.Machine
end

