-- ==== Sys2Proof/Machine/Ops.lean ====
section
/-! DEFINITION. The named operations over the machine: how an issue ends, machine checks (R390 to R392), taking
a trap and returning from one (R28 to R41), device-memory and scratchpad accesses with their faults (R76,
R127, R142, R394). -/

namespace Sys2Proof.Machine

/-! ## Machine checks -/

/-- Whether a core's firmware context can take one more machine check (R390).
Log 28: DEDUCED, unsafe. -/
def State.takesChecks (s : State) (c : Nat) : Bool :=
  let k := s.core c
  k.fw.run != .stopped && k.fw.run != .off && !k.dead &&
    decide ((k.fx.events.filter fun e => e.code = 0x22).length < 16)

/-- The core that a machine check goes to (R390).
Log 28: DEDUCED, unsafe. -/
def State.checkTarget (s : State) (m : McReport) : Option Nat :=
  let u := m.unit.toNat
  let names : List Nat := [0x03, 0x04, 0x06, 0x0A, 0x0E, 0x13, 0x14, 0x15]
  let first :=
    if m.src = 0x0D then (u + 1) % 200
    else if names.contains m.src.toNat ∧ u < 200 then u
    else 0
  (List.range 200).map (fun i => (first + i) % 200) |>.find? s.takesChecks

/-- The header of the machine-check queue (R391). -/
def mcQueueVa : Addr := 0x000100400000

/-- A machine-check record (R391). -/
def mcRecord (m : McReport) (gt : Nat) (lost : Nat) : Row :=
  ofWords [BitVec.ofNat 64 (m.vrank.toNat * 65536 + m.unit.toNat * 256 + m.src.toNat), m.addr,
    BitVec.ofNat 64 gt, m.det, BitVec.ofNat 64 (lost % 2 ^ 32), 0, 0, 0]

/-- The sources that concern the strand of the core that they name (R392).
Log 57: DEDUCED, unsafe. -/
def strandSources : List Nat := [0x03, 0x04, 0x06, 0x0A, 0x0D, 0x0E, 0x14, 0x15]

/-- A report with the rank that it concerns: that of the strand on the core it names, where it says none.
Log 28: DEDUCED, unsafe; log 57: DEDUCED, unsafe. -/
def State.fillRank (s : State) (m : McReport) : McReport :=
  if m.vrank = 0 ∧ m.unit.toNat < 200 ∧ strandSources.contains m.src.toNat = true then
    match (s.core m.unit.toNat).strand with
    | some t => { m with vrank := t.vrank }
    | none => m
  else m

/-- A machine check delivered as cause 0x22 and appended to the machine-check queue (R390, R391).
Log 28: DEDUCED, unsafe. -/
def State.raiseMc (s : State) (m0 : McReport) : State :=
  let m := s.fillRank m0
  let s1 := match s.checkTarget m with
    | some c =>
      s.raiseAsync c ⟨0x22,
        BitVec.ofNat 32 (m.vrank.toNat * 65536 + m.unit.toNat * 256 + m.src.toNat), m.addr⟩
    | none => s
  match s1.append .queueController 0 mcQueueVa (mcRecord m s.hub.gtime s.hub.mcLost) none with
  | (.done _, s2) => { s2 with hub := { s2.hub with mcLost := 0 } }
  | (e, s2) =>
    let s3 := (s2.noteApp 0 e).bumpModule 2 false
    { s3 with hub := { s3.hub with mcLost := s3.hub.mcLost + 1 } }

/-- A report by a core. -/
def coreReport (src c : Nat) (addr det : Word) : McReport :=
  ⟨BitVec.ofNat 8 src, BitVec.ofNat 8 c, 0, addr, det⟩

/-- A walk that met a format error: tferr and source 0x06 (R321, R324).
Log 20: DEDUCED, unsafe. -/
def State.walkError (s : State) (c asid pa : Nat) : State :=
  { s with mem := { s.mem with tferr := BitVec.ofNat 64 pa } }.raiseMc
    (coreReport 0x06 c (BitVec.ofNat 64 pa) (BitVec.ofNat 64 asid))

/-- What the hub and the base dies have met reported: format errors of their walks, with no core as their unit, and
recoveries counted or failed (R321, R343, R344). -/
def State.reportPending (s : State) : State :=
  let s1 := s.mem.walkErrs.foldl (fun s e => s.walkError 255 e.1 e.2) { s with mem := { s.mem with walkErrs := [] } }
  let s2 := (List.range s1.mem.recoveries).foldl (fun s _ => s.bumpModule 3 false)
    { s1 with mem := { s1.mem with recoveries := 0 } }
  s2.mem.reports.foldl State.raiseMc { s2 with mem := { s2.mem with reports := [] } }

/-! ## Readiness -/

/-- A strand made ready (R289, R450), found by the dispatcher of a die; an invalid ready queue is a format
error of its region (R284).
Log 57: DEDUCED, unsafe. -/
def State.makeReady (s : State) (die : Nat) (asid : BitVec 16) (rcb rec : Addr) : State :=
  let r := s.appendReady asid rcb rec
  let v := ((s.disp.ranks.find? fun k => k.asid = asid).map fun k => k.vrank).getD 0
  if r.1 then r.2.raiseMc ⟨0x07, BitVec.ofNat 8 die, v, rcb.setWidth 64, 0⟩ else r.2

/-- The strand whose record a waiter's packet names made ready (R294); kept where its region cannot be read yet (R450). -/
def State.wakeRecord (s : State) (asid : BitVec 16) (v : Row) : State :=
  let rec_ : Addr := (rowWord v 0).setWidth 48
  let s1 := s.touch asid (rec_.setWidth 64)
  match s1.recordRegion asid rec_ with
  | some rcb => s1.makeReady 0 asid rcb rec_
  | none => s1.holdUnread asid none rec_

/-- After a claim on a queue, or a waiter's registration, the oldest waiter of a waiter queue moves to the ready queue of the
region that its record names (R294); one from a waiter queue that another module holds follows in steps of its own. -/
def State.moveWaiter (s : State) (asid : BitVec 16) (wq : Addr) : State :=
  if wq = 0 then s
  else if s.farRow asid wq then { s with hub := { s.hub with moves := s.hub.moves ++ [(asid, wq)] } }
  else
    match s.take .queueController asid wq with
    | (none, s1) => s1
    | (some (_, v), s1) => s1.wakeRecord asid v

/-- A step of the move of a waiter from a waiter queue that another module holds (R294).
Log 45: DEDUCED, unsafe. -/
def State.moveFar (s0 : State) (i : Nat) : State :=
  match s0.hub.moves[i]? with
  | none => s0
  | some (asid, wq) =>
    let s := s0.openWalk .atomic asid (wq.setWidth 64) 4
    let gone (s : State) : State := { s with hub := { s.hub with moves := s.hub.moves.eraseIdx i } }
    match s.queueAcc asid .atomic (wq.setWidth 64) with
    | .error e => gone (s.noteApp asid e)
    | .ok acc =>
      if s.isRemote acc then
        let r := (s.actFor (s.asidRank asid)).takeFar asid wq acc
        let s1 := r.2.actFor s.iss.acting
        match r.1 with
        | .taken _ v => (gone s1).wakeRecord asid v
        | .empty => gone s1
        | .later => s1
      else (gone s).moveWaiter asid wq

/-! ## Traps -/

/-- The cause register (R32). -/
def causeWord (t : Trap) (dbl : Bool) : Word :=
  BitVec.ofNat 64 (t.info.toNat * 2 ^ 32 + (if t.fat then 2 ^ 15 else 0) + (if dbl then 2 ^ 14 else 0)
    + t.slot.toNat * 2 ^ 11 + t.code.toNat)

/-- The cause codes that tdeleg may route (R33). -/
def delegable (code : BitVec 6) : Bool :=
  [0x01, 0x06, 0x07, 0x08, 0x0A, 0x0B, 0x0C].contains code.toNat

/-- The bits of tdeleg that exist (R36). -/
def delegMask : Word := 0x1DC2

/-- A bundle address: bits [4:0] read zero (R34). -/
def alignPc (x : Addr) : Addr := x &&& 0xFFFFFFFFFFE0

/-- The stalled bundle of a context given up: it waits for nothing, and answers still on their way to it are dropped. -/
def Ctx.settle (c : Ctx) : Ctx :=
  { c with waits := [], bundle := none, ended := false, mixed := false, answers := [], sentAs := [],
           asked := (c.asked.filter fun e => !(e.2 == 0 && c.answers.any fun a => a.1 == e.1)).map fun e => (e.1, 1) }

/-- The entry of a delegated program-context trap (R37). -/
def State.delegatedEntry (s : State) (c : Nat) (t : Trap) : State :=
  let k := (s.core c).landEarlier false
  let p := k.prog.settle
  s.setCore c
    { k with
      px := { k.px with fmtsv := k.px.shVal, shCnt := 0 },
      prog := { p with cause := causeWord t false, faddr := t.faddr, epc := alignPc t.epc, inh := true,
                       fsc := BitVec.ofNat 3 k.px.shCnt, pc := p.tvec, jumped := false, looped := false } }

/-- The stop of a program context (R39): its trap registers as R37 writes them, the live shadow saved, inh
left, and cause 0x21 for the firmware context. -/
def State.programStop (s : State) (c : Nat) (t : Trap) : State :=
  let k := (s.core c).landEarlier false
  let p := k.prog.settle
  let k' : Core :=
    { k with
      px := { k.px with fmtsv := k.px.shVal, shCnt := 0 },
      fx := { k.fx with fwev := k.fx.fwev ||| 1#2 },
      prog := { p with cause := causeWord t p.inh, faddr := t.faddr, epc := alignPc t.epc,
                       fsc := BitVec.ofNat 3 k.px.shCnt, looped := false, run := .stopped } }
  (s.setCore c k').raiseAsync c ⟨0x21, 0, 0⟩

/-- The entry of a trap of the firmware context (R40). -/
def State.firmwareEntry (s : State) (c : Nat) (t : Trap) : State :=
  let k := (s.core c).landEarlier true
  let f := k.fw.settle
  s.setCore c
    { k with fw := { f with cause := causeWord t false, faddr := t.faddr, epc := alignPc t.epc, inh := true,
                            fsc := 0, pc := f.tvec, run := .running, jumped := false, looped := false } }

/-- A core of which both contexts have stopped, and the hub told (R40, R392). During a hand-over it lowers the count of the cores
that must hand over (R429).
Log 19: DEDUCED, unsafe; log 33: DEDUCED, unsafe. -/
def State.coreDead (s : State) (c : Nat) (f : Ctx) : State :=
  let k := s.core c
  let k' : Core :=
    { k with dead := true, prog := { k.prog.settle with run := .stopped }, fw := { f.settle with run := .stopped } }
  let s1 := s.setCore c k'
  let s2 :=
    if s1.hub.hos = 2 then
      { s1 with hub := { s1.hub with hotg := s1.hub.hotg - 1 } }.handoverEnd
    else s1
  s2.raiseMc (coreReport 0x0D c (f.epc.setWidth 64) f.cause)

/-- A core that stops under R40.
Log 19: DEDUCED, unsafe; log 33: DEDUCED, unsafe. -/
def State.coreCheck (s : State) (c : Nat) (t : Trap) : State :=
  let k := (s.core c).landEarlier true
  (s.setCore c k).coreDead c { k.fw with cause := causeWord t true, faddr := t.faddr, epc := alignPc t.epc }

/-- Taking a trap of the issuing context: delegated (R36, R37), a stop (R39), the firmware's own handler or a
core machine check (R40). A completing trap of a firmware context inside its handler is treated as a fault there is.
Log 122: DESIGN CHOICE, unsafe. -/
def State.takeTrap (s : State) (t : Trap) : State :=
  let c := s.iss.core
  let k := s.core c
  if s.iss.fw then
    if k.fw.inh then s.coreCheck c t else s.firmwareEntry c t
  else if delegable t.code && bitAt k.fx.tdeleg t.code.toNat && !k.prog.inh then s.delegatedEntry c t
  else s.programStop c t

/-- An asynchronous event taken by a firmware context at its bundle boundary (R33, R40, R41): none while a bundle is
stalled, for that bundle has begun and the context is never pre-empted (R27).
Log 18: DEDUCED, unsafe. -/
def State.takeAsync (s : State) (c : Nat) : State :=
  let k := s.core c
  match k.fx.events with
  | e :: rest =>
    if k.fw.inh = false ∧ k.fw.waits = [] ∧ k.fw.ended = false ∧ (k.fw.run = .running ∨ k.fw.run = .sleeping) then
      let k1 := k.landAll true
      let f := k1.fw
      let t : Trap := ⟨e.code, 0, e.info, false, e.faddr, f.pc⟩
      let info : BitVec 32 :=
        if e.code = 0x25 then (Tab.get 0 s.hub.freq c).setWidth 32 else e.info
      s.setCore c
        { k1 with
          fx := { k1.fx with events := rest },
          fw := { f with cause := causeWord { t with info := info } false, faddr := e.faddr, epc := f.pc,
                         inh := true, fsc := 0, pc := f.tvec, run := .running, waits := [],
                         jumped := false, looped := false } }
    else s
  | [] => s

/-! ## How an issue ends -/

/-- The end of a syllable's issue: its effect, a trap with the format errors that its walks met, a wait under
R27, or a stop of the machine. -/
inductive Res where
  | ok (s : State)
  | trap (t : Trap) (errs : List Nat)
  | wait (w : Wait)
  | stop (f : Fault)
deriving Repr

/-- Continue with a value, unless the issue has ended. -/
def Res.andThen {α : Type} (x : Except Res α) (f : α → Res) : Res :=
  match x with
  | .ok a => f a
  | .error r => r

/-- A trap at the issuing bundle (R34). -/
def State.trapOf (s : State) (code info : Nat) (faddr : Word) : Trap :=
  ⟨BitVec.ofNat 6 code, BitVec.ofNat 3 s.iss.slot, BitVec.ofNat 32 info, false, faddr, s.iss.pc⟩

/-- Log 37: DEDUCED, unsafe. -/
def State.fault (s : State) (code info : Nat) (faddr : Word) : Res := .trap (s.trapOf code info faddr) []

/-- Illegal-bundle with a reason (R33). -/
def State.illegal (s : State) (reason : Nat) : Res := s.fault 0x01 reason 0

/-- The machine after a syllable has raised a trap: what its walks reported, and the trap taken. The step
takes the bundle's trap in the same way, from the state before the bundle (R28, R29).
Log 20: DEDUCED, unsafe. -/
def State.trapped (s : State) (t : Trap) (errs : List Nat) : State :=
  let s1 := errs.foldl (fun s pa => s.walkError s.iss.core s.ctxAsid pa) s
  let s2 := s1.takeTrap t
  { s2 with iss := { s2.iss with trap := some t, errs := s2.iss.errs ++ errs } }

/-- The machine after a syllable has found that it must wait. -/
def State.waiting (s : State) (w : Wait) : State :=
  { s with iss := { s.iss with waits := s.iss.waits ++ [w] } }

/-- A syllable issued under its guard: read false, it has no effect (R16, R71). -/
def issue (g : BitVec 4) (s : State) (r : Res) : Host.Outcome State Fault Refusal :=
  if s.readP g then
    match r with
    | .ok s' => .next s'
    | .trap t errs => .next (s.trapped t errs)
    | .wait w => .next (s.waiting w)
    | .stop f => .fault f
  else .next s

/-! ## Device memory -/

/-- Rows of remote homes that the stalled bundle must read again: their answers are forgotten. -/
def Ctx.forget (c : Ctx) (rows : List Nat) : Ctx :=
  let gone (k : Nat) : Bool := rows.contains k || rows.any fun r => r + 2 ^ 41 == k
  { c with answers := c.answers.filter fun e => !gone e.1, asked := c.asked.filter fun e => !gone e.1 }

/-- The translation of an access by the issuing context: the one under which a request of the stalled bundle was sent
(R326), or one that uses no entry that a tlbi of this core has named (R227). -/
def State.xlateAs (s : State) (asid : Nat) (k : AccKind) (va : Word) : Xl :=
  match s.ctx.sentAs.find? fun e => e.1 = k ∧ e.2.1 = va with
  | some e => .ok e.2.2
  | none => s.coreTranslate asid k va

/-- Its translation under its own ASID. -/
def State.xlate (s : State) (k : AccKind) (va : Word) : Xl := s.xlateAs s.ctxAsid k va

/-- The translation of an access of the issuing context, with the faults of R142. -/
def State.dataAccAs (s : State) (asid : Nat) (k : AccKind) (va : Word) (info : Nat) : Except Res Acc :=
  match s.xlateAs asid k va with
  | .ok a => if s.mem.stalls a.pa && !s.isRemote a then .error (.wait (.region a.pa)) else .ok a
  | .denied => .error (s.fault 0x05 info va)
  | .none none => .error (s.fault 0x04 info va)
  | .none (some pa) => .error (.trap (s.trapOf 0x04 info va) [pa])
  | .noMemory pa => .error (.stop (.noMemory pa))
  | .stall pa => .error (.wait (.region pa))

/-- The same under its own ASID. -/
def State.dataAcc (s : State) (k : AccKind) (va : Word) (info : Nat) : Except Res Acc := s.dataAccAs s.ctxAsid k va info

/-- The key that marks the answer under another key as poisoned. -/
def poisonKey (key : Nat) : Nat := key + 2 ^ 41

/-- A device-memory load by the issuing context (R140, R141). A remote row that has not come back is a wait (R322,
R364). -/
def State.ctxLoad (s : State) (k : AccKind) (va : Word) (acc : Acc) : Except Res (Row × Bool × State) :=
  if s.isRemote acc then
    match (s.ctx.answers.find? fun e => e.1 = acc.key) with
    | some e =>
      .ok (s.mem.decipher acc.leaf.ek acc.row e.2, s.ctx.answers.any fun e => e.1 = poisonKey acc.key, s)
    | none => .error (.wait (.remote k va acc .load 0 false 0 0 none))
  else .ok (s.load s.agent acc s.iss.pick)

/-! ## The scratchpad -/

/-- Whether a row lies in the partition (R76). -/
def Scratch.has (p : Scratch) (i : Nat) : Bool := decide (64 * i < p.part)

/-- A row of the partition. -/
def Scratch.row (p : Scratch) (i : Nat) : Row := Tab.get 0 p.rows i

/-- A row replaced as a whole, which clears its poison (R394).
Log 39: DEDUCED, unsafe. -/
def Scratch.setRow (p : Scratch) (i : Nat) (v : Row) : Scratch :=
  { p with rows := Tab.put p.rows i v, bad := removeNat p.bad i }

/-- A row's full/empty bit (R130). -/
def Scratch.isFull (p : Scratch) (i : Nat) : Bool := Tab.get false p.full i

def Scratch.setFull (p : Scratch) (i : Nat) (b : Bool) : Scratch :=
  { p with full := Tab.set false p.full i b }

/-- LAddr (R76): the offset that an L-slot address field names, with the scale of its form. -/
def State.lAddr (s : State) (f : BitVec 16) (sc : Nat) : Word :=
  if f.getLsbD 15 then (Tab.get {} s.ctx.ags (f.extractLsb' 11 4).toNat).cur
  else s.readS (f.extractLsb' 9 6) + (f.extractLsb' 0 9).signExtend 64 * BitVec.ofNat 64 sc

/-- The scratchpad row of an offset, with the range fault of R76 and R127. -/
def State.spRange (s : State) (off : Word) : Except Res Nat :=
  let i := fld off 6 58
  if s.sp.has i then .ok i else .error (s.fault 0x06 0 off)

/-- The row of an L-slot access; the firmware's stalls while the partition changes (R380). -/
def State.spRow (s : State) (off : Word) : Except Res Nat :=
  if s.iss.fw && s.me.repart.isSome then .error (.wait .partition) else s.spRange off

/-- Whether the stalled bundle has changed something at another module: it has passed the tests for faults, and nothing
that changes after that makes it fault (R27, R28).
Log 44: DESIGN CHOICE, safe. -/
def Ctx.acted (c : Ctx) : Bool :=
  let acts (key : Nat) : Bool := key / 2 ^ 40 % 2 == 1
  (c.asked.any fun e => acts e.1 && e.2 == 0) || c.answers.any fun e => acts e.1

/-- The row, with the fault of a poisoned one (R394). -/
def State.spClean (s : State) (off : Word) : Except Res Nat :=
  match s.spRow off with
  | .error r => .error r
  | .ok i => if s.sp.bad.contains i && !s.ctx.acted then .error (s.fault 0x09 0 off) else .ok i

/-- GAddr (R76). -/
def State.gAddr (s : State) (b : BitVec 6) (d : BitVec 10) (sc : Nat) : Word :=
  s.readS b + d.signExtend 64 * BitVec.ofNat 64 sc

/-- The core's own number as the strand or firmware sees it, and the machine check of a core event. -/
def State.coreMc (s : State) (src : Nat) (addr det : Word) : State :=
  s.raiseMc (coreReport src s.iss.core addr det)

/-! ## Tiles and rings -/

/-- The code of a tile state (R134). -/
def tileCode : TileState → Nat
  | .empty => 0 | .filling => 1 | .ready => 2 | .draining => 3

/-- cfg of a tile (R259). -/
def State.tileCfg (s : State) (t : Tile) : Bool := t.rows != 0 && decide (64 * (t.first + t.rows) ≤ s.sp.part)

def ProgX.tile (x : ProgX) (i : Nat) : Tile := Tab.get {} x.tiles i

def ProgX.ring (x : ProgX) (q : Nat) : Ring := Tab.get {} x.rings q

/-- Every ring whose tail stands at a tile that passes from empty to filling moves its tail (R264). -/
def ProgX.tailMove (x : ProgX) (t : Nat) : ProgX :=
  let move (q : Ring) : Ring := if q.nt ≠ 0 ∧ Tab.get 0 q.pos q.tl = t then { q with tl := (q.tl + 1) % q.nt } else q
  { x with rings := x.rings.map fun e => (e.1, move e.2) }

/-- A tile's state changed, with its valid rows (R261) and the ring's tail (R264). -/
def ProgX.setTile (x : ProgX) (t : Nat) (st : TileState) (vr : Nat) : ProgX :=
  let e := x.tile t
  let y := if e.st = .empty ∧ st = .filling then x.tailMove t else x
  { y with tiles := Tab.put y.tiles t { e with st := st, vr := vr } }

/-- The ring that holds a tile, or 0 (R216). -/
def Tile.ringOf (t : Tile) : Nat := if t.rv then t.rq else 0

/-- The tile fault's info: tile in [5:0], ring in [10:8] (R33). -/
def tileInfo (t ring : Nat) : Nat := t + 256 * ring

/-- An arrival of weight n at a barrier word (R137). -/
def barrierArrive (w : Word) (n : Nat) : Word :=
  let arrived := fld w 32 16
  let need := fld w 16 16
  if n = 0 then w
  else if need ≤ arrived + n then
    BitVec.ofNat 64 ((fld w 48 16 + 1) % 65536 * 2 ^ 48 + fld w 0 32)
  else BitVec.ofNat 64 (fld w 48 16 * 2 ^ 48 + (arrived + n) * 2 ^ 32 + fld w 0 32)

/-- Marks replaced under one key. -/
def Scratch.mark (p : Scratch) (key : Nat) (a : Agent) : Scratch :=
  { p with marks := (p.marks.filter fun e => e.1 ≠ key) ++ [(key, a)] }

/-- An arrival at a word of a scratchpad row (R137); the engines that arrived in a phase pass to the marks of
the finished phases with it (R242). -/
def Scratch.arrive (p : Scratch) (i j n : Nat) : Scratch :=
  let w := rowWord (p.row i) j
  let v := barrierArrive w n
  let q := { p with rows := Tab.put p.rows i (setRowWord (p.row i) j v) }
  if fld v 48 16 = fld w 48 16 then q
  else
    let k := 8 * i + j
    { q with marks := q.marks.map fun e => if e.1 = 2 ^ 20 + k then (2 ^ 21 + k, e.2) else e }

/-- Whether the awaited phase is reached (R138). -/
def phaseReached (w : Word) (ph : Nat) : Bool := (fld w 48 16 + 65536 - ph) % 65536 < 32768

/-- Observing a place adds the writes of the transfers whose completion it carries (R242). -/
def State.observeMark (s : State) (key : Nat) : State :=
  ((s.sp.marks.filter fun e => e.1 = key).map fun e => e.2).foldl (fun s b => s.observe b s.agent) s

/-- A collective binding fires when its tile becomes ready, which its engine sets to draining at once (R135,
R216, R353); while the context is being saved, it is still the core's tile (R312). -/
def State.fireTile (s : State) (c t : Nat) : State :=
  let saving (va : Addr) : Bool := (s.core c).xfers.any fun x => x.kind == .ctxs && (x.desc.getD 1 0).setWidth 48 == va
  let mine (b : Binding) : Bool := b.core == c && b.tile == t && b.fired.isNone && b.image.all saving
  if s.binds.any mine then
    let k := s.core c
    let e := k.px.tile t
    let s1 := s.setCore c { k with px := { k.px with tiles := Tab.put k.px.tiles t { e with st := .draining } } }
    { s1 with binds := s.binds.map fun b => if mine b then { b with fired := some e.vr } else b }
  else s

end Sys2Proof.Machine
end

