-- ==== Sys2Proof/Machine/Global.lean ====
section
/-! DEFINITION. The G slot's loads, stores, atomics and phase (R140 to R153), and the posted operations that base
dies perform later (R245, R336). -/

namespace Sys2Proof.Machine

/-! ## Posted operations -/

/-- A store or posted atomic dropped on a poisoned line (R142, R146). -/
def State.dropReport (s : State) (row : Nat) (a : Agent) : State :=
  s.raiseMc ⟨0x02, BitVec.ofNat 8 (s.mem.stackOf (64 * row)), (s.rankOf a).getD 0, BitVec.ofNat 64 (64 * row),
    BitVec.ofNat 64 (issuerCore a)⟩

/-- A row at its home, through a mapping that is not cached. -/
def msAcc (row pa ek : Nat) : Acc :=
  { pa := 64 * row + pa % 64,
    leaf := { r := true, w := true, x := false, c := false, ms := true, sh := false, ek := ek, frame := 0, home := 0,
              own := 0 } }

/-- A posted operation's effect at its home or in the hub (R336). -/
def State.performAs (s : State) (p : Posted) : State :=
  let acc := msAcc p.row (if p.w32 then 4 * p.word else 8 * p.word) p.ek
  if p.word = 16 ∧ p.w32 = false then s.store p.by_ (msAcc p.row 0 p.ek) p.rowVal
  else if p.op = .store then
    let r := s.storeWord p.by_ acc p.val
    if r.2 then s.dropReport p.row p.by_ else r.1
  else
    let r := s.atomic p.by_ acc p.op p.w32 p.val.toNat p.rowVal.toNat
    if r.2.1 then s.dropReport p.row p.by_ else r.2.2

/-- A posted operation performed, for the rank that it was issued for; one that a phase at PKG or wider covered is then in its context's view (R251). -/
def State.perform (s : State) (p : Posted) : State :=
  ((s.opened (64 * p.row)).performAs p).mapLog fun w =>
    if w.ident = s.mem.nextId ∧ w.by_ = p.by_ then
      let w' := { w with rank := p.rank }
      if p.wide then w'.addView p.by_ else w'
    else w

/-- The block of a resident rank. -/
def State.rankBlock (s : State) (v : BitVec 16) : Option Addr :=
  (s.disp.ranks.find? fun r => r.vrank = v).map fun r => r.block

/-- The rows of a rank's block, which firmware's memory holds (R282). -/
def State.rankRows (s : State) (v : BitVec 16) : List (BitVec 16 × Word) :=
  match s.rankBlock v with
  | none => []
  | some b => [(0, b.setWidth 64), (0, b.setWidth 64 + 64)]

/-- Whether a rank's block is there to be read. -/
def State.rankHere (s : State) (v : BitVec 16) : Bool :=
  (s.rankRows v).all fun e => (s.hubRead e.1 (e.2.setWidth 48)).isSome

/-- What an agent of the hub or of a base die does for a rank once the block of the rank has been read; while it cannot be, it
does nothing yet.
Log 137: DESIGN CHOICE, unsafe. -/
def State.forRank (s : State) (v : BitVec 16) (k : State → State) : State :=
  let s1 := (s.rankRows v).foldl (fun s e => s.touch e.1 e.2) s
  if s1.rankHere v then (k s1).dropAnswers (s.rankRows v) else s1

/-- What a syllable does that needs rows which the hub reads: it waits for those of other modules. -/
def State.withRows (s : State) (l : List (BitVec 16 × Word)) (k : State → Res) : Res :=
  let s1 := l.foldl (fun s e => s.touch e.1 e.2) s
  if l.all fun e => s1.rowReady e.1 e.2 then
    match k s1 with
    | .ok t => .ok (t.dropAnswers l)
    | r => r
  else .wait (.hub l)

/-- What a syllable does that needs the block of a rank. -/
def State.withRank (s : State) (v : BitVec 16) (k : State → Res) : Res :=
  s.withRows (s.rankRows v) fun t => if t.rankHere v then k t else .wait (.hub (s.rankRows v))

/-- A word of a rank block. -/
def State.rankWord (s : State) (v : BitVec 16) (j : Nat) : Word :=
  match s.rankBlock v with
  | none => 0
  | some b => ((s.hubRead 0 (b + BitVec.ofNat 48 (64 * (j / 8)))).map fun r => rowWord r (j % 8)).getD 0

/-! ## The ordered-atomic buffer (R148 to R150, R337) -/

/-- The open step of a rank (R148): its block's step number until a closing has advanced it. -/
def State.openStep (s : State) (v : BitVec 16) : Word :=
  match s.mem.open_.find? fun e => e.1 = v.toNat with
  | some e => e.2
  | none => s.rankWord v 2

/-- A report by the ordered-atomic buffer, naming the rank.
Log 35: DEDUCED, unsafe. -/
def State.orderedMc (s : State) (stack : Nat) (v : BitVec 16) (va : Addr) (det : Nat) : State :=
  s.raiseMc ⟨0x05, BitVec.ofNat 8 stack, v, va.setWidth 64, BitVec.ofNat 64 det⟩

/-- The ASID of a resident rank. -/
def State.rankAsid (s : State) (v : BitVec 16) : BitVec 16 :=
  ((s.disp.ranks.find? fun r => r.vrank = v).map fun r => r.asid).getD 0

/-- The address of a rank's spill area. -/
def State.spillVa (s : State) (v : BitVec 16) : Addr := (s.rankWord v 11).setWidth 48 &&& 0xFFFFFFFFFFC0

/-- A row of it, from its header on; an area that another module holds is none (R337). -/
def State.spillRow (s : State) (v : BitVec 16) (i : Nat) : Option Row :=
  let va := s.spillVa v + BitVec.ofNat 48 (64 * i)
  if s.farRow (s.rankAsid v) va then none else s.hubRead (s.rankAsid v) va

/-- The access to such a row before it is read. -/
def State.touchSpill (s : State) (v : BitVec 16) (i : Nat) : State :=
  let va := s.spillVa v + BitVec.ofNat 48 (64 * i)
  if s.farRow (s.rankAsid v) va then s else s.touch (s.rankAsid v) (va.setWidth 64)

/-- cap and used of the spill area of a rank. -/
def State.spillHead (s : State) (v : BitVec 16) : Option (Nat × Nat) :=
  (s.spillRow v 0).map fun r => (fld (rowWord r 0) 0 32, fld (rowWord r 1) 0 32)

/-- A spill record's four words replaced, and used changed. -/
def State.spillWrite (s : State) (v : BitVec 16) (i : Nat) (ws : List Word) (used : Nat) : State :=
  let put (s : State) (j : Nat) (f : Row → Row) : State :=
    s.rewriteAs (.baseDie 0) (some v) (s.rankAsid v) (s.spillVa v + BitVec.ofNat 48 (64 * j)) f
  let s1 := put s (1 + i / 2) fun x => (List.range 4).foldl (fun x j => setRowWord x (4 * (i % 2) + j) (ws.getD j 0)) x
  put s1 0 fun x => setRowWord x 1 (BitVec.ofNat 64 used)

/-- A spill record of a sequence: its kind, 1 the sequence itself or 2 a held add, with words 1 and 2 (R337). -/
def spillRecord (kd : Nat) (q : OrdSeq) (w1 : Nat) (op : Word) : List Word :=
  [BitVec.ofNat 64 (kd * 2 ^ 62 + (if q.k then 2 ^ 49 else 0) + (if q.w then 2 ^ 48 else 0) + q.va.toNat),
   BitVec.ofNat 64 w1, op, 0]

/-- The four words of record i. -/
def State.spillWords (s : State) (v : BitVec 16) (i : Nat) : List Word :=
  match s.spillRow v (1 + i / 2) with
  | some r => (List.range 4).map fun j => rowWord r (4 * (i % 2) + j)
  | none => []

/-- A record written to the spill area (R337): its number, or nothing when the area is full. -/
def State.spillPut (s : State) (v : BitVec 16) (ws : List Word) : Option (Nat × State) :=
  match s.spillHead v with
  | none => none
  | some h =>
    if h.1 ≤ h.2 then none
    else
      let free := (List.range (h.2 + 1)).find? fun i => fld ((s.spillWords v i).getD 0 0) 62 2 == 0
      free.map fun i => (i, s.spillWrite v i ws (h.2 + 1))

/-- A held add written to the spill area. -/
def State.spill (s : State) (v : BitVec 16) (q : OrdSeq) (n : Nat) (op : Word) : Option (Nat × State) :=
  s.spillPut v (spillRecord 2 q n op)

/-- A record freed. -/
def State.unspill (s : State) (v : BitVec 16) (i : Nat) : State :=
  match s.spillHead v with
  | some h => s.spillWrite v i [0, 0, 0, 0] (h.2 - 1)
  | none => s

/-- The tag of the requests by which a base die uses the spill area of a rank on another module. -/
def spillTag : Nat := 0xFFFA

/-- A record to be written to a spill area at another module, or with `n` not 0 record n − 1 to be freed there (R337). Bit 14 of
arg1 marks it among the ordered adds.
Log 79: DEDUCED, unsafe. -/
def spillFlit (v : BitVec 16) (n : Nat) (ws : List Word) : Flit :=
  memFlit 4 0 0 false (13 + 64) (if n = 0 then spillTag else freeTag) (ofWords ([0, 0, v.setWidth 64, BitVec.ofNat 64 n] ++ ws))

/-- A record of a sequence freed, at whichever module holds the area. -/
def State.freeRecord (s : State) (q : OrdSeq) (i : Nat) : State :=
  match q.node with
  | none => s.unspill q.vrank i
  | some d => if i = 2 ^ 32 then s else s.sendFlit d 1 (spillFlit q.vrank (i + 1) [])

/-- The held adds of a sequence written to the spill area, as far as it has room; one that finds none is dropped as a
sequence error (R337). -/
def State.spillHeld (s : State) (q : OrdSeq) : State × OrdSeq :=
  q.held.foldl (fun r e =>
    if r.2.spilled.any fun x => x.1 = e.1 then r
    else
      match r.1.spill q.vrank q e.1 e.2 with
      | some x => (x.2, { r.2 with spilled := r.2.spilled ++ [(e.1, x.1)] })
      | none => (r.1, { r.2 with err := true, held := r.2.held.filter fun y => y.1 ≠ e.1 })) (s, q)

/-- The ordered state of a rank leaves the base dies for its spill area (R315, R331): held adds, then the sequence itself;
one for which the area has no record stays.
Log 35: DEDUCED, unsafe. -/
def State.leaveSeqs (s : State) (v : BitVec 16) : State :=
  let mine := s.mem.seqs.filter fun q => q.vrank = v
  let s1 := { s with mem := { s.mem with seqs := s.mem.seqs.filter fun q => q.vrank ≠ v } }
  mine.foldl (fun s q =>
    let r := s.spillHeld q
    match r.1.spillPut v (spillRecord 1 r.2 ((if r.2.err then 2 ^ 32 else 0) + r.2.next) 0) with
    | some x => x.2
    | none => { r.1 with mem := { r.1.mem with seqs := r.1.mem.seqs ++ [r.2] } }) s1

/-- The records in use, from number i on, `left` of them, within the capacity, with the accesses that read them. -/
def State.spillScan (v : BitVec 16) : Nat → Nat → Nat → State → List (Nat × List Word) × State
  | 0, _, _, s => ([], s)
  | _ + 1, _, 0, s => ([], s)
  | n + 1, i, left + 1, s =>
    let s1 := s.touchSpill v (1 + i / 2)
    let ws := s1.spillWords v i
    if fld (ws.getD 0 0) 62 2 = 0 then spillScan v n (i + 1) (left + 1) s1
    else
      let r := spillScan v n (i + 1) left s1
      ((i, ws) :: r.1, r.2)

/-- A rank's ordered state reloaded from its spill area (R315), where that holds more than the held adds of its sequences here:
its sequences, at the frames that their elements now lie in, with their held adds, which keep their records until their
numbers are next. -/
def State.reloadSeqs (s0 : State) (v : BitVec 16) : State :=
  let s := s0.touchSpill v 0
  let own := (s.mem.seqs.filter fun q => q.vrank = v).flatMap fun q => q.spilled.map fun e => e.2
  match s.spillHead v with
  | none => s
  | some h =>
    if h.2 ≤ own.length then s
    else
      let r := State.spillScan v h.1 0 h.2 s
      let recs := r.1.filter fun e => !own.contains e.1
      let kind (n : Nat) := recs.filter fun e => fld (e.2.getD 0 0) 62 2 == n
      (kind 1).foldl (fun s e =>
        let w0 := e.2.getD 0 0
        let w1 := e.2.getD 1 0
        match s.translate (s.rankAsid v).toNat .atomic ((w0.setWidth 48 : Addr).setWidth 64) with
        | .ok acc =>
          let held := (kind 2).filter fun x => fld (x.2.getD 0 0) 0 50 == fld w0 0 50
          let q : OrdSeq :=
            { stack := s.mem.stackOf acc.pa, vrank := v, va := w0.setWidth 48, pa := acc.pa, w := bitAt w0 48,
              k := bitAt w0 49, next := fld w1 0 32, err := bitAt w1 32,
              held := held.map fun x => (fld (x.2.getD 1 0) 0 32, x.2.getD 2 0),
              spilled := held.map fun x => (fld (x.2.getD 1 0) 0 32, x.1) }
          let s1 := s.unspill v e.1
          { s1 with mem := { s1.mem with seqs := s1.mem.seqs ++ [q] } }
        | _ => s) r.2

/-- An ordered add dropped on a poisoned line (R142): its issuing core is not known once it has stood in the spill area.
Log 35: DEDUCED, unsafe. -/
def State.dropAdd (s : State) (q : OrdSeq) (n : Nat) : State :=
  let core := (q.cores.find? fun e => e.1 = n).map fun e => e.2
  s.raiseMc ⟨0x02, BitVec.ofNat 8 q.stack, q.vrank, BitVec.ofNat 64 (q.pa / 64 * 64),
    core.elim ((Config.free 8 [71, s.fresh, n]).setWidth 64) fun c => BitVec.ofNat 64 c⟩

/-- The add of number n applied to its element (R149): binary32 or binary64 under rne, or modulo 2^W. -/
def State.applyAdd (s : State) (q : OrdSeq) (n : Nat) (op : Word) : State :=
  let r := ((s.opened q.pa).actFor (some q.vrank)).atomic (.baseDie q.stack) (msAcc (q.pa / 64) q.pa 0) (if q.k then .afadd else .aadd) q.w op.toNat 0
  if r.2.1 then s.dropAdd q n else r.2.2.actFor s.iss.acting

/-- Every held add whose number is next applied (R149). -/
def State.applyHeld (s : State) : Nat → OrdSeq → State × OrdSeq
  | 0, q => (s, q)
  | n + 1, q =>
    match q.held.find? fun e => e.1 = q.next with
    | none => (s, q)
    | some e =>
      let s1 := match q.spilled.find? fun x => x.1 = q.next with
        | some x => s.freeRecord q x.2
        | none => s
      applyHeld (s1.applyAdd q q.next e.2) n
        { q with next := q.next + 1, held := q.held.filter (fun x => x.1 ≠ q.next),
                 spilled := q.spilled.filter (fun x => x.1 ≠ q.next), cores := q.cores.filter (fun x => x.1 ≠ q.next) }

def OrdSeq.same (q : OrdSeq) (x : OrdAdd) : Bool :=
  q.vrank == x.vrank && q.va == x.va && q.w == x.w && q.k == x.k

/-- Adds that a stack holds in its own buffer. -/
def Mem.heldAdds (m : Mem) (stack : Nat) : Nat :=
  (m.seqs.filter fun q => q.stack = stack).foldl (fun n q => n + (q.held.length - q.spilled.length)) 0

/-- An ordered add arrives (R149, R150, R337): a late one is dropped and reported, one that repeats a number is
a sequence error, any other is held and applied in order. What the rank has left in its spill area is reloaded first
(R315). An add of a rank on another module that its stack has no room for goes to the spill area there.
Log 35: DEDUCED, unsafe; log 79: DEDUCED, unsafe. -/
def State.arriveAdd (s0 : State) (x : OrdAdd) : State :=
  let s := if s0.resident x.vrank then s0.reloadSeqs x.vrank else s0
  if x.stepNo ≠ s.openStep x.vrank then s.orderedMc x.stack x.vrank x.va 0
  else
    let q : OrdSeq := match s.mem.seqs.find? fun q => q.same x with
      | some q => q
      | none => { stack := x.stack, vrank := x.vrank, va := x.va, pa := x.pa, w := x.w, k := x.k, next := 0,
                  err := false, held := [], spilled := [], node := x.node }
    let keep (s : State) (q : OrdSeq) : State :=
      { s with mem := { s.mem with seqs := (s.mem.seqs.filter fun y => !y.same x) ++ [q] } }
    let q1 := { q with held := q.held ++ [(x.q, x.op)], cores := q.cores ++ [(x.q, issuerCore x.by_)] }
    let more := x.q ≠ q.next ∧ 4096 ≤ s.mem.heldAdds x.stack
    if x.q < q.next ∨ q.held.any (fun e => e.1 = x.q) = true then keep s { q with err := true }
    else if more ∧ s.resident x.vrank = true then
      match s.spill x.vrank q x.q x.op with
      | some r => keep r.2 { q1 with spilled := q.spilled ++ [(x.q, r.1)] }
      | none => keep s { q with err := true }
    else
      match if more then x.node else none with
      | some d =>
        (keep s { q1 with spilled := q.spilled ++ [(x.q, 2 ^ 32)] }).sendFlit d 1
          (spillFlit x.vrank 0 (spillRecord 2 q x.q x.op))
      | none =>
        let r := s.applyHeld (q1.held.length + 1) q1
        keep r.1 r.2

/-- What the module that holds the spill area has answered: the record's number, with an add that is held no more freed
again; or that the area is full, so that the add is dropped as a sequence error (R337).
Log 79: DEDUCED, unsafe. -/
def State.spillAnswered (s : State) (node : Nat) (v : Row) : State :=
  let rank : BitVec 16 := (rowWord v 2).setWidth 16
  let w0 := rowWord v 4
  let n := fld (rowWord v 5) 0 32
  let i := (rowWord v 0).toNat
  let mine (q : OrdSeq) : Bool :=
    q.vrank == rank && q.va == w0.setWidth 48 && q.w == bitAt w0 48 && q.k == bitAt w0 49 && q.spilled.contains (n, 2 ^ 32)
  let set (q : OrdSeq) : OrdSeq :=
    let others := q.spilled.filter fun e => e.1 ≠ n
    if i = 0 then { q with err := true, held := q.held.filter fun e => e.1 ≠ n, spilled := others }
    else { q with spilled := others ++ [(n, i - 1)] }
  if s.mem.seqs.any mine then
    { s with mem := { s.mem with seqs := s.mem.seqs.map fun q => if mine q then set q else q } }
  else if i = 0 then s
  else s.sendFlit node 1 (spillFlit rank i [])

/-- A rank's sequences discarded (R150, R399), those left open or in error reported where asked. -/
def State.dropSeqs (s : State) (v : BitVec 16) (report : Bool) : State :=
  let mine := s.mem.seqs.filter fun q => q.vrank = v
  let s1 := { s with mem := { s.mem with seqs := s.mem.seqs.filter fun q => q.vrank ≠ v } }
  mine.foldl (fun s q =>
    let s2 := q.spilled.foldl (fun s x => s.freeRecord q x.2) s
    if report && (q.err || !q.held.isEmpty) then s2.orderedMc q.stack v q.va q.held.length else s2) s1

/-- The flit that closes a rank's sequences at another module, where its open step becomes n; `quiet` where they are discarded
without a report (R399). Bit 12 of arg1 marks it among the ordered adds.
Log 79: DEDUCED, unsafe. -/
def closeFlit (v : BitVec 16) (n : Word) (quiet : Bool) : Flit :=
  memFlit 4 0 0 false (13 + 16) freeTag (ofWords [if quiet then 1 else 0, 0, v.setWidth 64, n, 0])

/-- The closing sent to every module that the rank has sent adds to. -/
def State.sendClose (s : State) (v : BitVec 16) (n : Word) (quiet : Bool) : State :=
  let dests := (s.mem.addNodes.filter fun e => e.1 = v).map fun e => e.2
  dests.foldl (fun s d => s.sendFlit d 1 (closeFlit v n quiet))
    { s with mem := { s.mem with addNodes := s.mem.addNodes.filter fun e => e.1 ≠ v } }

/-- The closing of a rank's sequences, which advances its open step (R148, R150), here and at the other modules that hold
some.
Log 79: DEDUCED, unsafe. -/
def State.closeSeqs (s : State) (v : BitVec 16) : State :=
  let n := s.openStep v + 1
  let s1 := (s.reloadSeqs v).dropSeqs v true
  { s1 with mem := { s1.mem with open_ := Tab.put s1.mem.open_ v.toNat n } }.sendClose v n false

/-- A rank entered in the rank table: its open step is its block's (R148). -/
def State.ownStep (s : State) (v : BitVec 16) : State :=
  { s with mem := { s.mem with open_ := Tab.erase s.mem.open_ v.toNat } }

/-! ## The order of posted operations (R141, R152, R245) -/

/-- An operation on its way to a base die: who issued it and for which rank, the place within which accesses keep their
order, its row, its place in the order of issue, the cycle of its issue, its publication, whether its home is another
module, and whether its flit has left for there. -/
structure Way where
  by_  : Agent
  rank : Option (BitVec 16)
  page : Nat
  row  : Nat
  made : Nat
  born : Nat
  pub  : Option Nat
  away : Bool
  sent : Bool
deriving DecidableEq, Repr

def Posted.way (p : Posted) : Way := ⟨p.by_, p.rank, p.page, p.row, p.made, p.born, p.pub, p.out.isSome, p.stage == 2⟩
def OrdAdd.way (p : OrdAdd) : Way := ⟨p.by_, p.rank, p.page, p.pa / 64, p.made, p.born, p.pub, false, false⟩

/-- Every operation on its way. -/
def Mem.ways (m : Mem) : List Way := m.posted.map Posted.way ++ m.adds.map OrdAdd.way

/-- Whether a posted operation of an agent, made at a number, must wait for one published before it
(R152, R236 item 2). -/
def fencedBy (by_ : Agent) (made : Nat) (q : Way) : Bool :=
  q.by_ == by_ && match q.pub with
    | some n => decide (n ≤ made)
    | none => false

/-- Whether an operation may be performed, or sent to its home, next: no earlier one of its agent to its page waits
(R245), and none that a phase before it has published. -/
def Mem.wayFree (m : Mem) (p : Way) : Bool :=
  !m.ways.any fun q =>
    (q.by_ == p.by_ && q.page == p.page && decide (q.made < p.made) && !q.sent) || fencedBy p.by_ p.made q

/-- Whether a posted operation rewrites a part of a row that its page keeps enciphered, which only its own module can merge
(R322, R328). -/
def Posted.merges (p : Posted) : Bool := p.op == .store && p.ek != 0 && (p.word != 16 || p.mask != 0)

/-- The row with what such an operation writes in it. -/
def Posted.merge (p : Posted) (old : Row) : Row :=
  if p.word = 16 then overlay old p.rowVal p.mask else setRowWord old p.word p.val

/-- The read of the row that such an operation rewrites: its answer names the row's version (R140).
Log 78: DEDUCED, unsafe. -/
def Posted.readFlit (p : Posted) (f : Flit) : Flit :=
  let g := (memFlit 0 p.row 0 false 3 f.tag 0).forRank p.rank
  { g with w3 := g.w3 ||| (f.w3 &&& 96) }

/-- A posted operation of another module's page that starts on its way: its flit leaves, or the row of which it rewrites a
part is asked for, since its home holds only the ciphertext (R322, R328). The writes that its agent has published go
first (R236 item 2). -/
def State.sendPosted (s : State) (i : Nat) (p : Posted) (node : Nat) (f : Flit) : State :=
  let s1 := s.flushPubs p.by_
  let s2 := { s1 with mem := { s1.mem with
    posted := s1.mem.posted.set i { p with stage := if p.merges then 1 else 2 } } }
  s2.sendFlit node 1 (if p.merges then p.readFlit f else f.forRank p.rank)

/-- The i-th posted operation performed, or sent to its home, if its turn has come. -/
def State.performAt (s : State) (i : Nat) : State :=
  match s.mem.posted[i]? with
  | some p =>
    if s.mem.wayFree p.way then
      match p.out with
      | some o => if p.stage = 0 then s.sendPosted i p o.1 o.2 else s
      | none => { s with mem := { s.mem with posted := s.mem.posted.eraseIdx i } }.perform p
    else s
  | none => s

/-- The i-th ordered add arrives, if its turn has come. -/
def State.arriveAt (s : State) (i : Nat) : State :=
  match s.mem.adds[i]? with
  | some x =>
    if s.mem.wayFree x.way then
      s.forRank x.vrank fun s => { s with mem := { s.mem with adds := s.mem.adds.eraseIdx i } }.arriveAdd x
    else s
  | none => s

/-- Operations on their way merged in the order of issue. -/
def mergeWays : Nat → List Posted → List OrdAdd → List (Posted ⊕ OrdAdd)
  | 0, _, _ => []
  | _ + 1, [], b => b.map .inr
  | _ + 1, a, [] => a.map .inl
  | n + 1, p :: a, x :: b =>
    if p.made < x.made then .inl p :: mergeWays n a (x :: b) else .inr x :: mergeWays n (p :: a) b

/-- The operations of an agent that come before an access of its own: those that `hit` selects, those before them to the
same page (R245), and those published before one of them or, where the access writes, at all (R152, R236 item 2). -/
def Mem.needed (m : Mem) (a : Agent) (hit : Way → Bool) (write : Bool) (p : Way) : Bool :=
  let hits := m.ways.filter fun q => q.by_ == a && hit q
  let last := hits.foldl (fun n q => max n q.made) 0
  p.by_ == a && (hits.any (fun h => h.page == p.page && decide (p.made ≤ h.made)) ||
    match p.pub with
    | some n => write || decide (n ≤ last)
    | none => false)

/-- Operations on their way performed in the order of issue. -/
def State.performAll (s : State) (need : Way → Bool) : State :=
  let mine := s.mem.posted.filter fun p => need p.way
  let adds := s.mem.adds.filter fun p => need p.way
  let s1 := { s with mem := { s.mem with
    posted := s.mem.posted.filter (fun p => !need p.way),
    adds := s.mem.adds.filter (fun p => !need p.way) } }
  (mergeWays (mine.length + adds.length + 1) mine adds).foldl (fun s x => match x with
    | .inl p => s.perform p
    | .inr p => s.arriveAdd p) s1

/-- The operations of an agent that come before an access of its own performed (R141, R245); nothing while one of them is
still on its way to another module, or the block of the rank of an ordered add among them is not there to be read. -/
def State.drain (s : State) (a : Agent) (hit : Way → Bool) (write : Bool) : Option State :=
  let need := s.mem.needed a hit write
  if (s.mem.posted.any fun p => need p.way && p.out.isSome) ∨ (s.mem.adds.any fun p => need p.way && !s.rankHere p.vrank)
  then none else some (s.performAll need)

/-- The view of the issuing context published at a scope, and all that it has posted performed, before an operation that
releases (R147, R223); nothing while some of it is still on its way to another module. -/
def State.release (s : State) (scope : Nat) : Option State :=
  (s.publish s.agent s.agent scope).drain s.agent (fun _ => true) true

/-- One more posted operation; one to another module leaves at once where nothing holds it back. -/
def State.post (s : State) (p : Posted) : State :=
  let s1 := { s with mem := { s.mem with posted := s.mem.posted ++ [p], nextId := s.mem.nextId + 1 } }
  if p.out.isSome then s1.performAt s.mem.posted.length else s1

/-- A mask of bits as one of bytes. -/
def byteMask (m : Row) : Nat := (List.range 64).foldl (fun n i => if rowByte m i = 0 then n else n + 2 ^ i) 0

/-- Bytes of a row of another module written by an agent: merged there, or, where the row's page keeps it enciphered, merged
here (R231, R322, R328).
Log 78: DEDUCED, unsafe. -/
def State.sendPart (s : State) (a : Agent) (acc : Acc) (val mask : Row) (tag : Nat) (durable : Bool) : State :=
  let f := acc.flit (((memFlit 2 acc.row 0 false 4 tag val).withMask (byteMask mask)).durable durable)
  let p : Posted :=
    { by_ := a, row := acc.row, va := 0, page := acc.page, op := .store, word := 16, w32 := false, val := 0, rowVal := val,
      mask := mask, born := 0, made := s.mem.nextId, rank := s.rankOf a, out := some (acc.leaf.home, f), ek := acc.leaf.ek }
  { s with mem := { s.mem with posted := s.mem.posted ++ [p], nextId := s.mem.nextId + 1 } }.sendPosted s.mem.posted.length p
    acc.leaf.home f

/-- The tag of the issuing context in its flits. -/
def State.myTag (s : State) : Nat := ctxTag s.iss.core s.iss.fw

/-- The tag of its posted requests. -/
def State.postTag (s : State) : Nat := s.myTag + 512

/-! ## Loads and stores -/

/-- An operation that the issuing context posts at an access (R141). -/
def State.posted (s : State) (acc : Acc) (va : Word) (op : MemOp) (word : Nat) (w32 : Bool) (v : Word) (row : Row) :
    Posted :=
  { by_ := s.agent, row := acc.row, va := va.setWidth 48, page := acc.page, op := op, word := word, w32 := w32, val := v,
    rowVal := row, born := s.me.cycle, made := s.mem.nextId, rank := s.rankOf s.agent, ek := acc.leaf.ek }

/-- The same, with the flit that carries it to another module. -/
def Posted.to (p : Posted) (acc : Acc) (f : Flit) : Posted := { p with out := some (acc.leaf.home, f) }

/-- The accesses that a load of the issuing context comes after: on a memory-side page those to the page (R245), through
another mapping those to the row that a phase at PKG or wider has covered (R251). -/
def State.loadHit (s : State) (acc : Acc) (p : Way) : Bool :=
  if acc.leaf.ms then p.page == acc.page
  else s.mem.posted.any fun q => q.wide && q.row == acc.row && q.by_ == p.by_ && q.made == p.made && q.out.isNone

/-- A row loaded by the issuing context at a translated access (R140, R141, R245): posted operations of the context come
first; of those to another module, the earlier ones to the same page have left before.
Log 44: DESIGN CHOICE, safe. -/
def State.loadAt (s : State) (va : Word) (acc : Acc) : Except Res (Row × Bool × State) :=
  if s.isRemote acc then
    if s.mem.ways.any fun p => p.by_ == s.agent && p.page == acc.page && !p.sent then
      .error (.wait (.ordered acc.page false))
    else s.ctxLoad .read va acc
  else
    match s.drain s.agent (s.loadHit acc) false with
    | none => .error (.wait (.ordered acc.page false))
    | some s1 => s1.ctxLoad .read va acc

/-- A row loaded by the issuing context, with the faults of R142, `info` naming the access. -/
def State.loadForAs (s : State) (asid : Nat) (va : Word) (info : Nat) : Except Res (Row × State) :=
  match s.dataAccAs asid .read va info with
  | .error r => .error r
  | .ok acc =>
    match s.loadAt va acc with
    | .error r => .error r
    | .ok (row, bad, s1) =>
      if bad && !s.ctx.acted then .error (s.fault 0x09 0 (va &&& ~~~63#64)) else .ok (row, s1)

/-- The same under its own ASID. -/
def State.loadFor (s : State) (va : Word) (info : Nat) : Except Res (Row × State) := s.loadForAs s.ctxAsid va info

/-- A row loaded by a G-slot access. -/
def State.loadRow (s : State) (va : Word) : Except Res (Row × State) := s.loadFor va 0

/-- gldw (R140). -/
def execGldw (g : BitVec 4) (t b : BitVec 6) (d : BitVec 10) (s : State) :
    Host.Outcome State Fault Refusal :=
  let va := s.gAddr b d 8
  issue g s (Res.andThen (s.loadRow va) fun r => .ok (r.2.issueS t (rowWord r.1 (fld va 3 3)) 1))

/-- gldr (R140). -/
def execGldr (g : BitVec 4) (t b : BitVec 6) (d : BitVec 10) (s : State) :
    Host.Outcome State Fault Refusal :=
  issue g s (Res.andThen (s.loadRow (s.gAddr b d 64)) fun r => .ok (r.2.issueRow t.toNat r.1 1 0))

/-- The state from which a store that is not posted is performed: what the context has posted to the row comes before it
(R230). An uncached one, performed at the home at once, also comes after all that the context has published; where
some of that is still on its way to another module it is posted instead. -/
def State.beforeStore (s : State) (acc : Acc) : Option State :=
  s.drain s.agent (fun p => !p.away && p.row == acc.row) (!acc.leaf.c)

/-- gstw (R140 to R142). -/
def execGstw (g : BitVec 4) (t b : BitVec 6) (d : BitVec 10) (s : State) :
    Host.Outcome State Fault Refusal :=
  let va := s.gAddr b d 8
  let v := s.readS t
  issue g s (Res.andThen (s.dataAcc .write va 1) fun acc =>
    let p := s.posted acc va .store (acc.pa / 8 % 8) false v 0
    if s.isRemote acc then .ok (s.post (p.to acc (acc.wordFlit s.postTag v)))
    else if acc.leaf.ms then .ok (s.post p)
    else
      match s.beforeStore acc with
      | none => .ok (s.post { p with wide := true })
      | some s1 =>
        let r := s1.storeWord s.agent acc v
        .ok (if r.2 then s1.dropReport acc.row s.agent else r.1))

/-- gstr (R140 to R142). -/
def execGstr (g : BitVec 4) (t b : BitVec 6) (d : BitVec 10) (s : State) :
    Host.Outcome State Fault Refusal :=
  let va := s.gAddr b d 64
  let v := s.readV t.toNat
  issue g s (Res.andThen (s.dataAcc .write va 1) fun acc =>
    let p := s.posted acc va .store 16 false 0 v
    if s.isRemote acc then .ok (s.post (p.to acc (s.rowFlit acc 0 s.postTag v)))
    else if acc.leaf.ms then .ok (s.post p)
    else
      match s.beforeStore acc with
      | none => .ok (s.post { p with wide := true })
      | some s1 => .ok (s1.store s.agent acc v))

/-- What a speculative load finds (R143): a row, or the deferred outcome; only a wait or a stop ends its
issue. -/
def State.specRow (s : State) (va : Word) : Except Res (Option Row × State) :=
  match s.loadRow va with
  | .ok r => .ok (some r.1, r.2)
  | .error (.trap _ errs) =>
    .ok (none, errs.foldl (fun s pa => s.walkError s.iss.core s.ctxAsid pa) s)
  | .error r => .error r

/-- gldws (R143): into s0 a prefetch, which waits for nothing and delivers nothing. -/
def execGldws (g : BitVec 4) (t b : BitVec 6) (d : BitVec 10) (s : State) :
    Host.Outcome State Fault Refusal :=
  let va := s.gAddr b d 8
  issue g s
    (if t = 0 then
       match s.translate s.ctxAsid .read va with
       | .none (some pa) => .ok (s.walkError s.iss.core s.ctxAsid pa)
       | .noMemory pa => .stop (.noMemory pa)
       | _ => .ok s
     else Res.andThen (s.specRow va) fun r =>
       match r.1 with
       | some v => .ok (r.2.issueS t (rowWord v (fld va 3 3)) 1)
       | none => .ok (r.2.issueDeferred t))

/-- gldrs (R143). -/
def execGldrs (g : BitVec 4) (t b : BitVec 6) (d : BitVec 10) (s : State) :
    Host.Outcome State Fault Refusal :=
  issue g s (Res.andThen (s.specRow (s.gAddr b d 64)) fun r =>
    match r.1 with
    | some v => .ok (r.2.issueRow t.toNat v 1 0)
    | none => .ok (r.2.issueBits (.v t.toNat) 0 (~~~0) 1 0 true))

/-! ## Atomics -/

/-- The scope of rl and aq (R147). -/
def State.atomicScope (s : State) (acc : Acc) : Nat := if s.isRemote acc then 9 else 4

/-- What an atomic has read and written at its home is then in its agent's view (R234); `n` is the number of the write.-/
def State.seeAtomic (s : State) (a : Agent) (n : Nat) : State :=
  s.mapLog fun w => if w.by_ = a ∧ n ≤ w.ident ∧ w.homed = true then w.addView a else w

/-- An atomic with a result, or with aq, at another module: sent once all that comes before it has been performed, with
the publication of rl; its answer ends the wait. -/
def State.atomicRemote (s : State) (op : MemOp) (d : BitVec 6) (va : Word) (acc : Acc) (w32 : Bool) (v cmp : Word)
    (aq rl : Bool) : Res :=
  match s.ctx.answers.find? fun e => e.1 = answerKey acc.key with
  | some e =>
    let s1 := if aq then s.snapshot s.agent s.agent 9 else s
    if s.ctx.answers.any fun e => e.1 = poisonKey (answerKey acc.key) then s.fault 0x09 0 (va &&& ~~~63#64)
    else .ok (s1.issueS d (BitVec.ofNat 64 (rowElem w32 e.2 acc.pa)) 1)
  | none =>
    if s.mem.posted.any fun p => p.by_ == s.agent && p.out.isSome && (rl || p.pub.isSome || (p.page == acc.page && p.stage != 2))
    then .wait (.ordered acc.page true)
    else
      .wait (.remote .atomic va acc op (BitVec.ofNat 4 (elemIndex w32 acc.pa)) w32 v cmp (if rl then some 9 else none))

/-- An atomic of the issuing context (R144 to R147): d names the result, or with d = 0 and no aq the atomic
is posted.
Log 140: DEDUCED, unsafe. -/
def State.atomicIssue (s : State) (op : MemOp) (d a v : BitVec 6) (w32 aq rl : Bool) : Res :=
  let va := s.readS a
  let x := s.readS v
  let cmp := s.readS d
  Res.andThen (s.dataAcc .atomic va 1) fun acc =>
    let scope := s.atomicScope acc
    let elem := elemIndex w32 acc.pa
    if d = 0 ∧ aq = false then
      let s1 := if rl then s.publish s.agent s.agent scope else s
      let p := s1.posted acc va op elem w32 x 0
      if s.isRemote acc then
        .ok (s1.post (p.to acc (acc.flit (memFlit 4 acc.row elem w32 (memOpCode op) s.postTag (ofWords [x, cmp])))))
      else .ok (s1.post p)
    else if s.isRemote acc then s.atomicRemote op d va acc w32 x cmp aq rl
    else
      match if rl then s.release scope else s.drain s.agent (fun p => p.page == acc.page) true with
      | none => .wait (.ordered acc.page true)
      | some s1 =>
        let r := { s1 with mem := s1.mem.seeHome s.agent acc.row }.atomic s.agent acc op w32 x.toNat cmp.toNat
        if r.2.1 then s.fault 0x09 0 (va &&& ~~~63#64)
        else
          let s2 := r.2.2.seeAtomic s.agent s1.mem.nextId
          let s3 := if aq then s2.snapshot s.agent s.agent scope else s2
          .ok (s3.issueS d (BitVec.ofNat 64 r.1) 1)

/-- aadd (R145). -/
def execAadd (g : BitVec 4) (d a v : BitVec 6) (w q r : BitVec 1) (s : State) :
    Host.Outcome State Fault Refusal :=
  issue g s (s.atomicIssue .aadd d a v (w == 1) (q == 1) (r == 1))

/-- aand (R145). -/
def execAand (g : BitVec 4) (d a v : BitVec 6) (w q r : BitVec 1) (s : State) :
    Host.Outcome State Fault Refusal :=
  issue g s (s.atomicIssue .aand d a v (w == 1) (q == 1) (r == 1))

/-- aor (R145). -/
def execAor (g : BitVec 4) (d a v : BitVec 6) (w q r : BitVec 1) (s : State) :
    Host.Outcome State Fault Refusal :=
  issue g s (s.atomicIssue .aor d a v (w == 1) (q == 1) (r == 1))

/-- axor (R145). -/
def execAxor (g : BitVec 4) (d a v : BitVec 6) (w q r : BitVec 1) (s : State) :
    Host.Outcome State Fault Refusal :=
  issue g s (s.atomicIssue .axor d a v (w == 1) (q == 1) (r == 1))

/-- aswp (R145). -/
def execAswp (g : BitVec 4) (d a v : BitVec 6) (w q r : BitVec 1) (s : State) :
    Host.Outcome State Fault Refusal :=
  issue g s (s.atomicIssue .aswp d a v (w == 1) (q == 1) (r == 1))

/-- acas (R145). -/
def execAcas (g : BitVec 4) (d a v : BitVec 6) (w q r : BitVec 1) (s : State) :
    Host.Outcome State Fault Refusal :=
  issue g s (s.atomicIssue .acas d a v (w == 1) (q == 1) (r == 1))

/-- afadd (R145). -/
def execAfadd (g : BitVec 4) (d a v : BitVec 6) (w q r : BitVec 1) (s : State) :
    Host.Outcome State Fault Refusal :=
  issue g s (s.atomicIssue .afadd d a v (w == 1) (q == 1) (r == 1))

/-- amin (R145): k = 1 compares as natural numbers. -/
def execAmin (g : BitVec 4) (d a v : BitVec 6) (w k q r : BitVec 1) (s : State) :
    Host.Outcome State Fault Refusal :=
  issue g s (s.atomicIssue (if k = 1 then .aminn else .amin) d a v (w == 1) (q == 1) (r == 1))

/-- amax (R145): k = 1 compares as natural numbers. -/
def execAmax (g : BitVec 4) (d a v : BitVec 6) (w k q r : BitVec 1) (s : State) :
    Host.Outcome State Fault Refusal :=
  issue g s (s.atomicIssue (if k = 1 then .amaxn else .amax) d a v (w == 1) (q == 1) (r == 1))

/-- The step number that an aoadd carries (R148).
Log 79: DEDUCED, unsafe. -/
def State.stepNumber (s : State) : Word :=
  if s.iss.fw then s.rankWord s.ctx.vrank 2
  else match s.me.strand with
    | some t => t.stepNo
    | none => 0

/-- An ordered add of the issuing context (R148, R149): posted; the hub keeps no ordered sequences (R397). -/
def State.aoaddIssue (s : State) (d a v : BitVec 6) (w k r : Bool) : Res :=
  let va := s.readS a
  let q := fld (s.readS d) 0 32
  let el : Word := if w then va &&& ~~~3#64 else va &&& ~~~7#64
  Res.andThen (s.dataAcc .atomic va 1) fun acc =>
    let s1 := if r then s.publish s.agent s.agent (s.atomicScope acc) else s
    if s.isRemote acc then
      let dest := (s.ctx.vrank, acc.leaf.home)
      let s2 := { s1 with mem := { s1.mem with addNodes := dest :: s1.mem.addNodes.filter fun e => e ≠ dest } }
      let f := memFlit 4 acc.row (elemIndex w acc.pa) w (if k then 14 else 13) s.postTag
        (ofWords [s.readS v, BitVec.ofNat 64 q, s.ctx.vrank.setWidth 64, s.stepNumber, el])
      .ok (s2.post ((s2.posted acc va .aadd (elemIndex w acc.pa) w (s.readS v) 0).to acc (acc.flit f)))
    else if isHubRow acc.row then s.fault 0x05 1 va
    else
      let x : OrdAdd :=
        { stack := s.mem.stackOf acc.pa, vrank := s.ctx.vrank, va := el.setWidth 48, pa := acc.pa, page := acc.page,
          w := w, k := k, q := q, op := s.readS v, stepNo := s.stepNumber, by_ := s.agent,
          born := s.me.cycle, made := s1.mem.nextId, rank := s.rankOf s.agent }
      .ok { s1 with mem := { s1.mem with adds := s1.mem.adds ++ [x], nextId := s1.mem.nextId + 1 } }

/-- aoadd (R148, R149): in the firmware context it carries the step of the rank in vrank, which its block gives. -/
def execAoadd (g : BitVec 4) (d a v : BitVec 6) (w k r : BitVec 1) (s : State) :
    Host.Outcome State Fault Refusal :=
  issue g s
    (if s.iss.fw then s.withRank s.ctx.vrank fun s => s.aoaddIssue d a v (w == 1) (k == 1) (r == 1)
     else s.aoaddIssue d a v (w == 1) (k == 1) (r == 1))

/-- The posted operations of a context covered by its phase at PKG or wider (R251).
Log 46: DEDUCED, safe. -/
def State.cover (s : State) (a : Agent) (scope : Nat) : State :=
  if wideScope scope then
    { s with mem := { s.mem with posted := s.mem.posted.map fun p => if p.by_ = a then { p with wide := true } else p } }
  else s

/-- phase (R152, R235, R237, R251). -/
def execPhase (g sc : BitVec 4) (s : State) : Host.Outcome State Fault Refusal :=
  issue g s
    (.ok (((s.publish s.agent s.agent sc.toNat).snapshot s.agent s.agent sc.toNat).cover s.agent sc.toNat))

/-- MEMSIDE_OPERATION (R245, R336). -/
def execMemsideOperation (idx : Nat) (s : State) : Host.Outcome State Fault Refusal :=
  .next (s.performAt idx)

end Sys2Proof.Machine
end

