-- ==== Sys2Proof/Machine/Special.lean ====
section
/-! DEFINITION. The special registers (R19, R20, R324) and the format register's writes (R21 to R24, R107), the
region table's load (R332). -/

namespace Sys2Proof.Machine

/-- tstat (R35). -/
def tstatWord (c : Ctx) : Word := BitVec.ofNat 64 ((if c.inh then 8 else 0) + c.fsc.toNat)

/-- coreid of core c (R9, R19). -/
def coreIdWord (c : Nat) : Word :=
  BitVec.ofNat 64 (c % 256 + c / 50 * 256 + c % 50 / 10 * 1024)

/-- The bits of fmt that exist (R21).
Log 26: DEDUCED, unsafe. -/
def fmtMask : Word := 0xFFFFFFC0

/-- A fmt value that carries a reserved code (R21). -/
def fmtReserved (v : Word) : Bool :=
  decide (10 < fld v 28 4) || decide (10 < fld v 24 4) || fld v 14 2 == 3 || decide (5 < fld v 10 3)

/-- A fmt write (R22 to R24, R107): refused in the shadow with reason 4, on a reserved code with reason 3. -/
def State.writeFmt (s : State) (v : Word) : Res :=
  if s.iss.fw then s.illegal 3
  else if s.px.shCnt ≠ 0 then s.illegal 4
  else if fmtReserved v then s.illegal 3
  else
    let x := s.px
    let s1 := s.setPx { x with shVal := x.fmt, fmt := v &&& fmtMask, shCnt := 4 }
    .ok { s1 with iss := { s1.iss with fmtSet := true } }

/-- fwshare's clamp (R20). -/
def clampShare (v : Nat) : Nat := if v = 0 then 1 else min v 64

/-- A move-from-special of a number that exists in the issuing context (R19, R20). -/
def State.readSpecial (s : State) (n : Nat) : Option Word :=
  let c := s.ctx
  let p := s.me.prog
  let x := s.px
  let f := s.fx
  if n = 0x02 then some c.cause
  else if n = 0x03 then some (c.epc.setWidth 64)
  else if n = 0x04 then some c.faddr
  else if n = 0x05 then some (c.tvec.setWidth 64)
  else if n = 0x06 then some (tstatWord c)
  else if n = 0x07 then some c.tscr
  else if n = 0x08 then some (if s.iss.fw then 0 else c.asid.setWidth 64)
  else if n = 0x09 then some c.rcb
  else if n = 0x0A then some (c.vrank.setWidth 64)
  else if n = 0x0B then some (coreIdWord s.iss.core)
  else if n = 0x0C then some (BitVec.ofNat 64 s.hub.gtime)
  else if s.iss.fw then
    if 0x20 ≤ n ∧ n < 0x24 then some (Tab.get {} c.chans (n - 0x20)).tw
    else if n = 0x80 then some (BitVec.ofNat 64 f.fwshare)
    else if n = 0x81 then some f.tdeleg
    else if n = 0x82 then some p.cause
    else if n = 0x83 then some (p.epc.setWidth 64)
    else if n = 0x84 then some p.faddr
    else if n = 0x85 then some (tstatWord p)
    else if n = 0x86 then some x.fmtsv
    else if n = 0x87 then some (f.fwev.setWidth 64)
    else if n = 0xC0 then some s.mem.tatb
    else if n = 0xC1 then some (s.hub.tnode.setWidth 64)
    else if n = 0xC2 then some (BitVec.ofNat 64 (f.tlbis.length % 65536))
    else if n = 0xC3 then some (f.tkix.setWidth 64)
    else if 0xC4 ≤ n ∧ n ≤ 0xCB then some 0
    else if n = 0xCC then some s.mem.treg
    else if n = 0xCD then
      some (BitVec.ofNat 64 ((if s.mem.tregErr then 2 else 0) + (if s.mem.regionsIn.isSome then 1 else 0)))
    else if n = 0xCE then some s.mem.tferr
    else none
  else
    if n = 0x00 then some s.fmt
    else if n = 0x01 then some (x.fpstat.setWidth 64)
    else if n = 0x0D then some x.fmtsv
    else if n = 0x10 then some x.rkey0
    else if n = 0x11 then some x.rcnt0
    else if n = 0x12 then some x.rkey1
    else if n = 0x13 then some x.rcnt1
    else if 0x20 ≤ n ∧ n < 0x30 then some (Tab.get {} c.chans (n - 0x20)).tw
    else none

/-! ## The region table -/

/-- An entry of the region table, as read, with its reserved bits (R332). -/
def regionOf (w0 w1 : Word) : RegionEnt × Bool :=
  let kind := fld w0 62 2
  let e : RegionEnt :=
    { kind := kind, base := fld w0 21 23 * 0x200000, size := fld w1 44 20, copy := fld w1 21 23 * 0x200000 }
  (e, fld w0 44 18 != 0 || fld w0 0 21 != 0 || fld w1 0 21 != 0 || kind == 3 ||
    (kind != 0 && (e.size == 0 || decide (baseDieBase < e.base + regionSpan e))) ||
    (kind == 2 && !inTier e.copy (regionSpan e)) || (kind != 2 && e.copy != 0))

/-- Whether two regions overlap.
Log 48: DEDUCED, unsafe. -/
def regionsMeet (a b : RegionEnt) : Bool :=
  a.kind != 0 && b.kind != 0 && decide (a.base < b.base + regionSpan b) &&
    decide (b.base < a.base + regionSpan a)

/-- No two of the regions overlap. -/
def regionsApart : List RegionEnt → Bool
  | [] => true
  | e :: t => t.all (fun x => !regionsMeet e x) && regionsApart t

/-- The load that a write of treg starts (R324, R332): refused, with nothing changed but err, or begun.
Log 48: DEDUCED, unsafe. -/
def State.tregLoad (s : State) (v : Word) : State :=
  let pa := v &&& 0xFFFFFFFFE00
  let es := (List.range 32).map fun i =>
    regionOf (s.mem.word (pa.toNat + 16 * i)) (s.mem.word (pa.toNat + 16 * i + 8))
  let m := s.mem
  if es.any (fun e => e.2) || !regionsApart (es.map fun e => e.1) then
    { s with mem := { m with treg := pa, tregErr := true } }
  else { s with mem := { m with treg := pa, tregErr := false, regionsIn := some (es.map fun e => e.1) } }

/-- A write of tkey7: both keys installed under tkix in every agent of the module, or nothing while tkix is
0 (R324). -/
def State.tkey7 (s : State) (c : Nat) (v : Word) : State :=
  let k := s.core c
  let w (j : Nat) : Word := if j = 7 then v else Tab.get 0 k.fx.tkeys j
  let data : BitVec 256 := w 3 ++ w 2 ++ w 1 ++ w 0
  let tweak : BitVec 256 := w 7 ++ w 6 ++ w 5 ++ w 4
  if k.fx.tkix = 0 then s.setCore c { k with fx := { k.fx with tkeys := [] } }
  else
    let s1 := s.setCore c { k with fx := { k.fx with tkeys := Tab.set 0 k.fx.tkeys 7 v } }
    { s1 with mem := { s1.mem with keys := Tab.put s1.mem.keys k.fx.tkix.toNat (data, tweak) } }

/-! ## Writes -/

/-- The bits of a cause register that exist (R32). -/
def causeMask : Word := 0xFFFFFFFF0000F83F

/-- A tstat value taken by a context (R35).
Log 123: DESIGN CHOICE, unsafe. -/
def Ctx.setTstat (c : Ctx) (v : Word) : Ctx := { c with inh := bitAt v 3, fsc := v.setWidth 3 }

/-- A move-to-special (R19, R20): illegal-bundle with reason 3 for a number that does not exist in the issuing
context, reason 6 for one that is read-only.
Log 26: DEDUCED, unsafe; log 27: DEDUCED, unsafe. -/
def State.writeSpecial (s : State) (n : Nat) (v : Word) : Res :=
  let c := s.ctx
  let k := s.me
  let x := s.px
  let f := s.fx
  if n = 0x03 then .ok (s.setCtx { c with epc := alignPc (v.setWidth 48) })
  else if n = 0x05 then .ok (s.setCtx { c with tvec := alignPc (v.setWidth 48) })
  else if n = 0x07 then .ok (s.setCtx { c with tscr := v })
  else if n = 0x02 ∨ n = 0x04 ∨ n = 0x06 ∨ n = 0x08 ∨ n = 0x0B ∨ n = 0x0C then s.illegal 6
  else if s.iss.fw then
    if n = 0x09 then .ok (s.setCtx { c with rcb := v })
    else if n = 0x0A then .ok (s.setCtx { c with vrank := v.setWidth 16 })
    else if 0x20 ≤ n ∧ n < 0x24 then s.illegal 6
    else if n = 0x80 then .ok (s.setFx { f with fwshare := clampShare v.toNat })
    else if n = 0x81 then .ok (s.setFx { f with tdeleg := v &&& delegMask })
    else if n = 0x82 then .ok (s.setMe { k with prog := { k.prog with cause := v &&& causeMask } })
    else if n = 0x83 then .ok (s.setMe { k with prog := { k.prog with epc := alignPc (v.setWidth 48) } })
    else if n = 0x84 then .ok (s.setMe { k with prog := { k.prog with faddr := v } })
    else if n = 0x85 then .ok (s.setMe { k with prog := k.prog.setTstat v })
    else if n = 0x86 then .ok (s.setPx { x with fmtsv := v &&& fmtMask })
    else if n = 0x87 then .ok (s.setFx { f with fwev := f.fwev &&& ~~~(v.setWidth 2) })
    else if n = 0xC0 then .ok { s with mem := { s.mem with tatb := v &&& 0xFFFFFF00000 } }
    else if n = 0xC3 then .ok (s.setFx { f with tkix := v.setWidth 5 })
    else if 0xC4 ≤ n ∧ n < 0xCB then .ok (s.setFx { f with tkeys := Tab.set 0 f.tkeys (n - 0xC4) v })
    else if n = 0xCB then .ok (s.tkey7 s.iss.core v)
    else if n = 0xCC then .ok (s.tregLoad v)
    else if n = 0xC1 ∨ n = 0xC2 ∨ n = 0xCD ∨ n = 0xCE then s.illegal 6
    else s.illegal 3
  else
    if n = 0x00 then s.writeFmt v
    else if n = 0x01 then
      if k.landing false then .wait .landed else .ok (s.setPx { x with fpstat := v.setWidth 7 })
    else if n = 0x09 ∨ n = 0x0A ∨ (0x20 ≤ n ∧ n < 0x30) then s.illegal 6
    else if n = 0x0D then .ok (s.setPx { x with fmtsv := v &&& fmtMask })
    else if n = 0x10 then .ok (s.setPx { x with rkey0 := v })
    else if n = 0x11 then
      let s1 := s.setPx { x with rcnt0 := v }
      .ok { s1 with iss := { s1.iss with drawn0 := 0 } }
    else if n = 0x12 then .ok (s.setPx { x with rkey1 := v })
    else if n = 0x13 then
      let s1 := s.setPx { x with rcnt1 := v }
      .ok { s1 with iss := { s1.iss with drawn1 := 0 } }
    else s.illegal 3

end Sys2Proof.Machine
end

