-- ==== Sys2Proof/Machine/Control.lean ====
section
/-! DEFINITION. The C slot's transfers, loops, special registers and traps (R97 to R111), for both contexts. -/

namespace Sys2Proof.Machine

/-! ## The next bundle -/

/-- The levels whose end is bundle b made inactive (R106). -/
def leaveLevels (b : Addr) (t : Tab LoopLevel) : Tab LoopLevel :=
  t.map fun e => if e.2.act ∧ e.2.fin = b then (e.1, { e.2 with act := false }) else e

/-- A taken transfer (R97, R106). -/
def State.transfer (s : State) (target : Addr) : State :=
  let c := s.ctx
  let s1 := s.setCtx
    { c with pc := alignPc target, jumped := true, looped := false, loops := leaveLevels s.iss.pc c.loops }
  { s1 with iss := { s1.iss with xfer := true } }

/-- Every address generator moved by its stride of level k (R102). -/
def strideAll (k : Nat) (t : Tab AddrGen) : Tab AddrGen :=
  t.map fun e => (e.1, { e.2 with cur := e.2.cur + Tab.get 0 e.2.strides k })

/-- The examination of a boundary for loop-back (R102): the levels given, innermost first. -/
def loopScan (b : Addr) : List Nat → Ctx → Ctx × Bool
  | [], c => (c, false)
  | k :: t, c =>
    let l := Tab.get {} c.loops k
    if l.act ∧ l.fin = b then
      let n := l.count - 1
      if n ≠ 0 then
        ({ c with loops := Tab.put c.loops k { l with count := n }, ags := strideAll k c.ags,
                  pc := l.start, jumped := true, looped := true }, true)
      else loopScan b t { c with loops := Tab.put c.loops k { l with count := 0, act := false } }
    else loopScan b t c

/-- The boundary of bundle b for a context: a loop-back, or the next bundle in sequence (R102). -/
def Ctx.boundaryAt (c : Ctx) (b : Addr) : Ctx :=
  let r := loopScan b [5, 4, 3, 2, 1, 0] c
  if r.2 then r.1 else { r.1 with pc := b + 32, jumped := false, looped := false }

/-- The issuing bundle completed without a transfer: the pc is that of the next bundle. -/
def State.advance (s : State) : State :=
  let s1 := s.setCtx (s.ctx.boundaryAt s.iss.pc)
  { s1 with iss := { s1.iss with xfer := true } }

/-- Target(pc, d, n) (R76), d a displacement of n bits. -/
def State.target {n : Nat} (s : State) (d : BitVec n) : Addr := s.iss.pc + d.signExtend 48 * 32

/-! ## Transfers -/

/-- nop (R70). -/
def execNop (_g : BitVec 4) (s : State) : Host.Outcome State Fault Refusal := .next s

/-- br (R98). -/
def execBr (g : BitVec 4) (d : BitVec 22) (s : State) : Host.Outcome State Fault Refusal :=
  issue g s (.ok (s.transfer (s.target d)))

/-- brl (R98). -/
def execBrl (g : BitVec 4) (l : BitVec 6) (d : BitVec 16) (s : State) :
    Host.Outcome State Fault Refusal :=
  issue g s (.ok ((s.issueS l ((s.iss.pc + 32).setWidth 64) 1).transfer (s.target d)))

/-- jr (R98). -/
def execJr (g : BitVec 4) (a : BitVec 6) (s : State) : Host.Outcome State Fault Refusal :=
  issue g s (.ok (s.transfer ((s.readS a).setWidth 48)))

/-- jrl (R98). -/
def execJrl (g : BitVec 4) (d a : BitVec 6) (s : State) : Host.Outcome State Fault Refusal :=
  issue g s (.ok ((s.issueS d ((s.iss.pc + 32).setWidth 64) 1).transfer ((s.readS a).setWidth 48)))

/-- The entry load of a jump table (R99, R142), ordered as a gldw is (R141): info bit 3, poison by the line's address. -/
def State.tableEntry (s : State) (va : Word) : Except Res (Word × State) :=
  match s.loadFor va 8 with
  | .error r => .error r
  | .ok r => .ok (rowWord r.1 (fld va 3 3), r.2)

/-- jt (R99). -/
def execJt (g : BitVec 4) (a i l : BitVec 6) (p : BitVec 4) (s : State) :
    Host.Outcome State Fault Refusal :=
  issue g s
    (if (s.readS l).toNat ≤ (s.readS i).toNat then .ok (s.issueP p.toNat true 1)
     else Res.andThen (s.tableEntry (s.readS a + 8 * s.readS i)) fun r =>
       .ok ((r.2.issueP p.toNat false 1).transfer (r.1.setWidth 48)))

/-! ## Loops -/

/-- A loop setup (R100, R101): level k, its count and the end's distance. -/
def State.setLoop (s : State) (k : Nat) (count : Word) (e : Nat) : State :=
  let fin := s.iss.pc + BitVec.ofNat 48 (32 * e)
  let l : LoopLevel := { act := count != 0, count := count, start := s.iss.pc + 32, fin := fin }
  let s1 := s.setCtx { s.ctx with loops := Tab.put s.ctx.loops k l }
  if count = 0 then s1.transfer (fin + 32) else s1

/-- loop (R100). -/
def execLoop (g : BitVec 4) (k : BitVec 3) (a : BitVec 6) (e : BitVec 13) (s : State) :
    Host.Outcome State Fault Refusal :=
  issue g s (.ok (s.setLoop k.toNat (s.readS a) e.toNat))

/-- loopi (R100). -/
def execLoopi (g : BitVec 4) (k : BitVec 3) (n : BitVec 10) (e : BitVec 9) (s : State) :
    Host.Outcome State Fault Refusal :=
  issue g s (.ok (s.setLoop k.toNat (n.setWidth 64) e.toNat))

/-- The levels from k on made inactive (R104). -/
def breakLevels (k : Nat) (t : Tab LoopLevel) : Tab LoopLevel :=
  t.map fun e => if k ≤ e.1 then (e.1, { e.2 with act := false }) else e

/-- lbrk (R104). -/
def execLbrk (g : BitVec 4) (k : BitVec 3) (s : State) : Host.Outcome State Fault Refusal :=
  let l := Tab.get {} s.ctx.loops k.toNat
  issue g s
    (if l.act then
       .ok ((s.setCtx { s.ctx with loops := breakLevels k.toNat s.ctx.loops }).transfer (l.fin + 32))
     else .ok s)

/-! ## Format and special registers -/

/-- wfmt (R107). -/
def execWfmt (g : BitVec 4) (a : BitVec 6) (s : State) : Host.Outcome State Fault Refusal :=
  issue g s (s.writeFmt (s.readS a))

/-- mfs (R108): fpstat waits for the results issued earlier (R20, R27). -/
def execMfs (g : BitVec 4) (a : BitVec 6) (n : BitVec 8) (s : State) :
    Host.Outcome State Fault Refusal :=
  issue g s
    (if n = 0x01 ∧ s.iss.fw = false ∧ s.me.landing false = true then .wait .landed
     else match s.readSpecial n.toNat with
       | some v => .ok (s.issueS a v 1)
       | none => s.illegal 3)

/-- mts (R108).
Log 27: DEDUCED, unsafe. -/
def execMts (g : BitVec 4) (a : BitVec 6) (n : BitVec 8) (s : State) :
    Host.Outcome State Fault Refusal :=
  issue g s (s.writeSpecial n.toNat (s.readS a))

/-- fwsh (R226): a write to fwshare under R20. -/
def execFwsh (g : BitVec 4) (i : BitVec 7) (s : State) : Host.Outcome State Fault Refusal :=
  issue g s (.ok (s.setFx { s.fx with fwshare := clampShare i.toNat }))

/-! ## Traps -/

/-- The bundle counted in the live shadow before its trap saves it (R23, R31). -/
def State.countShadow (s : State) : State :=
  if s.iss.fw then s
  else
    let s1 := s.setPx { s.px with shCnt := s.px.shCnt - 1 }
    { s1 with iss := { s1.iss with fmtSet := true } }

/-- A completing trap (R31): the bundle's boundary first, then the trap with epc at the next bundle. -/
def State.completingTrap (s : State) (code : Nat) (imm : BitVec 16) : State :=
  let s1 := s.advance.countShadow
  s1.takeTrap ⟨BitVec.ofNat 6 code, 0, imm.setWidth 32, false, 0, s1.ctx.pc⟩

/-- trap (R109). -/
def execTrap (g : BitVec 4) (i : BitVec 16) (s : State) : Host.Outcome State Fault Refusal :=
  issue g s (.ok (s.completingTrap 0x0B i))

/-- bkpt (R109). -/
def execBkpt (g : BitVec 4) (i : BitVec 16) (s : State) : Host.Outcome State Fault Refusal :=
  issue g s (.ok (s.completingTrap 0x0C i))

/-- The live shadow restored by a trap return or by cres (R38, R39).
Log 50: DEDUCED, unsafe. -/
def ProgX.restoreShadow (x : ProgX) (fsc : BitVec 3) : ProgX :=
  { x with shVal := x.fmtsv, shCnt := fsc.toNat }

/-- tret (R38). -/
def execTret (g : BitVec 4) (s : State) : Host.Outcome State Fault Refusal :=
  issue g s
    (if s.ctx.inh = false then s.illegal 7
     else
       let s1 := if s.iss.fw then s else s.setPx (s.px.restoreShadow s.ctx.fsc)
       let s2 := s1.setCtx { s1.ctx with inh := false }
       .ok { s2.transfer s2.ctx.epc with
             iss := { (s2.transfer s2.ctx.epc).iss with fmtSet := true } })

/-- chk (R111). -/
def execChk (g : BitVec 4) (c : BitVec 1) (r : BitVec 6) (d : BitVec 15) (s : State) :
    Host.Outcome State Fault Refusal :=
  let bit := if c = 0 then s.ctx.sdef.getLsbD r.toNat && r != 0 else s.px.vdef.getLsbD r.toNat
  issue g s (.ok (if bit then s.transfer (s.target d) else s))

/-- The boundary of a bundle of a context (R102), when one is due. -/
def State.boundaryOf (s : State) (c : Nat) (fw : Bool) : State :=
  let k := s.core c
  match (k.ctx fw).boundary with
  | some b => s.setCore c (k.setCtx fw { ((k.ctx fw).boundaryAt b) with boundary := none })
  | none => s

/-- LOOP_BOUNDARY (R102). -/
def execLoopBoundary (core : Nat) (fw : Bool) (s : State) : Host.Outcome State Fault Refusal :=
  .next (s.boundaryOf core fw)

end Sys2Proof.Machine
end

