-- ==== Sys2Proof/Machine/Transfer.lean ====
section
/-! DEFINITION. Engine transfers (R208 to R222, R242, R261 to R270): descriptors and their checks, the probe, the
bytes that a transfer reads and writes, completion, and triggers. -/

namespace Sys2Proof.Machine

/-! ## The engine descriptor (R211) -/

def dw (d : List Word) (j : Nat) : Word := d.getD j 0

/-- A field of word 3. -/
def d3 (d : List Word) (lo n : Nat) : Nat := fld (dw d 3) lo n

/-- A field of word 2. -/
def d2 (d : List Word) (lo n : Nat) : Nat := fld (dw d 2) lo n

/-- The innermost run's length. -/
def dLen (d : List Word) : Nat := d2 d 0 32

/-- The count of level k = 1 to 5; 0 reads as 1. -/
def dCnt (d : List Word) (k : Nat) : Nat := max 1 (fld (dw d (3 + k)) 40 24)

/-- The strides of level k. -/
def dSs (d : List Word) (k : Nat) : Int := signNat (dw d (3 + k)).toNat 40
def dDs (d : List Word) (k : Nat) : Int := signNat (dw d (8 + k)).toNat 40

def dHasHist (d : List Word) : Bool := d3 d 17 1 == 1
def dHasFull (d : List Word) : Bool := d3 d 16 1 == 1
def dHasArrival (d : List Word) : Bool := d3 d 32 1 == 1
def dBarrier (d : List Word) : Nat := fld (dw d 14) 0 32

/-- One side of a transfer: its kind (0 device memory, 1 scratchpad, 2 tile), base and tile. -/
structure Side where
  kind : Nat
  base : Nat
  tile : Nat
deriving DecidableEq, Repr

def dSrc (d : List Word) : Side := ⟨d3 d 0 2, (dw d 0).toNat, d3 d 4 6⟩
def dDst (d : List Word) : Side := ⟨d3 d 2 2, (dw d 1).toNat, d3 d 10 6⟩

/-- The product of the counts. -/
def dRuns (d : List Word) : Nat := [1, 2, 3, 4, 5].foldl (fun n k => n * dCnt d k) 1

/-- The offset of run r under the given strides, level 1 varying fastest (R215). -/
def runOffset (d : List Word) (st : Nat → Int) (r : Nat) : Int :=
  ([1, 2, 3, 4, 5].foldl (fun (acc : Int × Nat) k =>
    (acc.1 + ((acc.2 % dCnt d k : Nat) : Int) * st k, acc.2 / dCnt d k)) (0, r)).1

/-- Align(x, e) of R218. -/
def alignInt (x : Int) (e : Nat) : Int := x - x % (e : Int)

/-- The bytes of one element of a histogram format (R217). -/
def histBytes (d : List Word) : Nat := (elemOf (d3 d 18 4)).width / 8

/-- The slot width of a weight stream (R265). -/
def wsBits (d : List Word) : Nat := 8 * 2 ^ d3 d 44 2

/-- The descriptor with the address generators' offsets added and sag and dag cleared (R311). -/
def resolveDesc (c : Ctx) (d : List Word) : List Word :=
  let cur (g : Nat) : Word := (Tab.get {} c.ags g).cur
  let w0 := if d3 d 22 1 = 1 then dw d 0 + cur (d3 d 23 4) else dw d 0
  let w1 := if d3 d 27 1 = 1 then dw d 1 + cur (d3 d 28 4) else dw d 1
  replaceAt (replaceAt (replaceAt d 0 w0) 1 w1) 3 (dw d 3 &&& ~~~0x8400000#64)

/-! ## Checks (R212, R218, R219, R221, R225) -/

/-- The op code of a command that has an engine descriptor. -/
def opCode : XKind → Nat
  | .copy => 0 | .gath => 1 | .scat => 2 | .wstr => 3 | .hist => 4 | _ => 8

def opKind (n : Nat) : Option XKind :=
  match n with
  | 0 => some .copy | 1 => some .gath | 2 => some .scat | 3 => some .wstr | 4 => some .hist | _ => none

/-- Whether a context may name a channel (R84, R285): c0 to c3 in firmware, those below the region's
effective nchan for a strand.
Log 23: DESIGN CHOICE, safe. -/
def State.chanOk (s : State) (c : Nat) : Bool :=
  if s.iss.fw then decide (c < 4)
  else match s.me.strand with
    | some t => decide (c < t.nchan)
    | none => true

/-- Reserved bits of the descriptor. -/
def dReserved (d : List Word) : Bool :=
  d2 d 42 22 != 0 || d3 d 57 7 != 0 || d3 d 36 6 != 0 ||
    [9, 10, 11, 12, 13].any (fun j => fld (dw d j) 40 24 != 0) ||
    fld (dw d 14) 32 32 != 0 || fld (dw d 15) 32 32 != 0 || d3 d 0 2 == 3 || d3 d 2 2 == 3 ||
    decide (1 < d3 d 54 2)

/-- A field that no command of the kind uses is not zero. -/
def dUnused (k : XKind) (d : List Word) : Bool :=
  (d3 d 56 1 != 0 && k != .hist) ||
  ((d3 d 54 2 != 0 || dw d 15 != 0) && k != .gath && k != .scat) ||
  ((d3 d 53 1 != 0 || d3 d 42 11 != 0) && k != .wstr) ||
  (d3 d 18 4 != 0 && !dHasHist d) || (dHasHist d && !(8 ≤ d3 d 18 4 && d3 d 18 4 ≤ 13)) ||
  (d3 d 28 4 != 0 && d3 d 27 1 == 0) || (d3 d 23 4 != 0 && d3 d 22 1 == 0) ||
  (d3 d 10 6 != 0 && d3 d 2 2 != 2) || (d3 d 4 6 != 0 && d3 d 0 2 != 2) ||
  (dw d 14 != 0 && !dHasArrival d)

/-- The trigger fields: zero outside a fired descriptor, and within one as format EC demands (R221). -/
def State.dTrigger (s : State) (trig : Bool) (d : List Word) : Bool :=
  if trig then
    (d3 d 33 3 == 3 && d2 d 37 1 == 1) || (d2 d 36 2 == 0 && d2 d 38 4 != 0) ||
      decide (11 < d2 d 38 4) || !s.chanOk (d2 d 32 4)
  else d2 d 32 10 != 0

/-- An element size of gath and scat. -/
def elemSize (n : Nat) : Bool := [1, 2, 4, 8, 16, 32, 64].contains n

/-- The counts of levels 2 to 5 name no repetition. -/
def flatCounts (d : List Word) : Bool := [5, 6, 7, 8].all fun j => fld (dw d j) 40 24 ≤ 1

/-- The rules of one kind (reason 1). -/
def dKindBad (k : XKind) (d : List Word) : Bool :=
  let ss (l : List Nat) : Bool := l.any fun k => dSs d k != 0
  let ds (l : List Nat) : Bool := l.any fun k => dDs d k != 0
  match k with
  | .copy => false
  | .gath => d3 d 0 2 != 0 || !elemSize (dLen d) || !flatCounts d || ss [2, 3, 4, 5] || ds [1, 2, 3, 4, 5]
  | .scat => d3 d 2 2 != 0 || !elemSize (dLen d) || !flatCounts d || ss [1, 2, 3, 4, 5] || ds [2, 3, 4, 5]
  | .wstr =>
    d3 d 0 4 != 0 || decide (7 < d3 d 49 4) || (d3 d 42 1 == 1 && d3 d 49 4 == 7) || dw d 1 != 0 ||
      d3 d 27 1 != 0 || ss [1, 2, 3, 4, 5] || ds [1, 2, 3, 4, 5] ||
      [5, 6, 7, 8].any (fun j => fld (dw d j) 40 24 != 0) ||
      (d3 d 53 1 == 0 && dLen d != 512 * dCnt d 1)
  | .hist =>
    dLen d != 1024 || decide (1 < fld (dw d 4) 40 24) || !flatCounts d || d3 d 0 2 != 0 || dHasHist d ||
      d3 d 22 1 != 0 || dw d 0 != 0 || ss [1, 2, 3, 4, 5] || ds [1, 2, 3, 4, 5]
  | _ => true

/-- Reason 1. -/
def State.dBad (s : State) (k : XKind) (trig : Bool) (d : List Word) : Bool :=
  dReserved d || d3 d 33 3 != opCode k || dLen d == 0 || dUnused k d || s.dTrigger trig d ||
    dKindBad k d || (trig && k == .hist)

/-- The bytes that a transfer moves. -/
def dTotal (k : XKind) (d : List Word) : Nat :=
  match k with
  | .copy => dLen d * dRuns d
  | .gath => dLen d * dCnt d 1
  | .scat => dLen d * dCnt d 1
  | _ => dLen d

/-- The least and the greatest offset of a side's runs. -/
def extent (d : List Word) (st : Nat → Int) : Int × Int :=
  [1, 2, 3, 4, 5].foldl (fun (acc : Int × Int) k =>
    let x := ((dCnt d k - 1 : Nat) : Int) * st k
    (acc.1 + min 0 x, acc.2 + max 0 x)) (0, 0)

/-- A side's bytes lie within the partition, or within its tile; one that names a tile without a
configuration is not tested. -/
def State.sideFits (s : State) (sd : Side) (lo hi : Int) : Bool :=
  let a : Int := sd.base + lo
  let b : Int := sd.base + hi
  match sd.kind with
  | 1 => decide (0 ≤ a) && decide (b ≤ s.sp.part)
  | 2 =>
    let t := s.px.tile sd.tile
    !s.tileCfg t || (decide (0 ≤ a) && decide (b ≤ 64 * t.rows))
  | _ => true

/-- The bytes of an index list (R218). -/
def indexBytes (d : List Word) : Nat := dCnt d 1 * (if d3 d 54 2 = 0 then 4 else 8)

/-- Reason 2. -/
def State.dOutside (s : State) (k : XKind) (d : List Word) : Bool :=
  let flat : Int × Int := (0, (dTotal k d : Nat))
  let list := decide (s.sp.part < fld (dw d 15) 0 32 + indexBytes d)
  let sides := match k with
    | .copy =>
      let a := extent d (dSs d)
      let b := extent d (dDs d)
      !s.sideFits (dSrc d) a.1 (a.2 + dLen d) || !s.sideFits (dDst d) b.1 (b.2 + dLen d)
    | .gath => !s.sideFits (dDst d) flat.1 flat.2 || list
    | .scat => !s.sideFits (dSrc d) flat.1 flat.2 || list
    | .hist => !s.sideFits (dDst d) 0 1024
    | .wstr =>
      let q := s.px.ring (d3 d 46 3)
      (List.range q.nt).any fun i => decide ((s.px.tile (Tab.get 0 q.pos i)).rows < wsBits d)
    | _ => false
  sides || (dHasArrival d && !s.sp.has (dBarrier d / 64))

/-- Reason 4. -/
def dMismatch (k : XKind) (d : List Word) : Bool :=
  (dHasFull d && d3 d 2 2 == 0) || (dHasHist d && dTotal k d % histBytes d != 0)

/-- The newest identifier less the watermark. -/
def Chan.outstanding (ch : Chan) : Nat := (ch.iss - ch.tw).toNat

/-- The first engine command fault of a command with a descriptor as read and as resolved, up to reason 5
(R212).
Log 38: DEDUCED, unsafe. -/
def State.cmdReason (s : State) (k : XKind) (trig : Bool) (c : Nat) (d0 d : List Word) : Option Nat :=
  if s.dBad k trig d0 then some 1
  else if s.dOutside k d then some 2
  else if 2 ^ 36 < dTotal k d || ((k == .gath || k == .scat) && 65536 < dCnt d 1) then some 3
  else if dMismatch k d then some 4
  else if 256 ≤ (Tab.get {} s.ctx.chans c).outstanding then some 5
  else none

/-- The tile fault of a descriptor's sides (R216); before it fires, a triggered command's are tested for
their configuration alone (R221).
Log 129: DESIGN CHOICE, unsafe. -/
def State.tileBad (s : State) (k : XKind) (states : Bool) (d : List Word) : Option (Nat × Nat) :=
  let test (sd : Side) (want : TileState) : Option (Nat × Nat) :=
    let t := s.px.tile sd.tile
    if sd.kind = 2 ∧ (s.tileCfg t = false ∨ (states = true ∧ t.st ≠ want)) then
      some (sd.tile, t.ringOf)
    else none
  match test (dDst d) .empty with
  | some r => some r
  | none => if k = .copy ∨ k = .scat then test (dSrc d) .ready else none

/-! ## The probe (R213) -/

/-- A leaf as the two words a transfer holds, its frame that of one 64 KiB page. -/
def leafWords (l : Leaf) (frame : Nat) : Word × Word :=
  let b (x : Bool) (i : Nat) : Nat := if x then 2 ^ i else 0
  (BitVec.ofNat 64 (2 ^ 63 + 2 ^ 62 + b l.r 61 + b l.w 60 + b l.x 59 + b l.c 58 + b l.ms 57 + b l.sh 56 +
      l.ek * 2 ^ 51 + frame),
   BitVec.ofNat 64 (l.home * 2 ^ 52 + l.own * 2 ^ 32 + b l.big 0))

/-- Consecutive bytes that a command will read or write. -/
structure Span where
  write : Bool
  va    : Int
  len   : Nat
deriving DecidableEq, Repr

abbrev Held := List (Nat × Word × Word)

/-- The page that a probed access adds to those held. -/
def addHeld (h : Held) (va : Word) (a : Acc) : Held :=
  let page := va.toNat / 65536
  if h.any (fun e => e.1 = page) then h
  else
    let w := leafWords a.leaf (a.pa / 65536 * 65536)
    h ++ [(page, w.1, w.2)]

/-- One page of a span probed. -/
def State.probePage (s : State) (asid : Nat) (write : Bool) (va : Word) (h : Held) : Except Res Held :=
  let info := if write then 5 else 2
  match s.coreTranslate asid (if write then .write else .read) va with
  | .ok a => .ok (addHeld h va a)
  | .denied => .error (s.fault 0x05 info va)
  | .none none => .error (s.fault 0x04 info va)
  | .none (some pa) => .error (.trap (s.trapOf 0x04 info va) [pa])
  | .noMemory pa => .error (.stop (.noMemory pa))
  | .stall pa => .error (.wait (.region pa))

/-- The addresses at which a span enters each of its pages. -/
def pageStarts (va len : Nat) : List Nat :=
  (List.range ((va % 65536 + len - 1) / 65536 + 1)).map fun i =>
    if i = 0 then va else (va / 65536 + i) * 65536

/-- The 64-bit address of an offset sum. -/
def wrapAddr (x : Int) : Nat := wrapNat 64 x

def State.probeSpan (s : State) (asid : Nat) (sp : Span) (h : Held) : Except Res Held :=
  (pageStarts (wrapAddr sp.va) sp.len).foldl (fun acc va =>
    match acc with
    | .error r => .error r
    | .ok h => s.probePage asid sp.write (BitVec.ofNat 64 va) h) (.ok h)

/-- The device-memory spans of unit i of a command, source before destination. -/
def cmdSpans (k : XKind) (d : List Word) (index : List Int) (i : Nat) : List Span :=
  let src := dSrc d
  let dst := dDst d
  let es := dLen d
  let x := index.getD i 0
  let rd (va : Int) (n : Nat) : List Span := if src.kind = 0 then [⟨false, va, n⟩] else []
  let wr (va : Int) (n : Nat) : List Span := if dst.kind = 0 then [⟨true, va, n⟩] else []
  match k with
  | .copy => rd (src.base + runOffset d (dSs d) i) es ++ wr (dst.base + runOffset d (dDs d) i) es
  | .gath => rd (alignInt (src.base + x * dSs d 1) es) es ++ wr (dst.base + (i * es : Nat)) es
  | .scat => rd (src.base + (i * es : Nat)) es ++ wr (alignInt (dst.base + x * dDs d 1) es) es
  | .wstr => [⟨false, if d3 d 53 1 = 0 then alignInt src.base 64 else src.base, es⟩]
  | .hist => wr dst.base es
  | _ => []

/-- How many units a command's probe has. -/
def cmdUnits (k : XKind) (d : List Word) : Nat :=
  match k with
  | .copy => dRuns d
  | .gath => dCnt d 1
  | .scat => dCnt d 1
  | _ => 1

/-- Spans probed in order. -/
def State.probeAll (s : State) (asid : Nat) : List Span → Held → Except Res Held
  | [], h => .ok h
  | x :: t, h =>
    match s.probeSpan asid x h with
    | .error r => .error r
    | .ok h => probeAll s asid t h

/-- Units probed in traversal order, n of them from i on. -/
def State.probeUnits (s : State) (asid : Nat) (f : Nat → List Span) : Nat → Nat → Held → Except Res Held
  | 0, _, h => .ok h
  | n + 1, i, h =>
    match s.probeAll asid (f i) h with
    | .error r => .error r
    | .ok h => probeUnits s asid f n (i + 1) h

/-! ## What a transfer reads and writes -/

/-- The agent that a transfer is (R229). -/
def Xfer.agent (x : Xfer) (core : Nat) : Agent :=
  if x.kind = .cbind then .collective core x.fw x.chan x.ident else .engine core x.fw x.chan x.ident

/-- The tag in flits of a channel, of its copy engines or of the collective engine. -/
def engTag (core : Nat) (x : Xfer) : Nat :=
  (if x.kind = .cbind then 3 * 2 ^ 14 else 2 ^ 15) + core + (if x.fw then 256 else 0) + 512 * x.chan

/-- The access that a held translation gives. -/
def Xfer.acc (x : Xfer) (va : Nat) : Option Acc :=
  match x.held.find? fun e => e.1 = va / 65536 with
  | some e =>
    let l := leafOf e.2.1 e.2.2
    some ⟨l.frame + va % 65536, l⟩
  | none => none

/-- The transfer's entry in its core replaced. -/
def State.setXfer (s : State) (core : Nat) (x : Xfer) : State :=
  let k := s.core core
  s.setCore core { k with xfers := k.xfers.map fun y =>
    if y.fw = x.fw ∧ y.chan = x.chan ∧ y.ident = x.ident then x else y }

def State.findXfer (s : State) (core : Nat) (fw : Bool) (chan ident : Nat) : Option Xfer :=
  (s.core core).xfers.find? fun y => y.fw = fw ∧ y.chan = chan ∧ y.ident = ident

/-- The state from which a transfer reads a row, once the row is not being loaded (R332) and the operations that its
issuer had posted to it have been performed or have left (R214). -/
def State.engReady (s : State) (core : Nat) (x : Xfer) (acc : Acc) : Option State :=
  let a : Agent := .context core x.fw
  if s.isRemote acc then
    if s.mem.ways.any fun p => p.by_ == a && p.page == acc.page && p.away && !p.sent && decide (p.born < x.born) then none
    else some s
  else if s.mem.stalls acc.pa then none
  else s.drain a (fun p => !p.away && p.row == acc.row && decide (p.born < x.born)) false

/-- A row of device memory read by a transfer, and whether it is poisoned; nothing while a remote home has
not answered. -/
def State.engRow (s : State) (core : Nat) (x : Xfer) (va : Nat) : Option (Row × Bool × State) :=
  match x.acc va with
  | none => some (0, false, s)
  | some acc =>
    if s.isRemote acc then
      (x.answers.find? fun e => e.1 = acc.key).map fun e =>
        (s.mem.decipher acc.leaf.ek acc.row e.2, x.answers.any fun e => e.1 = poisonKey acc.key, s)
    else
      match s.engReady core x acc with
      | none => none
      | some s1 => some (s1.load (x.agent core) acc s1.iss.pick)

/-- The request for a remote row, sent once. -/
def State.engAsk (s : State) (core : Nat) (x : Xfer) (va : Nat) : State :=
  match x.acc va with
  | none => s
  | some acc =>
    if s.isRemote acc = false ∨ x.asked.contains acc.key = true ∨
        x.answers.any (fun e => e.1 = acc.key) = true ∨ s.engReady core x acc = none then s
    else
      (s.sendFlit acc.leaf.home 1 ((acc.readFlit (engTag core x)).forRank x.vrank)).setXfer core { x with asked := acc.key :: x.asked }

/-- The offset of a side's byte: an address, or a scratchpad offset. -/
def State.sideByte (s : State) (core : Nat) (sd : Side) (off : Int) : Nat :=
  if sd.kind = 0 then wrapAddr (sd.base + off)
  else if sd.kind = 2 then (64 * (((s.core core).px.tile sd.tile).first : Int) + sd.base + off).toNat
  else (sd.base + off).toNat

/-- A row of a side: its bits, and the place of its poison, a physical row or a scratchpad offset. -/
def State.sideRow (s : State) (core : Nat) (x : Xfer) (sd : Side) (a : Nat) :
    Option (Row × Option Nat × State) :=
  if sd.kind = 0 then
    (s.engRow core x a).map fun r =>
      (r.1, if r.2.1 then (x.acc a).map (fun acc => acc.row * 64) else none, r.2.2)
  else
    let p := (s.core core).sp
    some (p.row (a / 64), if p.bad.contains (a / 64) then some (a / 64 * 64) else none, s)

/-- At most 64 consecutive bytes of a side. -/
def State.sideRead (s : State) (core : Nat) (x : Xfer) (sd : Side) (a n : Nat) :
    Option (List Nat × Option Nat × State) :=
  let n1 := min n (64 - a % 64)
  match s.sideRow core x sd a with
  | none => none
  | some r =>
    let b1 := (List.range n1).map fun i => rowByte r.1 (a % 64 + i)
    if n1 = n then some (b1, r.2.1, r.2.2)
    else
      match r.2.2.sideRow core x sd (a + n1) with
      | none => none
      | some q =>
        let b2 := (List.range (n - n1)).map fun i => rowByte q.1 i
        some (b1 ++ b2, if r.2.1.isSome then r.2.1 else q.2.1, q.2.2)

/-- The bits of consecutive bytes from byte o of a row, laid over it. -/
def overBytes (old : Row) (o : Nat) (b : List Nat) : Row :=
  overlay old (ofLanes 8 b <<< (8 * o)) (ofLanes 8 (b.map fun _ => 255) <<< (8 * o))

/-- What a transfer writes of one row: the bits under the mask. -/
structure Patch where
  val  : Row := 0
  mask : Row := 0
deriving DecidableEq, Repr

/-- More bytes of the row, over those before. -/
def Patch.add (p : Patch) (o : Nat) (b : List Nat) : Patch :=
  ⟨overBytes p.val o b, overBytes p.mask o (b.map fun _ => 255)⟩

/-- A whole row. -/
def Patch.row (v : Row) : Patch := ⟨v, ~~~0⟩

def Patch.over (p : Patch) (old : Row) : Row := overlay old p.val p.mask

/-- The same bytes, all zero. -/
def Patch.zero (p : Patch) : Patch := ⟨0, p.mask⟩

/-- Bytes of one device-memory row written by a transfer (R215, R217, R231, R394): nothing while the row is being loaded. A
part of a row of another module is merged into it there, whose poison it leaves (R142). -/
def State.engStore (s : State) (core : Nat) (x : Xfer) (va : Nat) (b : Patch) (poison : Bool) :
    Option (Xfer × State) :=
  match x.acc va with
  | none => some (x, s)
  | some acc =>
    let whole := b.mask == ~~~0
    if s.isRemote acc then
      let durable := x.rl && x.sc == 11
      some ({ x with posted := x.posted + 1 },
        if whole || poison then
          (s.flushPubs (x.agent core)).sendFlit acc.leaf.home 1
            (((s.rowFlit acc (if poison then 2 else 0) (engTag core x) b.val).durable durable).forRank x.vrank)
        else s.sendPart (x.agent core) acc b.val b.mask (engTag core x) durable)
    else if s.mem.stalls acc.pa then none
    else if !whole && s.mem.bad.contains acc.row then
      some (x, s.dropReport acc.row (x.agent core))
    else
      let s1 := s.store (x.agent core) acc (if whole then b.val else b.over (s.peek acc))
      some (x, if poison then { s1 with mem := { s1.mem with bad := insertNat s1.mem.bad acc.row } } else s1)

/-- Bytes of one scratchpad row written by a transfer, with its full mark (R217). -/
def State.engFill (s : State) (core : Nat) (x : Xfer) (i : Nat) (b : Patch) (full : Bool) : State :=
  let k := s.core core
  let p := { k.sp with rows := Tab.put k.sp.rows i (b.over (k.sp.row i)),
                       bad := if b.mask = ~~~0 then removeNat k.sp.bad i else k.sp.bad }
  s.setCore core { k with sp := if full then (p.setFull i true).mark i (x.agent core) else p }

/-- A tile's count of rows that have landed (R259). -/
def State.landRow (s : State) (core : Nat) (t : Nat) : State :=
  let k := s.core core
  let e := k.px.tile t
  s.setCore core { k with px := { k.px with
    tiles := Tab.put k.px.tiles t { e with vr := min e.rows (e.vr + 1) } } }

/-- The elements of moved bytes, each byte with its place among those that the transfer moves, counted into the histogram
store (R217) once they are whole, and the bytes left over.
Log 30: DEDUCED, unsafe. -/
def State.countHist (s : State) (core : Nat) (x : Xfer) (b : List (Nat × Nat)) : Xfer × State :=
  if dHasHist x.desc then
    let es := histBytes x.desc
    let l := x.carry ++ b
    let elem (k : Nat) : List Nat := (List.range es).filterMap fun i => (l.find? fun e => e.1 = k * es + i).map fun e => e.2
    let whole := ((l.map fun e => e.1 / es).dedup).filter fun k => (elem k).length = es
    let vals := whole.map fun k => lanesNat 8 (elem k)
    let k := s.core core
    ({ x with carry := l.filter fun e => !whole.contains (e.1 / es) },
     s.setCore core { k with px := { k.px with hist := histCount (d3 x.desc 18 4) k.px.hist vals } })
  else (x, s)

/-- Bytes of one destination row, written in one step (R215, R217); `done` says that they end the row. -/
def State.sideWrite (s : State) (core : Nat) (x : Xfer) (sd : Side) (a : Nat) (b : Patch) (poison : Option Nat)
    (done : Bool) : Option (Xfer × State) :=
  if sd.kind = 0 then s.engStore core x a b poison.isSome
  else
    let s1 := s.engFill core x (a / 64) (if poison.isSome then b.zero else b) (dHasFull x.desc)
    let s2 := if sd.kind = 2 ∧ done = true then s1.landRow core sd.tile else s1
    some (x, match poison with
      | some p => s2.raiseMc (coreReport 0x03 core (BitVec.ofNat 64 p) (BitVec.ofNat 64 x.ident))
      | none => s2)

/-! ## Moving -/

/-- The next piece of a transfer: where it is read from and written to, and its length (R215, R218). -/
structure Piece where
  src : Int
  dst : Int
  len : Nat
deriving DecidableEq, Repr

/-- Log 29: DESIGN CHOICE, unsafe. -/
def State.pieceAt (s : State) (core : Nat) (x : Xfer) (pos : Nat) : Piece :=
  let d := x.desc
  let es := dLen d
  let i := pos / es
  let b := pos % es
  let o : Int := match x.kind with
    | .gath => (i * es : Nat)
    | .scat => alignInt ((dDst d).base + x.index.getD i 0 * dDs d 1) es - (dDst d).base
    | .hist => 0
    | _ => runOffset d (dDs d) i
  let f : Int := match x.kind with
    | .gath => alignInt ((dSrc d).base + x.index.getD i 0 * dSs d 1) es - (dSrc d).base
    | .scat => (i * es : Nat)
    | .hist => 0
    | _ => runOffset d (dSs d) i
  ⟨f + (b : Nat), o + (b : Nat), min (es - b) (64 - s.sideByte core (dDst d) (o + (b : Nat)) % 64)⟩

/-- Bytes of the histogram as read at issue (R225).
Log 30: DEDUCED, unsafe. -/
def histData (x : Xfer) (lo n : Nat) : List Nat :=
  (List.range n).map fun i => rowByte (x.data.getD ((lo + i) / 64) 0) ((lo + i) % 64)

/-- The rows of remote homes that a piece reads are asked for. -/
def State.askPiece (s : State) (core : Nat) (x : Xfer) (p : Piece) : State :=
  let sd := dSrc x.desc
  let at_ : List Nat :=
    if sd.kind = 0 ∧ x.kind ≠ .hist then [s.sideByte core sd p.src, s.sideByte core sd p.src + p.len - 1] else []
  at_.foldl (fun s va =>
    match s.findXfer core x.fw x.chan x.ident with
    | some y => s.engAsk core y va
    | none => s) s

/-- The pieces of a transfer in the order of its traversal, from a position on, each with its position. -/
def State.piecesFrom (s : State) (core : Nat) (x : Xfer) : Nat → Nat → List (Nat × Piece)
  | 0, _ => []
  | n + 1, pos =>
    if x.total ≤ pos then []
    else
      let p := s.pieceAt core x pos
      (pos, p) :: s.piecesFrom core x n (pos + max 1 p.len)

/-- The destination row in which a piece falls. -/
def State.pieceRow (s : State) (core : Nat) (x : Xfer) (p : Piece) : Nat := s.sideByte core (dDst x.desc) p.dst / 64

/-- What a transfer moves next in one atomic step, and the position that comes after: of a gather or a scatter the next element
(R218); of a copy or a histogram every piece of the next destination row (R215), after which come the rows that have not been
written yet.
Log 29: DESIGN CHOICE, unsafe. -/
def State.batchOf (s : State) (core : Nat) (x : Xfer) : List (Nat × Piece) × Nat :=
  if x.kind = .gath ∨ x.kind = .scat then
    let i := x.pos / dLen x.desc
    ((s.piecesFrom core x (dLen x.desc) x.pos).filter fun e => e.1 / dLen x.desc = i, (i + 1) * dLen x.desc)
  else
    let row (e : Nat × Piece) : Nat := s.pieceRow core x e.2
    let l := s.piecesFrom core x x.total 0
    let todo := l.filter fun e => x.pos ≤ e.1
    match todo.head? with
    | none => ([], x.total)
    | some e =>
      let written := (l.filter fun q => q.1 ≤ e.1).map row
      (todo.filter fun q => row q = row e, ((todo.find? fun q => !written.contains (row q)).map fun q => q.1).getD x.total)

/-- What a transfer writes next: of each destination row the bytes of its pieces, with the bytes moved and their positions, and
the place of a poisoned one. -/
structure Batch where
  rows   : List (Nat × Patch) := []
  bytes  : List (Nat × Nat) := []
  poison : Option Nat := none
deriving DecidableEq, Repr

/-- One more piece in a batch. -/
def Batch.add (b : Batch) (pos row o : Nat) (l : List Nat) (poison : Option Nat) : Batch :=
  let old := ((b.rows.find? fun e => e.1 = row).map fun e => e.2).getD {}
  { rows := (b.rows.filter fun e => e.1 ≠ row) ++ [(row, old.add o l)],
    bytes := b.bytes ++ l.zipIdx.map fun e => (pos + e.2, e.1), poison := b.poison.or poison }

/-- The pieces read one by one; one whose source is not yet known is named instead. -/
def State.readBatch (s : State) (core : Nat) (x : Xfer) : List (Nat × Piece) → Batch → Except Piece (Batch × State)
  | [], b => .ok (b, s)
  | (pos, p) :: l, b =>
    let a := s.sideByte core (dDst x.desc) p.dst
    let read := if x.kind = .hist then some (histData x pos p.len, none, s)
      else s.sideRead core x (dSrc x.desc) (s.sideByte core (dSrc x.desc) p.src) p.len
    match read with
    | none => .error p
    | some r => r.2.2.readBatch core x l (b.add pos (a / 64) (a % 64) r.1 r.2.1)

/-- The rows of a batch written; nothing while one of them is being loaded. `done` says that they end their rows. -/
def State.writeBatch (core : Nat) (sd : Side) (poison : Option Nat) (done : Bool) :
    List (Nat × Patch) → Xfer → State → Option (Xfer × State)
  | [], x, s => some (x, s)
  | (row, p) :: l, x, s =>
    match s.sideWrite core x sd (row * 64) p poison (done || p.mask.getLsbD 511) with
    | none => none
    | some w => writeBatch core sd poison done l w.1 w.2

/-- The next row of a copy or a histogram, or the next element of a gather or a scatter, moved (R215, R217, R218, R225). Bytes
that a poisoned source leaves zero in a scratchpad are counted as zero.
Log 29: DESIGN CHOICE, unsafe. -/
def State.movePiece (s : State) (core : Nat) (x : Xfer) : State :=
  if x.total ≤ x.pos then s
  else
    let dst := dDst x.desc
    let n := s.batchOf core x
    match s.readBatch core x n.1 {} with
    | .error q => s.askPiece core x q
    | .ok (b, s1) =>
      let done := n.2 == x.total || !(x.kind == .gath || x.kind == .scat)
      match State.writeBatch core dst b.poison done b.rows x s1 with
      | none => s
      | some w =>
        let h := w.2.countHist core w.1
          (if b.poison.isSome && dst.kind != 0 then b.bytes.map fun e => (e.1, 0) else b.bytes)
        h.2.setXfer core { h.1 with pos := n.2, wrote := true, answers := [], asked := [] }

/-! ## Completion (R209, R210) -/

/-- The watermark raised over the run of completed identifiers (R209). -/
def raiseMark : Nat → Word → List Nat → Word × List Nat
  | 0, tw, l => (tw, l)
  | n + 1, tw, l =>
    if l.contains (tw + 1).toNat then raiseMark n (tw + 1) (removeNat l (tw + 1).toNat) else (tw, l)

/-- A channel with an identifier completed. -/
def Chan.complete (ch : Chan) (ident : Nat) : Chan :=
  let l := insertNat ch.done ident
  let r := raiseMark l.length ch.tw l
  { ch with tw := r.1, done := r.2 }

/-- The condition of a channel wait (R220). -/
def Chan.waitDone (ch : Chan) (target : Word) (count : Bool) : Bool :=
  if count then decide ((ch.iss - ch.tw).toNat ≤ target.toNat) else decide (target.toNat ≤ ch.tw.toNat)

/-- A pinned strand that suspended on a channel wait is made ready by its core when the condition becomes
true (R291).
Log 59: DEDUCED, safe. -/
def State.wakeStrand (s : State) (core : Nat) : State :=
  let k := s.core core
  match k.strand with
  | some t =>
    match t.wake with
    | some w =>
      if (Tab.get {} k.prog.chans w.1).waitDone w.2.1 w.2.2 then
        let s1 := s.setCore core { k with strand := some { t with wake := none } }
        s1.makeReady (core / 50) t.asid t.rcb t.record
      else s
    | none => s
  | none => s

/-- An identifier completed on a channel of a context, before the triggers that it makes due have fired. -/
def State.endId (s : State) (core : Nat) (fw : Bool) (chan ident : Nat) : State :=
  let k := s.core core
  let c := k.ctx fw
  let ch := (Tab.get {} c.chans chan).complete ident
  (s.setCore core (k.setCtx fw { c with chans := Tab.put c.chans chan ch })).wakeStrand core

/-- An engine's arrival at its barrier word (R139, R217). -/
def State.engArrive (s : State) (core : Nat) (x : Xfer) : State :=
  if dHasArrival x.desc then
    let o := dBarrier x.desc
    let i := o / 64
    let j := o / 8 % 8
    let k := s.core core
    if k.sp.bad.contains i then
      s.raiseMc (coreReport 0x14 core (BitVec.ofNat 64 o) (BitVec.ofNat 64 x.ident))
    else
      let p := { k.sp with marks := k.sp.marks ++ [(2 ^ 20 + (8 * i + j), x.agent core)] }
      s.setCore core { k with sp := p.arrive i j 1 }
  else s

/-- A tile made ready by an engine, with the firing of its binding (R216, R261). -/
def State.tileReady (s : State) (core : Nat) (x : Xfer) (t vr : Nat) : State :=
  let k := s.core core
  let e := k.px.tile t
  let s1 := s.setCore core
    { k with px := k.px.setTile t .ready vr, sp := k.sp.mark (2 ^ 22 + t) (x.agent core) }
  if e.bnd then s1.fireTile core t else s1

/-- The final tile states of a transfer (R216, R261). -/
def State.engTiles (s : State) (core : Nat) (x : Xfer) : State :=
  let d := x.desc
  let s1 :=
    if x.kind = .wstr ∨ (dDst d).kind ≠ 2 then s
    else s.tileReady core x (dDst d).tile ((s.core core).px.tile (dDst d).tile).rows
  if (x.kind = .copy ∨ x.kind = .scat) ∧ (dSrc d).kind = 2 then
    let k := s1.core core
    s1.setCore core { k with px := k.px.setTile (dSrc d).tile .empty 0 }
  else s1

/-- The transfer no longer outstanding. -/
def State.dropXfer (s : State) (core : Nat) (x : Xfer) : State :=
  let k := s.core core
  s.setCore core { k with xfers := k.xfers.filter fun y =>
    !(y.fw = x.fw ∧ y.chan = x.chan ∧ y.ident = x.ident) }

/-! ## Start -/

/-- The tile states that a command sets as it starts (R216). -/
def State.startTiles (s : State) (core : Nat) (x : Xfer) : State :=
  let d := x.desc
  let k := s.core core
  if x.kind = .wstr then s
  else
    let y := if (dDst d).kind = 2 then k.px.setTile (dDst d).tile .filling 0 else k.px
    let z :=
      if (x.kind = .copy ∨ x.kind = .scat) ∧ (dSrc d).kind = 2 then
        y.setTile (dSrc d).tile .draining (y.tile (dSrc d).tile).vr
      else y
    s.setCore core { k with px := z }

/-- The tiles on which a command is outstanding from its start. -/
def cmdTiles (k : XKind) (d : List Word) : List Nat :=
  if k = .wstr then []
  else (if (dDst d).kind = 2 then [(dDst d).tile] else []) ++
    (if (k = .copy ∨ k = .scat) ∧ (dSrc d).kind = 2 then [(dSrc d).tile] else [])

/-- A transfer begun: its tiles, its acquire (R214), and the view that it shares with its issuer (R242). -/
def State.startXfer (s : State) (core : Nat) (x : Xfer) : State :=
  let issuer : Agent := .context core x.fw
  let s1 := (s.shareView issuer (x.agent core)).startTiles core x
  let s2 := if x.aq then s1.snapshot (x.agent core) issuer x.sc else s1
  let k := s2.core core
  s2.setCore core { k with xfers := k.xfers ++ [x] }

/-! ## Triggers (R221, R222) -/

/-- Pending triggers in firing order: by threshold, then by issue.
Log 34: DEDUCED, unsafe. -/
def insertTrig : List Trig → Trig → List Trig
  | [], e => [e]
  | x :: t, e => if e.thr.toNat < x.thr.toNat then e :: x :: t else x :: insertTrig t e

/-- The transfers of a channel up to an identifier observed by an agent (R242).
Log 34: DEDUCED, unsafe. -/
def State.observeUpTo (s : State) (core : Nat) (fw : Bool) (chan upto : Nat) (a : Agent) : State :=
  s.mapLog fun w =>
    match w.by_ with
    | .engine c f h i => if c = core ∧ f = fw ∧ h = chan ∧ i ≤ upto then w.addView a else w
    | .collective c f h i => if c = core ∧ f = fw ∧ h = chan ∧ i ≤ upto then w.addView a else w
    | _ => w

/-- A trigger fired: its command runs, is refused by a quiesce (R228), or is cancelled because a tile side is
in the wrong state (R221).
Log 34: DEDUCED, unsafe. -/
def State.fire (s : State) (core : Nat) (chan : Nat) (t : Trig) : State :=
  let x := t.x
  if s.quiescing x.asid then s.endId core x.fw x.chan x.ident
  else
    let here := { s with iss := { s.iss with core := core, fw := x.fw } }
    match here.tileBad x.kind true x.desc with
    | some _ =>
      (s.endId core x.fw x.chan x.ident).raiseMc
        (coreReport 0x15 core 0 (BitVec.ofNat 64 x.ident))
    | none =>
      let a := x.agent core
      let issuer : Agent := .context core x.fw
      let s1 := (s.observeUpTo core x.fw chan t.thr.toNat a).startTiles core x
      let s2 := if x.aq then s1.snapshot a issuer x.sc else s1
      let k := s2.core core
      s2.setCore core { k with xfers := k.xfers ++ [x] }

/-- The first pending trigger of a channel fired, if its threshold is reached.
Log 34: DEDUCED, unsafe. -/
def State.fireFirst (s : State) (core : Nat) (fw : Bool) (chan : Nat) : State :=
  let k := s.core core
  let c := k.ctx fw
  let ch := Tab.get {} c.chans chan
  match ch.trigs with
  | t :: rest =>
    if t.thr.toNat ≤ ch.tw.toNat then
      (s.setCore core (k.setCtx fw { c with chans := Tab.put c.chans chan { ch with trigs := rest } })).fire
        core chan t
    else s
  | [] => s

/-- Whether the first pending trigger of a channel has reached its threshold (R222). -/
def Chan.due (ch : Chan) : Bool :=
  match ch.trigs with
  | t :: _ => decide (t.thr.toNat ≤ ch.tw.toNat)
  | [] => false

/-- Every trigger of a context that is due fired, in the cycle in which it becomes so (R270): none waits for a later
bundle or for the end of a channel wait. -/
def State.fireDue (core : Nat) (fw : Bool) : Nat → State → State
  | 0, s => s
  | n + 1, s =>
    match ((s.core core).ctx fw).chans.find? fun e => e.2.due with
    | some e => fireDue core fw n (s.fireFirst core fw e.1)
    | none => s

/-- The triggers that are due at a context fired. -/
def State.fireAll (s : State) (core : Nat) (fw : Bool) : State :=
  s.fireDue core fw (((s.core core).ctx fw).chans.foldl (fun n e => n + e.2.trigs.length) 0)

/-- An identifier completed on a channel of a context (R209), with the triggers that it makes due (R270). -/
def State.completeId (s : State) (core : Nat) (fw : Bool) (chan ident : Nat) : State :=
  (s.endId core fw chan ident).fireAll core fw

/-- The completion of a transfer whose writes have all landed (R210). -/
def State.completeXfer (s : State) (core : Nat) (x : Xfer) : State :=
  let s1 := (s.engArrive core x).engTiles core x
  let s2 := if x.rl then s1.publish (x.agent core) (.context core x.fw) x.sc else s1
  (s2.dropXfer core x).completeId core x.fw x.chan x.ident

/-! ## The weight stream (R265 to R268) -/

/-- The tile at the tail of a stream's ring. -/
def State.tailTile (s : State) (core : Nat) (x : Xfer) : Nat :=
  let q := (s.core core).px.ring (d3 x.desc 46 3)
  Tab.get 0 q.pos q.tl

/-- Whether a transfer drew its identifier before another of its context did: on one channel by identifier, on two by the cycle
of issue; those restored from an image together, by channel.
Log 32: DEDUCED, unsafe. -/
def Xfer.drawnBefore (y x : Xfer) : Bool :=
  if y.chan = x.chan then decide (y.ident < x.ident)
  else decide (y.born < x.born) || (y.born == x.born && decide (y.chan < x.chan))

/-- Whether every earlier stream of the context into the ring has completed, those of pending triggers among them
(R268). -/
def State.streamFirst (s : State) (core : Nat) (x : Xfer) : Bool :=
  let k := s.core core
  let same (y : Xfer) : Bool :=
    y.kind == .wstr && y.fw == x.fw && d3 y.desc 46 3 == d3 x.desc 46 3 && y.drawnBefore x
  !(k.xfers.any same || (k.ctx x.fw).chans.any fun c => c.2.trigs.any fun t => same t.x)

/-- A stream starts the tile at the tail of its ring, once that tile is empty (R265).
Log 145: DESIGN CHOICE, unsafe. -/
def State.startTile (s : State) (core : Nat) (x : Xfer) : State :=
  let t := s.tailTile core x
  let k := s.core core
  if x.kind = .wstr ∧ x.tiles = [] ∧ x.pos < x.total ∧ (k.px.tile t).st = .empty ∧
      s.streamFirst core x = true then
    (s.setCore core { k with px := k.px.setTile t .filling 0 }).setXfer core { x with tiles := [t] }
  else s

/-- Consecutive bytes of device memory read by a transfer, any number of them, with the first poisoned
address; nothing while a remote row is missing. -/
def State.engBytes (s : State) (core : Nat) (x : Xfer) : Nat → Nat → Nat → List Nat →
    Option (List Nat × Bool × State)
  | 0, _, _, acc => some (acc, false, s)
  | fuel + 1, va, n, acc =>
    if n = 0 then some (acc, false, s)
    else
      match s.engRow core x va with
      | none => none
      | some r =>
        let m := min n (64 - va % 64)
        let b := (List.range m).map fun i => rowByte r.1 (va % 64 + i)
        match r.2.2.engBytes core x fuel (va + m) (n - m) (acc ++ b) with
        | none => none
        | some q => some (q.1, r.2.1 || q.2.1, q.2.2)

/-- The 64 bytes of a coded plane, from its tokens (R266), or nothing if they are in error. -/
def decodeTokens : Nat → List Nat → List Nat → Option (List Nat)
  | 0, _, _ => none
  | n + 1, l, out =>
    match l with
    | [] => if out.length = 64 then some out else none
    | t :: rest =>
      let k := t % 64 + 1
      if t / 64 % 2 = 1 ∨ 64 < out.length + k then none
      else if 128 ≤ t then decodeTokens n rest (out ++ List.replicate k 0)
      else if rest.length < k then none
      else decodeTokens n (rest.drop k) (out ++ rest.take k)

/-- The planes that a stream reads of each block: p of them, and plane p when wr is set (R219). -/
def planesRead (d : List Word) : Nat := d3 d 49 4 + 1 + d3 d 42 1

/-- The planes of a coded block whose bytes follow its header. -/
def decodePlanes : Nat → List Nat → List Nat → Option (List (List Nat))
  | 0, _, _ => some []
  | n + 1, ls, b =>
    match ls with
    | [] => none
    | L :: t =>
      match decodeTokens 66 (b.take L) [] with
      | none => none
      | some p => (decodePlanes n t (b.drop L)).map fun q => p :: q

/-- The element i that plane rows make (R265 step 3). -/
def planeElem (d : List Word) (planes : List (List Nat)) (i : Nat) : Nat :=
  let bit (j : Nat) : Nat := (planes.getD j []).getD (i / 8) 0 / 2 ^ (i % 8) % 2
  let p := d3 d 49 4 + 1
  let base := (List.range p).foldl (fun v j => v + bit j * 2 ^ (7 - j)) 0
  if d3 d 42 1 = 1 ∧ p < 8 then base + bit p * 2 ^ (7 - p) else base

/-- The w rows of a block in slot form (R265 step 4). -/
def slotRows (d : List Word) (planes : List (List Nat)) : List Row :=
  let w := wsBits d
  let n := 512 / w
  (List.range w).map fun r => ofLanes w ((List.range n).map fun i =>
    let e := if d3 d 43 1 = 1 then r * n + (n - 1 - i) else r * n + i
    wrapNat w (signNat (planeElem d planes e) 8))

/-- A block as read: its rows, its coded length, whether it is in error and whether that is poison. -/
structure Block where
  rows : List Row
  len  : Nat
  bad  : Bool
  poison : Bool
deriving DecidableEq, Repr

/-- A plain block at an address. -/
def State.plainBlock (s : State) (core : Nat) (x : Xfer) (va : Nat) : Option (Block × State) :=
  match s.engBytes core x 9 va (64 * planesRead x.desc) [] with
  | none => none
  | some r =>
    let planes := (List.range (planesRead x.desc)).map fun j => (r.1.drop (64 * j)).take 64
    some (⟨slotRows x.desc planes, 512, r.2.1, r.2.1⟩, r.2.2)

/-- A coded block at an address, with the bytes left of the stream and whether it is the last (R266, R267).
Log 146: DEDUCED, unsafe. -/
def State.codedBlock (s : State) (core : Nat) (x : Xfer) (va left : Nat) (last : Bool) :
    Option (Block × State) :=
  if left < 16 then some (⟨[], left, true, false⟩, s)
  else
    match s.engBytes core x 2 va 16 [] with
    | none => none
    | some h =>
      let ls := (List.range 8).map fun j => h.1.getD (2 * j) 0 + 256 * h.1.getD (2 * j + 1) 0
      let sum := ls.foldl (· + ·) 0
      if h.2.1 then some (⟨[], left, true, true⟩, h.2.2)
      else if ls.any (fun L => L < 1 || 65 < L) || (if last then left != 16 + sum else decide (left < 16 + sum))
      then some (⟨[], left, true, false⟩, h.2.2)
      else
        match h.2.2.engBytes core x 10 (va + 16) sum [] with
        | none => none
        | some r =>
          if r.2.1 then some (⟨[], left, true, true⟩, r.2.2)
          else
            match decodePlanes (planesRead x.desc) ls r.1 with
            | none => some (⟨[], left, true, false⟩, r.2.2)
            | some planes => some (⟨slotRows x.desc planes, 16 + sum, false, false⟩, r.2.2)

/-- The offset at which a stream's present block lies. -/
def Xfer.blockAt (x : Xfer) : Nat := (x.index.getD 0 0).toNat

/-- The address of block b of a stream: of a plain one the low six bits of src are ignored (R265, R266). -/
def Xfer.blockVa (x : Xfer) (b : Nat) : Nat :=
  let src := (dw x.desc 0).toNat
  wrapAddr ((if d3 x.desc 53 1 = 0 then src / 64 * 64 + 512 * b else src + x.blockAt : Nat) : Int)

/-- The block that a stream reads next. -/
def State.nextBlock (s : State) (core : Nat) (x : Xfer) : Option (Block × State) :=
  let b := x.pos / wsBits x.desc
  if d3 x.desc 53 1 = 0 then s.plainBlock core x (x.blockVa b)
  else s.codedBlock core x (x.blockVa b) (dLen x.desc - x.blockAt) (decide (b + 1 = dCnt x.desc 1))

/-- The rows of remote homes that a block may need are asked for. -/
def State.askBlock (s : State) (core : Nat) (x : Xfer) : State :=
  let va := x.blockVa (x.pos / wsBits x.desc)
  (List.range 10).foldl (fun s i =>
    match s.findXfer core x.fw x.chan x.ident with
    | some y => s.engAsk core y (wrapAddr (va + 64 * i : Nat))
    | none => s) s

/-- The next row of a stream written into the tile that it fills (R265): at the start of a block, the block
is read first; once a block is in error, every row left is zero (R267). -/
def State.moveStream (s : State) (core : Nat) (x : Xfer) : State :=
  match x.tiles with
  | [] => s
  | t :: _ =>
    let w := wsBits x.desc
    let r := x.pos % w
    let e := (s.core core).px.tile t
    if x.total ≤ x.pos ∨ e.rows / w * w ≤ e.vr then s
    else
      let put (s : State) (x : Xfer) : State :=
        let v := if x.bad then 0 else x.data.getD r 0
        let h := (s.engFill core x (e.first + e.vr) (.row v) false).countHist core x
          ((rowBytes v).zipIdx.map fun e => (64 * x.pos + e.2, e.1))
        (h.2.landRow core t).setXfer core { h.1 with pos := x.pos + 1, wrote := true }
      if r = 0 ∧ x.bad = false then
        match s.nextBlock core x with
        | none => s.askBlock core x
        | some b =>
          let y := { x with data := b.1.rows, bad := b.1.bad, asked := [], answers := [],
                            index := [((x.blockAt + b.1.len : Nat) : Int)] }
          let s1 :=
            if b.1.bad then
              b.2.raiseMc (coreReport 0x04 core (BitVec.ofNat 64 (x.blockVa (x.pos / w))) (if b.1.poison then 0 else 1))
            else b.2
          put s1 y
      else put s x

/-- A stream ends the tile that it fills: ready with the rows written (R265). -/
def State.endTile (s : State) (core : Nat) (x : Xfer) : State :=
  match x.tiles with
  | [] => s
  | t :: _ =>
    let w := wsBits x.desc
    let e := (s.core core).px.tile t
    if x.kind = .wstr ∧ (x.total ≤ x.pos ∨ e.rows / w * w ≤ e.vr) then
      (s.tileReady core x t e.vr).setXfer core { x with tiles := [] }
    else s

end Sys2Proof.Machine
end

