-- ==== Sys2Proof/Machine/Engine.lean ====
section
/-! DEFINITION. The G slot's engine, channel and queue instructions (R208 to R225, R338). -/

namespace Sys2Proof.Machine

/-! ## Issue of a command -/

/-- The 16 words of the descriptor at an offset (R211).
Log 144: DEDUCED, unsafe. -/
def State.readDesc (s : State) (off : Word) : Except Res (List Word) :=
  match s.spRange off with
  | .error r => .error r
  | .ok i =>
    match s.spRange (BitVec.ofNat 64 (64 * (i + 1))) with
    | .error r => .error r
    | .ok j =>
      match [i, j].find? fun n => s.sp.bad.contains n with
      | some n => .error (s.fault 0x09 0 (BitVec.ofNat 64 (64 * n)))
      | none => .ok (rowWords (s.sp.row i) ++ rowWords (s.sp.row j))

/-- A little-endian number of n bytes of the scratchpad. -/
def Scratch.number (p : Scratch) (off n : Nat) : Nat :=
  lanesNat 8 ((List.range n).map fun i => rowByte (p.row ((off + i) / 64)) ((off + i) % 64))

/-- The index list of a gather or scatter (R218). -/
def Scratch.indexList (p : Scratch) (d : List Word) : List Int :=
  let off := fld (dw d 15) 0 32
  (List.range (dCnt d 1)).map fun i =>
    if d3 d 54 2 = 0 then ((p.number (off + 4 * i) 4 : Nat) : Int)
    else signNat (p.number (off + 8 * i) 8) 64

def hasIndex (k : XKind) : Bool := k == .gath || k == .scat

/-- The first poisoned row of an index list, as an offset (R211). -/
def State.indexPoison (s : State) (k : XKind) (d : List Word) : Option Nat :=
  if hasIndex k then
    let lo := fld (dw d 15) 0 32
    let hi := min (lo + indexBytes d) s.sp.part
    ((List.range ((hi + 63) / 64 - lo / 64)).map fun i => lo / 64 + i).find?
      (fun i => s.sp.bad.contains i) |>.map fun i => 64 * i
  else none

/-- A channel of the issuing context. -/
def State.chanAt (s : State) (c : Nat) : Chan := Tab.get {} s.ctx.chans c

/-- The identifier that the next command on a channel draws (R209). -/
def State.nextIdent (s : State) (c : Nat) : Nat := ((s.chanAt c).iss + 1).toNat

/-- An engine command fault (R212). -/
def State.cmdFault (s : State) (reason : Nat) (faddr : Word) : Res := s.fault 0x0A reason faddr

/-- The ASID of the issuing context's commands. -/
def State.cmdAsid (s : State) : BitVec 16 := BitVec.ofNat 16 s.ctxAsid


/-- The transfer that a command with a descriptor starts. -/
def State.newXfer (s : State) (k : XKind) (c : Nat) (d : List Word) (held : Held) (aq rl : Bool) (sc : Nat) :
    Xfer :=
  { fw := s.iss.fw, chan := c, ident := s.nextIdent c, kind := k, desc := d,
    aq := aq, rl := rl, sc := sc, asid := s.cmdAsid,
    total := if k = .wstr then dCnt d 1 * wsBits d else dTotal k d,
    index := if hasIndex k then s.sp.indexList d else [0],
    held := held, tiles := cmdTiles k d, born := s.me.cycle, vrank := s.rankOf s.agent }

/-- An identifier drawn on a channel of the issuing context, into s[d] (R209). -/
def State.drawId (s : State) (c : Nat) (d : BitVec 6) : State :=
  let ch := s.chanAt c
  let v := ch.iss + 1
  (s.setCtx { s.ctx with chans := Tab.put s.ctx.chans c { ch with iss := v } }).issueS d v 1

/-- The checks of a command with a descriptor, in the order of R212: what it would start. -/
def State.checkCmd (s : State) (k : XKind) (trig : Option (Nat × Word)) (c : Nat) (d0 : List Word)
    (faddr : Word) (aq rl : Bool) (sc : Nat) : Except Res Xfer :=
  let d := resolveDesc s.ctx d0
  match s.indexPoison k d with
  | some off => .error (s.fault 0x09 0 (BitVec.ofNat 64 off))
  | none =>
    match s.cmdReason k trig.isSome c d0 d with
    | some r => .error (s.cmdFault r faddr)
    | none =>
      let next := s.nextIdent c
      let six := match trig with
        | some t =>
          decide (32 ≤ (s.chanAt t.1).trigs.length) || (t.1 == c && decide (next ≤ t.2.toNat))
        | none => false
      if six then .error (s.cmdFault 6 faddr)
      else if k = .wstr ∧ (s.px.ring (d3 d 46 3)).nt = 0 then .error (s.cmdFault 12 faddr)
      else
        match s.tileBad k trig.isNone d with
        | some t => .error (s.fault 0x07 (tileInfo t.1 t.2) 0)
        | none =>
          let index := if hasIndex k then s.sp.indexList d else []
          match s.probeUnits s.ctxAsid (cmdSpans k d index) (cmdUnits k d) 0 [] with
          | .error r => .error r
          | .ok held => .ok (s.newXfer k c d held aq rl sc)

/-- An engine command that reads a descriptor (R209, R211 to R214, R228). -/
def State.engineCmd (s : State) (k : XKind) (c : BitVec 4) (a d : BitVec 6) (aq rl : Bool)
    (sc : BitVec 4) : Res :=
  let off := s.readS a
  if s.chanOk c.toNat = false then s.illegal 3
  else Res.andThen (s.readDesc off) fun d0 =>
    Res.andThen (s.checkCmd k none c.toNat d0 off aq rl sc.toNat) fun x =>
      let s1 := s.drawId c.toNat d
      if s.quiescing s.cmdAsid then .ok (s1.completeId s.iss.core s.iss.fw c.toNat x.ident)
      else .ok (s1.startXfer s.iss.core x)

/-- copy (R215). -/
def execCopy (g c : BitVec 4) (a d : BitVec 6) (q r : BitVec 1) (sc : BitVec 4) (s : State) :
    Host.Outcome State Fault Refusal :=
  issue g s (s.engineCmd .copy c a d (q == 1) (r == 1) sc)

/-- gath (R218). -/
def execGath (g c : BitVec 4) (a d : BitVec 6) (q r : BitVec 1) (sc : BitVec 4) (s : State) :
    Host.Outcome State Fault Refusal :=
  issue g s (s.engineCmd .gath c a d (q == 1) (r == 1) sc)

/-- scat (R218). -/
def execScat (g c : BitVec 4) (a d : BitVec 6) (q r : BitVec 1) (sc : BitVec 4) (s : State) :
    Host.Outcome State Fault Refusal :=
  issue g s (s.engineCmd .scat c a d (q == 1) (r == 1) sc)

/-- wstr (R219). -/
def execWstr (g c : BitVec 4) (a d : BitVec 6) (q : BitVec 1) (sc : BitVec 4) (s : State) :
    Host.Outcome State Fault Refusal :=
  issue g s (s.engineCmd .wstr c a d (q == 1) false sc)

/-- The histogram store as rows (R225). -/
def histRows (h : Tab (BitVec 32)) : List Row :=
  (List.range 16).map fun r => ofLanes 32 ((List.range 16).map fun i => (Tab.get 0 h (16 * r + i)).toNat)

/-- hist (R225): the store is read, and with hc cleared, at issue. -/
def execHist (g c : BitVec 4) (a d : BitVec 6) (r : BitVec 1) (sc : BitVec 4) (s : State) :
    Host.Outcome State Fault Refusal :=
  let off := s.readS a
  issue g s
    (if s.chanOk c.toNat = false then s.illegal 3
     else Res.andThen (s.readDesc off) fun d0 =>
       Res.andThen (s.checkCmd .hist none c.toNat d0 off false (r == 1) sc.toNat) fun x =>
         let s1 := s.drawId c.toNat d
         if s.quiescing s.cmdAsid then .ok (s1.completeId s.iss.core s.iss.fw c.toNat x.ident)
         else
           let y := { x with data := histRows s.px.hist }
           let s2 := if d3 x.desc 56 1 = 1 then s1.setPx { s1.px with hist := [] } else s1
           .ok (s2.startXfer s.iss.core y))

/-- trig (R221): one whose threshold is already reached fires at once (R222). -/
def execTrig (g c : BitVec 4) (a b : BitVec 6) (s : State) : Host.Outcome State Fault Refusal :=
  let off := s.readS b
  let T := s.readS a
  issue g s
    (if s.chanOk c.toNat = false then s.illegal 3
     else Res.andThen (s.readDesc off) fun d0 =>
       let tc := d2 d0 32 4
       match opKind (d3 d0 33 3) with
       | none => s.cmdFault 1 off
       | some k =>
         Res.andThen (s.checkCmd k (some (c.toNat, T)) tc d0 off (d2 d0 36 1 == 1) (d2 d0 37 1 == 1)
             (d2 d0 38 4)) fun x =>
           let s1 := (s.drawId tc 0).shareView s.agent (x.agent s.iss.core)
           let ch := s1.chanAt c.toNat
           .ok ((s1.setCtx { s1.ctx with
             chans := Tab.put s1.ctx.chans c.toNat { ch with trigs := insertTrig ch.trigs ⟨T, x⟩ } }).fireAll
               s.iss.core s.iss.fw))

/-! ## Channel waits (R220) -/

/-- Whether the issuing context runs a pinned strand. -/
def State.pinned (s : State) : Bool :=
  !s.iss.fw && match s.me.strand with
    | some t => t.pin != 0
    | none => false

/-- The blocks above a region, from its parent to the root (R283). -/
def State.regionChain (s : State) (asid : BitVec 16) (rcb : Addr) : List Addr :=
  match s.disp.regions.find? fun g => g.asid = asid ∧ g.rcb = rcb with
  | some g => g.chain.map fun e => e.1
  | none => []

/-- The rows that the hub rewrites as a strand suspends: its record, and the blocks of its region and of those above it. -/
def State.strandRows (s : State) (t : Strand) : List (BitVec 16 × Word) :=
  (t.record :: t.rcb :: s.regionChain t.asid t.rcb).map fun a => (t.asid, a.setWidth 64)

/-- The rows for the suspension of the issuing strand, where some of them are still to come from another module. -/
def State.strandWaits (s : State) : Option (List (BitVec 16 × Word)) :=
  (s.me.strand.map s.strandRows).filter fun l => !l.all fun e => s.rowReady e.1 e.2

/-- Whether a posted atomic or an ordered add of a context has not been performed yet: a suspension waits for it (R112, R150). -/
def Mem.addsOut (m : Mem) (a : Agent) : Bool :=
  (m.posted.any fun p => p.by_ == a && p.op != .store) || m.adds.any fun p => p.by_ == a

/-- The same of the issuing context. -/
def State.addsOut (s : State) : Bool := s.mem.addsOut s.agent

/-- A channel wait: its condition true, or a stall, or the suspension of a pinned strand (R291). -/
def State.channelWait (s : State) (c : Nat) (target : Word) (count susp : Bool) : Res :=
  let ch := s.chanAt c
  if s.chanOk c = false then s.illegal 3
  else if ch.waitDone target count then
    let upto := if count then ch.iss.toNat - target.toNat else target.toNat
    .ok (s.observeUpTo s.iss.core s.iss.fw c upto s.agent)
  else if susp && s.pinned then
    if s.addsOut then .wait .performed else s.strandWaits.elim (.wait (.chanSusp c target count)) fun l => .wait (.hub l)
  else .wait (.chan c target count)

/-- cwid (R220). -/
def execCwid (g c : BitVec 4) (a : BitVec 6) (u : BitVec 1) (s : State) :
    Host.Outcome State Fault Refusal :=
  issue g s (s.channelWait c.toNat (s.readS a) false (u == 1))

/-- cwcnt (R220). -/
def execCwcnt (g c : BitVec 4) (a : BitVec 6) (u : BitVec 1) (s : State) :
    Host.Outcome State Fault Refusal :=
  issue g s (s.channelWait c.toNat (s.readS a) true (u == 1))

/-! ## Queues (R223, R224) -/

/-- The header address that a queue instruction names. -/
def State.queueVa (s : State) (a : BitVec 6) : Word := s.readS a &&& ~~~63#64

/-- The trap of an append that met a fault, to the queue that a register names (R146, R212).
Log 37: DEDUCED, unsafe. -/
def State.appTrap (s : State) (a : App) (named : Word) : Res :=
  match a with
  | .fault denied va err =>
    .trap (s.trapOf (if denied then 0x05 else 0x04) 1 va) (match err with
      | some pa => [pa]
      | none => [])
  | .poison => s.fault 0x09 0 (named &&& ~~~63#64)
  | _ => s.cmdFault 7 named

/-- enq to a queue whose header another module holds: the header is read, its slot translated, what the context has issued
before is published, the slot claimed at the home if the write index still stands, and the packet written.
Log 44: DESIGN CHOICE, safe. -/
def State.enqRemote (s : State) (va : Word) (acc : Acc) (named : Word) (p : Nat) (v : Row) : Res :=
  Res.andThen (s.ctxLoad .atomic va acc) fun r =>
    let h := (r.2.2.headerOf acc.leaf.home s.cmdAsid (va.setWidth 48) r.1).1
    let slotVa := h.slot h.wi.toNat
    if r.2.1 && !s.ctx.acted then s.fault 0x09 0 va
    else if h.bad && !s.ctx.acted then s.cmdFault 7 named
    else if s.quiescing s.cmdAsid && !s.ctx.acted then .ok (s.issueP p true 1)
    else Res.andThen (s.dataAcc .write slotVa 1) fun slot =>
      match s.ctx.answers.find? fun e => e.1 = answerKey acc.key with
      | none =>
        if (s.release h.qsc).isNone then .wait (.ordered acc.page true)
        else .wait (.claim va acc h.wi s.cmdAsid h.qsc slotVa slot)
      | some e =>
        if rowWord e.2 1 = 0 then .ok (s.issueP p true 1)
        else if rowWord e.2 1 = 1 then
          .ok ((r.2.2.putSlot s.agent slot (h.stamp (rowWord e.2 0).toNat v)).issueP p false 1)
        else .wait (.reask [acc.key, answerKey acc.key])

/-- enq to a queue of this module: what the context has posted to the header's page comes before its read (R245), and all that
it has issued is published and performed before the claim (R223). On a mirrored queue the mirror's read index bounds the
claim (R407). -/
def State.enqLocal (s : State) (va : Word) (acc : Acc) (named : Word) (p : Nat) (v : Row) : Res :=
  let at_ : Addr := va.setWidth 48
  match s.drain s.agent (fun q => q.page == acc.page) true with
  | none => .wait (.ordered acc.page true)
  | some s0 =>
    let q := s0.queueHdr s.cmdAsid at_ acc
    let h := q.1
    if q.2.mem.bad.contains acc.row then s.fault 0x09 0 va
    else if h.bad then s.cmdFault 7 named
    else if s.quiescing s.cmdAsid then .ok (q.2.issueP p true 1)
    else if (q.2.boundRi s.cmdAsid h).isNone then .wait (.hub [(s.cmdAsid, h.mra.setWidth 64)])
    else
      match q.2.release h.qsc with
      | none => .wait (.ordered acc.page true)
      | some s1 =>
        match s1.append s.agent s.cmdAsid at_ v none with
        | (.done _, s2) => .ok ((s2.moveWaiter s.cmdAsid h.wq).issueP p false 1)
        | (.full, s2) => .ok (s2.issueP p true 1)
        | (.later, _) => .wait (.hub [(s.cmdAsid, h.mra.setWidth 64)])
        | (e, _) => s.appTrap e named

/-- enq (R223, R228, R248, R294). -/
def execEnq (g p : BitVec 4) (a v : BitVec 6) (s : State) : Host.Outcome State Fault Refusal :=
  let va := s.queueVa a
  let row := s.readV v.toNat
  issue g s (Res.andThen (s.dataAcc .atomic va 1) fun acc =>
    if s.isRemote acc then s.enqRemote va acc (s.readS a) p.toNat row
    else s.enqLocal va acc (s.readS a) p.toNat row)

/-- Whether a context has a transfer, a posted atomic or an ordered add outstanding that an earlier bundle
issued (R112). -/
def State.outstanding (s : State) : Bool :=
  let now := s.me.cycle
  s.me.xfers.any (fun x => x.fw == s.iss.fw && decide (x.born < now)) ||
    s.ctx.chans.any (fun c => c.2.trigs.any fun t => decide (t.x.born < now)) ||
    s.mem.posted.any (fun p => p.by_ == s.agent && p.op != .store && decide (p.born < now)) ||
    s.mem.adds.any (fun p => p.by_ == s.agent && decide (p.born < now)) ||
    s.binds.any (fun b => b.core == s.iss.core && b.fw == s.iss.fw &&
      !(s.chanAt b.chan).done.contains b.ident && decide ((s.chanAt b.chan).tw.toNat < b.ident) &&
        decide (b.born < now))

/-- Whether the present bundle already stalls in this dequeue because the waiter queue was full (R294). -/
def Ctx.registered (c : Ctx) (hdr : Addr) (again : Nat) : Bool :=
  c.waits.any fun w => match w with
    | .packet h => h == hdr
    | .reask l => !l.contains again
    | _ => false

/-- The claim of a waiter queue's slot that a dequeue makes at another module before it suspends (R294): as an enq does, and
once made it is followed by the suspension.
Log 45: DEDUCED, unsafe. -/
def State.farWaiter (s : State) (h : QHdr) (named : Word) (acc : Acc) (again : Nat) : Res :=
  let wq := h.wq.setWidth 64
  let hdr : Addr := (named &&& ~~~63#64).setWidth 48
  Res.andThen (s.ctxLoad .atomic wq acc) fun r =>
    let w := (r.2.2.headerOf acc.leaf.home s.cmdAsid h.wq r.1).1
    if r.2.1 && !s.ctx.acted then s.fault 0x09 0 wq
    else if w.bad && !s.ctx.acted then s.cmdFault 7 named
    else Res.andThen (s.dataAcc .write (w.slot w.wi.toNat) 1) fun slot =>
      match s.ctx.answers.find? fun e => e.1 = answerKey acc.key with
      | none =>
        if (s.release w.qsc).isNone then .wait (.ordered acc.page true)
        else .wait (.claim wq acc w.wi s.cmdAsid w.qsc (w.slot w.wi.toNat) slot)
      | some e =>
        if rowWord e.2 1 = 2 then .wait (.reask [acc.key, answerKey acc.key, again])
        else .wait (.packetSusp hdr h.wq)

/-- What a dequeue that finds no packet does (R224, R291, R294): `plain` is the wait where it does not suspend, `again`
marks the wait of one that lost its take to another. The suspension waits until what the context has posted has been
performed (R112, R150).
Log 45: DEDUCED, unsafe. -/
def State.deqWait (s : State) (h : QHdr) (named : Word) (susp : Bool) (plain : Wait) (again : Nat) : Res :=
  let va := named &&& ~~~63#64
  if susp && !s.iss.fw && s.me.strand.isSome && h.wq != 0 && !s.ctx.registered (va.setWidth 48) again then
    let wq := h.wq.setWidth 64
    if !s.pinned && s.outstanding then .wait (.packetDrain (va.setWidth 48))
    else if s.addsOut then .wait .performed
    else s.strandWaits.elim (Res.andThen (s.dataAcc .atomic wq 1) fun acc =>
      if s.isRemote acc then s.farWaiter h named acc again
      else
        let w := (s.queueHdr s.cmdAsid h.wq acc).1
        if s.mem.bad.contains acc.row then s.fault 0x09 0 wq
        else if w.bad then s.cmdFault 7 named
        else Res.andThen (s.dataAcc .write (w.slot w.wi.toNat) 1) fun _ => .wait (.packetSusp (va.setWidth 48) h.wq))
      fun l => .wait (.hub l)
  else .wait plain

/-- The packet at a queue's read index, as a dequeue finds it: in its slot, at whichever module that is homed (R224). -/
def State.slotRow (s : State) (va : Word) (slot : Acc) : Except Res (Row × State) :=
  match s.ctxLoad .read va slot with
  | .error r => .error r
  | .ok (v, bad, s1) => if bad then .error (s.fault 0x09 0 va) else .ok (v, s1)

/-- deq from a queue whose header another module holds: header and slot are read, and the read index is moved
at its home if it still stands.
Log 44: DESIGN CHOICE, safe. -/
def State.deqRemote (s : State) (va : Word) (acc : Acc) (named : Word) (d : Nat) (susp : Bool) : Res :=
  Res.andThen (s.ctxLoad .atomic va acc) fun r =>
    let h := (r.2.2.headerOf acc.leaf.home s.cmdAsid (va.setWidth 48) r.1).1
    let again := answerKey acc.key
    if r.2.1 && !s.ctx.acted then s.fault 0x09 0 va
    else if h.bad && !s.ctx.acted then s.cmdFault 7 named
    else if s.quiescing s.cmdAsid || h.ri == h.wi then s.deqWait h named susp (.reask [acc.key]) again
    else Res.andThen (s.dataAcc .read (h.slot h.ri.toNat) 0) fun slot =>
      Res.andThen (s.slotRow (h.slot h.ri.toNat) slot) fun q =>
        if q.1.getLsbD 511 ≠ h.seqBit h.ri.toNat then
          s.deqWait h named susp (.reask (acc.key :: if s.isRemote slot then [slot.key] else [])) again
        else
          match s.ctx.answers.find? fun e => e.1 = again with
          | none => .wait (.take va acc h.ri)
          | some e =>
            if rowWord e.2 1 = h.ri then .ok ((q.2.issueRow d q.1 1 0).snapshot s.agent s.agent h.qsc)
            else .wait (.reask (again :: acc.key :: if s.isRemote slot then [slot.key] else []))

/-- deq from a queue of this module. Once it has claimed a slot of a waiter queue elsewhere it suspends (R294). -/
def State.deqLocal (s : State) (va : Word) (acc : Acc) (named : Word) (d : Nat) (susp : Bool) : Res :=
  let q := s.queueHdr s.cmdAsid (va.setWidth 48) acc
  let h := q.1
  let none_ (keys : List Nat) : Res :=
    s.deqWait h named susp (if keys = [] then .packet (va.setWidth 48) else .reask keys) (answerKey acc.key)
  if s.ctx.acted then none_ []
  else if q.2.mem.bad.contains acc.row then s.fault 0x09 0 va
  else if h.bad then s.cmdFault 7 named
  else if s.quiescing s.cmdAsid || h.ri == h.wi then none_ []
  else Res.andThen (s.dataAcc .read (h.slot h.ri.toNat) 0) fun slot =>
    Res.andThen (q.2.slotRow (h.slot h.ri.toNat) slot) fun r =>
      if r.2.packetIn acc.row h r.1 then
        .ok (((r.2.takeAt s.agent acc h).issueRow d r.1 1 0).snapshot s.agent s.agent h.qsc)
      else none_ (if s.isRemote slot then [slot.key] else [])

/-- deq (R224, R228, R248, R294). -/
def execDeq (g : BitVec 4) (v a : BitVec 6) (u : BitVec 1) (s : State) :
    Host.Outcome State Fault Refusal :=
  let va := s.queueVa a
  issue g s (Res.andThen (s.dataAcc .atomic va 1) fun acc =>
    if s.isRemote acc then
      if s.mem.ways.any fun p => p.by_ == s.agent && p.page == acc.page && !p.sent then .wait (.ordered acc.page true)
      else s.deqRemote va acc (s.readS a) v.toNat (u == 1)
    else
      match s.drain s.agent (fun p => p.page == acc.page) true with
      | none => .wait (.ordered acc.page true)
      | some s1 => s1.deqLocal va acc (s.readS a) v.toNat (u == 1))

/-! ## Step arrivals and reductions -/

/-- A word of a resident rank's block rewritten by the hub (R282). -/
def State.setRankWord (s : State) (v : BitVec 16) (j : Nat) (x : Word) : State :=
  match s.rankBlock v with
  | none => s
  | some b =>
    s.rewriteAs .queueController (some v) 0 (b + BitVec.ofNat 48 (64 * (j / 8))) fun r => setRowWord r (j % 8) x

/-- sarv (R225, R305): published at VRANK, then one more arrival of the current step. -/
def execSarv (g : BitVec 4) (s : State) : Host.Outcome State Fault Refusal :=
  let v := s.ctx.vrank
  issue g s (s.withRank v fun s =>
    let s1 := s.publish s.agent s.agent 6
    let w := s1.rankWord v 3
    .ok (s1.setRankWord v 3 (BitVec.ofNat 64 ((fld w 32 32 + 1) % 2 ^ 32 * 2 ^ 32 + fld w 0 32))))

/-- The number of sources of a reduction block. -/
def redSources (w : List Word) : Nat := fld (dw w 0) 48 3 + 1

/-- A reduction parameter block that breaks a field rule (R338). -/
def redBad (w : List Word) : Bool :=
  let el := fld (dw w 0) 52 4
  fld (dw w 0) 58 6 != 0 || fld (dw w 0) 56 2 == 3 || !([2, 3, 6, 7, 8, 9, 10].contains el) ||
    bitAt (dw w 0) 51 || fld (dw w 0) 26 22 != 0 || fld (dw w 0) 0 26 == 0 || fld (dw w 1) 0 6 != 0 ||
    fld (dw w 2) 0 3 != 0 ||
    ((List.range 8).any fun i =>
      if i < redSources w then fld (dw w (4 + i)) 0 6 != 0 else dw w (4 + i) != 0) ||
    [12, 13, 14, 15].any fun j => dw w j != 0

/-- The spans of a reduction: each source, the destination and the completion word. -/
def redSpans (w : List Word) : List Span :=
  let n := 64 * fld (dw w 0) 0 26
  ((List.range (redSources w)).map fun i => ⟨false, ((dw w (4 + i)).toNat : Int), n⟩) ++
    [⟨true, ((dw w 1).toNat : Int), n⟩] ++
    (if dw w 2 = 0 then [] else [⟨true, ((dw w 2).toNat : Int), 8⟩])

/-- A row of the parameter block of a bred, read by its engine, which acquires first (R214, R385); a wait for it is given up at
a stop (R27). -/
def State.paramRow (s : State) (a : Agent) (va : Word) : Except Res (Row × State) :=
  match s.dataAcc .read va 0 with
  | .error (.wait (.region pa)) => .error (.wait (.paramsRegion pa))
  | .error r => .error r
  | .ok acc =>
    let read : Except Res (Row × Bool × State) :=
      if s.isRemote acc then s.loadAt va acc
      else
        match s.drain s.agent (fun p => p.row == acc.row) false with
        | none => .error (.wait (.ordered acc.page false))
        | some s1 => .ok (s1.load a acc s1.iss.pick)
    match read with
    | .error (.wait (.remote _ va' acc _ _ _ _ _ _)) => .error (.wait (.params va' acc))
    | .error r => .error r
    | .ok (row, bad, s1) => if bad then .error (s.fault 0x09 0 va) else .ok (row, s1)

/-- A bred with its parameter block read: the fault of a bad block, or the block taken by the engine of the stack that holds it
(R212, R225, R338). -/
def State.bredIssue (s : State) (x : Xfer) (d : BitVec 6) (named va : Word) (w : List Word) : Res :=
  Res.andThen (s.dataAcc .read va 0) fun acc =>
    if 256 ≤ (s.chanAt x.chan).outstanding then s.cmdFault 5 named
    else if redBad w then s.cmdFault 9 named
    else Res.andThen (s.probeAll s.ctxAsid (redSpans w) []) fun held =>
      let stack := s.mem.stackOf acc.pa
      if 64 ≤ (s.mem.red.filter fun b => b.stack = stack).length ∧ s.quiescing s.cmdAsid = false then
        .wait (.reduction stack)
      else
        let s1 := s.drawId x.chan d
        if s.quiescing s.cmdAsid then .ok (s1.completeId s.iss.core s.iss.fw x.chan x.ident)
        else
          let b : RedBlock :=
            { stack := stack, core := s.iss.core, fw := s.iss.fw, chan := x.chan, ident := x.ident,
              asid := s.cmdAsid, words := w, rl := x.rl, sc := x.sc }
          let s2 := s1.startXfer s.iss.core { x with held := held }
          .ok { s2 with mem := { s2.mem with red := s2.mem.red ++ [b] } }

/-- bred (R225, R338, R385): the block lies at s[a][47:6] × 64. The faults of its read come before reason 5.
Log 139: DEDUCED, unsafe. -/
def execBred (g c : BitVec 4) (a d : BitVec 6) (q r : BitVec 1) (sc : BitVec 4) (s : State) :
    Host.Outcome State Fault Refusal :=
  let va : Word := (s.readS a) &&& 0x0000FFFFFFFFFFC0
  let n := c.toNat
  let x (rows : List Row) : Xfer :=
    { fw := s.iss.fw, chan := n, ident := s.nextIdent n, kind := .bred, aq := q == 1,
      rl := r == 1, sc := sc.toNat, asid := s.cmdAsid, data := rows, born := s.me.cycle, vrank := s.rankOf s.agent }
  let e := (x []).agent s.iss.core
  issue g s
    (if s.chanOk n = false then s.illegal 3
     else
       let s0 := s.shareView s.agent e
       let s1 := if q = 1 then s0.snapshot e s.agent sc.toNat else s0
       Res.andThen (s1.paramRow e va) fun r0 => Res.andThen (r0.2.paramRow e (va + 64)) fun r1 =>
         r1.2.bredIssue (x [r0.1, r1.1]) d (s.readS a) va (rowWords r0.1 ++ rowWords r1.1))

end Sys2Proof.Machine
end

