-- ==== Sys2Proof/Machine/Strand.lean ====
section
/-! DEFINITION. The strand's suspension instructions (R112 to R115), continuation records (R287, R288) and the
suspension of a waiting bundle (R291, R294). -/

namespace Sys2Proof.Machine

/-! ## Records and blocks, as the hub rewrites them -/

/-- st of a record (R287). -/
def recSt (r : Row) : Nat := fld (rowWord r 4) 56 4

/-- A record in a new state. -/
def setRecSt (st : Nat) (r : Row) : Row := setBits r (256 + 56) 4 st

/-- A record's wake bit. -/
def recWk (r : Row) : Bool := r.getLsbD 256

/-- A counter field of a region block changed: ucore in word 3, live in word 5 (R283). -/
def addField (lo n : Nat) (x : Int) (r : Row) : Row :=
  setBits r lo n (wrapNat n (((r.extractLsb' lo n).toNat : Int) + x))

/-- ucore of a region and of every block above it changed by one core (R285). -/
def State.countCore (s : State) (asid : BitVec 16) (rcb : Addr) (x : Int) : State :=
  (rcb :: s.regionChain asid rcb).foldl
    (fun s b => s.hubRewrite asid b (addField (192 + 32) 32 x)) s

/-- live of a region changed. -/
def State.countLive (s : State) (asid : BitVec 16) (rcb : Addr) (x : Int) : State :=
  s.hubRewrite asid rcb (addField 320 64 x)

def State.findGang (s : State) (g : Nat) : Option Gang := s.disp.gangs.find? fun x => x.ident = g

def State.setGang (s : State) (g : Gang) : State :=
  { s with disp := { s.disp with gangs := s.disp.gangs.map fun x => if x.ident = g.ident then g else x } }

/-- A gang member that has exited or was killed (R299, R398): with the last of them the cores and their locked
instruction stores are free again. -/
def State.leaveGang (s : State) (c : Nat) (t : Strand) : State :=
  match t.gang.bind s.findGang with
  | none => s
  | some g =>
    let left := insertNat g.left c
    if g.cores.all fun i => left.contains i then
      let s1 := g.cores.foldl (fun s i =>
        let k := s.core i
        s.setCore i { k with held := none, code := [] }) s
      { s1 with disp := { s1.disp with gangs := s1.disp.gangs.filter fun x => x.ident ≠ g.ident } }
    else s.setGang { g with left := left }

/-- The core released to the dispatcher (R112): it holds no strand. -/
def State.freeCore (s : State) (c : Nat) : State :=
  match (s.core c).strand with
  | some t =>
    let s1 := s.countCore t.asid t.rcb (-1)
    let k := s1.core c
    s1.setCore c
      { k with strand := none, pre := false, prog := { k.prog.settle with run := .idle, boundary := none } }
  | none => s

/-- The core of a suspended strand: a pinned strand stays on it (R290). -/
def State.parkStrand (s : State) (c : Nat) (t : Strand) (wake : Option (Nat × Word × Bool)) : State :=
  if t.pin = 0 then s.freeCore c
  else
    let k := s.core c
    s.setCore c
      { k with strand := some { t with asleep := true, wake := wake },
               prog := { k.prog.settle with run := .sleeping } }

/-- The record of a strand that suspends (R288): suspended, or ready with a packet when a wake-up arrived
while it ran.
Log 59: DEDUCED, safe. -/
def State.suspendRecord (s : State) (c : Nat) (t : Strand) (pc : Addr) (st : Nat) : State :=
  let wk := (s.hubRead t.asid t.record).elim false recWk
  let st' := if st = 1 ∧ wk = true then 2 else st
  let s1 := s.hubRewrite t.asid t.record fun r =>
    setRecSt st' (setBits (setBits r 0 64 pc.toNat) 256 1 (if st = 1 then 0 else if wk then 1 else 0))
  if st' = 2 then s1.makeReady (c / 50) t.asid t.rcb t.record else s1

/-! ## susp, yield, step, exit -/

/-- The waits that come first (R112): every result landed, no transfer, posted atomic or ordered add of an
earlier bundle outstanding. -/
def State.suspending (s : State) (f : State → Strand → Res) : Res :=
  if s.iss.fw then .ok s
  else match s.me.strand with
    | none => .ok s
    | some t =>
      if s.me.landing false then .wait .landed
      else if s.outstanding then .wait .drain
      else s.withRows (s.strandRows t) fun s => f ((s.setMe (s.me.landAll false)).publish s.agent s.agent 6) t

/-- A suspension after its bundle, resumed at the next bundle (R112). -/
def State.suspend (s : State) (st : Nat) : Res :=
  s.suspending fun s t =>
    let s1 := s.advance
    let c := s.iss.core
    let s2 := s1.suspendRecord c t s1.ctx.pc st
    .ok (s2.parkStrand c t none)

/-- The firmware context after susp or yield (R115): it goes on as soon as an event is pending. -/
def State.firmwareSleep (s : State) : State :=
  let s1 := s.advance
  if s1.fx.events = [] then s1.setCtx { s1.ctx with run := .sleeping } else s1

/-- susp (R112, R115). -/
def execSusp (g : BitVec 4) (s : State) : Host.Outcome State Fault Refusal :=
  issue g s (if s.iss.fw then .ok s.firmwareSleep else s.suspend 1)

/-- yield (R112, R115). -/
def execYield (g : BitVec 4) (s : State) : Host.Outcome State Fault Refusal :=
  issue g s (if s.iss.fw then .ok s.firmwareSleep else s.suspend 2)

/-- exit (R112, R115, R287). -/
def execExitS (g : BitVec 4) (a : BitVec 6) (s : State) : Host.Outcome State Fault Refusal :=
  let code := s.readS a
  issue g s (s.suspending fun s t =>
    let s1 := s.advance
    let s2 := s1.hubRewrite t.asid t.record fun r => setRecSt 5 (setRowWord r 5 code)
    .ok (((s2.countLive t.asid t.rcb (-1)).leaveGang s.iss.core t).freeCore s.iss.core))

/-- The root region of a resident rank (R282). -/
def State.rankRoot (s : State) (v : BitVec 16) : Addr := (s.rankWord v 1).setWidth 48

/-- A root strand has executed step in the rank's current step (R305). -/
def State.markStepped (s : State) (v : BitVec 16) : State :=
  { s with disp := { s.disp with ranks := s.disp.ranks.map fun r =>
      if r.vrank = v then { r with stepped := true } else r } }

/-- step (R112, R113, R115).
Log 124: DESIGN CHOICE, unsafe. -/
def execStepB (g : BitVec 4) (s : State) : Host.Outcome State Fault Refusal :=
  issue g s
    (match s.iss.fw, s.me.strand with
     | false, some t =>
       s.withRank t.vrank fun s =>
         if s.rankRoot t.vrank ≠ t.rcb then s.cmdFault 10 0
         else
           match s.suspend 4 with
           | .ok s1 => .ok (s1.markStepped t.vrank)
           | r => r
     | _, _ => .ok s)

/-- grel (R114, R115): a barrier wait until the dispatcher lets the gang pass. -/
def execGrel (g : BitVec 4) (s : State) : Host.Outcome State Fault Refusal :=
  let c := s.iss.core
  issue g s
    (if s.iss.fw then .ok s
     else match (s.me.strand.bind fun t => t.gang).bind s.findGang with
       | none => .ok s
       | some x =>
         if x.grel.contains c then .ok (s.setGang { x with grel := removeNat x.grel c })
         else .wait (.gang x.ident))

/-- A time that a dispatcher chooses for a release: a multiple of 5 ns at least 64 ns ahead, how far is free
(R114, R299, R444).
Log 60: DESIGN CHOICE, safe. -/
def releaseTime (now fresh : Nat) : Nat := (now + 68 + (Config.free 32 [62, fresh]).toNat) / 5 * 5

/-- GREL_RELEASE (R114): when every member stalls at a grel, the dispatcher chooses a time at least 64 ns
later, and at that time all of them may pass; no member counts before all have passed the release before. -/
def execGrelRelease (gang : Nat) (s : State) : Host.Outcome State Fault Refusal :=
  match s.findGang gang with
  | none => .next s
  | some g =>
    let waiting := g.grel.isEmpty && g.cores.all fun c => (s.core c).prog.waits.contains (.gang gang)
    match g.grelAt with
    | none => if waiting then .next (s.setGang { g with grelAt := some (releaseTime s.hub.gtime s.fresh) }) else .next s
    | some t =>
      if waiting = true ∧ t ≤ s.hub.gtime then
        .next (s.setGang { g with grelAt := none, grel := g.cores })
      else .next s

/-! ## A waiting bundle that suspends its strand -/

/-- The strand of the issuing core suspended at its waiting bundle (R291).
Log 59: DEDUCED, safe. -/
def State.suspendAt (s : State) (wake : Option (Nat × Word × Bool)) : State :=
  let c := s.iss.core
  match s.me.strand with
  | none => s
  | some t =>
    let s1 := (s.setMe (s.me.landAll false)).publish s.agent s.agent 6
    (((s1.suspendRecord c t s.iss.pc 1).parkStrand c t wake).wakeStrand c).dropAnswers (s.strandRows t)

/-- The header of a queue of this module. -/
def State.headerAt (s : State) (asid : BitVec 16) (va : Addr) : Option QHdr :=
  match s.queueAcc asid .atomic (va.setWidth 64) with
  | .ok acc => if s.isRemote acc then none else some (s.queueHdr asid va acc).1
  | .error _ => none

/-- Whether a queue of this module holds a packet. -/
def State.queueHolds (s : State) (asid : BitVec 16) (va : Addr) : Bool :=
  (s.headerAt asid va).any fun h => h.ri != h.wi

/-- The test of a queue after a waiter's registration (R294): one that holds a packet wakes the oldest waiter; of one that
another module holds the header must be read again first. -/
def State.retestQueue (s0 : State) (asid : BitVec 16) (hdr wq : Addr) : State :=
  let s := s0.openWalk .atomic asid (hdr.setWidth 64) 4
  match s.queueAcc asid .atomic (hdr.setWidth 64) with
  | .error _ => s
  | .ok acc =>
    if s.isRemote acc then
      { s with hub := { s.hub with remoteWaits := s.hub.remoteWaits ++ [(asid, acc.leaf.home, acc.row, wq)] } }
    else
      let h := (s.queueHdr asid hdr acc).1
      if h.ri != h.wi then s.moveWaiter asid wq else s

/-- The tag of the reads by which the queue controller tests a queue of another module. -/
def retestTag : Nat := 0xFFFD

/-- A queue of another module tested again for a waiter here: its header is asked for. -/
def State.retest (s : State) (i : Nat) : State :=
  match s.hub.remoteWaits[i]? with
  | some e => s.sendFlit e.2.1 1 (memFlit 0 e.2.2.1 0 false 0 retestTag 0)
  | none => s

/-- The header that such a test has read: with a packet in the queue the oldest waiter wakes. -/
def State.retested (s : State) (node row : Nat) (v : Row) : State :=
  let h := hdrOf node (rowWords v)
  match s.hub.remoteWaits.find? fun e => e.2.1 = node ∧ e.2.2.1 = row with
  | some e =>
    if h.bad || h.ri == h.wi then s
    else { s with hub := { s.hub with remoteWaits := s.hub.remoteWaits.erase e } }.moveWaiter e.1 e.2.2.2
  | none => s

/-- A dequeue that goes on as a stall, because the waiter queue is full (R294): the answers under the given keys are used up. -/
def State.stallPacket (s : State) (asid : BitVec 16) (hdr : Addr) (keys : List Nat) : State :=
  match s.queueAcc asid .atomic (hdr.setWidth 64) with
  | .ok acc =>
    if s.isRemote acc then s.setCtx { s.ctx.forget (acc.key :: keys) with waits := [.reask [acc.key]] }
    else s.setCtx { s.ctx.forget keys with waits := [.packet hdr] }
  | .error _ => s.setCtx { s.ctx.forget keys with waits := [.packet hdr] }

/-- The same where another module holds the waiter queue, whose slot has been claimed or was full.
Log 45: DEDUCED, unsafe. -/
def State.suspendFar (s : State) (t : Strand) (hdr wq : Addr) (acc : Acc) : State :=
  let find (key : Nat) := (s.ctx.answers.find? fun e => e.1 = key).map fun e => e.2
  match find acc.key, find (answerKey acc.key) with
  | some row, some e =>
    if rowWord e 1 = 1 then
      let h := hdrOf acc.leaf.home (rowWords row)
      let i := (rowWord e 0).toNat
      let s1 := match s.queueAcc t.asid .write (h.slot i) with
        | .ok slot => s.putSlot .queueController slot (h.stamp i (readyPacket t.record))
        | .error _ => s
      (s1.suspendAt none).retestQueue t.asid hdr wq
    else s.stallPacket t.asid hdr [acc.key, answerKey acc.key]
  | _, _ => s

/-- A dequeue that suspends: its record goes into the waiter queue, and the controller tests the queue again;
a full waiter queue leaves the bundle stalled (R294). -/
def State.suspendPacket (s : State) (hdr wq : Addr) : State :=
  match s.me.strand with
  | none => s
  | some t =>
    let here : State :=
      match s.append .queueController t.asid wq (readyPacket t.record) none with
      | (.done _, s1) =>
        let s2 := match s1.headerAt t.asid wq with
          | some w => s1.moveWaiter t.asid w.wq
          | none => s1
        (s2.suspendAt none).retestQueue t.asid hdr wq
      | (_, s1) => s1.stallPacket t.asid hdr []
    match s.queueAcc t.asid .atomic (wq.setWidth 64) with
    | .ok acc => if s.isRemote acc then s.suspendFar t hdr wq acc else here
    | .error _ => here

/-! ## The view of a strand that resumes (R240) -/

/-- A strand that resumes at a core sees its own earlier writes: what its rank has published at VRANK has been performed
and has reached it, and it re-snapshots at VRANK.
Log 49: DESIGN CHOICE, unsafe. -/
def State.resumeView (s : State) (c : Nat) : State :=
  let a : Agent := .context c false
  match s.rankOf a with
  | none => s
  | some v =>
    let s1 := s.performAll fun w => w.rank == some v && w.pub.isSome && !w.away
    (s1.flushScopes fun x => x.code == 6 && x.rank == some v).snapshot a a 6

end Sys2Proof.Machine
end

