-- ==== Sys2Proof/Machine/Image.lean ====
section
/-! DEFINITION. Stops of the program context at a bundle boundary (R27, R41, R228, R310, R393) and the context
image: its words, its save and its restoration (R311 to R314, R254 to R269). -/

namespace Sys2Proof.Machine

/-! ## Stopping the program context -/

/-- Whether a stop may act at once: a stalled bundle is abandoned unless an operation that ends in bounded
time still waits, the bundle holds an atomic or an enq, which is waited for and then performed, or its waits have just ended
(R27).
Log 16: DEDUCED, safe; log 50: DEDUCED, unsafe; log 135: DEDUCED, unsafe. -/
def Ctx.stoppable (c : Ctx) : Bool :=
  !c.ended && !c.mixed && !c.acted &&
  !(c.waits.any fun w => match w with
    | .remote _ _ _ _ _ _ _ _ _ => true
    | .claim _ _ _ _ _ _ _ => true
    | .take _ _ _ => true
    | .region _ => true
    | .landed => true
    | .ordered _ _ => true
    | _ => false)

/-- A stalled bundle abandoned: epc names it (R27). At a boundary that made a loop-back epc is the start of the level
(R105). The trap registers stand otherwise (R310).
Log 50: DEDUCED, unsafe. -/
def Ctx.abandon (c : Ctx) : Ctx :=
  { c.settle with looped := false, epc := if c.waits = [] ∧ c.looped = false then c.epc else c.pc }

/-- The program context stopped for its pre-emption (R41, R310): the trap registers are unchanged, but that epc names a
bundle that is abandoned (R27) or the start of a level that has looped back (R105).
Log 50: DEDUCED, unsafe. -/
def State.preemptNow (s : State) (c : Nat) : State :=
  let k := (s.core c).landAll false
  let p := k.prog.abandon
  let p' := if p.run = .running ∨ p.run = .sleeping then { p with run := .stopped } else p
  let s1 := s.setCore c
    { k with preempt := false, pre := true, prog := p', fx := { k.fx with fwev := k.fx.fwev ||| 2#2 } }
  (s1.publish (.context c false) (.context c false) 6).raiseAsync c ⟨0x20, 0, 0⟩

/-- The stop after an uncorrectable error of the context's state (R393): the trap registers are unchanged.
Log 33: DEDUCED, unsafe. -/
def State.faultyNow (s : State) (c det : Nat) : State :=
  let k := (s.core c).landAll false
  let s1 := s.setCore c
    { k with faulty := none, prog := { k.prog.abandon with run := .stopped },
             fx := { k.fx with fwev := k.fx.fwev ||| 1#2 } }
  s1.raiseMc (coreReport 0x0E c 0 (BitVec.ofNat 64 det))

/-- The posted operations of a killed context marked: its rank's step boundary does not wait for them (R150). -/
def State.cutPosted (s : State) (a : Agent) : State :=
  { s with mem := { s.mem with
      posted := s.mem.posted.map fun p => if p.by_ = a then { p with cut := true } else p,
      adds := s.mem.adds.map fun p => if p.by_ = a then { p with cut := true } else p } }

/-- The record of a killed gang member, which the dispatcher alone holds, killed (R287, R396).
Log 64: DESIGN CHOICE, unsafe. -/
def State.killMember (s : State) (t : Strand) : State :=
  if s.disp.records.any fun e => e.1 = t.asid ∧ e.2.1 = t.record then s.hubRewrite t.asid t.record (setRecSt 6) else s

/-- The program context killed (R228): its triggers are discarded, its transfers go on to their end, and it
holds no strand.
Log 52: DEDUCED, safe. -/
def State.killNow (s : State) (c : Nat) : State :=
  let k := (s.core c).landAll false
  let p := k.prog.abandon
  let s1 := s.setCore c
    { k with kill := false, preempt := false, faulty := none, parked := [],
             prog := { p with run := .idle, chans := p.chans.map fun e => (e.1, { e.2 with trigs := [] }) } }
  let s2 := s1.cutPosted (.context c false)
  match k.strand with
  | some t => ((s2.killMember t).leaveGang c t).freeCore c
  | none => s2

/-- A member of a gang that leaves its grel by a stop: the gang's release is timed anew, from the arrival that is then the
last (R114). -/
def State.leaveGrel (s : State) (c : Nat) : State :=
  { s with disp := { s.disp with gangs := s.disp.gangs.map fun g =>
      if (s.core c).prog.waits.contains (.gang g.ident) then { g with grelAt := none } else g } }

/-- A stop, pre-emption or kill that is due takes effect at the program context's bundle boundary.
Log 52: DEDUCED, safe. -/
def State.actStops (s : State) (c : Nat) : State :=
  let k := s.core c
  if k.prog.stoppable = false then s
  else if k.kill then (s.leaveGrel c).killNow c
  else match k.faulty with
    | some d => (s.leaveGrel c).faultyNow c d
    | none => if k.preempt then (s.leaveGrel c).preemptNow c else s

/-! ## The words of the image (R313) -/

/-- Words before the scratchpad's. -/
def imageFixed : Nat := 24144

/-- The table of f over the first n keys. -/
def tabOf {α : Type} (n : Nat) (f : Nat → α) : Tab α := (List.range n).map fun i => (i, f i)

def rowsWord (t : Tab Row) (j : Nat) : Word := rowWord (Tab.get 0 t (j / 8)) (j % 8)

/-- Bits j·64 on of a table of flags. -/
def boolsWord (f : Nat → Bool) (n : Nat) : Word :=
  BitVec.ofNat 64 ((List.range n).foldl (fun v i => if f i then v + 2 ^ i else v) 0)

/-- The 32 words of single registers. -/
def Core.miscWord (k : Core) (j : Nat) : Word :=
  let p := k.prog
  let x := k.px
  let m (i : Nat) : Word := if i = 0 then ~~~0 else Tab.get 0 x.m i
  if 3 ≤ j ∧ j < 11 then m (j - 3)
  else
    [boolsWord (fun i => i = 0 || Tab.get false p.p i) 16, p.sdef, x.vdef.setWidth 64, 0, 0, 0, 0, 0, 0, 0, 0,
     p.pc.setWidth 64, x.fmt, x.shVal, BitVec.ofNat 64 x.shCnt, x.fpstat.setWidth 64, p.cause,
     p.epc.setWidth 64, p.faddr, p.tvec.setWidth 64, tstatWord p, p.tscr, x.fmtsv, x.rkey0, x.rcnt0, x.rkey1,
     x.rcnt1, p.asid.setWidth 64, p.rcb, p.vrank.setWidth 64].getD j 0

/-- A loop level (R254). -/
def LoopLevel.word (l : LoopLevel) (j : Nat) : Word :=
  if j = 0 then l.count
  else if j = 1 then (if l.act then 1#64 <<< 63 else 0) ||| l.start.setWidth 64
  else l.fin.setWidth 64

/-- An address generator (R255). -/
def AddrGen.word (a : AddrGen) (j : Nat) : Word := if j = 0 then a.cur else Tab.get 0 a.strides (j - 1)

def tileOfCode (n : Nat) : TileState :=
  match n with
  | 0 => .empty | 1 => .filling | 2 => .ready | _ => .draining

/-- A tile-table entry (R258). -/
def Tile.word (t : Tile) : Word :=
  BitVec.ofNat 64 ((if t.bnd then 2 ^ 45 else 0) + (if t.rv then 2 ^ 44 else 0) + t.rq * 2 ^ 41 + t.vr * 2 ^ 28 +
    tileCode t.st * 2 ^ 26 + t.rows * 2 ^ 13 + t.first)

def Tile.ofWord (w : Word) : Tile where
  bnd := bitAt w 45
  rv := bitAt w 44
  rq := fld w 41 3
  vr := fld w 28 13
  st := tileOfCode (fld w 26 2)
  rows := fld w 13 13
  first := fld w 0 13

/-- A ring (R263). -/
def Ring.word (q : Ring) (j : Nat) : Word :=
  if j = 0 then BitVec.ofNat 64 (q.rcur * 2 ^ 16 + q.nt * 2 ^ 8 + q.hd * 2 ^ 4 + q.tl)
  else BitVec.ofNat 64 (lanesNat 8 ((List.range 8).map fun i => Tab.get 0 q.pos (8 * (j - 1) + i)))

def Ring.ofWords (w : Nat → Word) : Ring where
  rcur := fld (w 0) 16 13
  nt := fld (w 0) 8 5
  hd := fld (w 0) 4 4
  tl := fld (w 0) 0 4
  pos := tabOf 16 fun i => fld (w (1 + i / 8)) (8 * (i % 8)) 6

/-- The descriptor of a transfer (R311), of a weight stream in error with no bytes left, and with its flags in the places that a fired descriptor gives them; tc is the channel of a
fired command, 0 for any other (R221).
Log 32: DEDUCED, unsafe. -/
def Xfer.imageDesc (x : Xfer) (tc : Nat) : List Word :=
  let flags : Nat := tc * 2 ^ 32 + (if x.aq then 2 ^ 36 else 0) + (if x.rl then 2 ^ 37 else 0) + x.sc * 2 ^ 38
  let d := replaceAt x.desc 2 ((dw x.desc 2 &&& ~~~0x3FF00000000#64) ||| BitVec.ofNat 64 flags)
  if x.kind = .wstr then
    let b := x.pos / wsBits x.desc
    let used := if x.bad then dLen x.desc else if d3 x.desc 53 1 = 0 then 512 * b else x.blockAt
    let src := if d3 x.desc 53 1 = 0 then dw x.desc 0 &&& ~~~63#64 else dw x.desc 0
    let w2 := setField (dw d 2) 0 32 (dLen x.desc - used)
    let w4 := setField (dw d 4) 40 24 (dCnt x.desc 1 - b)
    replaceAt (replaceAt (replaceAt d 0 (src + BitVec.ofNat 64 used)) 2 w2) 4 w4
  else d
where
  setField (w : Word) (lo n v : Nat) : Word :=
    BitVec.ofNat 64 (w.toNat - fld w lo n * 2 ^ lo + v % 2 ^ n * 2 ^ lo)

/-- A channel (R269). -/
def Chan.word (ch : Chan) (j : Nat) : Word :=
  if j = 0 then ch.iss
  else if j = 1 then ch.tw
  else if j = 2 then BitVec.ofNat 64 ch.trigs.length
  else
    match ch.trigs[(j - 3) / 18]? with
    | none => 0
    | some t =>
      let i := (j - 3) % 18
      if i = 0 then t.thr else if i = 1 then BitVec.ofNat 64 t.x.ident else dw (t.x.imageDesc t.x.chan) (i - 2)

/-- The matrix state (R313). -/
def Matrix.word (m : Matrix) (j : Nat) : Word :=
  if j < 64 then rowsWord m.ea j
  else if j < 192 then rowsWord m.eb (j - 64)
  else if j < 1216 then rowsWord m.ob (j - 192)
  else if j < 5312 then (Tab.get 0 m.pa ((j - 1216) / 16)).extractLsb' (64 * (j % 16)) 64
  else if j < 5568 then Tab.get 0 m.g (j - 5312)
  else if j < 5824 then
    BitVec.ofNat 64 (lanesNat 8 ((List.range 8).map fun i => (Tab.get 0 m.sticky (8 * (j - 5568) + i)).toNat))
  else
    let b (i : Nat) : Nat :=
      if i = 0 then m.d0 else if i = 1 then m.d1 else if i = 2 then m.h0 else if i = 3 then m.h1
      else if i < 8 then 0
      else if i < 16 then (Tab.get 0x7F m.sa (i - 8)).toNat
      else if i < 32 then (Tab.get 0x7F m.sb (i - 16)).toNat
      else 0
    BitVec.ofNat 64 (lanesNat 8 ((List.range 8).map fun i => b (8 * (j - 5824) + i)))

/-- Rows of an image with n cancelled transfers. -/
def imageRows (part n : Nat) : Nat := imageFixed / 8 + part / 64 + 3 * n

/-- Word j of the image of a core's program context, `parked` the cancelled transfers. -/
def Core.imageWord (k : Core) (j : Nat) : Word :=
  let n := k.parked.length
  let P := k.sp.part
  if j < 8 then [0x4B561001#64, BitVec.ofNat 64 P, BitVec.ofNat 64 (64 * imageRows P n), BitVec.ofNat 64 n].getD j 0
  else if j < 72 then (if j = 8 then 0 else Tab.get 0 k.prog.s (j - 8))
  else if j < 104 then k.miscWord (j - 72)
  else if j < 360 then rowsWord k.px.v (j - 104)
  else if j < 432 then rowsWord k.px.latch (j - 360)
  else if j < 450 then (Tab.get {} k.prog.loops ((j - 432) / 3)).word ((j - 432) % 3)
  else if j < 562 then (Tab.get {} k.prog.ags ((j - 450) / 7)).word ((j - 450) % 7)
  else if j < 626 then (k.px.tile (j - 562)).word
  else if j < 650 then (k.px.ring ((j - 626) / 3)).word ((j - 626) % 3)
  else if j < 656 then 0
  else if j < 9920 then (Tab.get {} k.prog.chans ((j - 656) / 579)).word ((j - 656) % 579)
  else if j < 15752 then k.px.mx.word (j - 9920)
  else if j < 23944 then (Tab.get 0 k.px.mx.acc ((j - 15752) / 2)).extractLsb' (64 * (j % 2)) 64
  else if j < 24072 then
    BitVec.ofNat 64 ((Tab.get 0 k.px.hist (2 * (j - 23944) + 1)).toNat * 2 ^ 32 +
      (Tab.get 0 k.px.hist (2 * (j - 23944))).toNat)
  else if j < imageFixed then boolsWord (fun i => k.sp.isFull (64 * (j - 24072) + i)) 64
  else if j < imageFixed + P / 8 then rowsWord k.sp.rows (j - imageFixed)
  else
    match k.parked[(j - imageFixed - P / 8) / 24]? with
    | none => 0
    | some x =>
      let i := (j - imageFixed - P / 8) % 24
      if i = 0 then BitVec.ofNat 64 x.chan
      else if i = 1 then BitVec.ofNat 64 x.ident
      else if i < 8 then 0
      else dw (x.imageDesc 0) (i - 8)

def Core.imageRow (k : Core) (r : Nat) : Row := ofWords ((List.range 8).map fun j => k.imageWord (8 * r + j))

/-! ## The save (R311) -/

/-- Whether a transfer may be recorded in the image instead of running to its end. -/
def Xfer.cancellable (x : Xfer) : Bool :=
  match x.kind with
  | .wstr => x.tiles.isEmpty && decide (x.pos < x.total)
  | .copy => !x.wrote && (dDst x.desc).kind != 0
  | .gath => !x.wrote && (dDst x.desc).kind != 0
  | .scat => !x.wrote && (dDst x.desc).kind != 0
  | _ => false

/-- A trigger of a channel that should already have fired (R222). -/
def Chan.fires (ch : Chan) : Bool := ch.trigs.any fun t => decide (t.thr.toNat ≤ ch.tw.toNat)

/-- Whether every transfer that must run to its end has done so. -/
def Core.drained (k : Core) : Bool :=
  (k.xfers.all fun x => x.fw || x.cancellable) && !(k.prog.chans.any fun c => c.2.fires)

/-- A transfer cancelled: its tile sides return to what they were.
Log 32: DEDUCED, unsafe. -/
def State.cancelXfer (s : State) (core : Nat) (x : Xfer) : State :=
  let d := x.desc
  let k := s.core core
  let px :=
    if x.kind = .wstr then k.px
    else
      let y := if (dDst d).kind = 2 then k.px.setTile (dDst d).tile .empty 0 else k.px
      if (x.kind = .copy ∨ x.kind = .scat) ∧ (dSrc d).kind = 2 then
        y.setTile (dSrc d).tile .ready (y.tile (dSrc d).tile).vr
      else y
  (s.setCore core { k with px := px }).dropXfer core x

/-- The transfers by rising identifier. -/
def insertXfer : List Xfer → Xfer → List Xfer
  | [], x => [x]
  | y :: t, x => if x.ident < y.ident then x :: y :: t else y :: insertXfer t x

/-- The context captured: what is still outstanding is cancelled and recorded. -/
def State.capture (s : State) (core : Nat) : State :=
  let xs := (s.core core).xfers.filter fun x => !x.fw
  let s1 := xs.foldl (fun s x => s.cancelXfer core x) s
  let k := s1.core core
  s1.setCore core { k with parked := xs.foldl insertXfer k.parked }

/-- The address of an image that a transfer saves or restores. -/
def Xfer.imageVa (x : Xfer) : Addr := (dw x.desc 1).setWidth 48

/-- The next row of a save written, once the context has come to rest. -/
def State.saveRow (s : State) (core : Nat) (x : Xfer) : State :=
  let s0 := if x.index = [] ∧ (s.core core).drained = true then s.capture core else s
  let k := s0.core core
  let total := imageRows k.sp.part k.parked.length
  if x.index = [] ∧ (s.core core).drained = false then s
  else if total ≤ x.pos then s0.setXfer core { x with index := [1], total := total }
  else
    let sr := x.pos - imageFixed / 8
    let poison := decide (imageFixed / 8 ≤ x.pos) && k.sp.bad.contains sr
    match s0.engStore core x (wrapAddr (x.imageVa.toNat + 64 * x.pos : Nat)) (.row (k.imageRow x.pos))
        poison with
    | none => s0
    | some r => r.2.setXfer core { r.1 with index := [1], total := total, pos := x.pos + 1, wrote := true }

/-- The bindings of a core's program context that use its image from now on (R312). -/
def State.imageBinds (s : State) (core : Nat) (va : Addr) : State :=
  { s with binds := s.binds.map fun b =>
      if b.core = core ∧ b.fw = false ∧ b.image = none then { b with image := some va } else b }

/-- The image of a strand recorded in place of an earlier one (R313). -/
def State.recordImage (s : State) (t : Strand) (va : Addr) : State :=
  { s with disp := { s.disp with images :=
      (s.disp.images.filter fun e => !(e.1 = t.asid ∧ e.2.1 = t.record)) ++ [(t.asid, t.record, va)] } }

/-- The end of a save: the strand of a pre-empted context gives its core up, and one that is not pinned is
ready again (R288, R313); one that sleeps, saved at its rank's step boundary, stays on its core (R290, R306). -/
def State.saveDone (s0 : State) (core : Nat) (x : Xfer) : State :=
  let k := { s0.core core with toSave := false }
  let s := s0.setCore core k
  match k.strand with
  | none => s
  | some t =>
    if k.pre = false ∨ k.prog.run ≠ .stopped then s
    else if t.asleep then
      (s.recordImage t x.imageVa).setCore core { k with pre := false, prog := { k.prog with run := .sleeping } }
    else
      let s1 := s.recordImage t x.imageVa
      let s2 :=
        if t.pin = 0 then
          (s1.hubRewrite t.asid t.record fun r => setRecSt 2 (setBits r 0 64 k.prog.pc.toNat)).makeReady
            (core / 50) t.asid t.rcb t.record
        else s1
      let s3 := s2.freeCore core
      let k3 := s3.core core
      s3.setCore core { k3 with parked := [] }

/-! ## The restoration (R314) -/

/-- Bits of an image word that must be zero, by its place.
Log 132: DEDUCED, unsafe. -/
def imageReserved (j : Nat) (w : Word) : Bool :=
  if j < 8 then decide (4 ≤ j) && w != 0
  else if j < 72 then false
  else if j < 104 then
    let i := j - 72
    let n := [16, 64, 32, 64, 64, 64, 64, 64, 64, 64, 64, 48, 32, 32, 3, 7, 64, 48, 64, 48, 4, 64, 64, 64, 64, 64,
      64, 16, 64, 16, 0, 0].getD i 0
    decide (2 ^ n ≤ w.toNat) || ((i == 12 || i == 13 || i == 22) && w &&& ~~~fmtMask != 0) ||
      (i == 12 && fmtReserved w) || (i == 16 && w &&& ~~~causeMask != 0)
  else if j < 432 then false
  else if j < 450 then
    (j % 3 == 1 && fld w 48 15 != 0) || (j % 3 == 2 && fld w 48 16 != 0)
  else if j < 562 then false
  else if j < 626 then fld w 46 18 != 0
  else if j < 650 then
    if (j - 626) % 3 = 0 then fld w 29 35 != 0 || fld w 13 3 != 0 || decide (16 < fld w 8 5)
    else (List.range 8).any fun i => fld w (8 * i + 6) 2 != 0
  else if j < 656 then w != 0
  else if j < 9920 then (j - 656) % 579 == 2 && decide (32 < w.toNat)
  else if 15744 ≤ j ∧ j < 15752 then
    (j == 15744 && (fld w 6 2 != 0 || fld w 14 2 != 0 || fld w 23 1 != 0 || fld w 31 1 != 0 || fld w 32 32 != 0)) ||
      (decide (15748 ≤ j) && w != 0)
  else false

/-- Whether an image is valid: header, reserved fields and counts (R314). -/
def imageValid (w : Nat → Word) : Bool :=
  let P := (w 1).toNat
  let n := (w 3).toNat
  w 0 == 0x4B561001#64 && P % 8192 == 0 && decide (P ≤ 294912) && decide (n ≤ 4096) &&
    (w 2).toNat == 64 * imageRows P n && (w 86).toNat ≤ 4 &&
    !((List.range imageFixed).any fun j => imageReserved j (w j)) &&
    !((List.range n).any fun i =>
      let o := imageFixed + P / 8 + 24 * i
      decide (16 ≤ (w o).toNat) || [2, 3, 4, 5, 6, 7].any fun j => w (o + j) != 0)

def rowAt (w : Nat → Word) (o : Nat) : Row := ofWords ((List.range 8).map fun j => w (o + j))

/-- The matrix state that an image holds. -/
def Matrix.ofImage (w : Nat → Word) : Matrix where
  ea := tabOf 8 fun i => rowAt w (8 * i)
  eb := tabOf 16 fun i => rowAt w (64 + 8 * i)
  ob := tabOf 128 fun i => rowAt w (192 + 8 * i)
  pa := tabOf 256 fun i => rowAt w (1216 + 16 * i + 8) ++ rowAt w (1216 + 16 * i)
  g := tabOf 256 fun i => w (5312 + i)
  sticky := tabOf 2048 fun i => (w (5568 + i / 8)).extractLsb' (8 * (i % 8)) 3
  d0 := fld (w 5824) 0 6
  d1 := fld (w 5824) 8 6
  h0 := fld (w 5824) 16 7
  h1 := fld (w 5824) 24 7
  sa := tabOf 8 fun i => (w 5825).extractLsb' (8 * i) 8
  sb := tabOf 16 fun i => (w (5826 + i / 8)).extractLsb' (8 * (i % 8)) 8
  acc := tabOf 4096 fun i => w (5832 + 2 * i + 1) ++ w (5832 + 2 * i)

/-- A transfer known by its channel, identifier and descriptor, with the pages that translate when it is read (R314).
Log 32: DEDUCED, unsafe. -/
def State.revive (s : State) (asid : BitVec 16) (sp : Scratch) (chan ident : Nat) (d0 : List Word)
    (now : Nat) : Xfer :=
  let k := (opKind (d3 d0 33 3)).getD .copy
  let d := replaceAt d0 2 (dw d0 2 &&& ~~~0x3FF00000000#64)
  let index := if hasIndex k then sp.indexList d else [0]
  let held := (List.range (cmdUnits k d)).foldl (fun h i =>
    (cmdSpans k d index i).foldl (fun h q =>
      match s.probeSpan asid.toNat q h with
      | .ok h' => h'
      | .error _ => h) h) []
  { fw := false, chan := chan, ident := ident, kind := k, desc := d, aq := d2 d0 36 1 == 1,
    rl := d2 d0 37 1 == 1, sc := d2 d0 38 4, asid := asid, bad := k == .wstr && dLen d == 0,
    total := if k = .wstr then dCnt d 1 * wsBits d else dTotal k d,
    index := index, held := held, tiles := cmdTiles k d, born := now, vrank := s.asidRank asid }

/-- The channel at an offset of an image; `kept` are the identifiers that some cancelled transfer, pending trigger or
binding holds. -/
def State.chanOfImage (s : State) (asid : BitVec 16) (sp : Scratch) (w : Nat → Word) (o now : Nat)
    (kept : List Nat) : Chan :=
  let iss := w o
  let tw := w (o + 1)
  let trigs := (List.range (w (o + 2)).toNat).map fun e =>
    let q := o + 3 + 18 * e
    let d := (List.range 16).map fun j => w (q + 2 + j)
    (⟨w q, s.revive asid sp (d2 d 32 4) (w (q + 1)).toNat d now⟩ : Trig)
  let ids := (List.range (min 256 (iss - tw).toNat)).map fun i => tw.toNat + 1 + i
  { iss := iss, tw := tw, done := ids.filter fun i => !kept.contains i, trigs := trigs }

/-- The identifiers that the pending triggers of an image have drawn on a channel (R221, R269). -/
def firedIdents (w : Nat → Word) (chan : Nat) : List Nat :=
  (List.range 16).flatMap fun c =>
    let o := 656 + 579 * c
    ((List.range (min 32 (w (o + 2)).toNat)).filter fun e => fld (w (o + 7 + 18 * e)) 32 4 == chan).map fun e =>
      (w (o + 4 + 18 * e)).toNat

/-- The program context that an image holds, on a core that it leaves stopped. -/
def State.contextOfImage (s : State) (k : Core) (va : Addr) (w : Nat → Word) : Core :=
  let P := (w 1).toNat
  let m (i : Nat) : Word := w (72 + i)
  let asid : BitVec 16 := (m 27).setWidth 16
  let sp : Scratch :=
    { part := P, rows := tabOf (P / 64) fun i => rowAt w (imageFixed + 8 * i),
      full := (tabOf 4608 fun i => bitAt (w (24072 + i / 64)) (i % 64)).filter fun e => e.2 }
  let parked := (List.range (w 3).toNat).map fun i =>
    let o := imageFixed + P / 8 + 24 * i
    s.revive asid sp (w o).toNat (w (o + 1)).toNat ((List.range 16).map fun j => w (o + 8 + j)) k.cycle
  let kept (c : Nat) : List Nat :=
    ((parked.filter fun x => x.chan = c).map fun x => x.ident) ++
      ((s.binds.filter fun b => b.image = some va ∧ b.chan = c).map fun b => b.ident)
  let prog : Ctx :=
    { k.prog with
      run := .stopped, pc := alignPc ((m 11).setWidth 48), s := tabOf 64 fun i => w (8 + i), sdef := m 1,
      p := tabOf 16 fun i => bitAt (m 0) i,
      loops := tabOf 6 fun i => ⟨bitAt (w (433 + 3 * i)) 63, w (432 + 3 * i),
        alignPc ((w (433 + 3 * i)).setWidth 48), alignPc ((w (434 + 3 * i)).setWidth 48)⟩,
      ags := tabOf 16 fun i => ⟨w (450 + 7 * i), tabOf 6 fun j => w (451 + 7 * i + j)⟩,
      chans := tabOf 16 fun i => s.chanOfImage asid sp w (656 + 579 * i) k.cycle (kept i ++ firedIdents w i),
      cause := m 16 &&& causeMask, epc := alignPc ((m 17).setWidth 48), faddr := m 18,
      tvec := alignPc ((m 19).setWidth 48),
      inh := bitAt (m 20) 3, fsc := (m 20).setWidth 3, tscr := m 21, asid := asid, rcb := m 28,
      vrank := (m 29).setWidth 16, pend := [], waits := [], jumped := false, boundary := none, answers := [],
      asked := [], sentAs := [] }
  let px : ProgX :=
    { fmt := m 12 &&& fmtMask, shVal := m 13 &&& fmtMask, shCnt := (m 14).toNat, fpstat := (m 15).setWidth 7, fmtsv := m 22 &&& fmtMask,
      rkey0 := m 23, rcnt0 := m 24, rkey1 := m 25, rcnt1 := m 26,
      v := tabOf 32 fun i => rowAt w (104 + 8 * i), vdef := (m 2).setWidth 32,
      m := tabOf 8 fun i => m (3 + i), latch := tabOf 9 fun i => rowAt w (360 + 8 * i),
      rings := tabOf 8 fun i => Ring.ofWords fun j => w (626 + 3 * i + j),
      tiles := tabOf 64 fun i => Tile.ofWord (w (562 + i)),
      mx := Matrix.ofImage fun j => w (9920 + j),
      hist := tabOf 256 fun i => (w (23944 + i / 2)).extractLsb' (32 * (i % 2)) 32 }
  { k with prog := prog, px := px, sp := sp, parked := parked, pre := (m 14) != 0 }

/-- The strand whose image stands at an address, from its record. -/
def State.strandOfImage (s : State) (va : Addr) : Option Strand :=
  match s.disp.images.find? fun e => e.2.2 = va with
  | none => none
  | some e =>
    match s.hubRead e.1 e.2.1 with
    | none => none
    | some r =>
      let rcb : Addr := (rowWord r 1).setWidth 48
      let g := s.disp.regions.find? fun g => g.asid = e.1 ∧ g.rcb = rcb
      let v := (g.map fun g => g.vrank).getD 0
      some
        { record := e.2.1, rcb := rcb, vrank := v, asid := e.1, pin := fld (rowWord r 4) 62 2,
          sid := (rowWord r 3).setWidth 32,
          gang := if fld (rowWord r 4) 62 2 = 2 then
            (s.disp.gangs.find? fun g => g.asid = e.1 ∧ g.rcb = rcb ∧ g.cores.contains (fld (rowWord r 4) 48 8)).map
              fun g => g.ident
            else none,
          stepNo := s.rankWord v 2,
          nchan := ((g.bind fun g => g.eff).map fun f => f.nchan).getD 16, taken := s.hub.gtime,
          asleep := fld (rowWord r 4) 62 2 != 0 && recSt r != 3 }

/-- The bindings of an image used on a core again (R312); those that have ended complete. -/
def State.unimageBinds (s : State) (core : Nat) (va : Addr) : State :=
  let mine := s.binds.filter fun b => b.image = some va
  let s1 := { s with binds := (s.binds.filter fun b => !(b.image = some va ∧ b.fin = true)).map fun b =>
    if b.image = some va then { b with image := none, core := core } else b }
  (mine.filter fun b => b.fin).foldl (fun s b => s.completeId core false b.chan b.ident) s1

/-- An image restored on a core (R314): one that is not valid leaves the context without a strand, reported
with source 0x0A. -/
def State.restoreImage (s : State) (core : Nat) (va : Addr) (bad : Bool) (w : Nat → Word) : State :=
  let k := s.core core
  if bad || !imageValid w then
    let s1 := match k.strand with
      | some _ => s.freeCore core
      | none => s.setCore core { k with prog := { k.prog with run := .idle } }
    s1.raiseMc (coreReport 0x0A core (va.setWidth 64) 0)
  else
    let k1 := s.contextOfImage k va w
    match s.strandOfImage va with
    | some t =>
      let s1 := s.setCore core { k1 with strand := some t, pre := true, lastAsid := some t.asid }
      let s2 := { s1 with disp := { s1.disp with images := s1.disp.images.filter fun e => !(e.2.2 = va) } }
      (s2.countCore t.asid t.rcb 1).unimageBinds core va
    | none => (s.setCore core k1).unimageBinds core va

/-- The next row of a restoration read; a poisoned row of the scratchpad reads zero and is reported (R394). -/
def State.restoreRow (s : State) (core : Nat) (x : Xfer) : State :=
  if x.total ≤ x.pos then s
  else
    let va := wrapAddr (x.imageVa.toNat + 64 * x.pos : Nat)
    match s.engRow core x va with
    | none => s.engAsk core x va
    | some r =>
      let P := (rowWord (x.data.getD 0 0) 1).toNat
      let inSp := decide (imageFixed / 8 ≤ x.pos) && decide (x.pos < imageFixed / 8 + P / 64)
      let s1 :=
        if r.2.1 && inSp then
          r.2.2.raiseMc (coreReport 0x03 core (match x.acc va with
            | some acc => BitVec.ofNat 64 (acc.row * 64)
            | none => 0) (BitVec.ofNat 64 x.ident))
        else r.2.2
      s1.setXfer core { x with data := x.data ++ [if r.2.1 then 0 else r.1], pos := x.pos + 1,
                               bad := x.bad || (r.2.1 && !inSp), answers := [], asked := [] }

/-- The end of a restoration. -/
def State.restoreDone (s : State) (core : Nat) (x : Xfer) : State :=
  let a := x.data.toArray
  s.restoreImage core x.imageVa x.bad fun j => rowWord (a.getD (j / 8) 0) (j % 8)

/-- A cancelled transfer probed again for its core's program context (R213, R314): as it will run, or the fault. -/
def State.reprobe (s : State) (core : Nat) (x0 : Xfer) : Except (Trap × List Nat) Xfer :=
  let k := s.core core
  let here := { s with iss := { s.iss with core := core, fw := false, slot := 0, pc := k.prog.pc } }
  let x := here.revive k.prog.asid k.sp x0.chan x0.ident (x0.imageDesc 0) x0.born
  match here.probeUnits k.prog.asid.toNat (cmdSpans x.kind x.desc x.index) (cmdUnits x.kind x.desc) 0 [] with
  | .ok held => .ok { x with held := held }
  | .error (.trap t errs) => .error (t, errs)
  | .error _ => .error (here.trapOf 0x04 2 0, [])

/-- Cancelled transfers issued again in turn. One whose probe faults stops the context at its next bundle, and it waits
with those after it for the next cres.
Log 32: DEDUCED, unsafe. -/
def State.reissueFrom (core : Nat) : List Xfer → State → State
  | [], s => s
  | x :: l, s =>
    match s.reprobe core x with
    | .ok y => reissueFrom core l (s.startXfer core y)
    | .error e =>
      let s1 := e.2.foldl (fun s pa => s.walkError core (s.core core).prog.asid.toNat pa) s
      (s1.setCore core { s1.core core with parked := x :: l }).programStop core e.1

/-- The cancelled transfers of a restored context issued again, in rising identifier order within each channel
(R314).
Log 32: DEDUCED, unsafe. -/
def State.reissue (s : State) (core : Nat) : State :=
  let k := s.core core
  (s.setCore core { k with parked := [] }).reissueFrom core (k.parked.foldl insertXfer [])

end Sys2Proof.Machine
end

