-- ==== Sys2Proof/Machine/System.lean ====
section
/-! DEFINITION. The firmware-only instructions but for the quiesce (R226 to R228, R39), and the requests that
stop a program context (R310, R326, R393). -/

namespace Sys2Proof.Machine

/-! ## Translation invalidation and the ASID -/

/-- A tlbi posted: this core uses the translations that it names no more, the others until it completes (R226, R227,
R326). -/
def State.postTlbi (s : State) (md : Nat) (asid : BitVec 16) (va : Addr) : State :=
  let s1 := s.setFx { s.fx with tlbis := s.fx.tlbis ++ [(md, asid, va)] }
  { s1 with mem := s1.mem.bar s.iss.core md asid va }

/-- tlbi with md 0 (R226): the page that holds s[a] under ASID s[b]. -/
def execTlbiPage (g : BitVec 4) (a b : BitVec 6) (s : State) : Host.Outcome State Fault Refusal :=
  issue g s (.ok (s.postTlbi 0 ((s.readS b).setWidth 16) ((s.readS a).setWidth 48)))

/-- tlbi with md 1 (R226): every page of ASID s[b]. -/
def execTlbiAsid (g : BitVec 4) (_a b : BitVec 6) (s : State) : Host.Outcome State Fault Refusal :=
  issue g s (.ok (s.postTlbi 1 ((s.readS b).setWidth 16) 0))

/-- tlbi with md 2 (R226): every translation. -/
def execTlbiAll (g : BitVec 4) (_a _b : BitVec 6) (s : State) : Host.Outcome State Fault Refusal :=
  issue g s (.ok (s.postTlbi 2 0 0))

/-- TLBI_COMPLETE (R326): the oldest tlbi of a core's firmware completes: the entries that it names leave the translation
caches, so no translation by them outlives it but those that a probed transfer holds.
Log 42: DESIGN CHOICE, safe. -/
def execTlbiComplete (core : Nat) (s : State) : Host.Outcome State Fault Refusal :=
  let k := s.core core
  let s1 := s.setCore core { k with fx := { k.fx with tlbis := k.fx.tlbis.drop 1 } }
  match k.fx.tlbis with
  | [] => .next s1
  | e :: _ => .next { s1 with mem := s1.mem.invalidate e.1 e.2.1 e.2.2 }

/-- Whether the program context is stopped or holds no strand (R227). -/
def Core.still (k : Core) : Bool := k.prog.run == .stopped || k.strand.isNone

/-- asw (R226, R227). -/
def execAsw (g : BitVec 4) (a : BitVec 6) (s : State) : Host.Outcome State Fault Refusal :=
  let v := s.readS a
  let k := s.me
  issue g s
    (if k.still then .ok (s.setMe { k with prog := { k.prog with asid := v.setWidth 16 } })
     else s.cmdFault 11 v)

/-! ## The context image -/

/-- The span of n rows at an image address.
Log 31: DEDUCED, unsafe. -/
def imageSpan (write : Bool) (va : Addr) (n : Nat) : Span := ⟨write, (va.toNat : Int), 64 * n⟩

/-- A transfer of an image on firmware channel c0 (R227). -/
def State.imageXfer (s : State) (k : XKind) (va : Addr) (rows : Nat) (held : Held) : Xfer :=
  { fw := true, chan := 0, ident := s.nextIdent 0, kind := k, desc := [0, va.setWidth 64], total := rows,
    held := held, born := s.me.cycle, vrank := s.rankOf s.agent }

/-- The address of an image: a row, so bits [5:0] of s[a] are ignored.
Log 31: DEDUCED, unsafe. -/
def imageAddr (v : Word) : Addr := (v &&& ~~~63#64).setWidth 48

/-- The checks of ctxs and ctxr. -/
def State.imageCheck (s : State) (v : Word) (f : Unit → Res) : Res :=
  if 256 ≤ (s.chanAt 0).outstanding then s.cmdFault 5 v
  else if !s.me.still then s.cmdFault 11 v
  else f ()

/-- ctxs (R226, R227, R311, R312). -/
def execCtxs (g : BitVec 4) (a : BitVec 6) (s : State) : Host.Outcome State Fault Refusal :=
  let v := s.readS a
  let va := imageAddr v
  let n := (s.me.xfers.filter fun x => !x.fw).length
  issue g s (s.imageCheck v fun _ =>
    let rows := imageRows s.sp.part (n + s.me.parked.length)
    Res.andThen (s.probeSpan 0 (imageSpan true va rows) []) fun held =>
      let x := s.imageXfer .ctxs va rows held
      .ok (((s.drawId 0 0).imageBinds s.iss.core va).startXfer s.iss.core x))

/-- ctxr (R226, R227, R314): as many rows as the image's header names, the header alone where it is not valid. -/
def execCtxr (g : BitVec 4) (a : BitVec 6) (s : State) : Host.Outcome State Fault Refusal :=
  let v := s.readS a
  let va := imageAddr v
  issue g s (s.imageCheck v fun _ =>
    Res.andThen (s.loadFor (va.setWidth 64) 2) fun r =>
      let P := (rowWord r.1 1).toNat
      let n := (rowWord r.1 3).toNat
      let rows := if rowWord r.1 0 = 0x4B561001#64 ∧ P ≤ 294912 ∧ n ≤ 4096 then imageRows P n else 1
      Res.andThen (r.2.probeSpan 0 (imageSpan false va rows) []) fun held =>
        let x := r.2.imageXfer .ctxr va rows held
        .ok ((r.2.drawId 0 0).startXfer s.iss.core x))

/-! ## cres and ckill -/

/-- A stopped program context that resumes (R39, R314): the stalled bundle's requests are forgotten, the live shadow
comes from pfmtsv and ptstat.fsc, and issue goes on at epc. A context that was pre-empted or restored goes on at its
pc, its shadow standing, and sees its own strand's earlier writes (R240).
Log 50: DEDUCED, unsafe. -/
def State.resumeStopped (s : State) (c : Nat) : State :=
  let k := s.core c
  let px := if k.pre then k.px else k.px.restoreShadow k.prog.fsc
  let pc := alignPc (if k.pre then k.prog.pc else k.prog.epc)
  let s1 := s.setCore c
    { k with px := px, pre := false,
             prog := { k.prog.settle with
               pc := pc, run := if (k.strand.map Strand.asleep).getD false then .sleeping else .running,
               jumped := false } }
  if k.pre then s1.resumeView c else s1

/-- cres (R39, R226, R314): no effect unless the program context is stopped. Cancelled transfers are issued again
first. -/
def execCres (g : BitVec 4) (s : State) : Host.Outcome State Fault Refusal :=
  let k := s.me
  issue g s
    (.ok (if k.prog.run = .stopped ∧ k.dead = false then (s.resumeStopped s.iss.core).reissue s.iss.core else s))

/-- ckill (R228): the program context is killed at its next bundle boundary. -/
def execCkill (g : BitVec 4) (s : State) : Host.Outcome State Fault Refusal :=
  issue g s (.ok ((s.setMe { s.me with kill := true }).actStops s.iss.core))

/-! ## Requests -/

/-- PREEMPTION_REQUEST (R310): the program context stops at its next bundle boundary. -/
def execPreemptionRequest (core : Nat) (s : State) : Host.Outcome State Fault Refusal :=
  let k := s.core core
  if k.prog.run = .running ∨ k.prog.run = .sleeping then
    .next ((s.setCore core { k with preempt := true }).actStops core)
  else .next s

/-- CORE_STATE_ERROR (R393): an uncorrectable error in the state of a program context stops it at its next
boundary, in that of a firmware context it is a core machine check.
Log 33: DEDUCED, unsafe. -/
def execCoreStateError (core : Nat) (fw : Bool) (det : Nat) (s : State) :
    Host.Outcome State Fault Refusal :=
  let k := s.core core
  if fw then
    let k1 := k.landAll true
    .next ((s.setCore core k1).coreDead core k1.fw)
  else .next ((s.setCore core { k with faulty := some det }).actStops core)

end Sys2Proof.Machine
end

