-- ==== Sys2Proof/Machine/EngineEvents.lean ====
section
/-! DEFINITION. The events of the copy engines (R209, R210, R215, R217, R222, R265 to R268, R311, R314): a
piece moved, a transfer complete, a trigger fired, a tile of a weight stream begun and ended. An event whose
conditions do not hold changes nothing. -/

namespace Sys2Proof.Machine

/-- The bytes that a transfer writes, as ranges of device memory (true) or of the scratchpad. -/
def State.destRanges (s : State) (core : Nat) (x : Xfer) : List (Bool × Int × Int) :=
  let d := x.desc
  let dst := dDst d
  let o : Int := if dst.kind = 2 then 64 * (((s.core core).px.tile dst.tile).first : Int) else 0
  let at_ (lo hi : Int) : List (Bool × Int × Int) :=
    [(dst.kind == 0, o + dst.base + lo, o + dst.base + hi)]
  match x.kind with
  | .copy =>
    let e := extent d (dDs d)
    at_ e.1 (e.2 + dLen d)
  | .gath => at_ 0 x.total
  | .hist => at_ 0 1024
  | .scat => x.index.map fun i =>
      let a := alignInt (dst.base + i * dDs d 1) (dLen d)
      (true, a, a + dLen d)
  | .wstr =>
    let px := (s.core core).px
    let q := px.ring (d3 d 46 3)
    (List.range q.nt).map fun i =>
      let t := px.tile (Tab.get 0 q.pos i)
      (false, 64 * (t.first : Int), 64 * ((t.first + t.rows : Nat) : Int))
  | .bred =>
    let w := x.data.flatMap rowWords
    let lo (j : Nat) : Int := ((dw w j).toNat : Int)
    (true, lo 1, lo 1 + 64 * fld (dw w 0) 0 26) :: (if dw w 2 = 0 then [] else [(true, lo 2, lo 2 + 8)])
  | _ => []

/-- Whether two lists of ranges meet. -/
def rangesMeet (a b : List (Bool × Int × Int)) : Bool :=
  a.any fun p => b.any fun q => p.1 == q.1 && decide (p.2.1 < q.2.2) && decide (q.2.1 < p.2.2)

/-- Whether a transfer must hold its writes: an earlier identifier of its channel has not begun (R209), an
earlier transfer of its channel writes some of the same bytes (R215), or a region table is being loaded over
memory (R332). -/
def State.held (s : State) (core : Nat) (x : Xfer) : Bool :=
  let k := s.core core
  s.mem.regionsIn.isSome ||
    ((k.ctx x.fw).chans.any fun c => c.2.trigs.any fun t => t.x.chan == x.chan && decide (t.x.ident < x.ident)) ||
    k.xfers.any fun y => y.fw == x.fw && y.chan == x.chan && decide (y.ident < x.ident) &&
      rangesMeet (s.destRanges core y) (s.destRanges core x)

/-- ENGINE_ROW_WRITE (R215, R217, R218, R225, R265, R311, R314). -/
def execEngineRowWrite (core : Nat) (fw : Bool) (chan ident : Nat) (s : State) :
    Host.Outcome State Fault Refusal :=
  match s.findXfer core fw chan ident with
  | none => .next s
  | some x =>
    if s.held core x then .next s
    else
      match x.kind with
      | .wstr => .next (s.moveStream core x)
      | .ctxs => .next (s.saveRow core x)
      | .ctxr => .next (s.restoreRow core x)
      | .cbind => .next s
      | .bred => .next s
      | _ => .next (s.movePiece core x)

/-- Whether every write of a transfer has landed (R210). -/
def Xfer.landed (x : Xfer) : Bool :=
  decide (x.total ≤ x.pos) && x.posted == 0 &&
    match x.kind with
    | .wstr => x.tiles.isEmpty
    | .ctxs => !x.index.isEmpty
    | .cbind => false
    | .bred => false
    | _ => true

/-- TRANSFER_COMPLETE (R210). -/
def execTransferComplete (core : Nat) (fw : Bool) (chan ident : Nat) (s : State) :
    Host.Outcome State Fault Refusal :=
  match s.findXfer core fw chan ident with
  | none => .next s
  | some x =>
    if x.landed then
      let s1 := s.completeXfer core x
      match x.kind with
      | .ctxs => .next (s1.saveDone core x)
      | .ctxr => .next (s1.restoreDone core x)
      | _ => .next s1
    else .next s

/-- Whether a save of the core's context is under way, which starts no further tile (R311). -/
def Core.saving (k : Core) : Bool := k.xfers.any fun x => x.kind == .ctxs

/-- WSTR_TILE_START (R265, R268); a stream of an ASID that is being quiesced starts no further tile and is cancelled (R228). -/
def execWstrTileStart (core : Nat) (fw : Bool) (chan ident : Nat) (s : State) :
    Host.Outcome State Fault Refusal :=
  match s.findXfer core fw chan ident with
  | none => .next s
  | some x =>
    if s.held core x || (s.core core).saving then .next s
    else if x.kind = .wstr ∧ x.tiles = [] ∧ s.quiescing x.asid = true then
      .next ((s.dropXfer core x).completeId core x.fw x.chan x.ident)
    else .next (s.startTile core x)

/-- WSTR_TILE_READY (R265). -/
def execWstrTileReady (core : Nat) (fw : Bool) (chan ident : Nat) (s : State) :
    Host.Outcome State Fault Refusal :=
  match s.findXfer core fw chan ident with
  | none => .next s
  | some x => .next (s.endTile core x)

/-- TRIGGER_FIRE (R221, R222). -/
def execTriggerFire (core : Nat) (fw : Bool) (chan : Nat) (s : State) :
    Host.Outcome State Fault Refusal :=
  .next (s.fireFirst core fw chan)

end Sys2Proof.Machine
end

