-- ==== Sys2Proof/Machine/Vector.lean ====
section
/-! DEFINITION. The integer and data-moving instructions of the V and W slots (R154 to R164, R172 to R177, R180,
R181). -/

namespace Sys2Proof.Machine

/-- The lane width of an integer lane-type field (R87). -/
def laneBits (t : BitVec 2) : Nat := 8 * 2 ^ t.toNat

/-- The lanes of a row computed one by one, and the flags of those that the mask enables (R48, R154). -/
def laneResult (w : Nat) (m : Word) (f : Nat → Nat × Flags) : Row × Flags :=
  let rs := (List.range (512 / w)).map fun i => (i, f i)
  (ofLanes w (rs.map fun r => r.2.1),
   rs.foldl (fun fl r => if m.getLsbD r.1 then fl ||| r.2.2 else fl) 0)

/-- A masked vector result (R17): under the mask bits `u`, which are undefined, a lane is undefined (R182). -/
def State.issueMasked (s : State) (d : BitVec 5) (w : Nat) (m u : Word) (val : Row) (bound : Nat) (fl : Flags) :
    State :=
  s.issueV d.toNat (s.unsureLanes w u val) (laneMask w (512 / w) (m ||| u)) bound fl

/-- A masked vector result computed lane by lane. -/
def State.issueLanes (s : State) (d : BitVec 5) (w : Nat) (m u : Word) (bound : Nat)
    (f : Nat → Nat × Flags) : State :=
  let r := laneResult w m f
  s.issueMasked d w m u r.1 bound r.2

/-- Both ports of a VR syllable read (R18, R87). -/
def State.ports (s : State) (a b : BitVec 6) : Row × Row × State :=
  let x := s.portRead 0 a
  let y := x.2.portRead 1 b
  (x.1, y.1, y.2)

/-- A two-operand integer lane operation: the signed and natural readings of both lanes (R156). -/
def lanes2 (g : BitVec 4) (d : BitVec 5) (a b : BitVec 6) (m : BitVec 3) (t : BitVec 2) (bound : Nat)
    (f : Nat → Nat → Nat → Nat × Flags) (s : State) : Host.Outcome State Fault Refusal :=
  let w := laneBits t
  let p := s.ports a b
  issue g s (.ok (p.2.2.issueLanes d w (s.readM m.toNat) (s.unsureM m.toNat) bound fun i =>
    f w (lane w p.1 i) (lane w p.2.1 i)))

/-- vadd (R156). -/
def execVadd (g : BitVec 4) (d : BitVec 5) (a b : BitVec 6) (m : BitVec 3) (t : BitVec 2)
    (s : State) : Host.Outcome State Fault Refusal :=
  lanes2 g d a b m t 2 (fun w x y => reduceInt (fmtSat s.fmt) true w (signNat x w + signNat y w)) s

/-- vsub (R156). -/
def execVsub (g : BitVec 4) (d : BitVec 5) (a b : BitVec 6) (m : BitVec 3) (t : BitVec 2)
    (s : State) : Host.Outcome State Fault Refusal :=
  lanes2 g d a b m t 2 (fun w x y => reduceInt (fmtSat s.fmt) true w (signNat x w - signNat y w)) s

/-- vmul (R156). -/
def execVmul (g : BitVec 4) (d : BitVec 5) (a b : BitVec 6) (m : BitVec 3) (t : BitVec 2)
    (s : State) : Host.Outcome State Fault Refusal :=
  lanes2 g d a b m t 4 (fun w x y => reduceInt (fmtSat s.fmt) true w (signNat x w * signNat y w)) s

/-- vmulh (R156). -/
def execVmulh (g : BitVec 4) (d : BitVec 5) (a b : BitVec 6) (m : BitVec 3) (t : BitVec 2)
    (s : State) : Host.Outcome State Fault Refusal :=
  lanes2 g d a b m t 4 (fun w x y => (wrapNat w (signNat x w * signNat y w / ((2 ^ w : Nat) : Int)), 0)) s

/-- vmin (R156). -/
def execVmin (g : BitVec 4) (d : BitVec 5) (a b : BitVec 6) (m : BitVec 3) (t : BitVec 2)
    (s : State) : Host.Outcome State Fault Refusal :=
  lanes2 g d a b m t 2 (fun w x y => (if signNat x w ≤ signNat y w then x else y, 0)) s

/-- vmax (R156). -/
def execVmax (g : BitVec 4) (d : BitVec 5) (a b : BitVec 6) (m : BitVec 3) (t : BitVec 2)
    (s : State) : Host.Outcome State Fault Refusal :=
  lanes2 g d a b m t 2 (fun w x y => (if signNat x w ≤ signNat y w then y else x, 0)) s

/-- vminn (R156). -/
def execVminn (g : BitVec 4) (d : BitVec 5) (a b : BitVec 6) (m : BitVec 3) (t : BitVec 2)
    (s : State) : Host.Outcome State Fault Refusal :=
  lanes2 g d a b m t 2 (fun _ x y => (min x y, 0)) s

/-- vmaxn (R156). -/
def execVmaxn (g : BitVec 4) (d : BitVec 5) (a b : BitVec 6) (m : BitVec 3) (t : BitVec 2)
    (s : State) : Host.Outcome State Fault Refusal :=
  lanes2 g d a b m t 2 (fun _ x y => (max x y, 0)) s

/-- vand (R156). -/
def execVand (g : BitVec 4) (d : BitVec 5) (a b : BitVec 6) (m : BitVec 3) (t : BitVec 2)
    (s : State) : Host.Outcome State Fault Refusal :=
  lanes2 g d a b m t 2 (fun _ x y => (x &&& y, 0)) s

/-- vor (R156). -/
def execVor (g : BitVec 4) (d : BitVec 5) (a b : BitVec 6) (m : BitVec 3) (t : BitVec 2)
    (s : State) : Host.Outcome State Fault Refusal :=
  lanes2 g d a b m t 2 (fun _ x y => (x ||| y, 0)) s

/-- vxor (R156). -/
def execVxor (g : BitVec 4) (d : BitVec 5) (a b : BitVec 6) (m : BitVec 3) (t : BitVec 2)
    (s : State) : Host.Outcome State Fault Refusal :=
  lanes2 g d a b m t 2 (fun _ x y => (x ^^^ y, 0)) s

/-- vshli (R157). -/
def execVshli (g : BitVec 4) (d : BitVec 5) (a i : BitVec 6) (m : BitVec 3) (t : BitVec 2)
    (s : State) : Host.Outcome State Fault Refusal :=
  let w := laneBits t
  let p := s.portRead 0 a
  issue g s (.ok (p.2.issueLanes d w (s.readM m.toNat) (s.unsureM m.toNat) 2 fun j =>
    let x := lane w p.1 j
    (x * 2 ^ i.toNat % 2 ^ w, 0)))

/-- vshri (R157). -/
def execVshri (g : BitVec 4) (d : BitVec 5) (a i : BitVec 6) (m : BitVec 3) (t : BitVec 2)
    (s : State) : Host.Outcome State Fault Refusal :=
  let w := laneBits t
  let p := s.portRead 0 a
  issue g s (.ok (p.2.issueLanes d w (s.readM m.toNat) (s.unsureM m.toNat) 2 fun j =>
    let x := lane w p.1 j
    (x / 2 ^ i.toNat, 0)))

/-- vsari (R157). -/
def execVsari (g : BitVec 4) (d : BitVec 5) (a i : BitVec 6) (m : BitVec 3) (t : BitVec 2)
    (s : State) : Host.Outcome State Fault Refusal :=
  let w := laneBits t
  let p := s.portRead 0 a
  issue g s (.ok (p.2.issueLanes d w (s.readM m.toNat) (s.unsureM m.toNat) 2 fun j =>
    let x := lane w p.1 j
    (wrapNat w (signNat x w / ((2 ^ i.toNat : Nat) : Int)), 0)))

/-- vsel (R158): the mask selects and does not enable. -/
def execVsel (g : BitVec 4) (d : BitVec 5) (a b : BitVec 6) (m : BitVec 3) (t : BitVec 2)
    (s : State) : Host.Outcome State Fault Refusal :=
  let w := laneBits t
  let k := laneMask w (512 / w) (s.readM m.toNat)
  let p := s.ports a b
  issue g s (.ok (p.2.2.issueRow d.toNat (s.unsureLanes w (s.unsureM m.toNat) (overlay p.2.1 p.1 k)) 2 0))

/-- vperm (R159). -/
def execVperm (g : BitVec 4) (d : BitVec 5) (a b : BitVec 6) (m : BitVec 3) (t : BitVec 2)
    (s : State) : Host.Outcome State Fault Refusal :=
  let w := laneBits t
  let p := s.ports a b
  issue g s (.ok (p.2.2.issueLanes d w (s.readM m.toNat) (s.unsureM m.toNat) 3 fun i =>
    (lane w p.1 (lane w p.2.1 i % (512 / w)), 0)))

/-- vbc (R160). -/
def execVbc (g : BitVec 4) (d : BitVec 5) (a : BitVec 6) (m : BitVec 3) (t : BitVec 2) (s : State) :
    Host.Outcome State Fault Refusal :=
  let w := laneBits t
  issue g s (.ok (s.issueLanes d w (s.readM m.toNat) (s.unsureM m.toNat) 3 fun _ => ((s.readS a).toNat % 2 ^ w, 0)))

/-- vins (R160). -/
def execVins (g : BitVec 4) (d : BitVec 5) (a l : BitVec 6) (m : BitVec 3) (t : BitVec 2)
    (s : State) : Host.Outcome State Fault Refusal :=
  let w := laneBits t
  issue g s (.ok (s.issueLanes d w (s.readM m.toNat &&& (1#64 <<< l.toNat))
    (s.unsureM m.toNat &&& (1#64 <<< l.toNat)) 3 fun _ => ((s.readS a).toNat % 2 ^ w, 0)))

/-- vext (R161). -/
def execVext (g : BitVec 4) (d a l : BitVec 6) (t : BitVec 2) (s : State) :
    Host.Outcome State Fault Refusal :=
  let p := s.portRead 0 a
  issue g s (.ok (p.2.issueS d (BitVec.ofNat 64 (lane (laneBits t) p.1 l.toNat)) 3))

/-- The bits of a compare's mask: the lanes whose condition holds (R162). -/
def maskOf (n : Nat) (f : Nat → Bool) : Word :=
  BitVec.ofNat 64 (lanesNat 1 ((List.range n).map fun i => if f i then 1 else 0))

/-- vcmp (R162). -/
def execVcmp (g : BitVec 4) (m : BitVec 3) (a b : BitVec 6) (c : BitVec 3) (t : BitVec 2)
    (s : State) : Host.Outcome State Fault Refusal :=
  let w := laneBits t
  let p := s.ports a b
  let f (i : Nat) : Bool :=
    let x := lane w p.1 i
    let y := lane w p.2.1 i
    match c.toNat with
    | 0 => x == y
    | 1 => x != y
    | 2 => decide (signNat x w < signNat y w)
    | 3 => decide (signNat x w ≤ signNat y w)
    | 4 => decide (x < y)
    | _ => decide (y ≤ x)
  issue g s (.ok (p.2.2.issueM m.toNat (maskOf (512 / w) f) 2 0))

/-- mand (R164). -/
def execMand (g : BitVec 4) (d a b : BitVec 3) (s : State) : Host.Outcome State Fault Refusal :=
  let x := s.readM a.toNat
  let y := s.readM b.toNat
  issue g s (.ok (s.issueM d.toNat (x &&& y) 1 0))

/-- mor (R164). -/
def execMor (g : BitVec 4) (d a b : BitVec 3) (s : State) : Host.Outcome State Fault Refusal :=
  let x := s.readM a.toNat
  let y := s.readM b.toNat
  issue g s (.ok (s.issueM d.toNat (x ||| y) 1 0))

/-- mxor (R164). -/
def execMxor (g : BitVec 4) (d a b : BitVec 3) (s : State) : Host.Outcome State Fault Refusal :=
  let x := s.readM a.toNat
  let y := s.readM b.toNat
  issue g s (.ok (s.issueM d.toNat (x ^^^ y) 1 0))

/-- mandn (R164). -/
def execMandn (g : BitVec 4) (d a b : BitVec 3) (s : State) : Host.Outcome State Fault Refusal :=
  let x := s.readM a.toNat
  let y := s.readM b.toNat
  issue g s (.ok (s.issueM d.toNat (x &&& ~~~y) 1 0))

/-- mset (R164). -/
def execMset (g : BitVec 4) (d : BitVec 3) (a : BitVec 6) (s : State) :
    Host.Outcome State Fault Refusal :=
  issue g s (.ok (s.issueM d.toNat (s.readS a) 1 0))

/-- The integer reduction of a list of lane patterns (R172): 0 add, 1 min, 2 max, 3 minn, 4 maxn. -/
def reduceLanes (sat : Bool) (op w : Nat) (l : List Nat) : Nat × Flags :=
  let top := 2 ^ (w - 1)
  match op with
  | 0 => reduceInt sat true w ((l.map fun x => signNat x w).foldl (fun a x => a + x) 0)
  | 1 => (l.foldl (fun a x => if signNat x w < signNat a w then x else a) (top - 1), 0)
  | 2 => (l.foldl (fun a x => if signNat a w < signNat x w then x else a) top, 0)
  | 3 => (l.foldl min (2 ^ w - 1), 0)
  | _ => (l.foldl max 0, 0)

/-- The lanes of a row that a mask enables. -/
def enabledLanes (w : Nat) (r : Row) (m : Word) : List Nat :=
  ((List.range (512 / w)).filter fun i => m.getLsbD i).map fun i => lane w r i

/-- The source lanes that m[i] enables; those under mask bits that are undefined are undefined (R182).
Log 4: DESIGN CHOICE, safe. -/
def State.masked (s : State) (w : Nat) (r : Row) (i : Nat) : List Nat :=
  enabledLanes w (s.unsureLanes w (s.unsureM i) r) (s.readM i)

/-- vredi (R172). -/
def execVredi (g : BitVec 4) (d : BitVec 5) (a : BitVec 6) (o m : BitVec 3) (t : BitVec 2)
    (s : State) : Host.Outcome State Fault Refusal :=
  let w := laneBits t
  let p := s.portRead 0 a
  let r := reduceLanes (fmtSat s.fmt) o.toNat w (s.masked w p.1 m.toNat)
  issue g s (.ok (p.2.issueRow d.toNat (BitVec.ofNat 512 r.1) 6 r.2))

/-- vrfill (R180). -/
def execVrfill (g : BitVec 4) (d : BitVec 5) (m : BitVec 3) (t : BitVec 2) (s : State) :
    Host.Outcome State Fault Refusal :=
  let w := laneBits t
  let r := s.draw 8
  issue g s (.ok (r.2.issueMasked d w (s.readM m.toNat) (s.unsureM m.toNat) (ofWords r.1) 2 0))

/-- vhist (R181, R67). -/
def execVhist (g : BitVec 4) (a : BitVec 6) (f : BitVec 4) (m : BitVec 3) (s : State) :
    Host.Outcome State Fault Refusal :=
  let w := (elemOf f.toNat).width
  let p := s.portRead 0 a
  let h := histCount f.toNat s.px.hist (s.masked w p.1 m.toNat)
  issue g s (.ok (p.2.setPx { p.2.px with hist := h }))

/-- The rotate-merge of two rows by n bytes (R173). -/
def rotateMerge (a b : Row) (n : Nat) : Row :=
  BitVec.ofNat 512 ((a.toNat + b.toNat * 2 ^ 512) / 2 ^ (8 * n))

/-- vrmg by 0 to 31 bytes (R173). -/
def execVrmg031 (g : BitVec 4) (d : BitVec 5) (a b : BitVec 6) (n : BitVec 5) (s : State) :
    Host.Outcome State Fault Refusal :=
  let p := s.ports a b
  issue g s (.ok (p.2.2.issueRow d.toNat (rotateMerge p.1 p.2.1 n.toNat) 2 0))

/-- vrmg by 32 to 63 bytes (R173). -/
def execVrmg3263 (g : BitVec 4) (d : BitVec 5) (a b : BitVec 6) (n : BitVec 5) (s : State) :
    Host.Outcome State Fault Refusal :=
  let p := s.ports a b
  issue g s (.ok (p.2.2.issueRow d.toNat (rotateMerge p.1 p.2.1 (32 + n.toNat)) 2 0))

/-- The bit-plane transpose and its inverse (R174). -/
def bitPlanes (inv : Bool) (a : Row) : Row :=
  BitVec.ofNat 512 (lanesNat 1 ((List.range 512).map fun k =>
    let src := if inv then 64 * (7 - k % 8) + k / 8 else 8 * (k % 64) + (7 - k / 64)
    if a.getLsbD src then 1 else 0))

/-- vbpt (R174). -/
def execVbpt (g : BitVec 4) (d : BitVec 5) (a : BitVec 6) (t : BitVec 2) (s : State) :
    Host.Outcome State Fault Refusal :=
  let p := s.portRead 0 a
  issue g s (.ok (p.2.issueRow d.toNat (bitPlanes (t == 1) p.1) 3 0))

/-- Slot i of n, or its mirror (R175 to R177). -/
def slotOf (rev : Bool) (n i : Nat) : Nat := if rev then n - 1 - i else i

/-- vpack (R175). -/
def execVpack (g : BitVec 4) (d : BitVec 5) (a b : BitVec 6) (w : BitVec 2) (v o : BitVec 1)
    (s : State) : Host.Outcome State Fault Refusal :=
  let p := s.ports a b
  let W := laneBits w
  let n := 512 / W
  let r := ofLanes W ((List.range n).map fun k =>
    let i := slotOf (v == 1) n k
    let j := if o = 1 then 2 * i else i
    wrapNat W (signNat (if j < 64 then lane 8 p.1 j else lane 8 p.2.1 (j - 64)) 8))
  issue g s (.ok (p.2.2.issueRow d.toNat r 3 0))

/-- vunpk (R176). -/
def execVunpk (g : BitVec 4) (d : BitVec 5) (a : BitVec 6) (w : BitVec 2) (v o : BitVec 1)
    (s : State) : Host.Outcome State Fault Refusal :=
  let p := s.portRead 0 a
  let W := laneBits w
  let n := 512 / W
  let cs := (List.range n).map fun i =>
    reduceInt (fmtSat s.fmt) true 8 (signNat (lane W p.1 (slotOf (v == 1) n i)) W)
  let r := ofLanes (if o = 1 then 16 else 8) (cs.map fun c => c.1)
  issue g s (.ok (p.2.issueRow d.toNat r 3 (cs.foldl (fun f c => f ||| c.2) 0)))

/-- vdig (R177, R64). -/
def execVdig (g : BitVec 4) (d : BitVec 5) (a b : BitVec 6) (w : BitVec 2) (v o : BitVec 1)
    (s : State) : Host.Outcome State Fault Refusal :=
  let p := s.ports a b
  let W := laneBits w
  let n := 512 / W
  let ds := extractDigits W (2 * n) (bvInt (p.2.1 ++ p.1))
  let r := ofLanes W ((List.range n).map fun k =>
    wrapNat W (ds.getD (slotOf (v == 1) n k + (if o = 1 then n else 0)) 0))
  issue g s (.ok (p.2.2.issueRow d.toNat r 6 0))

end Sys2Proof.Machine
end

