-- ==== Sys2Proof/Machine/VectorFloat.lean ====
section
/-! DEFINITION. The floating, conversion and block instructions of the V and W slots (R163, R165 to R172, R178,
R179). -/

namespace Sys2Proof.Machine

/-- The rounding of a syllable under fmt as it stands (R21, R50). -/
def State.rnd (s : State) (mode : Nat) : Rnd := ⟨mode, fmtSat s.fmt, fmtFtz s.fmt⟩

/-- A rounded binary operation on the lanes of a format (R165). -/
def floats2 (F : Fmt) (bound : Nat) (f : Rnd → Nat → Nat → Nat → Nat × Flags) (g : BitVec 4)
    (d : BitVec 5) (a b : BitVec 6) (m : BitVec 2) (r : BitVec 3) (s : State) :
    Host.Outcome State Fault Refusal :=
  let w := F.width
  let p := s.ports a b
  let c := p.2.2.chunks r.toNat (512 / w)
  issue g s (.ok (c.2.2.issueLanes d w (s.readM m.toNat) (s.unsureM m.toNat) bound fun i =>
    f (s.rnd c.1) (c.2.1.getD i 0) (lane w p.1 i) (lane w p.2.1 i)))

/-- vfma on the lanes of a format: the third operand is the destination through port C (R165, R87). -/
def floats3 (F : Fmt) (g : BitVec 4) (d : BitVec 5) (a b : BitVec 6) (m : BitVec 2) (r : BitVec 3)
    (s : State) : Host.Outcome State Fault Refusal :=
  let w := F.width
  let p := s.ports a b
  let z := p.2.2.portReg 2 d.toNat
  let c := z.2.chunks r.toNat (512 / w)
  issue g s (.ok (c.2.2.issueLanes d w (s.readM m.toNat) (s.unsureM m.toNat) 5 fun i =>
    fmaF F (s.rnd c.1) (c.2.1.getD i 0) (lane w p.1 i) (lane w p.2.1 i) (lane w z.1 i)))

/-- vfadd on F64 (R165). -/
def execVfaddF64 (g : BitVec 4) (d : BitVec 5) (a b : BitVec 6) (m : BitVec 2) (r : BitVec 3)
    (s : State) : Host.Outcome State Fault Refusal :=
  floats2 fmtF64 4 (addF fmtF64) g d a b m r s

/-- vfadd on F32 (R165). -/
def execVfaddF32 (g : BitVec 4) (d : BitVec 5) (a b : BitVec 6) (m : BitVec 2) (r : BitVec 3)
    (s : State) : Host.Outcome State Fault Refusal :=
  floats2 fmtF32 4 (addF fmtF32) g d a b m r s

/-- vfadd on Bf16 (R165). -/
def execVfaddBf16 (g : BitVec 4) (d : BitVec 5) (a b : BitVec 6) (m : BitVec 2) (r : BitVec 3)
    (s : State) : Host.Outcome State Fault Refusal :=
  floats2 fmtBf16 4 (addF fmtBf16) g d a b m r s

/-- vfadd on F16 (R165). -/
def execVfaddF16 (g : BitVec 4) (d : BitVec 5) (a b : BitVec 6) (m : BitVec 2) (r : BitVec 3)
    (s : State) : Host.Outcome State Fault Refusal :=
  floats2 fmtF16 4 (addF fmtF16) g d a b m r s

/-- vfsub on F64 (R165). -/
def execVfsubF64 (g : BitVec 4) (d : BitVec 5) (a b : BitVec 6) (m : BitVec 2) (r : BitVec 3)
    (s : State) : Host.Outcome State Fault Refusal :=
  floats2 fmtF64 4 (subF fmtF64) g d a b m r s

/-- vfsub on F32 (R165). -/
def execVfsubF32 (g : BitVec 4) (d : BitVec 5) (a b : BitVec 6) (m : BitVec 2) (r : BitVec 3)
    (s : State) : Host.Outcome State Fault Refusal :=
  floats2 fmtF32 4 (subF fmtF32) g d a b m r s

/-- vfsub on Bf16 (R165). -/
def execVfsubBf16 (g : BitVec 4) (d : BitVec 5) (a b : BitVec 6) (m : BitVec 2) (r : BitVec 3)
    (s : State) : Host.Outcome State Fault Refusal :=
  floats2 fmtBf16 4 (subF fmtBf16) g d a b m r s

/-- vfsub on F16 (R165). -/
def execVfsubF16 (g : BitVec 4) (d : BitVec 5) (a b : BitVec 6) (m : BitVec 2) (r : BitVec 3)
    (s : State) : Host.Outcome State Fault Refusal :=
  floats2 fmtF16 4 (subF fmtF16) g d a b m r s

/-- vfmul on F64 (R165). -/
def execVfmulF64 (g : BitVec 4) (d : BitVec 5) (a b : BitVec 6) (m : BitVec 2) (r : BitVec 3)
    (s : State) : Host.Outcome State Fault Refusal :=
  floats2 fmtF64 4 (mulF fmtF64) g d a b m r s

/-- vfmul on F32 (R165). -/
def execVfmulF32 (g : BitVec 4) (d : BitVec 5) (a b : BitVec 6) (m : BitVec 2) (r : BitVec 3)
    (s : State) : Host.Outcome State Fault Refusal :=
  floats2 fmtF32 4 (mulF fmtF32) g d a b m r s

/-- vfmul on Bf16 (R165). -/
def execVfmulBf16 (g : BitVec 4) (d : BitVec 5) (a b : BitVec 6) (m : BitVec 2) (r : BitVec 3)
    (s : State) : Host.Outcome State Fault Refusal :=
  floats2 fmtBf16 4 (mulF fmtBf16) g d a b m r s

/-- vfmul on F16 (R165). -/
def execVfmulF16 (g : BitVec 4) (d : BitVec 5) (a b : BitVec 6) (m : BitVec 2) (r : BitVec 3)
    (s : State) : Host.Outcome State Fault Refusal :=
  floats2 fmtF16 4 (mulF fmtF16) g d a b m r s

/-- vfma on F64 (R165). -/
def execVfmaF64 (g : BitVec 4) (d : BitVec 5) (a b : BitVec 6) (m : BitVec 2) (r : BitVec 3)
    (s : State) : Host.Outcome State Fault Refusal :=
  floats3 fmtF64 g d a b m r s

/-- vfma on F32 (R165). -/
def execVfmaF32 (g : BitVec 4) (d : BitVec 5) (a b : BitVec 6) (m : BitVec 2) (r : BitVec 3)
    (s : State) : Host.Outcome State Fault Refusal :=
  floats3 fmtF32 g d a b m r s

/-- vfma on Bf16 (R165). -/
def execVfmaBf16 (g : BitVec 4) (d : BitVec 5) (a b : BitVec 6) (m : BitVec 2) (r : BitVec 3)
    (s : State) : Host.Outcome State Fault Refusal :=
  floats3 fmtBf16 g d a b m r s

/-- vfma on F16 (R165). -/
def execVfmaF16 (g : BitVec 4) (d : BitVec 5) (a b : BitVec 6) (m : BitVec 2) (r : BitVec 3)
    (s : State) : Host.Outcome State Fault Refusal :=
  floats3 fmtF16 g d a b m r s

/-- A VR instruction of two operands on the lanes of a floating format, rounding to nearest even or not at
all. -/
def floatsVR (bound : Nat) (f : Fmt → Bool → Nat → Nat → Nat × Flags) (g : BitVec 4) (d : BitVec 5)
    (a b : BitVec 6) (m : BitVec 3) (t : BitVec 2) (s : State) : Host.Outcome State Fault Refusal :=
  let F := laneFmt t.toNat
  let w := F.width
  let p := s.ports a b
  issue g s (.ok (p.2.2.issueLanes d w (s.readM m.toNat) (s.unsureM m.toNat) bound fun i =>
    f F (fmtFtz s.fmt) (lane w p.1 i) (lane w p.2.1 i)))

/-- A VR instruction of one operand: its second port field is unused (R73). -/
def floatsV1 (bound : Nat) (f : Fmt → Bool → Nat → Nat × Flags) (g : BitVec 4) (d : BitVec 5)
    (a : BitVec 6) (m : BitVec 3) (t : BitVec 2) (s : State) : Host.Outcome State Fault Refusal :=
  let F := laneFmt t.toNat
  let w := F.width
  let p := s.portRead 0 a
  issue g s (.ok (p.2.issueLanes d w (s.readM m.toNat) (s.unsureM m.toNat) bound fun i =>
    f F (fmtFtz s.fmt) (lane w p.1 i)))

/-- vfmin (R166). -/
def execVfmin (g : BitVec 4) (d : BitVec 5) (a b : BitVec 6) (m : BitVec 3) (t : BitVec 2)
    (s : State) : Host.Outcome State Fault Refusal :=
  floatsVR 2 (fun F z x y => minmaxF F z false x y) g d a b m t s

/-- vfmax (R166). -/
def execVfmax (g : BitVec 4) (d : BitVec 5) (a b : BitVec 6) (m : BitVec 3) (t : BitVec 2)
    (s : State) : Host.Outcome State Fault Refusal :=
  floatsVR 2 (fun F z x y => minmaxF F z true x y) g d a b m t s

/-- vrcps (R168). -/
def execVrcps (g : BitVec 4) (d : BitVec 5) (a b : BitVec 6) (m : BitVec 3) (t : BitVec 2)
    (s : State) : Host.Outcome State Fault Refusal :=
  floatsVR 5 (fun F z x y => refineF F z false x y) g d a b m t s

/-- vrsqs (R168). -/
def execVrsqs (g : BitVec 4) (d : BitVec 5) (a b : BitVec 6) (m : BitVec 3) (t : BitVec 2)
    (s : State) : Host.Outcome State Fault Refusal :=
  floatsVR 5 (fun F z x y => refineF F z true x y) g d a b m t s

/-- vrcpe (R167). -/
def execVrcpe (g : BitVec 4) (d : BitVec 5) (a : BitVec 6) (m : BitVec 3) (t : BitVec 2)
    (s : State) : Host.Outcome State Fault Refusal :=
  floatsV1 4 rcpEst g d a m t s

/-- vrsqe (R167). -/
def execVrsqe (g : BitVec 4) (d : BitVec 5) (a : BitVec 6) (m : BitVec 3) (t : BitVec 2)
    (s : State) : Host.Outcome State Fault Refusal :=
  floatsV1 4 rsqEst g d a m t s

/-- vexp2 (R169). -/
def execVexp2 (g : BitVec 4) (d : BitVec 5) (a : BitVec 6) (m : BitVec 3) (t : BitVec 2)
    (s : State) : Host.Outcome State Fault Refusal :=
  floatsV1 12 exp2F g d a m t s

/-- vlog2 (R169). -/
def execVlog2 (g : BitVec 4) (d : BitVec 5) (a : BitVec 6) (m : BitVec 3) (t : BitVec 2)
    (s : State) : Host.Outcome State Fault Refusal :=
  floatsV1 12 log2F g d a m t s

/-- vfcmp (R163). -/
def execVfcmp (g : BitVec 4) (m : BitVec 3) (a b : BitVec 6) (c : BitVec 3) (t : BitVec 2)
    (s : State) : Host.Outcome State Fault Refusal :=
  let F := laneFmt t.toNat
  let w := F.width
  let p := s.ports a b
  let rs := (List.range (512 / w)).map fun i =>
    compareF F (fmtFtz s.fmt) c.toNat (lane w p.1 i) (lane w p.2.1 i)
  issue g s (.ok (p.2.2.issueM m.toNat (maskOf (512 / w) fun i => (rs.getD i (false, 0)).1) 2
    (rs.foldl (fun f r => f ||| r.2) 0)))

/-- vcvt (R170, R171). -/
def execVcvt (g : BitVec 4) (d : BitVec 5) (a : BitVec 6) (f t : BitVec 4) (r : BitVec 3)
    (s : State) : Host.Outcome State Fault Refusal :=
  let src := elemOf f.toNat
  let dst := elemOf t.toNat
  let n := 512 / max src.width dst.width
  let p := s.portRead 0 a
  let c := p.2.chunks r.toNat n
  let rs := (List.range n).map fun i =>
    convert src dst (f == t) (s.rnd c.1) (c.2.1.getD i 0) (lane src.width p.1 i)
  issue g s (.ok (c.2.2.issueRow d.toNat (ofLanes dst.width (rs.map fun x => x.1)) 4
    (rs.foldl (fun fl x => fl ||| x.2) 0)))

/-- An input of vredf as it takes part: flushed, and a NaN canonical (R46, R49). -/
def redInput (F : Fmt) (ftz : Bool) (x : Nat) : Nat × Flags :=
  let v := flushIn F ftz x
  (if isNanV v.1 then F.canon else passF F ftz x, v.2 ||| nanFlags v.1)

/-- One node of the pairwise tree (R172). -/
def redNode (f : Nat → Nat → Nat × Flags) : Option Nat → Option Nat → Option Nat × Flags
  | some x, some y => (some (f x y).1, (f x y).2)
  | none, y => (y, 0)
  | x, none => (x, 0)

/-- One level of the tree. -/
def redLevel (f : Nat → Nat → Nat × Flags) : List (Option Nat) → List (Option Nat) × Flags
  | x :: y :: t =>
    let n := redNode f x y
    let r := redLevel f t
    (n.1 :: r.1, n.2 ||| r.2)
  | l => (l, 0)

/-- The tree, level by level, until one value is left (R172). -/
def redTree (f : Nat → Nat → Nat × Flags) : Nat → List (Option Nat) → Option Nat × Flags
  | 0, l => (l.headD none, 0)
  | n + 1, l =>
    let r := redLevel f l
    let q := redTree f n r.1
    (q.1, r.2 ||| q.2)

/-- The node operation of a floating reduction: 0 add, 1 min, 2 max. -/
def redOp (F : Fmt) (ftz : Bool) (op x y : Nat) : Nat × Flags :=
  if op = 0 then addF F ⟨0, false, ftz⟩ 0 x y else minmaxF F ftz (op == 2) x y

/-- vredf (R172). -/
def execVredf (g : BitVec 4) (d : BitVec 5) (a : BitVec 6) (o m : BitVec 3) (t : BitVec 2)
    (s : State) : Host.Outcome State Fault Refusal :=
  let F := laneFmt t.toNat
  let w := F.width
  let ftz := fmtFtz s.fmt
  let mk := s.readM m.toNat
  let p := s.portRead 0 a
  let v := s.unsureLanes w (s.unsureM m.toNat) p.1
  let ins := (List.range (512 / w)).map fun i =>
    if mk.getLsbD i then some (redInput F ftz (lane w v i)) else none
  let fl := ins.foldl (fun f x => match x with
    | some y => f ||| y.2
    | none => f) (0 : Flags)
  let r := redTree (redOp F ftz o.toNat) 5 (ins.map fun x => x.map fun y => y.1)
  let z := match r.1 with
    | some x => x
    | none => if o = 0 then 0 else infBits F (o == 2)
  issue g s (.ok (p.2.issueRow d.toNat (BitVec.ofNat 512 z) 10 (fl ||| r.2)))

/-! ## Block quantise and dequantise -/

/-- The shift h of a destination format (R178). -/
def blockShift (code : Nat) : Int := if code = 12 then 8 else if code = 13 then 15 else 6

/-- One element quantised under scale exponent X (R178): a clamp sets saturated, never overflow. -/
def quantOne (code mode : Nat) (ftz : Bool) (X : Int) (rb : Nat) : Fv → Nat × Flags
  | .fin neg n d =>
    let v := scale2 n d (-X)
    match elemOf code with
    | .flt T => roundF T mode true ftz neg v.1 v.2 rb
    | .int _ _ =>
      let q := roundNat mode neg v.1 v.2 rb
      let inexact := flagIf (v.1 % v.2 != 0 || decide (127 < q)) flInexact
      let z : Int := if neg then -(min q 127 : Nat) else (min q 127 : Nat)
      (wrapNat 8 z, inexact ||| flagIf (decide (127 < q)) flSaturated)
  | _ => (0, 0)

/-- The block row and flags of 32 elements (R178). -/
def quantise (F : Fmt) (code mode : Nat) (ftz : Bool) (rbs : List Nat) (xs : List Nat) : Row × Flags :=
  let vs := xs.map fun x => flushIn F ftz x
  let fl := vs.foldl (fun f v => f ||| v.2) (0 : Flags)
  let fin := vs.all fun v => match v.1 with
    | .fin _ _ _ => true
    | _ => false
  if fin = false then (setBits 0 256 8 255, fl ||| flInvalid)
  else
    let e? := vs.foldl (fun (acc : Option Int) v => match v.1 with
      | .fin _ n d =>
        if n = 0 then acc else some (match acc with
          | none => floorLog2 n d
          | some k => max k (floorLog2 n d))
      | _ => acc) none
    match e? with
    | none => (0, fl)
    | some k =>
      let X := max (-127) (k - blockShift code)
      let qs := (List.range 32).map fun i =>
        quantOne code mode ftz X (rbs.getD i 0) (vs.getD i (.fin false 0 1, 0)).1
      (setBits (ofLanes 8 (qs.map fun q => q.1)) 256 8 (X + 127).toNat,
       qs.foldl (fun f q => f ||| q.2) fl)

/-- vbq (R178). -/
def execVbq (g : BitVec 4) (d : BitVec 5) (a : BitVec 6) (f t : BitVec 4) (r : BitVec 3) (s : State) :
    Host.Outcome State Fault Refusal :=
  let F := match elemOf f.toNat with
    | .flt F => F
    | .int _ _ => fmtF32
  let p := s.portRead 0 a
  let hi := s.readV (a.toNat + 1)
  let xs := (List.range 32).map fun i =>
    if f = 9 then (if i < 16 then lane 32 p.1 i else lane 32 hi (i - 16)) else lane 16 p.1 i
  let c := p.2.chunks r.toNat 32
  let q := quantise F t.toNat c.1 (fmtFtz s.fmt) c.2.1 xs
  issue g s (.ok (c.2.2.issueRow d.toNat q.1 6 q.2))

/-- One element of a block row as an exact value, before its scale (R179). -/
def blockElem (code : Nat) (ftz : Bool) (x : Nat) : Fv × Flags :=
  match elemOf code with
  | .flt F =>
    let v := flushIn F ftz x
    (v.1, v.2 ||| nanFlags v.1)
  | .int _ _ => (intV (signNat x 8), 0)

/-- One element expanded (R179). -/
def expandOne (T : Fmt) (code : Nat) (r : Rnd) (sc rb x : Nat) : Nat × Flags :=
  let v := blockElem code r.ftz x
  let z := match v.1 with
    | .fin neg n d =>
      let y := scale2 n d ((sc : Int) - 127)
      Fv.fin neg y.1 y.2
    | w => w
  let q := deliver T r rb z
  (q.1, v.2 ||| q.2)

/-- vbdq (R179).
Log 127: DESIGN CHOICE, unsafe. -/
def execVbdq (g : BitVec 4) (d : BitVec 5) (a : BitVec 6) (f t : BitVec 4) (r : BitVec 3)
    (s : State) : Host.Outcome State Fault Refusal :=
  let T := match elemOf t.toNat with
    | .flt T => T
    | .int _ _ => fmtF32
  let p := s.portRead 0 a
  let c := p.2.chunks r.toNat 32
  let sc := lane 8 p.1 32
  let qs := (List.range 32).map fun i =>
    if sc = 255 then (T.canon, flInvalid)
    else expandOne T f.toNat (s.rnd c.1) sc (c.2.1.getD i 0) (lane 8 p.1 i)
  let fl := qs.foldl (fun f q => f ||| q.2) (0 : Flags)
  let ls := qs.map fun q => q.1
  issue g s (.ok (if t = 9 then
      (c.2.2.issueRow d.toNat (ofLanes 32 (ls.take 16)) 6 fl).issueRow (d.toNat + 1)
        (ofLanes 32 (ls.drop 16)) 6 fl
    else c.2.2.issueRow d.toNat (ofLanes 16 ls) 6 fl))

end Sys2Proof.Machine
end

