-- ==== Sys2Proof/Machine/BaseDie.lean ====
section
/-! DEFINITION. The base dies' own events (R149, R236, R332 to R345, R378): ordered adds, reductions, parity
differences, recovery of uncorrectable reads, the row-remap table, write-backs and the spread of writes. -/

namespace Sys2Proof.Machine

/-! ## Combining elements (R339, R350) -/

/-- op of two elements: 0 add, 1 min, 2 max; integers wrap, or saturate where asked. -/
def combineElem (el op : Nat) (sat : Bool) (x y : Nat) : Nat × Flags :=
  match elemOf el with
  | .flt F => redOp F false op x y
  | .int signed w =>
    let v (z : Nat) : Int := if signed then signNat z w else (z : Int)
    if op = 0 then reduceInt sat signed w (v x + v y)
    else if op = 1 then (if v x ≤ v y then x else y, 0)
    else (if v x ≤ v y then y else x, 0)

/-- op of two rows, element by element. -/
def combineRow (el op : Nat) (sat : Bool) (a b : Row) : Row × Flags :=
  let w := (elemOf el).width
  let rs := (List.range (512 / w)).map fun i => combineElem el op sat (lane w a i) (lane w b i)
  (ofLanes w (rs.map fun r => r.1), rs.foldl (fun f r => f ||| r.2) 0)

/-- One row of a reduction: the tree of R172 over the sources that are present. -/
def reduceRow (el op : Nat) (rows : List Row) : Row × Flags :=
  let w := (elemOf el).width
  let rs := (List.range (512 / w)).map fun i =>
    let r := redTree (combineElem el op false) 3
      ((List.range 8).map fun j => (rows[j]?).map fun v => lane w v i)
    (r.1.getD 0, r.2)
  (ofLanes w (rs.map fun r => r.1), rs.foldl (fun f r => f ||| r.2) 0)

/-! ## Memory-side order -/

/-- ORDERED_ADD_ARRIVAL (R149, R150, R337). -/
def execOrderedAddArrival (idx : Nat) (s : State) : Host.Outcome State Fault Refusal :=
  .next (s.arriveAt idx)

/-- WRITE_REACHES_AGENT (R236, R244): allowed once its issuer's posted stores that an earlier publication of it covers have
been performed (item 2); the writes that must reach the agent before it do so with it (`State.reachAgent`). -/
def State.mayReach (s : State) (w : WriteRec) (a : Agent) : Bool :=
  !(s.reaches w a) &&
  !(s.mem.ways.any fun p => p.by_ == w.by_ && match p.pub with
    | some n => decide (n ≤ w.ident)
    | none => false)

/-- WRITE_REACHES_AGENT (R236): a write reaches an agent. -/
def execWriteReachesAgent (write : Nat) (a : Agent) (s : State) : Host.Outcome State Fault Refusal :=
  match s.mem.log.find? fun w => w.ident = write with
  | none => .next s
  | some w =>
    if s.mayReach w a then .next (s.reachAgent write a) else .next s

/-- CACHE_LINE_WRITE_BACK (R251, R378): a dirty line's row written back at any time. -/
def execCacheLineWriteBack (row : Nat) (s : State) : Host.Outcome State Fault Refusal :=
  .next { s with mem := s.mem.writeBack row }

/-! ## The reduction engine (R338 to R340) -/

/-- The transfer of a reduction block. -/
def State.blockXfer (s : State) (b : RedBlock) : Option Xfer := s.findXfer b.core b.fw b.chan b.ident

/-- One row of a block reduced: every source is read before the destination is written; a poisoned source
poisons the destination row (R394).
Log 43: DESIGN CHOICE, unsafe. -/
def State.reduceOne (s : State) (b : RedBlock) (x : Xfer) : State :=
  let j := x.pos
  let at_ (i : Nat) : Nat := wrapAddr ((dw b.words i).toNat + 64 * j : Nat)
  let srcs := (List.range (redSources b.words)).map fun i => at_ (4 + i)
  let read := srcs.foldl (fun (acc : Option (List Row × Bool × State)) va =>
    match acc with
    | none => none
    | some r => (r.2.2.engRow b.core x va).map fun q => (r.1 ++ [q.1], r.2.1 || q.2.1, q.2.2)) (some ([], false, s))
  match read with
  | none => srcs.foldl (fun s va =>
      match s.blockXfer b with
      | some y => s.engAsk b.core y va
      | none => s) s
  | some r =>
    let v := reduceRow (fld (dw b.words 0) 52 4) (fld (dw b.words 0) 56 2) r.1
    match r.2.2.engStore b.core x (at_ 1) (Patch.row v.1) r.2.1 with
    | none => s
    | some q =>
      q.2.setXfer b.core
        { q.1 with pos := j + 1, wrote := true, answers := [], asked := [],
                   carry := [(0, (BitVec.ofNat 7 (x.carry.headD (0, 0)).2 ||| v.2).toNat)] }

/-- The bytes of a word. -/
def wordOctets (v : Word) : List Nat := (List.range 8).map fun i => fld v (8 * i) 8

/-- The completion word written (R339, R340): the value with the flags ORed in, at its home; nothing while the row of a
remote home that holds it enciphered is not known. -/
def State.reduceWord (s : State) (b : RedBlock) (x : Xfer) : Option (Xfer × State) :=
  let va := (dw b.words 2).toNat
  let v := dw b.words 3 ||| BitVec.ofNat 64 (x.carry.headD (0, 0)).2
  match if va = 0 then none else x.acc va with
  | none => some (x, s)
  | some acc =>
    if s.isRemote acc ∧ acc.leaf.ek = 0 then
      some ({ x with posted := x.posted + 1 }, (s.flushPubs (x.agent b.core)).sendFlit acc.leaf.home 1
        ((acc.wordFlit (engTag b.core x) v).forRank x.vrank))
    else s.engStore b.core x va (({} : Patch).add (va % 64) (wordOctets v)) false

/-- REDUCTION_BLOCK_RUN (R209, R339, R340): the stack's oldest block, once the earlier identifiers of its channel have
begun, advances by a row, or ends: the destination published, the completion word written and published, the block's
identifier complete. -/
def execReductionBlockRun (stack : Nat) (s : State) : Host.Outcome State Fault Refusal :=
  match s.mem.red.find? fun b => b.stack = stack with
  | none => .next s
  | some b =>
    match s.blockXfer b with
    | none => .next { s with mem := { s.mem with red := s.mem.red.filter fun y => y ≠ b } }
    | some x =>
      if s.held b.core x then .next s
      else if x.pos < fld (dw b.words 0) 0 26 then .next (s.reduceOne b x)
      else if x.posted ≠ 0 then .next s
      else if x.index = [] then
        let a := x.agent b.core
        let s1 := if b.rl then s.publish a (.context b.core b.fw) b.sc else s
        match s1.reduceWord b x with
        | none => .next (s.engAsk b.core x (dw b.words 2).toNat)
        | some r => .next (r.2.setXfer b.core { r.1 with index := [1] })
      else
        let a := x.agent b.core
        let s1 := if b.rl then s.publish a (.context b.core b.fw) b.sc else s
        let s2 := { s1 with mem := { s1.mem with red := s1.mem.red.filter fun y => y ≠ b } }
        .next ((s2.dropXfer b.core x).completeId b.core x.fw x.chan x.ident)

/-! ## Parity regions and recovery (R334, R343) -/

/-- PARITY_DIFFERENCE_APPLY (R334): a difference reaches its parity row. -/
def execParityDifferenceApply (idx : Nat) (s : State) : Host.Outcome State Fault Refusal :=
  match s.mem.diffs[idx]? with
  | none => .next s
  | some d => .next { s with mem := { s.mem with diffs := s.mem.diffs.eraseIdx idx }.applyDiff d }

/-! ## The row-remap table and recovery (R343 to R345) -/

/-- An error of a row that its ECC corrects, counted for its DRAM row (R344). -/
def State.correctedError (s : State) (r : Nat) : State :=
  if inHbm (64 * r) 64 then
    let p := s.mem.dramPlace r
    let n := dramNumber p.1 p.2.1 p.2.2.1 p.2.2.2
    { s with mem := { s.mem with corrected := Tab.put s.mem.corrected n (Tab.get 0 s.mem.corrected n + 1) } }
  else s

/-- A row that its ECC cannot correct from now on (R343): memory that software may map. -/
def State.cellError (s : State) (r : Nat) : State :=
  if inMemory (64 * r) 64 then { s with mem := { s.mem with uncorr := insertNat s.mem.uncorr r } } else s

/-- The refresh of a bank begins, with the wait hint that requests meet, or ends (R341). -/
def State.refreshBank (s : State) (bank hint : Nat) : State :=
  let l := s.mem.refresh
  { s with mem := { s.mem with refresh :=
      if (l.any fun e => e.1 = bank) = true then l.filter fun e => e.1 ≠ bank else (bank, hint % 1024) :: l } }

/-- The wait hint with which a request to a row is answered instead of being performed (R341, R345). -/
def State.waitHint (s : State) (r : Nat) : Option Nat :=
  if s.mem.blocked r then some 1023
  else if inHbm (64 * r) 64 then (s.mem.refresh.find? fun e => e.1 = s.mem.bankOf r).map fun e => e.2
  else none

/-- ROW_REMAP (R344): after a DRAM row's fourth corrected error. -/
def execRowRemap (channel pseudo bank dramRow : Nat) (s : State) : Host.Outcome State Fault Refusal :=
  if Tab.get 0 s.mem.corrected (dramNumber channel pseudo bank dramRow) < 4 then .next s
  else .next { s with mem := s.mem.remap channel pseudo bank dramRow }.reportPending

/-- REMAP_TABLE_RELOAD (R345): a channel's tables loaded from their authoritative copies. -/
def execRemapTableReload (channel : Nat) (s : State) : Host.Outcome State Fault Refusal :=
  .next { s with mem := s.mem.reloadRemap channel }

/-- UNCORRECTABLE_READ (R343): rebuilt from its group once no difference is on its way to it, or read from its
copy, or poisoned. -/
def execUncorrectableRead (row : Nat) (s : State) : Host.Outcome State Fault Refusal :=
  if ((s.mem.group row).any fun g => s.mem.diffs.any fun d => g.contains d.1) = true then .next s
  else .next { s with mem := s.mem.recover row }.reportPending

/-! ## Registers that reach the whole module -/

/-- TREG_WRITE (R332): a write of treg starts the load of the region table. -/
def execTregWrite (_core : Nat) (v : Word) (s : State) : Host.Outcome State Fault Refusal :=
  .next (s.tregLoad v)

/-- REGION_TABLE_LOAD_COMPLETE (R332, R333, R335). -/
def execRegionTableLoadComplete (s : State) : Host.Outcome State Fault Refusal := .next s.tregDone

/-- TKEY7_WRITE (R324): a write of tkey7 installs both keys. -/
def execTkey7Write (core : Nat) (v : Word) (s : State) : Host.Outcome State Fault Refusal :=
  .next (s.tkey7 core v)

end Sys2Proof.Machine
end

