-- ==== Sys2Proof/Machine/Dispatcher.lean ====
section
/-! DEFINITION. The dispatchers (R284 to R290, R301 to R309, R450): effective region values, ready packets, the
choice of a strand, its start, the dispatch trace, pre-emption and partition changes (R252, R379). -/

namespace Sys2Proof.Machine

/-! ## Region blocks (R283, R284) -/

/-- The 16 words of a region block. -/
def State.block (s : State) (asid : BitVec 16) (rcb : Addr) : Option (List Word) :=
  match s.hubRead asid rcb, s.hubRead asid (rcb + 64) with
  | some a, some b => some (rowWords a ++ rowWords b)
  | _, _ => none

/-- The values that a block's word 1 holds. -/
def ownEff (w : Word) : Eff where
  ncore := fld w 56 8
  nrow := fld w 43 13
  nslot := fld w 29 14
  nchan := fld w 24 5
  prio := fld w 21 3
  fdom := fld w 17 4

/-- A block that breaks R283 or R284; the root's overrides are all set.
Log 53: DEDUCED, unsafe. -/
def blockBad (root : Bool) (rcb : Addr) (w : List Word) : Bool :=
  let e := ownEff (dw w 1)
  let parent := fld (dw w 0) 0 48
  rcb.toNat % 128 != 0 || fld (dw w 0) 48 16 != 0 || fld (dw w 0) 0 7 != 0 || fld (dw w 1) 6 11 != 0 ||
    e.ncore == 0 || decide (200 < e.ncore) || decide (4608 < e.nrow) || e.nrow % 128 != 0 || e.nslot == 0 ||
    decide (8192 < e.nslot) || decide (16 < e.nchan) || decide (3 < e.fdom) || fld (dw w 4) 48 16 != 0 ||
    fld (dw w 4) 0 6 != 0 || fld (dw w 7) 1 47 != 0 || [8, 9, 10, 11].any (fun j => dw w j != 0) ||
    (if root then fld (dw w 1) 0 6 != 0x3F || parent != 0 else parent == 0)

/-- A block's values under its parent's, and whether one was clamped (R284).
Log 53: DEDUCED, unsafe. -/
def mergeEff (ovr : Nat) (own p : Eff) : Eff × Bool :=
  let set (i : Nat) : Bool := ovr / 2 ^ i % 2 == 1
  let f (i a b : Nat) : Nat := if set i then min a b else b
  let clamped (i a b : Nat) : Bool := set i && decide (b < a)
  ({ ncore := f 0 own.ncore p.ncore, nrow := f 1 own.nrow p.nrow, nslot := f 2 own.nslot p.nslot,
     nchan := f 3 own.nchan p.nchan, prio := f 4 own.prio p.prio,
     fdom := if set 5 then own.fdom else p.fdom },
   clamped 0 own.ncore p.ncore || clamped 1 own.nrow p.nrow || clamped 2 own.nslot p.nslot ||
     clamped 3 own.nchan p.nchan || clamped 4 own.prio p.prio)

/-- The effective values of a block, whether one was clamped, and the blocks above it with their ncore; nothing
on a format error.
Log 53: DEDUCED, unsafe; log 54: DEDUCED, unsafe. -/
def State.effFrom (s : State) (asid : BitVec 16) (root : Addr) :
    Nat → Addr → Option (Eff × Bool × List (Addr × Nat))
  | 0, _ => none
  | n + 1, rcb =>
    match s.block asid rcb with
    | none => none
    | some w =>
      if blockBad (rcb = root) rcb w then none
      else if rcb = root then some (ownEff (dw w 1), false, [])
      else
        let parent : Addr := (dw w 0).setWidth 48
        match s.effFrom asid root n parent with
        | none => none
        | some p =>
          let m := mergeEff (fld (dw w 1) 0 6) (ownEff (dw w 1)) p.1
          some (m.1, m.2, (parent, p.1.ncore) :: p.2.2)

/-- Effective values in the layout of word 1, with every override set. -/
def effWord (e : Eff) : Word :=
  BitVec.ofNat 64 (e.ncore * 2 ^ 56 + e.nrow * 2 ^ 43 + e.nslot * 2 ^ 29 + e.nchan * 2 ^ 24 + e.prio * 2 ^ 21 +
    e.fdom * 2 ^ 17 + 0x3F)

/-- The blocks from one upward to the rank's root, as far as they are there to be read. -/
def State.blocksUp (s : State) (asid : BitVec 16) (root : Addr) : Nat → Addr → List Addr
  | 0, _ => []
  | n + 1, b =>
    b :: if b = root then []
      else match s.hubRead asid b with
        | none => []
        | some r => if (rowWord r 0).setWidth 48 = (0 : Addr) then [] else s.blocksUp asid root n ((rowWord r 0).setWidth 48)

def State.setRegion (s : State) (g : Region) : State :=
  { s with disp := { s.disp with regions := s.disp.regions.map fun x =>
      if x.asid = g.asid ∧ x.rcb = g.rcb then g else x } }

def State.findRegion (s : State) (asid : BitVec 16) (rcb : Addr) : Option Region :=
  s.disp.regions.find? fun x => x.asid = asid ∧ x.rcb = rcb

/-- The depth to which a chain of parents is followed.
Log 54: DEDUCED, unsafe. -/
def chainDepth : Nat := 4096

/-- A report of a dispatcher about a region. -/
def State.regionMc (s : State) (src die : Nat) (g : Region) (det : Word) : State :=
  s.raiseMc ⟨BitVec.ofNat 8 src, BitVec.ofNat 8 die, g.vrank, g.rcb.setWidth 64, det⟩

/-- A region's effective values computed where they are not known (R284); a format error stops it. -/
def State.refresh (s : State) (die : Nat) (g : Region) : State :=
  if g.eff.isSome || g.err then s
  else
    match s.effFrom g.asid (s.rankRoot g.vrank) chainDepth g.rcb with
    | some r =>
      let s1 := s.hubRewrite g.asid g.rcb fun x =>
        setBits (setRowWord x 2 (effWord r.1)) 448 1 (if r.2.1 then 1 else 0)
      s1.setRegion { g with eff := some r.1, chain := r.2.2, again := false }
    | none => ((s.setStop g.asid g.rcb 2).setRegion { g with err := true, again := false }).regionMc 0x07 die g 0

def Region.holds (g : Region) : Bool := !g.ready.isEmpty || !g.launches.isEmpty

/-- A region known to the dispatchers from now on.
Log 53: DEDUCED, unsafe. -/
def State.addRegion (s : State) (asid : BitVec 16) (rcb : Addr) (v : BitVec 16) : State :=
  if (s.findRegion asid rcb).isSome then s
  else
    let g : Region :=
      { asid := asid, rcb := rcb, vrank := v, eff := none, chain := [], ready := [], launches := [] }
    { s with disp := { s.disp with regions := s.disp.regions ++ [g] } }

def State.traceMode (s : State) (v : BitVec 16) : Nat := fld (s.rankWord v 8) 62 2

/-- Where entry i of a rank's trace lies: its row and its first word there. -/
def State.traceAt (s : State) (v : BitVec 16) (i : Nat) : Addr × Nat :=
  ((s.rankWord v 8).setWidth 48 + BitVec.ofNat 48 (16 * i / 64 * 64), 2 * (i % 4))

/-- The entries that a 48-bit address space can hold: a replayed trace is read to its end.
Log 55: DEDUCED, unsafe. -/
def traceReach : Nat := 2 ^ 44

/-- The entries of a rank's trace from number i on, with their regions: it ends at the first entry that names no region, or
that cannot be read.
Log 55: DEDUCED, unsafe. -/
def State.traceFrom (s : State) (r : Rank) : Nat → Nat → List (Nat × Addr)
  | 0, _ => []
  | n + 1, i =>
    let a := s.traceAt r.vrank i
    match s.hubRead r.asid a.1 with
    | none => []
    | some x =>
      let rcb : Addr := (rowWord x a.2).setWidth 48
      if rcb = 0 then [] else (i, rcb) :: s.traceFrom r n (i + 1)

/-- What is left of the trace of a replayed rank. -/
def State.traceLeft (s : State) (r : Rank) : List (Nat × Addr) :=
  if s.traceMode r.vrank = 2 then s.traceFrom r traceReach (s.rankWord r.vrank 9).toNat else []

/-- The regions whose ready queues the dispatchers serve: the resident ranks' roots, those that a replayed trace still names, and
the blocks that a cached queue header names as its owner and that name that queue as their ready queue.
Log 53: DEDUCED, unsafe. -/
def State.discover (s : State) : State :=
  let s1 := s.disp.ranks.foldl (fun s r =>
    if s.rankHere r.vrank then
      (s.rankRoot r.vrank :: ((s.traceLeft r).filter fun e => !r.consumed.contains e.1).map fun e => e.2).foldl
        (fun s b => s.addRegion r.asid b r.vrank) s
    else s) s
  s1.hub.queueTable.foldl (fun s e =>
    match s.disp.ranks.find? fun r => r.asid = e.1 with
    | none => s
    | some r =>
      let own : Addr := (e.2.2.getD 4 0).setWidth 48
      match s.block e.1 own with
      | some w => if (dw w 4).setWidth 48 = e.2.1 then s.addRegion e.1 own r.vrank else s
      | none => s) s1

/-- The values of a region that a record or a launch packet names (R284). -/
def State.named (s : State) (die : Nat) (asid : BitVec 16) (rcb : Addr) : State :=
  match s.findRegion asid rcb with
  | some g => s.refresh die g
  | none => s

/-- The values of every region that holds a record or a launch packet, and of those that an announcement has named or lies
above, brought up to date (R284). -/
def State.refreshAll (s : State) (die : Nat) : State :=
  s.disp.regions.foldl (fun s g => if g.holds || g.again then s.named die g.asid g.rcb else s) s

/-! ## Ready packets (R289) -/

/-- A region is stopped when its block says so (R284, R309). -/
def State.regionStop (s : State) (g : Region) : Nat :=
  match s.block g.asid g.rcb with
  | some w => fld (dw w 7) 48 8
  | none => 2

/-- res of a rank (R282). -/
def State.rankRes (s : State) (v : BitVec 16) : Nat := fld (s.rankWord v 0) 32 4

/-- Whether the dispatchers take packets from the ready queue of a region (R301). -/
def State.served (s : State) (g : Region) : Bool :=
  s.rankHere g.vrank && s.regionStop g == 0 && s.rankRes g.vrank == 0 && s.disp.ranks.any fun r => r.vrank = g.vrank ∧ r.asid = g.asid

/-- Whether they take strands of it: its values are known and have no format error (R284, R301). -/
def State.serves (s : State) (g : Region) : Bool := g.eff.isSome && s.served g

/-- A ready packet dropped. -/
def State.dropPacket (s : State) (g : Region) : State := s.hubRewrite g.asid g.rcb (addField 384 64 1)

/-- Reserved bits of a ready packet. -/
def packetReserved (v : Row) : Bool :=
  fld (rowWord v 0) 48 16 != 0 || fld (rowWord v 0) 0 6 != 0 ||
    [1, 2, 3, 4, 5, 6].any (fun j => rowWord v j != 0) || fld (rowWord v 7) 0 63 != 0

/-- A record eligible on a packet, and known from now on. -/
def State.makeEligible (s : State) (g : Region) (rec : Addr) (age : Nat) : State :=
  let s1 := s.setRegion { g with ready := g.ready ++ [(rec, age, s.hub.gtime)] }
  let l := if s1.disp.known.contains (g.asid, rec) then s1.disp.known else s1.disp.known ++ [(g.asid, rec)]
  { s1 with disp := { s1.disp with known := l } }

/-- A packet that the dispatchers have taken from a region's ready queue (R289, R297); a launch, or a record that is
eligible on it, names the region (R284). -/
def State.onPacket (s : State) (die : Nat) (asid : BitVec 16) (rcb : Addr) (i : Nat) (v : Row) : State :=
  match s.findRegion asid rcb with
  | none => s
  | some g =>
    if v.getLsbD 510 then (s.setRegion { g with launches := g.launches ++ [(i, v)] }).named die asid rcb
    else if packetReserved v then s.dropPacket g
    else
      let rec_ : Addr := (rowWord v 0).setWidth 48
      match s.hubRead asid rec_ with
      | none => s.dropPacket g
      | some r =>
        let st := recSt r
        let known := g.ready.any fun e => e.1 = rec_
        let aged (x : Row) : Row := setRowWord x 2 (BitVec.ofNat 64 i)
        if st = 1 ∨ st = 4 then
          ((s.hubRewrite asid rec_ fun x => setRecSt 2 (aged x)).makeEligible g rec_ i).named die asid rcb
        else if st = 2 ∧ fld (rowWord r 3) 32 32 = 0 ∧ known = false then
          let s1 := (s.hubRewrite asid rec_ aged).makeEligible g rec_ i
          (s1.named die asid rcb).countLive asid rcb 1
        else if st = 2 ∧ (rowWord r 2).toNat = i ∧ known = false then (s.makeEligible g rec_ i).named die asid rcb
        else if st = 3 then s.hubRewrite asid rec_ fun x => setBits x 256 1 1
        else s.dropPacket g

/-- The packets taken for a region, in order, as far as the records that they name are there to be read. -/
def State.settlePkts (s : State) (die : Nat) (asid : BitVec 16) (rcb : Addr) : Nat → State
  | 0 => s
  | n + 1 =>
    match s.findRegion asid rcb with
    | none => s
    | some g =>
      match g.pkts with
      | [] => s
      | p :: t =>
        let rec_ : Word := (rowWord p.2 0) &&& 0xFFFFFFFFFFFF
        let named := !p.2.getLsbD 510 && !packetReserved p.2
        let s1 := if named then s.touch asid rec_ else s
        if named && !s1.rowReady asid rec_ then s1
        else
          let s2 := (s1.setRegion { g with pkts := t }).onPacket die asid rcb p.1 p.2
          (if named then s2.dropAnswers [(asid, rec_)] else s2).settlePkts die asid rcb n

/-- Whether packets of a region wait for their records. -/
def State.pktsWait (s : State) (asid : BitVec 16) (rcb : Addr) : Bool :=
  (s.findRegion asid rcb).any fun g => !g.pkts.isEmpty

/-- A packet that has been taken from a region's ready queue. -/
def State.gotPacket (s : State) (die : Nat) (asid : BitVec 16) (rcb : Addr) (p : Nat × Row) : State :=
  match s.findRegion asid rcb with
  | none => s
  | some g => (s.setRegion { g with pkts := g.pkts ++ [p] }).settlePkts die asid rcb 1

/-- Packets taken from a region's ready queue until it is empty, a slot is not yet written, or a record has to be fetched
from another module. -/
def State.drainQueue (s : State) (die : Nat) (asid : BitVec 16) (rcb q : Addr) : Nat → State
  | 0 => s
  | n + 1 =>
    match s.take .queueController asid q with
    | (none, s1) => s1
    | (some p, s1) =>
      let s2 := s1.gotPacket die asid rcb p
      if s2.pktsWait asid rcb then s2 else s2.drainQueue die asid rcb q n

/-- A step of the same for a ready queue that another module holds: whether it may still hold packets stands in the region.
Log 45: DEDUCED, unsafe. -/
def State.drainFar (s : State) (die : Nat) (asid : BitVec 16) (rcb q : Addr) (acc : Acc) : State :=
  let r := (s.actFor (s.asidRank asid)).takeFar asid q acc
  let s1 := r.2.actFor s.iss.acting
  let left (s : State) (far : Bool) : State :=
    match s.findRegion asid rcb with
    | some g => s.setRegion { g with far := far }
    | none => s
  match r.1 with
  | .taken i v => left (s1.gotPacket die asid rcb (i, v)) true
  | .empty => left s1 false
  | .later => left s1 true

/-- Packets that a queue holds. -/
def State.queueCount (s : State) (asid : BitVec 16) (q : Addr) : Nat :=
  match s.headerAt asid q with
  | some h => (h.wi - h.ri).toNat
  | none => 0

/-- The ready queue of a region whose block has been written. -/
def State.regionQueue (s : State) (asid : BitVec 16) (rcb : Addr) : Option Addr :=
  if s.hubRead asid rcb = some 0 then none else s.readyQueue asid rcb

/-- The ready queue of a region drained. -/
def State.drainRegion (s0 : State) (die : Nat) (g : Region) : State :=
  let s := s0.settlePkts die g.asid g.rcb g.pkts.length
  if s.pktsWait g.asid g.rcb then s
  else
    match s.regionQueue g.asid g.rcb with
    | none => s
    | some q =>
      let t := s.openWalk .atomic g.asid (q.setWidth 64) 4
      match t.queueAcc g.asid .atomic (q.setWidth 64) with
      | .ok acc =>
        if t.isRemote acc then t.drainFar die g.asid g.rcb q acc
        else t.drainQueue die g.asid g.rcb q (t.queueCount g.asid q)
      | .error _ => t

/-- Every region's ready queue drained. -/
def State.drainAll (s : State) (die : Nat) : State :=
  s.disp.regions.foldl (fun s g =>
    match s.findRegion g.asid g.rcb with
    | none => s
    | some g => if s.served g then s.drainRegion die g else s) s

/-- What the dispatcher of a die does before a take. -/
def State.prepare (s : State) (die : Nat) : State := ((s.discover).drainAll die).refreshAll die

/-- The rows of a region's block and of the blocks above it. -/
def State.regionRows (s : State) (asid : BitVec 16) (v : BitVec 16) (rcb : Addr) : List (BitVec 16 × Word) :=
  (s.blocksUp asid (s.rankRoot v) chainDepth rcb).flatMap fun b => [(asid, b.setWidth 64), (asid, b.setWidth 64 + 64)]

/-- The rows of a resident rank with which the dispatchers work: its block, its root's, and those of its trace. -/
def State.rankWork (s : State) (r : Rank) : List (BitVec 16 × Word) :=
  s.rankRows r.vrank ++
    if s.rankHere r.vrank then
      let pos := (s.rankWord r.vrank 9).toNat
      let row (i : Nat) : BitVec 16 × Word := (r.asid, (s.traceAt r.vrank i).1.setWidth 64)
      let left := s.traceLeft r
      s.regionRows r.asid r.vrank (s.rankRoot r.vrank) ++
        (left.flatMap fun e => s.regionRows r.asid r.vrank e.2) ++
        if s.traceMode r.vrank = 1 then [row pos]
        else if s.traceMode r.vrank = 2 then ((List.range (left.length + 1)).map fun i => row (pos + i)) else []
    else []

/-- The rows with which the dispatchers work: those of the resident ranks, the blocks of the regions that they know or are about
to know, with those above them, and the records that are ready.
Log 137: DESIGN CHOICE, unsafe. -/
def State.workRows (s : State) : List (BitVec 16 × Word) :=
  let recs (g : Region) := g.ready.map fun e => (g.asid, e.1.setWidth 64)
  let owners := s.hub.queueTable.flatMap fun e =>
    let own : Addr := (e.2.2.getD 4 0).setWidth 48
    match s.disp.ranks.find? fun r => r.asid = e.1 with
    | some r => if own = 0 then [] else s.regionRows e.1 r.vrank own
    | none => []
  s.disp.ranks.flatMap s.rankWork ++ (s.disp.regions.flatMap fun g => s.regionRows g.asid g.vrank g.rcb ++ recs g) ++ owners

/-! ## The dispatch trace (R307 to R309) -/

/-- An entry appended (R307). -/
def State.traceAppend (s : State) (g : Region) (takes sid : Nat) : State :=
  let pos := (s.rankWord g.vrank 9).toNat
  let a := s.traceAt g.vrank pos
  let w0 : Word := BitVec.ofNat 64 (g.vrank.toNat * 2 ^ 48 + g.rcb.toNat)
  let w1 : Word := BitVec.ofNat 64 (takes % 2 ^ 32 * 2 ^ 32 + sid)
  (s.hubRewrite g.asid a.1 fun r => setRowWord (setRowWord r a.2 w0) (a.2 + 1) w1).setRankWord g.vrank 9
    (BitVec.ofNat 64 (pos + 1))

/-- The next unconsumed entry that names a region (R308): its number, takes and sid. The trace ends at the first
entry that names no region, or that cannot be read.
Log 55: DEDUCED, unsafe. -/
def State.nextEntry (s : State) (g : Region) (used : List Nat) : Nat → Nat → Option (Nat × Nat × Nat)
  | 0, _ => none
  | n + 1, i =>
    let a := s.traceAt g.vrank i
    match s.hubRead g.asid a.1 with
    | none => none
    | some r =>
      let w0 := rowWord r a.2
      if fld w0 0 48 = 0 then none
      else if fld w0 0 48 = g.rcb.toNat ∧ used.contains i = false then
        some (i, fld (rowWord r (a.2 + 1)) 32 32, fld (rowWord r (a.2 + 1)) 0 32)
      else s.nextEntry g used n (i + 1)

def State.usedEntries (s : State) (v : BitVec 16) : List Nat :=
  ((s.disp.ranks.find? fun r => r.vrank = v).map fun r => r.consumed).getD []

/-- The next entry for a region in replay mode. -/
def State.entryFor (s : State) (g : Region) : Option (Nat × Nat × Nat) :=
  s.nextEntry g (s.usedEntries g.vrank) traceReach (s.rankWord g.vrank 9).toNat

/-- tpos moved past every consumed entry. -/
def passConsumed : Nat → Nat → List Nat → Nat × List Nat
  | 0, pos, l => (pos, l)
  | n + 1, pos, l => if l.contains pos then passConsumed n (pos + 1) (removeNat l pos) else (pos, l)

def State.setConsumed (s : State) (v : BitVec 16) (l : List Nat) : State :=
  { s with disp := { s.disp with ranks := s.disp.ranks.map fun (r : Rank) =>
      if r.vrank = v then { r with consumed := l } else r } }

/-- A take traced (R307), or its entry consumed (R308). -/
def State.traceTake (s : State) (g : Region) (takes sid : Nat) : State :=
  let m := s.traceMode g.vrank
  if m = 1 then s.traceAppend g takes sid
  else if m = 2 then
    match s.entryFor g with
    | none => s
    | some e =>
      let l := insertNat (s.usedEntries g.vrank) e.1
      let p := passConsumed (l.length + 1) (s.rankWord g.vrank 9).toNat l
      (s.setConsumed g.vrank p.2).setRankWord g.vrank 9 (BitVec.ofNat 64 p.1)
  else s

/-- Whether replay permits a take (R308).
Log 55: DEDUCED, unsafe. -/
def State.replayPermits (s : State) (g : Region) (takes sid : Nat) : Bool :=
  s.traceMode g.vrank != 2 ||
    match s.entryFor g with
    | some e => e.2.1 == takes && e.2.2 == sid
    | none => false

/-- The records of a rank that the dispatchers know, as they stand. -/
def State.rankRecords (s : State) (asid : BitVec 16) : List (Addr × Row) :=
  (s.disp.known.filter fun e => e.1 = asid).filterMap fun e => (s.hubRead asid e.2).map fun r => (e.2, r)

/-- The records named by packets that a queue holds and no dispatcher has taken. -/
def State.queuedRecords (s : State) (asid : BitVec 16) (q : Addr) : List Addr :=
  match s.headerAt asid q with
  | none => []
  | some h =>
    (List.range (min (h.wi - h.ri).toNat (2 ^ h.lc))).filterMap fun j =>
      (s.hubRead asid ((h.slot (h.ri.toNat + j)).setWidth 48)).bind fun v =>
        if v.getLsbD 511 == h.seqBit (h.ri.toNat + j) && !v.getLsbD 510 then some ((rowWord v 0).setWidth 48) else none

/-- The records of a rank: those known, those whose packets wait in the ready queues of its regions or have been taken, and those
whose packets are held (R305). -/
def State.recordNames (s : State) (asid : BitVec 16) : List Addr :=
  let taken := (s.disp.regions.filter fun g => g.asid = asid).flatMap fun g =>
    (g.pkts.filter fun p => !p.2.getLsbD 510).map fun p => (rowWord p.2 0).setWidth 48
  let queued := (s.disp.regions.filter fun g => g.asid = asid).flatMap fun g =>
    match s.regionQueue asid g.rcb with
    | some q => s.queuedRecords asid q
    | none => []
  let waiting := ((s.disp.holds.filter fun h => h.1 = asid).map fun h => (rowWord h.2.2 0).setWidth 48) ++
    (s.disp.unread.filter fun u => u.1 = asid).map fun u => u.2.2
  ((s.disp.known.filter fun e => e.1 = asid).map fun e => e.2) ++ queued ++ taken ++ waiting

/-- Those records, as they stand. -/
def State.allRecords (s : State) (asid : BitVec 16) : List (Addr × Row) :=
  (s.recordNames asid).filterMap fun a => (s.hubRead asid a).map fun r => (a, r)

/-- The rows of a rank's boundary. -/
def State.boundaryRows (s : State) (r : Rank) : List (BitVec 16 × Word) :=
  s.workRows ++ (s.recordNames r.asid).map fun a => (r.asid, a.setWidth 64)

/-- Whether a rank has reached its step boundary (R305): its ordered adds have all been performed, but for those of killed
contexts (R150), and no ready queue of its regions may hold a packet.
Log 51: DEDUCED, unsafe. -/
def State.atBoundary (s : State) (r : Rank) : Bool :=
  let w := s.rankWord r.vrank 3
  r.stepped && !(s.binds.any fun b => b.vrank == r.vrank && !b.fin) && decide (fld w 0 32 ≤ fld w 32 32) &&
    !(s.mem.adds.any fun x => x.vrank == r.vrank && !x.cut) && !(s.disp.regions.any fun g => g.asid == r.asid && g.far) &&
    (s.allRecords r.asid).all fun e => recSt e.2 != 2 && recSt e.2 != 3

/-- Whether a replayed region must stop (R309): its next entry names a strand that has ended; or every record of its rank
is suspended, step-wait or ended, the step is not over, and the entry names no strand that waits for the next one; or
no entry is left for a ready record.
Log 55: DEDUCED, unsafe. -/
def State.replayDiverges (s : State) (g : Region) : Bool :=
  let recs := s.allRecords g.asid
  let mine := recs.filter fun e => (rowWord e.2 1).setWidth 48 = g.rcb
  match s.entryFor g with
  | some e =>
    let named := mine.filter fun r => fld (rowWord r.2 3) 0 32 = e.2.2
    (named.any fun r => recSt r.2 == 5 || recSt r.2 == 6) ||
      (!recs.isEmpty && (recs.all fun r => recSt r.2 != 2 && recSt r.2 != 3) &&
        !(named.any fun r => recSt r.2 == 4) && !(s.disp.ranks.any fun r => r.vrank == g.vrank && s.atBoundary r))
  | none => !g.ready.isEmpty

/-- Replayed regions that diverge stopped and reported (R309), whether or not their values are known.
Log 55: DEDUCED, unsafe. -/
def State.replayStops (s : State) (die : Nat) : State :=
  s.disp.regions.foldl (fun s g =>
    match s.findRegion g.asid g.rcb with
    | none => s
    | some g =>
      if s.served g && s.traceMode g.vrank == 2 && s.replayDiverges g then
        (s.setStop g.asid g.rcb 1).regionMc 0x09 die g (s.rankWord g.vrank 9)
      else s) s

/-! ## Eligibility and choice (R285, R301, R302) -/

/-- Cores that gangs below a block have reserved and not yet loaded. -/
def State.reservedBelow (s : State) (asid : BitVec 16) (b : Addr) : Nat :=
  (s.disp.gangs.filter fun x => x.asid = asid ∧ x.loaded = false ∧
    (x.rcb = b ∨ (s.regionChain asid x.rcb).contains b = true)).foldl (fun n x => n + x.cores.length) 0

/-- Whether n more cores fit the budgets of a region and of every block above it (R285, R301). -/
def State.fits (s : State) (g : Region) (n : Nat) : Bool :=
  let caps := (g.rcb, (g.eff.map fun e => e.ncore).getD 0) :: g.chain
  caps.all fun c =>
    let used := ((s.block g.asid c.1).map fun w => fld (dw w 3) 32 32).getD 0
    decide (used + s.reservedBelow g.asid c.1 + n ≤ c.2)

/-- Whether a core may be given work (R302, R398): it holds no strand and nothing of an earlier one is
outstanding, or it holds a pinned strand that is suspended. -/
def State.coreIdle (s : State) (c : Nat) : Bool :=
  let k := s.core c
  !k.dead && k.held.isNone && k.repart.isNone && k.fw.run != .off &&
    match k.strand with
    | some t => t.asleep
    | none => (k.prog.run == .idle || k.prog.run == .stopped) && !(k.xfers.any fun x => !x.fw) &&
        !(s.binds.any fun b => b.core == c && !b.fw && b.image.isNone)

/-- Whether an unpinned or new strand may start on a core. -/
def Core.open_ (k : Core) : Bool := k.strand.isNone && k.prog.run == .idle

/-- What a dispatcher may choose of a region: a record or a launch packet, with its age. -/
inductive Pick where
  | record (age : Nat) (rec : Addr)
  | launch (age : Nat) (pkt : Row)
deriving DecidableEq, Repr

def Pick.age : Pick → Nat
  | .record a _ => a
  | .launch a _ => a

/-- Members that a launch packet asks for. -/
def launchCount (v : Row) : Nat := fld (rowWord v 2) 54 8

/-- Whether a record is eligible for a core (R290, R301). -/
def State.recordFits (s : State) (g : Region) (c : Nat) (rec : Addr) : Bool :=
  match s.hubRead g.asid rec with
  | none => false
  | some r =>
    let k := s.core c
    let pin := fld (rowWord r 4) 62 2
    let mine := match k.strand with
      | some t => t.asleep && t.asid == g.asid && t.record == rec
      | none => false
    recSt r == 2 && s.replayPermits g (fld (rowWord r 3) 32 32 + 1) (fld (rowWord r 3) 0 32) &&
      (if pin = 0 then k.open_ && s.fits g 1 &&
          (!(s.disp.images.any fun e => e.1 == g.asid && e.2.1 == rec) || k.xfers.isEmpty)
       else fld (rowWord r 4) 48 8 == c && (mine || (k.strand.isNone && s.fits g 1)))

/-- The eligible choices of a region for a core. A launch that no budget can ever hold is chosen, to be rejected
(R300). -/
def State.picks (s : State) (g : Region) (c : Nat) : List Pick :=
  if s.serves g then
    let ncore := (g.eff.map fun e => e.ncore).getD 0
    ((g.ready.filter fun e => s.recordFits g c e.1).map fun e => Pick.record e.2.1 e.1) ++
      ((g.launches.filter fun e =>
        (s.core c).open_ && (decide (ncore < launchCount e.2) || s.fits g (launchCount e.2)) &&
          s.replayPermits g 0 0xFFFFFFFF).map fun e => Pick.launch e.1 e.2)
  else []

/-- The choice of lowest age. -/
def oldest : List Pick → Option Pick
  | [] => none
  | p :: t =>
    match oldest t with
    | some q => if q.age < p.age then some q else some p
    | none => some p

def Region.prio (g : Region) : Nat := (g.eff.map fun e => e.prio).getD 0

def Region.key (g : Region) : BitVec 16 × Addr := (g.asid, g.rcb)

/-- The round order of a priority (R302): its regions with a ready packet, in the order in which they first became ready,
and the place of the current one, which keeps it until the round moves on. -/
def State.roundOf (s : State) (p : Nat) : List (BitVec 16 × Addr) × Nat :=
  let members := (s.disp.regions.filter fun g => g.prio = p ∧ g.holds = true ∧ s.serves g = true).map Region.key
  let cur := (s.disp.rounds.find? fun e => e.1 = p).map fun e => e.2
  let first := s.disp.firsts.filter fun k => members.contains k || some k == cur
  let order := first ++ members.filter fun k => !first.contains k
  (order, match cur with
    | some k => if order.contains k then order.idxOf k else 0
    | none => 0)

/-- def of a region (R283). -/
def State.deficit (s : State) (k : BitVec 16 × Addr) : Nat :=
  ((s.block k.1 k.2).map fun w => fld (dw w 3) 0 32).getD 0

def State.setDeficit (s : State) (k : BitVec 16 × Addr) (n : Nat) : State :=
  s.hubRewrite k.1 k.2 fun r => setBits r 192 32 n

/-- The rounds of R302 over an order, from position i. -/
def State.chooseIn (s : State) (c : Nat) (order : List (BitVec 16 × Addr)) :
    Nat → Nat → Option (Region × Pick × Nat × State)
  | 0, _ => none
  | n + 1, i =>
    match order[i]? with
    | none => none
    | some k =>
      let g? := s.findRegion k.1 k.2
      let pick := g?.bind fun g => (oldest (s.picks g c)).map fun p => (g, p)
      match pick, decide (1 ≤ s.deficit k) with
      | some gp, true => some (gp.1, gp.2, i, s.setDeficit k (s.deficit k - 1))
      | _, _ =>
        let s1 := if ((g?.map Region.holds).getD false) = true then s else s.setDeficit k 0
        let j := (i + 1) % order.length
        match order[j]? with
        | none => none
        | some h =>
          let more := (((s1.findRegion h.1 h.2).bind fun g => g.eff).map fun e => e.ncore).getD 0
          (s1.setDeficit h (s1.deficit h + more)).chooseIn c order n j

/-- The priorities that hold an eligible choice for a core, highest first. -/
def State.topPrio (s : State) (c : Nat) : Option Nat :=
  [7, 6, 5, 4, 3, 2, 1, 0].find? fun p =>
    s.disp.regions.any fun g => g.prio = p ∧ !(s.picks g c).isEmpty

/-- Choose(k) of R302. -/
def State.choose (s : State) (c : Nat) : Option (Region × Pick × State) :=
  match s.topPrio c with
  | none => none
  | some p =>
    let r := s.roundOf p
    match s.chooseIn c r.1 (2 * r.1.length + 2) r.2 with
    | none => none
    | some x =>
      let s1 := x.2.2.2
      some (x.1, x.2.1, { s1 with disp := { s1.disp with rounds := match r.1[x.2.2.1]? with
        | some k => Tab.put s1.disp.rounds p k
        | none => s1.disp.rounds } })

/-! ## Partitions (R252, R290, R379) -/

/-- A scratchpad with its partition at P for a strand of an ASID: rows that stay keep their data and bits when the
core's previous strand had the same ASID, otherwise every row is zero and empty.
Log 49: DESIGN CHOICE, unsafe. -/
def Core.repartition (k : Core) (P : Nat) (asid : BitVec 16) : Core :=
  let p := k.sp
  let keep : Scratch :=
    { part := P, rows := p.rows.filter (fun e => decide (64 * e.1 < P)),
      full := p.full.filter (fun e => decide (64 * e.1 < P)),
      bad := p.bad.filter (fun i => decide (64 * i < P)), marks := p.marks }
  { k with sp := if k.lastAsid = some asid then keep else { part := P }, lastAsid := some asid, repart := none }

/-- A partition asked for: at once where its size stands, else by a change (R252). -/
def Core.askPartition (k : Core) (P : Nat) (asid : BitVec 16) : Core :=
  if k.sp.part = P then k.repartition P asid else { k with repart := some P }

/-- The ASID for which a core's partition changes. -/
def State.partAsid (s : State) (k : Core) : BitVec 16 :=
  match k.strand with
  | some t => t.asid
  | none => ((k.held.bind s.findGang).map fun g => g.asid).getD 0

/-- The rows of the dirty lines that a core's first-level cache holds in a range of its array's bytes. -/
def State.coreLines (s : State) (core lo hi : Nat) : List Nat :=
  (s.mem.log.filter fun w => w.dirty && w.line.any fun l => l.1 == core && decide (lo ≤ l.2) && decide (l.2 < hi)).map WriteRec.row

/-- The partition of a core changed (R252, R378): where it grows, the dirty lines in the bytes that it gains are written back first,
which publishes nothing; the others stay as they are.
Log 49: DESIGN CHOICE, unsafe; log 138: DESIGN CHOICE, safe. -/
def State.resize (s : State) (core P : Nat) : State :=
  let k := s.core core
  let m := if k.sp.part < P then (s.coreLines core k.sp.part P).foldl Mem.writeBack s.mem else s.mem
  { s with mem := m }.setCore core (k.repartition P (s.partAsid k))

/-- PARTITION_CHANGE (R252, R379): once no engine transaction on the core's scratchpad is outstanding, the bindings of its
tiles among them.
Log 49: DESIGN CHOICE, unsafe. -/
def execPartitionChange (core : Nat) (s : State) : Host.Outcome State Fault Refusal :=
  let k := s.core core
  match k.repart with
  | some P =>
    if k.xfers.isEmpty && !(s.binds.any fun b => b.core == core && b.image.isNone) then .next (s.resize core P)
    else .next s
  | none => .next s

/-! ## The start of a strand (R42, R290) -/

/-- The strand that a record describes, on a core. -/
def State.strandOf (s : State) (g : Region) (rec : Addr) (r : Row) : Strand :=
  { record := rec, rcb := (rowWord r 1).setWidth 48, vrank := g.vrank, asid := g.asid,
    pin := fld (rowWord r 4) 62 2, sid := (rowWord r 3).setWidth 32, gang := none,
    stepNo := s.rankWord g.vrank 2, nchan := (g.eff.map fun e => e.nchan).getD 16, taken := s.hub.gtime }

/-- A fresh program context (R42). -/
def freshCtx (t : Strand) (pc : Addr) (args : List Word) : Ctx :=
  { run := .running, pc := pc, s := [(1, args.getD 0 0), (2, args.getD 1 0), (3, args.getD 2 0)],
    asid := t.asid, rcb := t.rcb.setWidth 64, vrank := t.vrank }

/-- A pinned strand goes on from the state that its core keeps, with the transfers that the saving of its image cancelled
issued again (R314).
Log 51: DEDUCED, unsafe. -/
def State.startPinned (s : State) (c : Nat) (o t : Strand) (pc : Addr) : State :=
  let k := s.core c
  let t' := { o with asleep := false, wake := none, stepNo := t.stepNo, taken := t.taken, nchan := t.nchan }
  let p := { k.prog.settle with run := .running, pc := pc, jumped := false, boundary := none,
                                asid := t.asid, rcb := t.rcb.setWidth 64, vrank := t.vrank }
  let rest := s.disp.images.filter fun e => !(e.1 = t.asid ∧ e.2.1 = t.record)
  let s1 := { s with disp := { s.disp with images := rest } }
  ((s1.setCore c { k with strand := some t', prog := p, pre := false, lastAsid := some t.asid }).reissue c).resumeView c

/-- A strand begins afresh, with the region's partition: an unpinned one (R42), or a pinned one at its first take, of whose
registers the spec says nothing.
Log 118: DESIGN CHOICE, unsafe. -/
def State.startFresh (s : State) (c : Nat) (g : Region) (t : Strand) (pc : Addr) (args : List Word) : State :=
  let k := s.core c
  let P := 64 * (g.eff.map fun e => e.nrow).getD 0
  let k1 := { k with strand := some t, prog := freshCtx t pc args, px := {}, pre := false, parked := [] }
  (s.setCore c (k1.askPartition P t.asid)).resumeView c

/-- A strand whose image was saved, and of which no core holds the state, is restored from it and goes on (R313, R314). -/
def State.startImage (s : State) (c : Nat) (va : Addr) (t : Strand) : State :=
  let word (j : Nat) : Option Word :=
    (s.hubRead 0 (va + BitVec.ofNat 48 (64 * (j / 8)))).map fun r => rowWord r (j % 8)
  let n := imageRows ((word 1).getD 0).toNat ((word 3).getD 0).toNat
  let bad := decide (8192 * 1024 < n) || (List.range n).any fun i => (word (8 * i)).isNone
  let s1 := s.restoreImage c va bad fun j => (word j).getD 0
  let k := s1.core c
  match k.strand with
  | none => s1
  | some _ =>
    let go := { k with strand := some t, pre := false, prog := { k.prog with run := .running } }
    ((s1.setCore c go).reissue c).resumeView c

/-- The rows of the image of a record's strand, as far as they are known. -/
def State.imageAt (s : State) (asid : BitVec 16) (rec : Addr) : List (BitVec 16 × Word) :=
  match s.disp.images.find? fun e => e.1 = asid ∧ e.2.1 = rec with
  | none => []
  | some e =>
    match s.hubRead 0 e.2.2 with
    | none => [(0, e.2.2.setWidth 64)]
    | some r =>
      (List.range (min (imageRows (rowWord r 1).toNat (rowWord r 3).toNat) (8192 * 1024))).map fun i =>
        (0, e.2.2.setWidth 64 + BitVec.ofNat 64 (64 * i))

/-- A record taken (R288, R301): running, one more take, counted and traced; then its strand starts. What its rank has left in
its spill area is reloaded first (R315). -/
def State.takeRecord (s0 : State) (c : Nat) (g : Region) (rec : Addr) : State :=
  let s := s0.reloadSeqs g.vrank
  match s.hubRead g.asid rec with
  | none => s
  | some r =>
    let takes := fld (rowWord r 3) 32 32 + 1
    let sid := fld (rowWord r 3) 0 32
    let pin := fld (rowWord r 4) 62 2
    let pc : Addr := alignPc ((rowWord r 0).setWidth 48)
    let img := s.disp.images.find? fun e => e.1 = g.asid ∧ e.2.1 = rec
    let held := (s.core c).strand
    let s1 := s.traceTake g takes sid
    let s2 := s1.hubRewrite g.asid rec fun x => setRecSt 3 (setBits x 224 32 takes)
    let s3 := s2.setRegion { g with ready := g.ready.filter fun e => e.1 ≠ rec }
    let t := s3.strandOf g rec r
    let args := if pin = 0 then [rowWord r 5, rowWord r 6, rowWord r 7] else []
    match held, img with
    | some o, _ => s3.startPinned c o t pc
    | none, some e => s3.startImage c e.2.2 t
    | none, none => (s3.countCore g.asid g.rcb 1).startFresh c g t pc args

/-- The first gang that still waits for a core (R299). -/
def State.gangFor (s : State) (c : Nat) : Option Gang :=
  s.disp.gangs.find? fun g => g.loaded = false ∧ g.cores.contains c = true ∧ g.got.contains c = false

/-- A core that becomes idle reserved for the gang that waits for it (R299). -/
def State.reserve (s : State) (c : Nat) : State :=
  let k := s.core c
  match s.gangFor c with
  | some g =>
    if s.coreIdle c && k.open_ then
      (s.setCore c { k with held := some g.ident }).setGang { g with got := insertNat g.got c }
    else s
  | none => s

/-- DISPATCH_TAKE (R289, R301, R302). -/
def execDispatchTake (core : Nat) (s : State) : Host.Outcome State Fault Refusal :=
  if s.coreIdle core = false then .next s
  else if (s.gangFor core).isSome then .next (s.reserve core)
  else
    .next (s.reading s.workRows fun s =>
      let s1 := (s.prepare (core / 50)).replayStops (core / 50)
      match s1.choose core with
      | some (g, .record _ rec, s2) =>
        if (s.core core).strand.isNone then
          let l := s1.imageAt g.asid rec
          let t := l.foldl (fun s e => s.touch e.1 e.2) s1
          if l.all fun e => t.rowReady e.1 e.2 then
            ((l.foldl (fun s e => s.touch e.1 e.2) s2).takeRecord core g rec).dropAnswers l
          else t
        else s2.takeRecord core g rec
      | _ => s1)

/-- Whether a record has been killed. -/
def State.killed (s : State) (asid : BitVec 16) (rec : Addr) : Bool := (s.hubRead asid rec).any fun r => recSt r = 6

/-- The i-th readiness kept for an unreadable region block or record tried again (R450): the earlier ones of its region
come first, and one whose record was killed is discarded. -/
def State.retryUnread (s0 : State) (i : Nat) : State :=
  match s0.disp.unread[i]? with
  | none => s0
  | some u =>
    let block (s : State) := u.2.1.or (s.recordRegion u.1 u.2.2)
    let rows := (u.1, u.2.2.setWidth 64) :: (block s0).toList.map fun b => (u.1, b.setWidth 64)
    if (s0.disp.unread.take i).any fun x => x.1 = u.1 ∧ x.2.1 = u.2.1 then s0
    else s0.reading rows fun s =>
      let gone := { s with disp := { s.disp with unread := s.disp.unread.eraseIdx i } }
      if s.killed u.1 u.2.2 then gone
      else
        match block s with
        | none => s
        | some rcb => if (s.readyQueue u.1 rcb).isNone then s else gone.makeReady 0 u.1 rcb u.2.2

/-- READY_PACKET_RECLAIM (R450): the first packet held for a queue claims a slot again; one whose record was
killed is discarded. The numbers after those of the held packets name the readinesses kept without one. -/
def execReadyPacketReclaim (idx : Nat) (s : State) : Host.Outcome State Fault Refusal :=
  match s.disp.holds[idx]? with
  | none => .next (s.retryUnread (idx - s.disp.holds.length))
  | some h =>
    let gone (s : State) : State := { s with disp := { s.disp with holds := s.disp.holds.eraseIdx idx } }
    let rec_ : Addr := (rowWord h.2.2 0).setWidth 48
    if (s.disp.holds.take idx).any fun x => x.1 = h.1 ∧ x.2.1 = h.2.1 then .next s
    else
      .next (s.reading [(h.1, rec_.setWidth 64)] fun s =>
        if s.killed h.1 rec_ then gone s
        else
          match s.append .queueController h.1 h.2.1 h.2.2 none with
          | (.done i, s1) => (gone s1).setAge h.1 rec_ i
          | (_, s1) => s1)

/-- REGION_ANNOUNCE (R284). -/
def execRegionAnnounce (v : Word) (s : State) : Host.Outcome State Fault Refusal := .next (s.announce v)

/-! ## Pre-emption for a waiting record (R303) -/

/-- The priority of the strand on a core: its region's, computed anew where an announcement has named the region since. -/
def State.strandPrio (s : State) (t : Strand) : Nat :=
  match (s.findRegion t.asid t.rcb).bind fun g => g.eff with
  | some e => e.prio
  | none => ((s.effFrom t.asid (s.rankRoot t.vrank) chainDepth t.rcb).map fun r => r.1.prio).getD 0

/-- Whether a strand runs within the budget of a region: it is the region's own, or of one below it (R285, R303). -/
def State.victimHelps (s : State) (g : Region) (t : Strand) : Bool :=
  t.asid == g.asid && (t.rcb == g.rcb || (s.regionChain t.asid t.rcb).contains g.rcb)

/-- The running strand to pre-empt on the cores given: lowest priority, then youngest. -/
def State.victim (s : State) (g : Region) (cores : List Nat) : Option Nat :=
  cores.foldl (fun best c =>
    let k := s.core c
    match k.strand with
    | none => best
    | some t =>
      if k.prog.run ≠ .running ∨ k.preempt ∨ g.prio ≤ s.strandPrio t ∨ s.victimHelps g t = false ∨
          (t.gang.isSome ∧ g.prio ≠ 7) then best
      else
        match best with
        | none => some c
        | some b =>
          match (s.core b).strand with
          | none => some c
          | some u =>
            if s.strandPrio t < s.strandPrio u ∨ (s.strandPrio t = s.strandPrio u ∧ u.taken < t.taken) then some c
            else best) none

/-- A record that has waited 10 µs while no idle core could take it pre-empts a strand of
lower priority within its region's budget, on any die, a gang only as a whole and only for priority 7 (R303). -/
def State.readyWait (s : State) : State :=
  let waiting := s.disp.regions.flatMap fun g =>
    if s.serves g then (g.ready.filter fun e => decide (e.2.2 + 10000 ≤ s.hub.gtime)).map fun e => (g, e.1) else []
  let stuck := waiting.filter fun w =>
    !(allCores.any fun c => s.coreIdle c && (s.gangFor c).isNone && s.recordFits w.1 c w.2)
  let best := stuck.foldl (fun b w => match b with
    | none => some w
    | some x => if x.1.prio < w.1.prio then some w else b) none
  match best with
  | none => s
  | some w =>
    let cores := match s.hubRead w.1.asid w.2 with
      | some r => if fld (rowWord r 4) 62 2 = 0 then allCores else [fld (rowWord r 4) 48 8]
      | none => []
    match s.victim w.1 cores with
    | none => s
    | some c =>
      let all := match ((s.core c).strand.bind fun t => t.gang).bind s.findGang with
        | some g => g.cores
        | none => [c]
      all.foldl (fun s i => (s.setCore i { s.core i with preempt := true }).actStops i) s

/-- READY_WAIT_PREEMPTION (R303), on whichever die. -/
def execReadyWaitPreemption (_die : Nat) (s : State) : Host.Outcome State Fault Refusal :=
  .next (s.reading s.workRows State.readyWait)

/-! ## The step boundary (R305, R306) -/

/-- Whether a Caribou command that moves a rank waits in its queue (R371). -/
def State.moveQueued (s : State) (r : Rank) : Bool :=
  match s.headerAt 0 0xFFFFFFFF0000 with
  | none => false
  | some h =>
    (List.range (min (h.wi - h.ri).toNat (2 ^ h.lc))).any fun j =>
      match s.hubRead 0 ((h.slot (h.ri.toNat + j)).setWidth 48) with
      | none => false
      | some v =>
        let op := fld (rowWord v 0) 60 4
        v.getLsbD 511 == h.seqBit (h.ri.toNat + j) &&
          ((op == 0 && fld (rowWord v 0) 0 16 == r.asid.toNat) ||
            (op == 1 && fld (rowWord v 0) 16 16 == r.vrank.toNat))

/-- Whether a move of a rank is under way or waiting. -/
def State.moving (s : State) (r : Rank) : Bool :=
  s.moveQueued r || match s.car.busy with
    | some m => m.vrank == r.vrank
    | none => false

def State.setRank (s : State) (r : Rank) : State :=
  { s with disp := { s.disp with ranks := s.disp.ranks.map fun x => if x.vrank = r.vrank then r else x } }

def State.setRes (s : State) (v : BitVec 16) (n : Nat) : State :=
  let w := s.rankWord v 0
  s.setRankWord v 0 (BitVec.ofNat 64 (w.toNat - fld w 32 4 * 2 ^ 32 + n * 2 ^ 32))

/-- Whether record a comes before record b at the opening of a step: by region address, then by sid. -/
def openBefore (a b : Addr × Row) : Bool :=
  let ra := fld (rowWord a.2 1) 0 48
  let rb := fld (rowWord b.2 1) 0 48
  decide (ra < rb) || (ra == rb && decide (fld (rowWord a.2 3) 0 32 ≤ fld (rowWord b.2 3) 0 32))

def insertRecord : List (Addr × Row) → Addr × Row → List (Addr × Row)
  | [], e => [e]
  | x :: t, e => if openBefore e x then e :: x :: t else x :: insertRecord t e

/-- The next step opened (R306 step 5): every step-wait record made ready. -/
def State.openStepRecords (s : State) (r : Rank) : State :=
  let l := ((s.rankRecords r.asid).filter fun e => recSt e.2 = 4).foldl insertRecord []
  l.foldl (fun s e =>
    (s.hubRewrite r.asid e.1 (setRecSt 2)).makeReady 0 r.asid ((rowWord e.2 1).setWidth 48) e.1) s

/-- The cores that hold a suspended pinned strand of a rank. -/
def State.pinnedCores (s : State) (r : Rank) : List Nat :=
  allCores.filter fun c => match (s.core c).strand with
    | some t => t.asleep && t.vrank == r.vrank && t.asid == r.asid
    | none => false

/-- Resident ranks other than one that are active. -/
def State.activeOthers (s : State) (v : BitVec 16) : Nat :=
  (s.disp.ranks.filter fun r => r.vrank ≠ v ∧ s.rankRes r.vrank = 0).length

/-- Whether a rank may become active: its last move left no pages in the capacity tier, and fewer than 32 other ranks are
(R6, R330). -/
def State.mayActivate (s : State) (r : Rank) : Bool := !r.cold && decide (s.activeOthers r.vrank < 32)

/-- The end of a boundary whose moves are made (R306 steps 4 and 5): the rank is active again and its next step opens, with
the cancelled transfers of its pinned strands issued again; or it is cold. -/
def State.endBoundary (s : State) (r : Rank) : State :=
  if s.mayActivate r then
    let s1 := ((s.setRes r.vrank 0).setRank { r with phase := 0, bound := [] }).openStepRecords r
    (s1.pinnedCores r).foldl State.reissue s1
  else (s.setRes r.vrank 1).setRank { r with phase := 3 }

/-- A step boundary, one stage at a time: the sequences closed and the pinned images asked for; the step
advanced, with res at 2 where a move is to be made; and, when no move is left, res at 0 with the step opened, or at 1. A rank
that has moved away or is killed, at 3, has none (R373, R396). -/
def State.boundaryStage (s : State) (r : Rank) : State :=
  let v := r.vrank
  if s.rankRes v = 3 then s
  else if r.phase = 0 then
    let s1 := s.prepare 0
    if s.rankRes v = 0 ∧ s1.atBoundary r = true then
      let s2 := s1.closeSeqs v
      let s3 := (s2.pinnedCores r).foldl (fun s c =>
        (s.setCore c { s.core c with toSave := true }).preemptNow c) s2
      s3.setRank { r with phase := 1, stepped := false }
    else s1
  else if r.phase = 1 then
    if allCores.any fun c => (s.core c).toSave && (s.pinnedCores r).contains c then s
    else
      let w := s.rankWord v 3
      let s1 := s.setRankWord v 2 (s.rankWord v 2 + 1)
      let s2 := s1.setRankWord v 3 (BitVec.ofNat 64 (fld w 0 32))
      if s.moving r then (s2.setRes v 2).setRank { r with phase := 2 } else s2.endBoundary r
  else if r.phase = 2 then
    if s.moving r then s else s.endBoundary r
  else if s.moving r then (s.setRes v 2).setRank { r with phase := 2 }
  else if s.mayActivate r then s.endBoundary r
  else s

/-- STEP_BOUNDARY (R305, R306): a stage of a resident rank's boundary, once the rows that it reads are there. -/
def execStepBoundary (vrank : BitVec 16) (s : State) : Host.Outcome State Fault Refusal :=
  match s.disp.ranks.find? fun r => r.vrank = vrank with
  | none => .next s
  | some r => .next (s.reading (s.boundaryRows r) fun s => if s.rankHere r.vrank then s.boundaryStage r else s)

/-! ## The rank table (R282, R396) -/

/-- A rank block that firmware enters in the rank table, at most 128 of them: its ordered adds are of the step that its
block names (R148); where 32 ranks are active already it is cold (R330).
Log 58: DEDUCED, safe. -/
def State.enterHere (s : State) (block : Addr) : State :=
  match s.hubRead 0 block with
  | none => s
  | some row =>
    let v : BitVec 16 := (rowWord row 0).setWidth 16
    if 128 ≤ s.disp.ranks.length ∨ block.toNat % 128 ≠ 0 ∨ s.resident v = true then s
    else
      let r : Rank := { vrank := v, asid := (rowWord row 0).extractLsb' 16 16, block := block }
      let s1 := { s with disp := { s.disp with ranks := s.disp.ranks ++ [r] } }.ownStep v
      if s1.rankRes v = 0 ∧ 32 ≤ s1.activeOthers v then (s1.setRes v 1).setRank { r with phase := 3 } else s1

/-- The same once its block has been read. -/
def State.enterRank (s : State) (block : Addr) : State :=
  s.reading [(0, block.setWidth 64), (0, block.setWidth 64 + 64)] fun s => s.enterHere block

/-- A rank whose entry firmware frees (R396): the dispatchers keep nothing of it.
Log 58: DEDUCED, safe. -/
def State.freeRank (s : State) (v : BitVec 16) : State :=
  match s.disp.ranks.find? fun r => r.vrank = v with
  | none => s
  | some r =>
    let d := s.disp
    { s with disp := { d with
        ranks := d.ranks.filter fun x => x.vrank ≠ v,
        regions := d.regions.filter fun g => g.asid ≠ r.asid,
        firsts := d.firsts.filter fun k => k.1 ≠ r.asid,
        rounds := d.rounds.filter fun e => e.2.1 ≠ r.asid,
        holds := d.holds.filter fun h => h.1 ≠ r.asid,
        unread := d.unread.filter fun u => u.1 ≠ r.asid,
        images := d.images.filter fun e => e.1 ≠ r.asid,
        known := d.known.filter fun e => e.1 ≠ r.asid } }

end Sys2Proof.Machine
end

