-- ==== Sys2Proof/Machine/Launch.lean ====
section
/-! DEFINITION. Launches (R296 to R300, R450): the packet and the image, their checks, the reservation of a
gang's cores, their loading and their common release. -/

namespace Sys2Proof.Machine

/-! ## The image and the list in memory -/

/-- A row of the rank's address space as the dispatcher reads it. -/
def State.launchRow (s : State) (asid : BitVec 16) (va : Word) : Option Row :=
  match s.translate asid.toNat .read (va &&& ~~~63#64) with
  | .ok acc => s.hubAt acc
  | _ => none

/-- A word of the rank's address space, at any byte address. -/
def State.launchWord (s : State) (asid : BitVec 16) (va : Word) : Option Word :=
  let o := va.toNat % 64
  match s.launchRow asid va, s.launchRow asid (va + 7) with
  | some a, some b =>
    let v : BitVec 1024 := if o ≤ 56 then a.setWidth 1024 else b ++ a
    some (v.extractLsb' (8 * o) 64)
  | _, _ => none

/-- n words from an address on. -/
def State.launchWords (s : State) (asid : BitVec 16) (va : Word) (n : Nat) : Option (List Word) :=
  (List.range n).foldr (fun i r =>
    match s.launchWord asid (va + BitVec.ofNat 64 (8 * i)), r with
    | some w, some l => some (w :: l)
    | _, _ => none) (some [])

/-- The entries of a preset list, without its end (R298): an entry lies at each 16 bytes of the address space at
most. -/
def State.presetList (s : State) (asid : BitVec 16) : Nat → Word → Option (List (Word × Word))
  | 0, _ => none
  | n + 1, va =>
    match s.launchWords asid va 2 with
    | some [a, b] =>
      if fld a 56 8 = 0 then (if a = 0 ∧ b = 0 then some [] else none)
      else (s.presetList asid n (va + 16)).map fun l => (a, b) :: l
    | _ => none

/-- Entries that the address space can hold. -/
def presetReach : Nat := 2 ^ 44

/-- The rows of n bytes from an address on. -/
def bytesRows (asid : BitVec 16) (va : Word) (n : Nat) : List (BitVec 16 × Word) :=
  if n = 0 then []
  else (List.range ((va.toNat % 64 + n - 1) / 64 + 1)).map fun i => (asid, (va &&& ~~~63#64) + BitVec.ofNat 64 (64 * i))

/-- The rows of a preset list, as far as they can be read. -/
def State.presetRows (s : State) (asid : BitVec 16) : Nat → Word → List (BitVec 16 × Word)
  | 0, _ => []
  | n + 1, va =>
    bytesRows asid va 16 ++
      match s.launchWords asid va 2 with
      | some [a, _] => if fld a 56 8 = 0 then [] else s.presetRows asid n (va + 16)
      | _ => []

/-! ## The packet and the header (R296, R297) -/

def launchMask (v : Row) : Nat := (v.extractLsb' 192 256).toNat

/-- The member cores, by their numbers. -/
def launchCores (v : Row) : List Nat := (List.range 256).filter fun i => (launchMask v).testBit i

def launchPart (v : Row) : Nat := fld (rowWord v 2) 48 6

def launchPre (v : Row) : Word := ((rowWord v 2).setWidth 48).setWidth 64

/-- Reserved bits of a launch packet.
Log 63: DEDUCED, unsafe. -/
def launchReserved (v : Row) : Bool :=
  fld (rowWord v 0) 0 6 != 0 || fld (rowWord v 1) 48 16 != 0 || fld (rowWord v 2) 62 2 != 0 ||
    fld (rowWord v 6) 8 56 != 0 || fld (rowWord v 7) 0 62 != 0

/-- A tile record (R296): the state and the valid rows start empty; it names the ring that holds the tile. -/
def tileRecord (w : Word) : Nat × Tile :=
  (fld w 46 6, { Tile.ofWord w with bnd := false, st := .empty, vr := 0 })

/-- A ring record: its cursors start at zero.
Log 40: DEDUCED, unsafe. -/
def ringRecord (l : List Word) : Nat × Ring :=
  (fld (dw l 0) 29 3, { Ring.ofWords (fun j => dw l j) with rcur := 0, hd := 0, tl := 0 })

/-- Consecutive groups of three words. -/
def triples : List Word → List (List Word)
  | a :: b :: c :: t => [a, b, c] :: triples t
  | _ => []

/-- What the checks of a launch have read. -/
structure LaunchIn where
  hdr : List Word
  tiles : List (Nat × Tile)
  rings : List (Nat × Ring)
  region : Word
  presets : List (Word × Word)
deriving DecidableEq, Repr

/-- The header, the records and the preset list, where all can be read and the header's magic is right. -/
def State.launchRead (s : State) (asid : BitVec 16) (v : Row) : Option LaunchIn :=
  let img := rowWord v 0
  match s.launchWords asid img 8 with
  | none => none
  | some h =>
    if dw h 0 ≠ 0x4B560001 then none
    else
      let ntl := fld (dw h 4) 32 8
      let nr := fld (dw h 4) 40 8
      let toff := BitVec.ofNat 64 (fld (dw h 4) 0 32)
      let roff := fld (dw h 6) 0 32
      let tl := s.launchWords asid (img + toff) ntl
      let rl := s.launchWords asid (img + toff + BitVec.ofNat 64 (8 * ntl)) (3 * nr)
      let rg := if roff = 0 then some 0 else s.launchWord asid (img + BitVec.ofNat 64 roff)
      let pl := if launchPre v = 0 then some [] else s.presetList asid presetReach (launchPre v)
      match tl, rl, rg, pl with
      | some t, some r, some g, some p =>
        some { hdr := h, tiles := t.map tileRecord, rings := (triples r).map ringRecord, region := g, presets := p }
      | _, _, _, _ => none

/-- The rows that those checks read, as far as they are known.
Log 137: DESIGN CHOICE, unsafe. -/
def State.launchRows (s : State) (asid : BitVec 16) (v : Row) : List (BitVec 16 × Word) :=
  let img := rowWord v 0
  bytesRows asid img 64 ++
    match s.launchWords asid img 8 with
    | none => []
    | some h =>
      if dw h 0 ≠ 0x4B560001 then []
      else
        let roff := fld (dw h 6) 0 32
        bytesRows asid (img + BitVec.ofNat 64 (fld (dw h 4) 0 32)) (8 * fld (dw h 4) 32 8 + 24 * fld (dw h 4) 40 8) ++
          (if roff = 0 then [] else bytesRows asid (img + BitVec.ofNat 64 roff) 8) ++
          if launchPre v = 0 then [] else s.presetRows asid presetReach (launchPre v)

/-- A tile's rows within a partition of P rows. -/
def Tile.within (t : Tile) (P : Nat) : Bool := t.rows != 0 && decide (t.first + t.rows ≤ P)

/-- An entry of a preset list that R298 calls invalid, under a partition of P rows. -/
def presetBad (tiles : List (Nat × Tile)) (P : Nat) (e : Word × Word) : Bool :=
  let kind := fld e.1 56 8
  let n := fld e.1 32 24
  let off := fld e.1 0 32
  if kind = 1 then e.2 != 0 || (n != 0 && decide (P < off / 64 + n))
  else if kind = 2 then n != 0 || decide (P ≤ off / 64)
  else if kind = 3 then n != 0 || fld e.2 16 48 != 0 || decide (P ≤ off / 64)
  else if kind = 4 then
    n != 0 || e.2 != 0 || decide (63 < off) || !(tiles.any fun t => t.1 == off && t.2.within P)
  else true

/-- Whether a list holds a value twice. -/
def repeats : List Nat → Bool
  | [] => false
  | x :: t => t.contains x || repeats t

/-- Two configured tiles share a row. -/
def tilesMeet : List (Nat × Tile) → Bool
  | [] => false
  | a :: t =>
    (t.any fun b => a.2.rows != 0 && b.2.rows != 0 && decide (a.2.first < b.2.first + b.2.rows) &&
      decide (b.2.first < a.2.first + a.2.rows)) || tilesMeet t

/-- The tiles of a ring record, from position 0.
Log 40: DEDUCED, unsafe. -/
def ringTiles (q : Ring) : List Nat := (List.range q.nt).map fun j => Tab.get 0 q.pos j

/-- Records that break R260. -/
def recordsBad (x : LaunchIn) (P : Nat) : Bool :=
  (x.tiles.any fun t => t.2.rows != 0 && !t.2.within P) || tilesMeet x.tiles ||
    repeats (x.rings.flatMap fun r => ringTiles r.2) || repeats (x.rings.map fun r => r.1) ||
    x.rings.any fun r => r.2.nt == 0 || decide (16 < r.2.nt)

/-- The first check of R300 that a launch fails, or what it has read.
Log 56: DEDUCED, unsafe; log 63: DEDUCED, unsafe. -/
def State.launchCheck (s : State) (g : Region) (e : Eff) (v : Row) : Except Nat LaunchIn :=
  let nm := launchCount v
  let part := launchPart v
  let P := 128 * part
  match s.launchRead g.asid v with
  | none => .error 1
  | some x =>
    let rg := ownEff x.region
    let ngang := fld (dw x.hdr 5) 0 8
    if launchReserved v || (rowWord v 1).setWidth 48 != g.rcb || x.presets.any (presetBad x.tiles P) then .error 1
    else if nm ≠ (launchCores v).length ∨ (ngang ≠ 0 ∧ nm ≠ ngang) ∨ e.ncore < nm then .error 2
    else if 36 < part then .error 3
    else if e.nrow < P ∨ e.ncore < rg.ncore ∨ e.nrow < rg.nrow ∨ e.nslot < rg.nslot ∨ e.nchan < rg.nchan then .error 4
    else if 4096 < fld (dw x.hdr 3) 32 16 then .error 5
    else if recordsBad x P then .error 6
    else .ok x

/-- A launch packet no longer waiting in its region. -/
def State.dropLaunch (s : State) (g : Region) (age : Nat) : State :=
  match s.findRegion g.asid g.rcb with
  | some r => s.setRegion { r with launches := r.launches.filter fun e => e.1 != age }
  | none => s

/-- A rejected launch: lrej, and machine check 0x08 (R300). -/
def State.rejectLaunch (s : State) (die : Nat) (g : Region) (code : Nat) : State :=
  (s.hubRewrite g.asid g.rcb fun r => setBits r (448 + 56) 8 code).regionMc 0x08 die g (BitVec.ofNat 64 code)

/-- The tile table that the tile records make (R258, R260).
Log 40: DEDUCED, unsafe; log 62: DEDUCED, unsafe. -/
def LaunchIn.tileTable (x : LaunchIn) : Tab Tile := x.tiles.foldl (fun t e => Tab.put t e.1 e.2) []

/-- A gang accepted: its cores are reserved as they become idle (R299 step 2). -/
def State.acceptLaunch (s : State) (g : Region) (v : Row) (x : LaunchIn) : State :=
  let id := s.disp.nextGang
  let cores := launchCores v
  let gang : Gang :=
    { ident := id, asid := g.asid, vrank := g.vrank, rcb := g.rcb, img := rowWord v 0, pre := launchPre v,
      part := launchPart v, hdr := x.hdr,
      tiles := x.tileTable,
      rings := x.rings.foldl (fun t e => Tab.put t e.1 e.2) [], presets := x.presets,
      cores := cores, got := [], asked := false, loaded := false, released := false, relTime := 0, left := [],
      grelAt := none, grel := [] }
  let s1 := { s with disp := { s.disp with gangs := s.disp.gangs ++ [gang], nextGang := id + 1 } }
  cores.foldl State.reserve s1

/-- A launch packet taken, and its launch accepted or rejected. -/
def State.takeLaunch (s : State) (die : Nat) (g : Region) (age : Nat) (v : Row) : State :=
  let s1 := (s.dropLaunch g age).traceTake g 0 0xFFFFFFFF
  match g.eff with
  | none => s1
  | some e =>
    match s1.launchCheck g e v with
    | .error code => s1.rejectLaunch die g code
    | .ok x => s1.acceptLaunch g v x

/-- LAUNCH_PACKET_TAKE (R297, R299 steps 1 and 2, R300, R302). -/
def execLaunchPacketTake (core : Nat) (s : State) : Host.Outcome State Fault Refusal :=
  let die := core / 50
  if s.coreIdle core = false ∨ (s.gangFor core).isSome = true then .next s
  else
    .next (s.reading s.workRows fun s =>
      let s1 := (s.prepare die).replayStops die
      match s1.choose core with
      | some (g, .launch age v, s2) =>
        let l := s1.launchRows g.asid v
        let t := l.foldl (fun s e => s.touch e.1 e.2) s1
        if l.all fun e => t.rowReady e.1 e.2 then
          (l.foldl (fun s e => s.touch e.1 e.2) s2 |>.takeLaunch die g age v).dropAnswers l
        else t
      | _ => s1)

/-! ## Loading the members (R299 steps 3 to 5) -/

/-- The first virtual row of the image's code.
Log 22: DESIGN CHOICE, unsafe; log 61: DEDUCED, unsafe. -/
def Gang.codeAt (g : Gang) : Nat :=
  (g.img.toNat + (dw g.hdr 1).toNat / 65536 * 65536) % 2 ^ 64 / 64

/-- The code rows that the members' instruction stores lock: those that may be fetched.
Log 61: DEDUCED, unsafe; log 65: DEDUCED, unsafe. -/
def State.codeRows (s : State) (g : Gang) : Tab Row :=
  (List.range ((fld (dw g.hdr 3) 32 16 + 1) / 2)).filterMap fun i =>
    let r := g.codeAt + i
    match s.translate g.asid.toNat .fetch (BitVec.ofNat 64 (64 * r)) with
    | .ok acc => (s.hubAt acc).map fun v => (r, v)
    | _ => none

/-- The presets of a list, applied to one core (R298). -/
def Core.preset (k : Core) (e : Word × Word) : Core :=
  let kind := fld e.1 56 8
  let off := fld e.1 0 32
  let i := off / 64
  let j := off / 8 % 8
  if kind = 1 then
    { k with sp := (List.range (fld e.1 32 24)).foldl (fun p n => p.setFull (i + n) true) k.sp }
  else if kind = 2 then
    { k with sp := { k.sp with rows := Tab.put k.sp.rows i (setRowWord (k.sp.row i) j e.2) } }
  else if kind = 3 then { k with sp := k.sp.arrive i j (fld e.2 0 16) }
  else
    let t := k.px.tile off
    { k with px := { k.px with tiles := Tab.put k.px.tiles off { t with st := .ready, vr := t.rows } } }

/-- The address under which the dispatcher holds the record of member m (R299 step 5).
Log 5: DESIGN CHOICE, safe; log 64: DESIGN CHOICE, unsafe. -/
def memberRecord (ident m : Nat) : Addr := BitVec.ofNat 48 (64 * (Config.choice [1] + 256 * ident + m))

/-- The record of member m.
Log 64: DESIGN CHOICE, unsafe. -/
def memberRow (g : Gang) (m c : Nat) (pc : Word) : Row :=
  ofWords [pc, g.rcb.setWidth 64, 0, BitVec.ofNat 64 (2 ^ 32 + m),
    BitVec.ofNat 64 (2 * 2 ^ 62 + 3 * 2 ^ 56 + c * 2 ^ 48), BitVec.ofNat 64 m, BitVec.ofNat 64 g.cores.length, g.pre]

/-- The fmt of a launch: the header's, its reserved bits zero; the reset value where none was given or a field holds a
reserved code.
Log 119: DESIGN CHOICE, unsafe. -/
def Gang.fmt (g : Gang) : Word :=
  let v := dw g.hdr 2 &&& fmtMask
  if bitAt (dw g.hdr 3) 48 && !fmtReserved v then v else 0x11FE0000

/-- The registers with which member m begins (R299 steps 3 and 4); the matrix state, which may hold any values (R276), is
zero.
Log 119: DESIGN CHOICE, unsafe. -/
def State.memberPx (s : State) (g : Gang) (m : Nat) : ProgX :=
  let rcnt (j : Nat) : Word := s.rankWord g.vrank j + BitVec.ofNat 64 (m * 2 ^ 40)
  { fmt := g.fmt,
    rkey0 := s.rankWord g.vrank 4, rcnt0 := rcnt 5, rkey1 := s.rankWord g.vrank 6, rcnt1 := rcnt 7,
    tiles := g.tiles, rings := g.rings }

/-- One member loaded, held until the release. -/
def State.loadMember (s : State) (g : Gang) (code : Tab Row) (m c : Nat) : State :=
  let k := s.core c
  let pc : Addr := alignPc ((g.img + dw g.hdr 1).setWidth 48)
  let rec_ := memberRecord g.ident m
  let t : Strand :=
    { record := rec_, rcb := g.rcb, vrank := g.vrank, asid := g.asid, pin := 2, sid := BitVec.ofNat 32 m,
      gang := some g.ident, stepNo := s.rankWord g.vrank 2,
      nchan := (((s.findRegion g.asid g.rcb).bind fun r => r.eff).map fun e => e.nchan).getD 16,
      taken := s.hub.gtime }
  let args := [BitVec.ofNat 64 m, BitVec.ofNat 64 g.cores.length, g.pre]
  let k1 : Core :=
    { k with strand := some t, prog := { freshCtx t pc args with run := .idle }, px := s.memberPx g m,
             pre := false, parked := [], code := code }
  let k2 := g.presets.foldl Core.preset k1
  let s1 := s.setCore c k2
  let s2 := { s1 with disp := { s1.disp with
    records := s1.disp.records ++ [(g.asid, rec_, memberRow g m c (pc.setWidth 64))],
    known := s1.disp.known ++ [(g.asid, rec_)] } }
  ((s2.countLive g.asid g.rcb 1).countCore g.asid g.rcb 1).resumeView c

/-- The addresses of those rows. -/
def Gang.codeVas (g : Gang) : List Word :=
  (List.range ((fld (dw g.hdr 3) 32 16 + 1) / 2)).map fun i => BitVec.ofNat 64 (64 * (g.codeAt + i))

/-- Every member loaded, and the release time chosen (R299 steps 3 to 6). What the rank has left in its spill area is
reloaded first (R315). -/
def State.loadHere (s0 : State) (g : Gang) : State :=
  let s := s0.reloadSeqs g.vrank
  let code := s.codeRows g
  let s1 := (List.range g.cores.length).foldl (fun s m => s.loadMember g code m (g.cores.getD m 0)) s
  s1.setGang { g with loaded := true, relTime := releaseTime s1.hub.gtime s1.fresh }

/-- The same once the rows of the code are there to be read. -/
def State.loadGang (s : State) (g : Gang) : State :=
  let t := g.codeVas.foldl (fun s va => s.touchAs .fetch g.asid va) s
  if g.codeVas.all fun va => t.rowReadyAs .fetch g.asid va then
    t.reading (t.rankRows g.vrank ++ t.regionRows g.asid g.vrank g.rcb) fun s =>
      if s.rankHere g.vrank then (s.loadHere g).dropAnswersAs .fetch (g.codeVas.map fun va => (g.asid, va)) else s
  else t

/-- GANG_RESERVATION_COMPLETE (R299 steps 2 to 5): members reserved as they become idle; with all of them held the
partitions change, and then the members are loaded. -/
def execGangReservationComplete (gang : Nat) (s : State) : Host.Outcome State Fault Refusal :=
  match s.findGang gang with
  | none => .next s
  | some g0 =>
    if g0.loaded then .next s
    else
      let s1 := g0.cores.foldl State.reserve s
      match s1.findGang gang with
      | none => .next s1
      | some g =>
        if !(g.cores.all fun c => g.got.contains c) then .next s1
        else if g.asked = false then
          let s2 := g.cores.foldl (fun s c => s.setCore c ((s.core c).askPartition (8192 * g.part) g.asid)) s1
          .next (s2.setGang { g with asked := true })
        else if g.cores.any fun c => (s1.core c).repart.isSome then .next s1
        else .next (s1.loadGang g)

/-- GANG_RELEASE (R299 step 6): at the release time every member issues its entry bundle. -/
def execGangRelease (gang : Nat) (s : State) : Host.Outcome State Fault Refusal :=
  match s.findGang gang with
  | none => .next s
  | some g =>
    if g.loaded = true ∧ g.released = false ∧ g.relTime ≤ s.hub.gtime then
      let s1 := g.cores.foldl (fun s c =>
        let k := s.core c
        let go : Core := { k with prog := { k.prog with run := .running } }
        if k.prog.run = .idle ∧ (k.strand.bind fun t => t.gang) = some gang then s.setCore c go else s) s
      .next (s1.setGang { g with released := true })
    else .next s

end Sys2Proof.Machine
end

