-- ==== Sys2Proof/Machine/Collective.lean ====
section
/-! DEFINITION. The collective engine (R304, R346 to R363, R368 to R370, R449): bindings, the fixed tree, the
values that cross between modules, backlog rings, completion. -/

namespace Sys2Proof

/-- The collective that a cls 0 flit belongs to (R364). -/
def Flit.collKey (f : Flit) : CollKey := ⟨f.w1.extractLsb' 48 16, f.w1.extractLsb' 4 12, f.w1.extractLsb' 16 16⟩

/-- The destination rank of a cls 0 or cls 2 flit. -/
def Flit.rank (f : Flit) : BitVec 16 := f.w1.extractLsb' 32 16

end Sys2Proof

namespace Sys2Proof.Machine

/-! ## The tree (R347) -/

/-- The largest power of two below k, for k of 2 or more. -/
def half (k : Nat) : Nat := 2 ^ Nat.log2 (k - 1)

/-- The parent of Node(lo, k) within Node(a, n). -/
def parentIn (lo k : Nat) : Nat → Nat → Nat → Option (Nat × Nat)
  | 0, _, _ => none
  | f + 1, a, n =>
    if n ≤ 1 then none
    else
      let h := half n
      if (a = lo ∧ h = k) ∨ (a + h = lo ∧ n - h = k) then some (a, n)
      else if lo < a + h then parentIn lo k f a h
      else parentIn lo k f (a + h) (n - h)

/-- The parent of a node of the tree over n members. -/
def parentOf (n lo k : Nat) : Option (Nat × Nat) := parentIn lo k n 0 n

/-! ## Sparse chunks (R360 to R363) -/

/-- A chunk: its pairs, or, dense, an element for every index. -/
structure Chunk where
  dense : Bool
  pairs : List (Nat × Nat)
deriving DecidableEq, Repr

/-- The pairs of a stream, index and value, up to its terminator; nothing where it has none. -/
def streamPairs : List Word → Option (List (Nat × Nat))
  | [] => none
  | w :: t =>
    if fld w 0 32 = 0xFFFFFFFF then some []
    else (streamPairs t).map fun l => (fld w 0 32, fld w 32 32) :: l

/-- Indices strictly ascending and below a bound. -/
def ascending (bound : Nat) : List (Nat × Nat) → Bool
  | [] => true
  | [a] => decide (a.1 < bound)
  | a :: b :: t => decide (a.1 < b.1) && ascending bound (b :: t)

/-- The chunks of an input stream, or nothing on a stream error (R362). -/
def streamChunks (d : CollDesc) (rows : List Row) : Option (List Chunk) :=
  match streamPairs (rows.flatMap rowWords) with
  | none => none
  | some l =>
    if ascending (d.nch * d.span) l then
      some ((List.range d.nch).map fun c =>
        { dense := false,
          pairs := (l.filter fun p => decide (c * d.span ≤ p.1) && decide (p.1 < (c + 1) * d.span)).map fun p =>
            (p.1 - c * d.span, p.2) })
    else none

/-- Rows that hold words, the last one filled with zero. -/
def wordRows (l : List Word) : List Row :=
  (List.range ((l.length + 7) / 8)).map fun i => ofWords ((l.drop (8 * i)).take 8)

/-- A chunk as it is written (R361). -/
def chunkRows (d : CollDesc) (c : Nat) (x : Chunk) : List Row :=
  let count := if x.dense then d.span else x.pairs.length
  let head := ofWords [BitVec.ofNat 64 ((if x.dense then 2 ^ 32 else 0) + c), BitVec.ofNat 64 count]
  let body :=
    if x.dense then
      (List.range ((d.span + 15) / 16)).map fun i =>
        ofLanes 32 ((((x.pairs.drop (16 * i)).take 16)).map fun p => p.2)
    else wordRows ((x.pairs.map fun p => BitVec.ofNat 64 (p.2 * 2 ^ 32 + p.1)) ++ [0xFFFFFFFF])
  head :: body

/-- The chunks that rows hold. -/
def rowChunks (d : CollDesc) : Nat → List Row → List Chunk
  | 0, _ => []
  | _ + 1, [] => []
  | n + 1, r :: t =>
    let count := fld (rowWord r 1) 0 32
    if bitAt (rowWord r 0) 32 then
      let k := (d.span + 15) / 16
      let vals := (t.take k).flatMap fun v => (List.range 16).map fun j => lane 32 v j
      ⟨true, ((List.range d.span).map fun j => (j, vals.getD j 0))⟩ :: rowChunks d n (t.drop k)
    else
      let k := count / 8 + 1
      let ps := ((t.take k).flatMap rowWords).take count
      ⟨false, ps.map fun w => (fld w 0 32, fld w 32 32)⟩ :: rowChunks d n (t.drop k)

/-- The union of two sparse chunks, combined where both hold an index. -/
def unionPairs (f : Nat → Nat → Nat × Flags) :
    Nat → List (Nat × Nat) → List (Nat × Nat) → List (Nat × Nat) × Flags
  | 0, _, _ => ([], 0)
  | _ + 1, [], r => (r, 0)
  | _ + 1, l, [] => (l, 0)
  | n + 1, a :: l, b :: r =>
    if a.1 < b.1 then
      let x := unionPairs f n l (b :: r)
      (a :: x.1, x.2)
    else if b.1 < a.1 then
      let x := unionPairs f n (a :: l) r
      (b :: x.1, x.2)
    else
      let v := f a.2 b.2
      let x := unionPairs f n l r
      ((a.1, v.1) :: x.1, v.2 ||| x.2)

/-- Dense(s): the value at each index, zero elsewhere. -/
def densePairs (span : Nat) (l : List (Nat × Nat)) : List (Nat × Nat) :=
  (List.range span).map fun j => (j, match l.find? fun p => p.1 = j with
    | some p => p.2
    | none => 0)

/-- MergeChunk(L, R) (R363). -/
def mergeChunk (d : CollDesc) (l r : Chunk) : Chunk × Flags :=
  let f (x y : Nat) : Nat × Flags := combineElem d.el 0 true x y
  if l.dense = false ∧ r.dense = false then
    let x := unionPairs f (l.pairs.length + r.pairs.length + 1) l.pairs r.pairs
    if d.thr * d.span < x.1.length * 256 then (⟨true, densePairs d.span x.1⟩, x.2) else (⟨false, x.1⟩, x.2)
  else
    let es := (List.range d.span).map fun j =>
      let a := l.pairs.find? fun p => p.1 = j
      let b := r.pairs.find? fun p => p.1 = j
      match a, b with
      | some p, some q =>
        let v := f p.2 q.2
        ((j, v.1), v.2)
      | some p, none => ((j, p.2), (0 : Flags))
      | none, some q => ((j, q.2), 0)
      | none, none => ((j, 0), 0)
    (⟨true, es.map fun e => e.1⟩, es.foldl (fun g e => g ||| e.2) 0)

/-! ## Node values -/

/-- The error of a node: that of the operand that has one, the lowest position for one code; where the codes
differ, the choice is open.
Log 5: DESIGN CHOICE, safe; log 67: DESIGN CHOICE, unsafe. -/
def joinErr (a b : NodeVal) : Nat × Nat :=
  if a.err = 0 then (b.err, b.errPos)
  else if b.err = 0 then (a.err, a.errPos)
  else if a.err = b.err then (a.err, min a.errPos b.errPos)
  else if Config.choice [2, min a.err b.err, max a.err b.err] % 2 = 0 then
    (if a.err < b.err then (a.err, a.errPos) else (b.err, b.errPos))
  else if a.err < b.err then (b.err, b.errPos) else (a.err, a.errPos)

/-- The rows of a node from those of its operands, with the flags (R350, R351, R363). -/
def joinRows (d : CollDesc) (l r : List Row) : List Row × Flags :=
  if d.kind = 3 then (l ++ r, 0)
  else if d.kind = 5 then
    let xs := (rowChunks d d.nch l).zipWith (mergeChunk d) (rowChunks d d.nch r)
    (((List.range xs.length).flatMap fun c => ((xs[c]?).map fun x => chunkRows d c x.1).getD []),
      xs.foldl (fun g x => g ||| x.2) 0)
  else if d.kind = 2 ∨ d.kind = 6 then ([], 0)
  else
    let xs := l.zipWith (combineRow d.el d.op d.sat) r
    (xs.map fun x => x.1, xs.foldl (fun g x => g ||| x.2) 0)

/-- Combine(Node(lo, h), Node(lo + h, k − h)). Fields that differ are compared where neither operand is in error.
Log 67: DESIGN CHOICE, unsafe. -/
def joinVals (d : CollDesc) (k : Nat) (l r : NodeVal) : NodeVal :=
  let e := if l.err = 0 ∧ r.err = 0 ∧ l.desc ≠ r.desc then (3, 0) else joinErr l r
  let x := if e.1 = 0 then joinRows d l.rows r.rows else ([], 0)
  { lo := l.lo, k := k, down := false, rows := x.1, flags := l.flags ||| r.flags ||| x.2,
    desc := if l.desc.isSome then l.desc else r.desc, cap := min l.cap r.cap,
    err := e.1, errPos := e.2 }

/-! ## The collective's state at this module -/

def State.collOf (s : State) (key : CollKey) : Coll :=
  (s.colls.find? fun c => c.key = key).getD { key := key }

def State.setColl (s : State) (c : Coll) : State :=
  { s with colls := (s.colls.filter fun x => x.key ≠ c.key) ++ [c] }

def Coll.val (c : Coll) (lo k : Nat) (down : Bool) : Option NodeVal :=
  c.vals.find? fun v => v.lo = lo ∧ v.k = k ∧ v.down = down

/-- A value added, unless the node has one. -/
def State.addVal (s : State) (key : CollKey) (v : NodeVal) : State :=
  let c := s.collOf key
  if (c.val v.lo v.k v.down).isSome then s else s.setColl { c with vals := c.vals ++ [v] }

def State.bindOf (s : State) (key : CollKey) (v : BitVec 16) : Option Binding :=
  s.binds.find? fun b => b.key = key ∧ b.vrank = v

/-- Any binding of a collective, which holds its fields and members. -/
def State.anyBind (s : State) (key : CollKey) : Option Binding := s.binds.find? fun b => b.key = key

/-- The node of a rank, by the rank map of its job (R366). -/
def State.rankNode (s : State) (job v : BitVec 16) : Option Nat :=
  match s.fab.maps.find? fun m => m.1 = job with
  | some m =>
    match m.2.find? fun e => e.1 = v.toNat with
    | some e => if e.2.getLsbD 15 then some (e.2.setWidth 12 : BitVec 12).toNat else none
    | none => none
  | none => none

/-- Whether this module is the site of the member at a position (R357). -/
def State.siteHere (s : State) (key : CollKey) (v : BitVec 16) : Bool :=
  (s.bindOf key v).isSome ||
    match s.rankNode key.job v with
    | some d => d == s.node
    | none => s.resident v

/-! ## Flits of a value (R364, R449) -/

/-- The chunk and the row within it that each row of a value belongs to. -/
def rowPlaces (d : CollDesc) (rows : List Row) : List (Nat × Nat) :=
  if d.kind = 5 then
    let cs := rowChunks d d.nch rows
    (List.range cs.length).flatMap fun c =>
      let n := ((cs[c]?).map fun x => (chunkRows d c x).length).getD 0
      (List.range n).map fun i => (c, i)
  else (List.range rows.length).map fun i => (i / max 1 d.chk, i % max 1 d.chk)

/-- Whether an element is a binary32 value, of a sparse collective. -/
def CollDesc.isFloat (d : CollDesc) : Bool := d.el == 9

/-- The fields that flit `i` of a value carries beside its row, 36 bits: all of R354's that the collective's kind leaves
open, but for V and nch, which the rows show (R354).
Log 66: DESIGN CHOICE, unsafe. -/
def fieldCode (d : CollDesc) (V cap i : Nat) (none_ : Bool) : Nat :=
  let n := if none_ then 2 ^ 35 else 0
  if d.kind = 5 then
    if i = 0 then 5 + 8 * d.span
    else (if d.isFloat then 1 else 0) + (if d.sat then 2 else 0) + 4 * d.thr + 2 ^ 10 * V + 2 ^ 23 * cap
  else if d.kind = 3 then 3 + 8 * d.chk + 2 ^ 12 * cap + n
  else if d.kind = 6 then 6 + 8 * d.chk + 2 ^ 12 * V + n
  else d.kind + 8 * d.op + 2 ^ 5 * d.el + (if d.sat then 2 ^ 9 else 0) + 2 ^ 10 * d.root + 2 ^ 26 * d.chk + n

/-- The fields that the codes of a value's flits give, its chunks counted (R349). -/
def codeFields (c nch : Nat) : CollDesc :=
  let zero : CollDesc :=
    { kind := c % 8, op := 0, el := 0, sat := false, root := 0, chk := c / 8 % 512, span := 0, nch := 0, thr := 0 }
  if c % 8 = 5 then
    { zero with el := if c.testBit 36 then 9 else 2, sat := c.testBit 37, chk := 0, span := c / 8 % 2 ^ 32, nch := nch,
                thr := c / 2 ^ 38 % 256 }
  else if c % 8 = 3 ∨ c % 8 = 6 then zero
  else
    { zero with op := c / 8 % 4, el := c / 2 ^ 5 % 16, sat := c.testBit 9, root := c / 2 ^ 10 % 2 ^ 16,
                chk := c / 2 ^ 26 % 512 }

/-- The positions whose rows a crossing of Node(lo, k) carries: the right child's, or one member's. -/
def crossing (k : Nat) : Nat := if k ≤ 1 then 1 else k - half k

/-- V as the rows of a value show it (R449): `m` rows, of a tree over n members. -/
def codeV (c n k m : Nat) (down : Bool) : Nat :=
  if c % 8 = 5 then c / 2 ^ 46 % 2 ^ 13
  else if c % 8 = 6 then c / 2 ^ 12 % 2 ^ 13
  else if c % 8 = 3 then if down then m / n else m / crossing k
  else if c % 8 = 4 ∧ down then m * n / crossing k
  else m

/-- The least tile size that the codes give, where the kind needs one. -/
def codeCap (c : Nat) : Nat :=
  if c % 8 = 5 then c / 2 ^ 59 % 2 ^ 13 else if c % 8 = 3 then c / 2 ^ 12 % 2 ^ 13 else 0

/-- Flit `i` of a value: the places of the fields and of the status within arg1 are this model's.
Log 68: DESIGN CHOICE, unsafe. -/
def collFlit (key : CollKey) (vr : BitVec 16) (v : NodeVal) (i : Nat) (last : Bool) (at_ : Nat × Nat) (r : Row) : Flit :=
  let w1 := key.job.toNat * 2 ^ 48 + vr.toNat * 2 ^ 32 + key.cid.toNat * 2 ^ 16 + key.gid.toNat * 2 ^ 4
  let w2 := at_.1 % 2 ^ 32 * 2 ^ 32 + v.lo * 2 ^ 16 + at_.2
  let status :=
    if v.err ≠ 0 then v.errPos
    else match v.desc with
      | some d => if i < 2 then fieldCode d.1 d.2 v.cap i v.rows.isEmpty else 0
      | none => 0
  let w3 := (v.k - 1) * 2 ^ 48 + (if last then 2 ^ 47 else 0) + status * 2 ^ 11 + v.err * 2 ^ 8 + v.flags.toNat * 2 +
    (if v.down then 1 else 0)
  ⟨0, BitVec.ofNat 64 w1, BitVec.ofNat 64 w2, BitVec.ofNat 64 w3, r⟩

/-- The fields that a flit without rows carries, laid out as a descriptor's words 0 to 2, with V + 1 in word 3 where
it is known (R354).
Log 68: DESIGN CHOICE, unsafe. -/
def fieldRow (x : CollDesc × Option Nat) : Row :=
  let d := x.1
  ofWords [BitVec.ofNat 64 (d.kind * 2 ^ 60 + d.op * 2 ^ 58 + d.el * 2 ^ 54 + (if d.sat then 2 ^ 53 else 0)),
    BitVec.ofNat 64 (d.root * 2 ^ 32 + d.chk), BitVec.ofNat 64 (d.span * 2 ^ 32 + d.nch * 2 ^ 8 + d.thr),
    BitVec.ofNat 64 (match x.2 with
      | some V => V + 1
      | none => 0)]

/-- The payload of the one flit of a value without rows: zero for a barrier (R449).
Log 68: DESIGN CHOICE, unsafe. -/
def NodeVal.bare (v : NodeVal) : Row :=
  if v.err ≠ 0 then (v.used.map fun u => setRowWord (fieldRow u) 4 (BitVec.ofNat 64 v.time)).getD 0
  else match v.desc with
    | some d => if d.1.kind = 6 then 0 else fieldRow (d.1, some d.2)
    | none => 0

/-- The flits of a value: one for each row, and one where it has none.
Log 68: DESIGN CHOICE, unsafe. -/
def collFlits (d : CollDesc) (key : CollKey) (vr : BitVec 16) (v : NodeVal) : List Flit :=
  if v.rows.isEmpty then [collFlit key vr v 0 true (0, 0) v.bare]
  else
    let n := v.rows.length
    ((rowPlaces d v.rows).zip v.rows).zipIdx.map fun e =>
      collFlit key vr v e.2 (e.2 + 1 = n) e.1.1 e.1.2

/-- A cls 0 flit injected: to its rank's node, or delivered here; one whose map entry is not valid, or cannot be read (R393),
waits. -/
def State.inject (s : State) (f : Flit) : State :=
  let job : BitVec 16 := f.w1.extractLsb' 48 16
  let vr : BitVec 16 := f.w1.extractLsb' 32 16
  let own : Flit := { f with w0 := BitVec.ofNat 64 (s.node * 2 ^ 52 + s.node * 2 ^ 40) }
  if s.fab.badMaps.contains (job, vr) then { s with fab := { s.fab with stuck := s.fab.stuck ++ [f] } }
  else match s.rankNode job vr with
  | some d =>
    if d = s.node then { s with fab := { s.fab with inbox := s.fab.inbox ++ [own] } }
    else s.sendFlit d 0 f
  | none =>
    if s.resident vr then { s with fab := { s.fab with inbox := s.fab.inbox ++ [own] } }
    else { s with fab := { s.fab with stuck := s.fab.stuck ++ [f] } }

/-- Log 69: DEDUCED, unsafe. -/
def State.sendVal (s : State) (d : CollDesc) (key : CollKey) (vr : BitVec 16) (v : NodeVal) : State :=
  (collFlits d key vr v).foldl State.inject s

/-! ## The way down -/

/-- The value of one member: to its engine, or to its rank's ring until it binds. -/
def State.leaf (s : State) (d : CollDesc) (key : CollKey) (vr : BitVec 16) (v : NodeVal) : State :=
  if (s.bindOf key vr).isSome then s.addVal key { v with used := none } else s.sendVal d key vr v

/-- The value of Node(lo, k) handed to its members (R357, R449): what the right operand's site is elsewhere for
crosses to it. The root of a reduction has its Result apart from these.
Log 69: DEDUCED, unsafe. -/
def State.deliver (s : State) (d : CollDesc) (key : CollKey) (m : List (BitVec 16)) :
    Nat → Nat → Nat → NodeVal → State
  | 0, _, _, _ => s
  | f + 1, lo, k, v =>
    if k ≤ 1 then
      if d.kind = 1 ∧ lo = d.root then s else s.leaf d key (m.getD lo 0) { v with lo := lo, k := 1, down := true }
    else
      let h := half k
      let per := v.rows.length / k
      let l := if d.kind = 4 then { v with rows := v.rows.take (h * per) } else v
      let r := if d.kind = 4 then { v with rows := v.rows.drop (h * per) } else v
      let s1 := s.deliver d key m f lo h l
      if s1.siteHere key (m.getD (lo + h) 0) then s1.deliver d key m f (lo + h) (k - h) r
      else s1.sendVal d key (m.getD (lo + h) 0) { r with lo := lo, k := k, down := true }

/-- An error completion for every member (R354, R355), with the flags of the nodes formed (R356).
Log 69: DEDUCED, unsafe. -/
def State.failColl (s : State) (d : CollDesc) (key : CollKey) (m : List (BitVec 16)) (V : Option Nat)
    (err pos : Nat) (fl : Flags) : State :=
  let s1 := s.setColl { s.collOf key with ended := true }
  (List.range m.length).foldl (fun s i =>
    s.leaf d key (m.getD i 0)
      { lo := i, k := 1, down := true, flags := fl, used := some (d, V), time := s.hub.gtime, err := err, errPos := pos }) s1

/-- The value of the whole tree found: an error, or the result on its way to the members.
Log 70: DESIGN CHOICE, unsafe. -/
def State.finish (s : State) (b : Binding) (v : NodeVal) : State :=
  let d := b.desc
  let n := b.members.length
  let V := ((v.desc.map fun x => x.2).getD v.rows.length)
  let err := if v.err ≠ 0 then v.err
    else if d.kind = 4 ∧ V % n ≠ 0 then 3
    else if (d.kind = 3 ∧ v.cap < n * V) ∨ (d.kind = 5 ∧ v.cap < v.rows.length) then 2
    else 0
  if (s.collOf b.key).ended then s
  else if err ≠ 0 then s.failColl d b.key b.members (some V) err (if v.err = 0 then 0 else v.errPos) v.flags
  else
    let s1 := (s.setColl { s.collOf b.key with ended := true }).deliver d b.key b.members n 0 n
      { v with down := true, rows := if d.kind = 1 then [] else v.rows }
    if d.kind = 1 then s1.leaf d b.key (b.members.getD d.root 0) { v with lo := d.root, k := 1, down := true } else s1

/-- Node(0, n) found. A broadcast ends when its root's rows, kept as Node(0, 0), are here as well (R351, R354).
Log 70: DESIGN CHOICE, unsafe. -/
def State.meet (s : State) (b : Binding) (v : NodeVal) : State :=
  if b.desc.kind = 2 ∧ v.err = 0 then
    match (s.collOf b.key).val 0 0 false with
    | some r => s.finish b { v with rows := r.rows }
    | none => s.addVal b.key v
  else s.finish b v

/-- Whether a broadcast ends as soon as its root's rows are at the site of Node(0, n) and every member bound at this module
has fired with the root's fields, before the fields of the members elsewhere have come: those then bind late (R354), or find
for themselves that their fields disagree.
Log 5: DESIGN CHOICE, safe; log 70: DESIGN CHOICE, unsafe. -/
def State.endsEarly (s : State) (b : Binding) (v : NodeVal) : Bool :=
  Config.choice [71, b.key.job.toNat, b.key.gid.toNat, b.key.cid.toNat] % 2 == 1 && v.err == 0 &&
    s.binds.all fun x => x.key != b.key || (x.sent && v.desc == some (x.desc, x.fired.getD 0))

/-- A broadcast ended early, where its root's rows are here. -/
def State.endEarly (s : State) (b : Binding) : State :=
  match (s.collOf b.key).val 0 0 false with
  | some r => if s.endsEarly b r then s.finish b r else s
  | none => s

/-- The rows of a broadcast's root at the site of Node(0, n).
Log 70: DESIGN CHOICE, unsafe. -/
def State.rootRows (s : State) (b : Binding) (v : NodeVal) : State :=
  match (s.collOf b.key).val 0 b.members.length false with
  | some w => s.finish b { w with rows := v.rows }
  | none => (s.addVal b.key { v with lo := 0, k := 0 }).endEarly b

/-! ## The way up -/

/-- A node's value formed here: the result at the root, a right operand sent to its node's site. -/
def State.pushUp (s : State) (b : Binding) (v : NodeVal) : State :=
  let n := b.members.length
  if v.lo = 0 ∧ v.k = n then s.meet b v
  else
    match parentOf n v.lo v.k with
    | none => s
    | some p =>
      let site := b.members.getD p.1 0
      if p.1 = v.lo ∨ s.siteHere b.key site = true then s.addVal b.key v
      else s.sendVal b.desc b.key site { v with lo := p.1, k := p.2 }

/-- A value whose last flit has come. -/
def State.valueIn (s : State) (b : Binding) (v : NodeVal) : State :=
  let h := half v.k
  if v.down then
    if v.k = 1 then s.addVal b.key v
    else s.deliver b.desc b.key b.members v.k (v.lo + h) (v.k - h) v
  else if v.k = 1 then s.rootRows b v
  else s.addVal b.key { v with lo := v.lo + h, k := v.k - h }

def collDesc (w : List Word) : CollDesc where
  kind := fld (dw w 0) 60 4
  op := fld (dw w 0) 58 2
  el := fld (dw w 0) 54 4
  sat := bitAt (dw w 0) 53
  root := fld (dw w 1) 32 16
  chk := fld (dw w 1) 0 9
  span := fld (dw w 2) 32 32
  nch := fld (dw w 2) 8 16
  thr := fld (dw w 2) 0 8

/-- The fields that a flit without rows carries. -/
def fieldsOf (r : Row) : CollDesc × Option Nat :=
  (collDesc (rowWords r), if rowWord r 3 = 0 then none else some ((rowWord r 3).toNat - 1))

/-- A flit used by the engine of a bound rank: its row joins the value that it belongs to. `late` says that it
was made before the member bound, as the time does that an error's flit from another module carries (R354).
Log 68: DESIGN CHOICE, unsafe. -/
def State.engineFlit (s : State) (b : Binding) (f : Flit) (late : Bool) : State :=
  let c := s.collOf b.key
  let lo := fld f.w2 16 16
  let k := fld f.w3 48 16 + 1
  let down := bitAt f.w3 0
  let mine (v : NodeVal) : Bool := v.lo == lo && v.k == k && v.down == down
  let old : NodeVal := (c.parts.find? mine).getD { lo := lo, k := k, down := down }
  let err := fld f.w3 8 3
  let here := fld f.w3 11 36
  let bare := old.rows.isEmpty && here.testBit 35 && here % 8 != 5
  let rows := if err = 0 ∧ bare = false then old.rows ++ [f.payload] else []
  let code := if old.rows.length = 0 then here else if old.rows.length = 1 then old.code + 2 ^ 36 * here else old.code
  let V := if bare && here % 8 != 6 then ((fieldsOf f.payload).2).getD 0
    else codeV code b.members.length k rows.length down
  let nch := if code % 8 = 5 then (rowChunks (codeFields code 0) rows.length rows).length else 0
  let v : NodeVal :=
    { lo := lo, k := k, down := down, rows := rows, flags := f.w3.extractLsb' 1 7, code := code }
  let rest := c.parts.filter fun x => !mine x
  if bitAt f.w3 47 then
    (s.setColl { c with parts := rest }).valueIn b
      (if err = 0 then { v with code := 0, desc := some (codeFields code nch, V), cap := codeCap code }
      else { v with code := 0, err := err, errPos := fld f.w3 11 16,
                    used := if (late ∨ (rowWord f.payload 4).toNat < b.time) ∧ f.payload ≠ 0 then some (fieldsOf f.payload)
                      else none })
  else s.setColl { c with parts := rest ++ [v] }

/-! ## Backlog rings (R368 to R370) -/

structure Ring_ where
  va : Addr
  wi : Nat
  ri : Nat
  base : Addr
  lc : Nat
deriving DecidableEq, Repr

/-- The backlog ring of a resident rank, where its header can be read.
Log 71: DEDUCED, safe. -/
def State.backlog (s : State) (v : BitVec 16) : Option Ring_ :=
  let va : Addr := (s.rankWord v 10).setWidth 48
  (s.hubRead (s.rankAsid v) va).map fun r =>
    ⟨va, (rowWord r 0).toNat, (rowWord r 1).toNat, (rowWord r 2).setWidth 48, fld (rowWord r 3) 0 5⟩

/-- The address of entry i. -/
def Ring_.entry (q : Ring_) (i : Nat) : Addr := q.base + BitVec.ofNat 48 (128 * (i % 2 ^ q.lc))

def Ring_.full (q : Ring_) : Bool := decide (2 ^ q.lc ≤ (q.wi + 2 ^ 64 - q.ri) % 2 ^ 64)

/-- An entry written at an index of a ring, and wi moved past it. -/
def State.ringWrite (s : State) (asid : BitVec 16) (q : Ring_) (i : Nat) (f : Flit) : State :=
  let head : Row := ofWords [f.w0, f.w1, f.w2, f.w3]
  let s1 := (s.hubRewrite asid (q.entry i) fun _ => head).hubRewrite asid (q.entry i + 64) fun _ => f.payload
  s1.hubRewrite asid q.va fun r => setRowWord r 0 (BitVec.ofNat 64 (i + 1))

/-- The flit of an entry, and whether it has been taken. -/
def State.ringEntry (s : State) (asid : BitVec 16) (q : Ring_) (i : Nat) : Option (Flit × Bool) :=
  match s.hubRead asid (q.entry i), s.hubRead asid (q.entry i + 64) with
  | some h, some p => some (⟨rowWord h 0, rowWord h 1, rowWord h 2, rowWord h 3, p⟩, h.getLsbD 256)
  | _, _ => none

/-- The indices of a ring's entries from ri on. -/
def Ring_.indices (q : Ring_) : List Nat :=
  (List.range (min ((q.wi + 2 ^ 64 - q.ri) % 2 ^ 64) (2 ^ q.lc))).map fun j => q.ri + j

/-- ri moved past the entries taken. -/
def State.passTaken (s : State) (asid : BitVec 16) (q : Ring_) : List Nat → State
  | [] => s
  | i :: t =>
    match s.ringEntry asid q i with
    | some (_, true) =>
      (s.hubRewrite asid q.va fun r => setRowWord r 1 (BitVec.ofNat 64 (i + 1))).passTaken asid q t
    | _ => s

/-- The row of a rank's backlog header. -/
def State.blogRow (s : State) (v : BitVec 16) : List (BitVec 16 × Word) := [(s.rankAsid v, (s.rankWord v 10) &&& 0xFFFFFFFFFFFF)]

/-- The rows of an entry. -/
def Ring_.entryRows (q : Ring_) (asid : BitVec 16) (i : Nat) : List (BitVec 16 × Word) :=
  [(asid, (q.entry i).setWidth 64), (asid, (q.entry i + 64).setWidth 64)]

/-- The rows of the entries of a rank's ring from ri on. -/
def State.ringRows (s : State) (v : BitVec 16) : List (BitVec 16 × Word) :=
  match s.backlog v with
  | some q => q.indices.flatMap fun i => q.entryRows (s.rankAsid v) i
  | none => []

/-- BACKLOG_TAKE (R369): a collective's entries used in index order as it is bound.
Log 71: DEDUCED, safe. -/
def State.takeBacklog (s : State) (b : Binding) : State :=
  match s.backlog b.vrank with
  | none => s
  | some q =>
    if s.rankRes b.vrank = 0 then
      let s1 := q.indices.foldl (fun s i =>
        match s.ringEntry b.asid q i with
        | some (f, false) =>
          if f.collKey = b.key then
            (s.hubRewrite b.asid (q.entry i) fun r => setBits r 256 1 1).engineFlit b f true
          else s
        | _ => s) s
      s1.passTaken b.asid q q.indices
    else s

/-- Whether a flit goes to its rank's ring (R368).
Log 71: DEDUCED, safe. -/
def State.toRing (s : State) (v : BitVec 16) (key : CollKey) : Bool :=
  s.rankRes v != 0 || !(s.disp.ranks.any fun r => r.vrank == v && r.bound.contains key)

/-! ## cbind (R225, R349, R352) -/

/-- A field that breaks R349. -/
def collBad (w : List Word) : Bool :=
  let d := collDesc w
  let plain := d.kind == 2 || d.kind == 3 || d.kind == 6
  decide (6 < d.kind) || d.op == 3 || fld (dw w 0) 48 5 != 0 || fld (dw w 0) 16 14 != 0 || fld (dw w 1) 48 16 != 0 ||
    fld (dw w 1) 9 23 != 0 || fld (dw w 2) 24 8 != 0 || fld (dw w 3) 0 6 != 0 || fld (dw w 4) 32 32 != 0 ||
    fld (dw w 4) 0 3 != 0 || (List.range 11).any (fun j => dw w (5 + j) != 0) ||
    (plain && (d.op != 0 || d.el != 0 || d.sat)) ||
    ((d.kind == 0 || d.kind == 1 || d.kind == 4) && !([2, 3, 6, 7, 8, 9, 10, 11].contains d.el)) ||
    (d.kind == 5 && (d.op != 0 || !([2, 9].contains d.el) || d.span == 0 || d.nch == 0 || d.chk != 0)) ||
    (d.kind != 5 && (d.span != 0 || d.nch != 0 || d.thr != 0 || d.chk == 0 || decide (256 < d.chk))) ||
    (d.kind != 1 && d.kind != 2 && d.root != 0)

/-- The ASID under which cbind reads: the rank's. -/
def State.collAsid (s : State) : BitVec 16 :=
  if s.iss.fw then s.rankAsid s.ctx.vrank else s.cmdAsid

/-- A row of the endpoint table or the member list, read as a load of the issuing context under the rank's ASID (R352). -/
def State.collRow (s : State) (va : Word) : Except Res (Row × State) := s.loadForAs s.collAsid.toNat va 2

/-- Rows from an address on. -/
def State.collRows (s : State) : Nat → Word → Except Res (List Row × State)
  | 0, _ => .ok ([], s)
  | n + 1, va =>
    match s.collRow va with
    | .error r => .error r
    | .ok (r, s1) =>
      match s1.collRows n ((va &&& ~~~63#64) + 64) with
      | .error e => .error e
      | .ok (l, s2) => .ok (r :: l, s2)

/-- What cbind finds in the endpoint table: the job and the members, or that something there is refused. -/
def State.endpoint (s : State) (gid : Nat) : Except Res (Option (BitVec 16 × List (BitVec 16)) × State) :=
  let cept : Word := ((s.rankWord s.ctx.vrank 12).setWidth 48 : Addr).setWidth 64
  match s.collRow cept with
  | .error r => .error r
  | .ok (h, s1) =>
    let ng := fld (rowWord h 1) 0 13
    if fld (rowWord h 0) 16 48 ≠ 0 ∨ fld (rowWord h 1) 13 51 ≠ 0 ∨
        [2, 3, 4, 5, 6, 7].any (fun j => rowWord h j != 0) = true ∨ ng ≤ gid then .ok (none, s1)
    else
      let ea := cept + 64 + BitVec.ofNat 64 (16 * gid)
      match s1.collRow ea with
      | .error r => .error r
      | .ok (e, s2) =>
        let j := ea.toNat / 8 % 8
        let w0 := rowWord e j
        let w1 := rowWord e (j + 1)
        let n := fld w1 0 17
        if fld w0 48 16 ≠ 0 ∨ bitAt w0 0 = true ∨ fld w1 17 47 ≠ 0 then .ok (none, s2)
        else if n = 0 then .ok (none, s2)
        else
          let lo := w0.toNat % 64
          match s2.collRows ((lo + 2 * n + 63) / 64) w0 with
          | .error r => .error r
          | .ok (rows, s3) =>
            let ids := (rows.flatMap fun r => (List.range 32).map fun i => lane 16 r i)
            let m := (ids.drop (lo / 2)).take n
            let asc := (m.zip (m.drop 1)).all fun p => decide (p.1 < p.2)
            if asc && m.contains s.ctx.vrank.toNat && decide (n ≤ 65536) then
              .ok (some ((rowWord h 0).setWidth 16, m.map fun x => BitVec.ofNat 16 x), s3)
            else .ok (none, s3)

/-- What the collective engine refuses without the table (reason 8); the bindings of the module's members are what is counted as
its bound collectives (R352).
Log 142: DESIGN CHOICE, unsafe. -/
def State.bindBad (s : State) (w : List Word) : Bool :=
  let t := s.px.tile (fld (dw w 0) 30 6)
  !s.tileCfg t || t.rv || t.bnd || collBad w || !s.sp.has (fld (dw w 4) 6 26) || decide (4096 ≤ s.binds.length) ||
    s.disp.ranks.any fun r => r.vrank == s.ctx.vrank &&
      r.bound.any fun k => k.gid.toNat == fld (dw w 0) 36 12 && k.cid.toNat == fld (dw w 0) 0 16

/-- A binding installed: the tile bound, the identifier drawn, and the ring's entries used. -/
def State.installBind (s : State) (b : Binding) : State :=
  let e := s.px.tile b.tile
  let s1 := s.setPx { s.px with tiles := Tab.put s.px.tiles b.tile { e with bnd := true } }
  let s2 := s1.shareView s.agent (.collective b.core b.fw b.chan b.ident)
  let mark (r : Rank) : Rank := if r.vrank = b.vrank then { r with bound := r.bound ++ [b.key] } else r
  let s3 := { s2 with binds := s2.binds ++ [b], disp := { s2.disp with ranks := s2.disp.ranks.map mark } }
  s3.takeBacklog b

/-- The rows that the result copy of the member at a position writes, V taken as the tile's rows field (R352).
Log 120: DEDUCED, unsafe. -/
def CollDesc.copyRows (d : CollDesc) (n pos rows : Nat) : Nat :=
  if d.kind = 6 ∨ (d.kind = 1 ∧ pos ≠ d.root) then 0 else if d.kind = 4 then rows / n else rows

/-- cbind (R349, R352). -/
def execCbind (g c : BitVec 4) (a d : BitVec 6) (_q r : BitVec 1) (sc : BitVec 4) (s : State) :
    Host.Outcome State Fault Refusal :=
  let off := s.readS a
  let v := s.ctx.vrank
  issue g s
    (if s.chanOk c.toNat = false then s.illegal 3
     else s.withRank v fun s => Res.andThen (s.readDesc off) fun w =>
       let cd := collDesc w
       let t := fld (dw w 0) 30 6
       if 256 ≤ (s.chanAt c.toNat).outstanding then s.cmdFault 5 off
       else if s.bindBad w then s.cmdFault 8 off
       else Res.andThen (s.endpoint (fld (dw w 0) 36 12)) fun x =>
         match x.1 with
         | none => s.cmdFault 8 off
         | some (job, m) =>
           if (cd.kind = 1 ∨ cd.kind = 2) ∧ m.length ≤ cd.root then s.cmdFault 8 off
           else
             let n := cd.copyRows m.length (m.idxOf v) (s.px.tile t).rows
             let span : Span := ⟨true, ((dw w 3).toNat : Int), 64 * n⟩
             let probe := if dw w 3 = 0 ∨ n = 0 then .ok [] else s.probeSpan s.collAsid.toNat span []
             Res.andThen probe fun held =>
               let id := s.nextIdent c.toNat
               let s1 := x.2.drawId c.toNat d
               if s.quiescing s.collAsid then .ok (s1.completeId s.iss.core s.iss.fw c.toNat id)
               else s1.withRows (s1.blogRow v) fun s1 => s1.withRows (s1.ringRows v) fun s1 =>
                 .ok (s1.installBind
                   { key := ⟨job, BitVec.ofNat 12 (fld (dw w 0) 36 12), (dw w 0).setWidth 16⟩, vrank := v,
                     asid := s.collAsid, core := s.iss.core, fw := s.iss.fw, chan := c.toNat, ident := id,
                     tile := t, pos := m.idxOf v, desc := cd, dva := dw w 3, sw := fld (dw w 4) 0 32,
                     rl := r == 1, sc := sc.toNat, held := held, members := m, born := s.me.cycle, time := s.hub.gtime }))

/-! ## The bound tile, on its core or in its image (R312) -/

/-- The collective engine, as it acts for a binding (R229, R448).
Log 147: DEDUCED, safe. -/
def Binding.agent (b : Binding) : Agent := .collective b.core b.fw b.chan b.ident

/-- The rows of an image before its scratchpad rows.
Log 72: DEDUCED, unsafe. -/
def imageSpRow (va : Addr) (i : Nat) : Addr := va + BitVec.ofNat 48 (8 * imageFixed + 64 * i)

/-- The row of an image that holds such a row of the partition. -/
def Binding.padRow (b : Binding) (i : Nat) : List (BitVec 16 × Word) :=
  (b.image.map fun va => ((0 : BitVec 16), (imageSpRow va i).setWidth 64)).toList

/-- A row of the partition; nothing where it is poisoned.
Log 72: DEDUCED, unsafe. -/
def State.bindRow (s : State) (b : Binding) (i : Nat) : Option Row :=
  match b.image with
  | none =>
    let p := (s.core b.core).sp
    if p.bad.contains i then none else some (p.row i)
  | some va => s.hubRead 0 (imageSpRow va i)

def State.setBindRow (s : State) (b : Binding) (i : Nat) (v : Row) : State :=
  match b.image with
  | none =>
    let k := s.core b.core
    s.setCore b.core { k with sp := k.sp.setRow i v }
  | some va => s.hubRewrite 0 (imageSpRow va i) fun _ => v

/-- The word of an image that holds a tile-table entry.
Log 72: DEDUCED, unsafe. -/
def imageTileWord (t : Nat) : Nat := 562 + t

/-- The row of an image that holds the entry of a binding's tile. -/
def Binding.tileRow (b : Binding) : List (BitVec 16 × Word) :=
  (b.image.map fun va => ((0 : BitVec 16), (va + BitVec.ofNat 48 (64 * (imageTileWord b.tile / 8))).setWidth 64)).toList

def State.bindTile (s : State) (b : Binding) : Tile :=
  match b.image with
  | none => (s.core b.core).px.tile b.tile
  | some va =>
    let j := imageTileWord b.tile
    ((s.hubRead 0 (va + BitVec.ofNat 48 (64 * (j / 8)))).map fun r => Tile.ofWord (rowWord r (j % 8))).getD {}

/-- The entry of a binding's tile replaced. -/
def State.setBindTile (s : State) (b : Binding) (e : Tile) : State :=
  match b.image with
  | none =>
    let k := s.core b.core
    s.setCore b.core { k with px := { k.px with tiles := Tab.put k.px.tiles b.tile e } }
  | some va =>
    let j := imageTileWord b.tile
    s.hubRewrite 0 (va + BitVec.ofNat 48 (64 * (j / 8))) fun r => setRowWord r (j % 8) e.word

/-- The bound tile ready again with its valid rows, and no longer bound; its readiness carries the completion (R242). -/
def State.freeTile (s : State) (b : Binding) (vr : Nat) : State :=
  let s1 := s.setBindTile b { s.bindTile b with bnd := false, st := .ready, vr := vr }
  match b.image with
  | none =>
    let k := s1.core b.core
    s1.setCore b.core { k with sp := k.sp.mark (2 ^ 22 + b.tile) b.agent }
  | some _ => s1

/-- Whether the copy of a context is under way, in a save or in a restoration, so that the engine holds its accesses (R312). -/
def State.bindHeld (s : State) (b : Binding) : Bool :=
  match b.image with
  | none => !b.fw && (s.core b.core).saving
  | some va => allCores.any fun c => (s.core c).xfers.any fun x => (x.kind == .ctxr || x.kind == .ctxs) && x.imageVa == va

/-- The publisher of its release: its issuing context (R214, R242), or the engine while the context is saved in an image
(R312). -/
def Binding.publisher (b : Binding) : Agent := if b.image.isNone then .context b.core b.fw else b.agent

/-- A binding replaced. -/
def State.setBind (s : State) (b : Binding) : State :=
  { s with binds := s.binds.map fun x => if x.key = b.key ∧ x.vrank = b.vrank then b else x }

/-! ## Firing (R353, R360, R362) -/

/-- The rows of its tile that a collective reads of a member. -/
def Binding.reads (b : Binding) (V : Nat) : Nat :=
  if b.desc.kind = 6 ∨ (b.desc.kind = 2 ∧ b.pos ≠ b.desc.root) then 0 else V

/-- Input(pos), when the rows have been read. -/
def Binding.value (b : Binding) (V cap : Nat) : NodeVal :=
  let v : NodeVal :=
    { lo := b.pos, k := 1, down := false, desc := some (b.desc, V), cap := cap }
  if b.inBad then { v with err := 5, errPos := b.pos }
  else if b.desc.kind = 5 then
    match streamChunks b.desc b.input with
    | none => { v with err := 1, errPos := b.pos }
    | some cs => { v with rows := (cs.zipIdx.flatMap fun e => chunkRows b.desc e.2 e.1) }
  else { v with rows := b.input }

/-- A member's complete input enters the tree. Of a broadcast the root's rows go to the site of Node(0, n), and what
every member sends up the tree is the fields to compare (R354, R449).
Log 70: DESIGN CHOICE, unsafe. -/
def State.enter (s : State) (b : Binding) (V : Nat) : State :=
  let v := b.value V (s.bindTile b).rows
  let s1 := s.setBind { b with sent := true }
  if b.desc.kind = 2 then
    let site := b.members.getD 0 0
    let s2 :=
      if b.pos ≠ b.desc.root ∨ v.err ≠ 0 then s1
      else if s1.siteHere b.key site then s1.rootRows b v
      else s1.sendVal b.desc b.key site v
    (s2.pushUp b { v with rows := [] }).endEarly b
  else s1.pushUp b v

/-- Whether a collective has a member at a node. -/
def State.memberAt (s : State) (b : Binding) (d : Nat) : Bool := b.members.any fun m => s.rankNode b.key.job m == some d

/-- A collective with a member at a lost node ended with code 4 at this module's members (R404).
Log 80: DEDUCED, unsafe. -/
def State.loseColl (s : State) (b : Binding) : State :=
  let s1 := s.setColl { s.collOf b.key with ended := true }
  (List.range b.members.length).foldl (fun s i =>
    let m := b.members.getD i 0
    if s.siteHere b.key m ∧ ((s.collOf b.key).val i 1 true).isNone then
      s.leaf b.desc b.key m
        { lo := i, k := 1, down := true, used := some (b.desc, b.fired), time := s.hub.gtime, err := 4 }
    else s) s1

/-- COLLECTIVE_FIRE (R353): the engine reads the rows of a tile that has fired, one at each occurrence, and then
has the member's input. A release publishes before the first read (R225). A collective with a member at a node that is
already lost ends with code 4 (R404). -/
def execCollectiveFire (core tile : Nat) (s : State) : Host.Outcome State Fault Refusal :=
  match s.binds.find? fun b => b.core == core && b.tile == tile && b.fired.isSome && !b.sent && !b.cut && !s.bindHeld b with
  | none => .next s
  | some b =>
    .next (s.reading b.tileRow fun s =>
      let V := b.fired.getD 0
      let s1 := if b.rl ∧ b.input = [] ∧ b.inBad = false then s.publish b.agent b.publisher b.sc else s
      if b.input.length < b.reads V then
        let i := (s.bindTile b).first + b.input.length
        s.reading (b.padRow i) fun s =>
          match s.bindRow b i with
          | some r => s1.setBind { b with input := b.input ++ [r] }
          | none => s1.setBind { b with input := b.input ++ [0], inBad := true }
      else if s.fab.lost.any fun d => s.memberAt b d.toNat then (s1.setBind { b with sent := true }).loseColl b
      else s1.enter b V)

/-- COLLECTIVE_NODE_COMBINE (R347, R350, R357 to R359): a node whose operands are both present at its site. -/
def execCollectiveNodeCombine (key : CollKey) (lo k : Nat) (s : State) : Host.Outcome State Fault Refusal :=
  match s.anyBind key with
  | none => .next s
  | some b =>
    let n := b.members.length
    let h := half k
    let c := s.collOf key
    let inTree := decide (2 ≤ k) && ((lo == 0 && k == n) || (parentOf n lo k).isSome)
    match c.val lo h false, c.val (lo + h) (k - h) false with
    | some l, some r =>
      if inTree && !c.ended && (c.val lo k false).isNone && s.siteHere key (b.members.getD lo 0) then
        let rest := c.vals.filter fun v => !(v == l) && !(v == r)
        .next ((s.setColl { c with vals := rest }).pushUp b (joinVals b.desc k l r))
      else .next s
    | _, _ => .next s

/-! ## Completion (R354 to R356) -/

/-- Whether a late member's fields are those that the other members used (R354). -/
def Binding.agrees (b : Binding) (v : NodeVal) : Bool :=
  match v.used with
  | some (d, some V) => d == b.desc && V == b.fired.getD 0
  | some (d, none) => d == b.desc
  | none => true

/-- The code and position with which a member completes (R354). -/
def Binding.status (b : Binding) (v : NodeVal) : Nat × Nat :=
  let V := b.fired.getD 0
  if v.err ≠ 0 then (if b.agrees v then (v.err, v.errPos) else (3, 0))
  else if v.desc == some (b.desc, V) then (0, 0) else (3, 0)

/-- The rows that a member's tile receives. -/
def Binding.result (b : Binding) (v : NodeVal) : List Row :=
  if (b.status v).1 ≠ 0 ∨ b.desc.kind = 6 ∨ (b.desc.kind = 1 ∧ b.pos ≠ b.desc.root) then [] else v.rows

/-- The status word (R356); one of a mismatch carries no flags (R377). -/
def statusWord (code pos : Nat) (flags : BitVec 7) : Word :=
  BitVec.ofNat 64 (code * 2 ^ 60 + pos * 2 ^ 44 + if code = 3 then 0 else flags.toNat)

/-- The status word written: dropped and reported on a poisoned row (R356). -/
def State.writeStatus (s : State) (b : Binding) (w : Word) : State :=
  match s.bindRow b (b.sw / 64) with
  | none => s.raiseMc (coreReport 0x14 b.core (BitVec.ofNat 64 b.sw) (BitVec.ofNat 64 b.ident))
  | some r => s.setBindRow b (b.sw / 64) (setRowWord r (b.sw / 8 % 8) w)

/-- The transfer that writes a binding's result to memory (R355). -/
def Binding.xfer (b : Binding) : Xfer :=
  { fw := b.fw, chan := b.chan, ident := b.ident, kind := .cbind, asid := b.asid, vrank := some b.vrank, rl := b.rl, sc := b.sc,
    held := b.held }

/-- A binding no longer in force; with the last of a collective's, what the module held of it goes. -/
def State.dropBind (s : State) (b : Binding) : State :=
  let l := s.binds.filter fun x => !(x.key = b.key ∧ x.vrank = b.vrank)
  { s with binds := l,
           colls := if l.any fun x => x.key = b.key then s.colls else s.colls.filter fun c => c.key ≠ b.key }

/-- The last parts of a completion: status, tile, identifier. The identifier of a binding in an image completes
when its context is restored. -/
def State.endBind (s : State) (b : Binding) (v : NodeVal) (rows : List Row) : State :=
  let st := b.status v
  let V := b.fired.getD 0
  let vr := if st.1 ≠ 0 ∨ rows = [] then V else rows.length
  let s1 := (s.writeStatus b (statusWord st.1 st.2 v.flags)).freeTile b vr
  let s2 := if b.rl then s1.publish b.agent b.publisher b.sc else s1
  match b.image with
  | none => (s2.dropBind b).completeId b.core b.fw b.chan b.ident
  | some _ => s2.setBind { b with fin := true }

/-- The end of a cancelled binding, once no write of it is outstanding (R399, R402). -/
def State.cutBind (s : State) (b : Binding) : State :=
  let s1 := s.setBindTile b { s.bindTile b with bnd := false }
  match b.image with
  | some _ => s1.setBind { b with cut := false, fin := true }
  | none => (s1.dropBind b).completeId b.core b.fw b.chan b.ident

/-- COLLECTIVE_COMPLETE (R355): the result's rows to the tile, then to memory, one at each occurrence; then the
status word, the tile and the identifier. Of a cancelled one only the identifier (R399). -/
def execCollectiveComplete (core tile : Nat) (s : State) : Host.Outcome State Fault Refusal :=
  match s.binds.find? fun b => b.core == core && b.tile == tile && !b.fin && !s.bindHeld b &&
      (b.cut || (b.fired.isSome && ((s.collOf b.key).val b.pos 1 true).any fun v => v.err != 0 || b.sent)) with
  | none => .next s
  | some b =>
    if b.cut then .next (if b.posted = 0 then s.reading b.tileRow fun s => s.cutBind b else s)
    else match (s.collOf b.key).val b.pos 1 true with
    | none => .next s
    | some v =>
      .next (s.reading b.tileRow fun s =>
        let rows := b.result v
        let n := rows.length
        if b.step < n then
          let i := (s.bindTile b).first + b.step
          s.reading (b.padRow i) fun s =>
            (s.setBindRow b i (rows.getD b.step 0)).setBind { b with step := b.step + 1 }
        else if b.dva ≠ 0 ∧ b.step < 2 * n then
          let i := b.step - n
          let va := wrapAddr (b.dva.toNat + 64 * i : Nat)
          match s.engStore b.core b.xfer va (.row (rows.getD i 0)) false with
          | none => s
          | some r => r.2.setBind { b with step := b.step + 1, posted := b.posted + r.1.posted }
        else if b.posted = 0 then s.reading (b.padRow (b.sw / 64)) fun s => s.endBind b v rows
        else s)

/-! ## Delivery (R368, R370, R399, R449) -/

/-- Whether a delivered flit is the next of its source (R367, R370). -/
def firstOf (inbox : List Flit) (f : Flit) : Bool :=
  inbox.find? (fun x => x.src == f.src && x.cls == f.cls && x.rank == f.rank) == some f

/-- A delivered flit no longer waiting.
Log 70: DESIGN CHOICE, unsafe. -/
def State.takeIn (s : State) (f : Flit) : State :=
  { s with fab := { s.fab with inbox := s.fab.inbox.erase f } }

/-- A ring written, or credit withheld while it is full or cannot be reached (R370). -/
def State.backlogWrite (s : State) (f : Flit) : State :=
  s.reading (s.blogRow f.rank) fun s =>
    match s.backlog f.rank with
    | none => s
    | some q =>
      let asid := s.rankAsid f.rank
      if q.full then s.bumpModule 1 true
      else s.reading (q.entryRows asid q.wi) fun s => (s.takeIn f).ringWrite asid q q.wi f

/-- The late area of a rank that is arriving (R372, R374): base, log2 of the capacity. -/
def State.lateArea (s : State) (la : Addr) : Option (Addr × Nat) :=
  (s.hubRead 0 la).map fun r => ((rowWord r 4).setWidth 48, fld (rowWord r 5) 0 5)

/-- A flit for an arriving rank written to its late area. -/
def State.lateWrite (s : State) (f : Flit) (la : Addr) (n : Nat) : State :=
  s.reading [(0, la.setWidth 64)] fun s =>
    match s.lateArea la with
    | none => s
    | some a =>
      if 2 ^ a.2 ≤ n then s.bumpModule 1 true
      else
        let q : Ring_ := ⟨0, n, 0, a.1, a.2⟩
        let head : Row := ofWords [f.w0, f.w1, f.w2, f.w3]
        s.reading (q.entryRows 0 n) fun s =>
          let s1 := ((s.takeIn f).hubRewrite 0 (q.entry n) fun _ => head).hubRewrite 0 (q.entry n + 64) fun _ => f.payload
          { s1 with car := { s1.car with landing := s1.car.landing.map fun e =>
              if e.1 = f.rank then (e.1, e.2.1, n + 1) else e } }

/-- A cls 0 flit for a resident rank whose block has been read: dropped and counted while the rank is stopped and its ASID
quiesced (R399), else to the rank's ring (R368), else to the engine. -/
def State.collFlitIn (s : State) (f : Flit) : State :=
  let v := f.rank
  if s.rankRes v = 3 ∧ s.quiescing (s.rankAsid v) then (s.takeIn f).bumpModule 0 true
  else if s.toRing v f.collKey then s.backlogWrite f
  else
    match s.bindOf f.collKey v with
    | some b => (s.takeIn f).engineFlit b f (f.src == s.node)
    | none => s.takeIn f

/-- COLLECTIVE_FLIT (R368 to R370, R374, R399, R449).
Log 58: DEDUCED, safe. -/
def execCollectiveFlit (f : Flit) (s : State) : Host.Outcome State Fault Refusal :=
  if s.fab.inbox.contains f = false ∨ firstOf s.fab.inbox f = false ∨ f.cls ≠ 0 then .next s
  else
    let v := f.rank
    match s.car.landing.find? fun e => e.1 = v, s.resident v with
    | some e, false => .next (s.lateWrite f e.2.1 e.2.2)
    | none, false => .next s
    | _, true => .next (s.forRank v fun s => s.collFlitIn f)

end Sys2Proof.Machine
end

