-- ==== Sys2Proof/Machine/Fabric.lean ====
section
/-! DEFINITION. The switch and its links (R364 to R367, R404), remote memory accesses served and answered
(R322, R341, R364, R406), and node loss. -/

namespace Sys2Proof

/-- A flit whose class or operation is reserved (R364). -/
def Flit.reserved (f : Flit) : Bool :=
  decide (2 < f.cls) || (f.cls == 1 && decide (7 < f.memOp)) || (f.cls == 2 && decide (4 < f.memOp))

/-- The agent of another module that a request comes from. -/
def Flit.agent (f : Flit) : Agent := .remote f.src f.tag

end Sys2Proof

namespace Sys2Proof.Machine

/-! ## Links (R365) -/

def State.link (s : State) (p : Nat) : Link := Tab.get {} s.fab.links p

def State.setLink (s : State) (p : Nat) (l : Link) : State :=
  { s with fab := { s.fab with links := Tab.put s.fab.links p l } }

def State.toInbox (s : State) (f : Flit) : State := { s with fab := { s.fab with inbox := s.fab.inbox ++ [f] } }

/-- A flit put on a link without a number of its route: it passes through the switch, or acknowledges. One for a lost node is
dropped and counted (R404), one whose entry of the port table cannot be read is held (R393).
Log 76: DEDUCED, unsafe. -/
def State.pass (s : State) (dst : Nat) (f : Flit) : State :=
  if s.fab.lost.contains (BitVec.ofNat 12 dst) then s.bumpModule 2 true
  else if s.fab.badPorts.contains dst then { s with fab := { s.fab with transit := s.fab.transit ++ [(dst, f)] } }
  else match s.portFor dst f.cls f.chunk with
  | some p => s.onLink p f
  | none => s

/-- The acknowledgement of a route (R367): the highest number received in order. The places within arg1 are this
model's.
Log 75: DEDUCED, safe. -/
def State.ackRoute (s : State) (src cls : Nat) (last : BitVec 32) : State :=
  let w0 : Word := BitVec.ofNat 64 (src * 2 ^ 52 + s.node * 2 ^ 40 + 2 * 2 ^ 36)
  s.pass src ⟨w0, 0, BitVec.ofNat 64 (4 * 2 ^ 60), BitVec.ofNat 64 (cls * 2 ^ 32 + last.toNat), 0⟩

/-- Flits held ahead delivered as long as the next number is among them.
Log 75: DEDUCED, safe. -/
def State.deliverAhead (s : State) (src : BitVec 12) (cls : Nat) : Nat → State
  | 0 => s
  | n + 1 =>
    let r := s.route src cls
    match r.ahead.find? fun f => f.rseq = r.rx with
    | none => s
    | some f =>
      ((s.setRoute { r with rx := r.rx + 1, ahead := r.ahead.erase f }).toInbox f).deliverAhead src cls n

/-- A flit at the destination side of its route (R367).
Log 75: DEDUCED, safe. -/
def State.routeIn (s : State) (f : Flit) : State :=
  let src : BitVec 12 := BitVec.ofNat 12 f.src
  let r := s.route src f.cls
  let d := (f.rseq - r.rx).toNat
  if d = 0 then
    let s1 := ((s.setRoute { r with rx := r.rx + 1 }).toInbox f).deliverAhead src f.cls (r.ahead.length + 1)
    s1.ackRoute f.src f.cls ((s1.route src f.cls).rx - 1)
  else if d ≤ 1024 then
    if r.ahead.any fun x => x.rseq = f.rseq then s else s.setRoute { r with ahead := r.ahead ++ [f] }
  else if 2 ^ 31 ≤ d then s.ackRoute f.src f.cls (r.rx - 1)
  else s

/-- A flit that a link has accepted: one for another node passes on, one of a reserved class or an acknowledgement
has no route of its own.
Log 76: DEDUCED, unsafe. -/
def State.accept (s : State) (f : Flit) : State :=
  if f.dst ≠ s.node then s.pass f.dst f
  else if 2 < f.cls ∨ (f.cls = 2 ∧ f.memOp = 4) then s.toInbox f
  else s.routeIn f

/-- A negative acknowledgement sent, naming the first missing number.
Log 73: DEDUCED, unsafe. -/
def State.nak (s : State) (p : Nat) : State :=
  let s1 := s.bumpPort p 0 false
  { s1 with fab := { s1.fab with naks := s1.fab.naks ++ [(p, (s.link p).rxNext)] } }

/-- LINK_FLIT_RECEIVE (R364, R365). -/
def execLinkFlitReceive (port : Nat) (lseq : BitVec 12) (crcOk : Bool) (f : Flit) (s : State) :
    Host.Outcome State Fault Refusal :=
  let l := s.link port
  if l.up = false ∨ 144 ≤ port then .next s
  else if crcOk = false then .next ((s.bumpPort port 0 true).nak port)
  else if lseq = l.rxNext then .next ((s.setLink port { l with rxNext := l.rxNext + 1 }).accept f)
  else if 2048 ≤ (lseq - l.rxNext).toNat then .next s
  else .next (s.nak port)

/-- A port taken down, which is counted and reported, and its unreceived flits sent by the other ports (R365,
R392).
Log 74: DEDUCED, safe. -/
def State.portDown (s : State) (p : Nat) (flits : List Flit) : State :=
  let l := s.link p
  let s1 := (s.setLink p { l with up := false, downAt := s.hub.gtime, replay := [], fails := 0, naked := none })
  let s2 := (s1.bumpPort p 1 false).raiseMc
    ⟨0x0F, BitVec.ofNat 8 p, 0, 0, (Config.free 12 [40, p]).setWidth 64⟩
  flits.foldl (fun s f => s.pass f.dst f) s2

/-- The flits of a link's replay buffer from a number on. -/
def Link.from_ (l : Link) (lseq : BitVec 12) : List Flit :=
  let back := (l.txNext - lseq).toNat
  l.replay.drop (l.replay.length - back)

/-- NEGATIVE_ACKNOWLEDGEMENT (R365): the sender resends; after 16 resends in a row that failed the port goes
down. -/
def execNegativeAcknowledgement (port : Nat) (lseq : BitVec 12) (s : State) : Host.Outcome State Fault Refusal :=
  let l := s.link port
  if l.up = false ∨ 144 ≤ port then .next s
  else
    let fs := l.from_ lseq
    let fails := if l.naked = some lseq then l.fails + 1 else 0
    if 16 ≤ fails then .next (s.portDown port fs)
    else
      let s1 := s.setLink port { l with fails := fails, naked := some lseq }
      let again := fs.zipIdx.map fun e => (port, s.trailer (lseq + BitVec.ofNat 12 e.2) e.1, e.1)
      let s2 := { s1 with fab := { s1.fab with sent := s1.fab.sent ++ again } }
      .next (fs.foldl (fun s _ => s.bumpPort port 1 true) s2)

/-! ## Routes (R367) -/

/-- ROUTE_RESEND_TIMEOUT (R367). -/
def execRouteResendTimeout (dst cls : Nat) (s : State) : Host.Outcome State Fault Refusal :=
  let r := s.route (BitVec.ofNat 12 dst) cls
  let now := s.hub.gtime
  let due (e : Flit × Nat × Nat × Nat) : Bool := decide (e.2.2.1 + 20000 ≤ now)
  let again := (r.unacked.filter due).map fun e => e.1
  let l := r.unacked.map fun e => if due e then (e.1, e.2.1, now, e.2.2.2 + 1) else e
  let s1 := s.setRoute { r with unacked := l }
  .next (again.foldl (fun s f => (s.pass dst f).bumpModule 1 false) (if again.isEmpty then s else s1))

/-- The first of its route among the delivered flits, taken.
Log 73: DEDUCED, unsafe. -/
def State.receiving (s : State) (f : Flit) (cls op : Nat) (k : State → State) : State :=
  let first := s.fab.inbox.find? fun x => x.src == f.src && x.cls == f.cls
  if first = some f ∧ f.cls = cls ∧ f.memOp = op then k (s.takeIn f) else s

/-- The same as a step. -/
def State.receive (s : State) (f : Flit) (cls op : Nat) (k : State → State) : Host.Outcome State Fault Refusal :=
  .next (s.receiving f cls op k)

/-- ROUTE_ACKNOWLEDGEMENT (R367). -/
def execRouteAcknowledgement (f : Flit) (s : State) : Host.Outcome State Fault Refusal :=
  s.receive f 2 4 fun s =>
    let r := s.route (BitVec.ofNat 12 f.src) (fld f.w3 32 4)
    let last : BitVec 32 := f.w3.setWidth 32
    s.setRoute { r with unacked := r.unacked.filter fun e => decide (2 ^ 31 ≤ (last - e.1.rseq).toNat) }

/-- RESERVED_CODE_FLIT (R364). -/
def execReservedCodeFlit (f : Flit) (s : State) : Host.Outcome State Fault Refusal :=
  if s.fab.inbox.contains f = true ∧ f.reserved = true then .next ((s.takeIn f).bumpModule 0 false) else .next s

/-! ## Events to the hosts (R418) -/

/-- An event message to the latest session of each port.
Log 88: DESIGN CHOICE, safe. -/
def State.eventMessage (s : State) (code : Nat) (w : Word) : State :=
  let body : List Byte := (rowBytes (ofWords [BitVec.ofNat 64 code, w])).map fun b => BitVec.ofNat 8 b
  let out (p : Port) : Port :=
    match p.last with
    | some _ => { p with evSeq := p.evSeq + 1, out := p.out ++ [s.eventReply (p.evSeq + 1) body] }
    | none => p
  { s with hub := { s.hub with portA := out s.hub.portA, portB := out s.hub.portB } }

/-! ## Node loss (R404) -/

/-- Whether every listed port of a node has been down for 1 ms. -/
def State.portsGone (s : State) (d : Nat) : Bool :=
  let ps := listedPorts (Tab.get 0 s.fab.ports d) 0
  !ps.isEmpty && ps.all fun p => !(s.link p).up && decide ((s.link p).downAt + 1000000 ≤ s.hub.gtime)

/-- Whether a flit for a node has stayed unacknowledged for 1 ms and has been resent on every listed port that is
up.
Log 80: DEDUCED, unsafe. -/
def State.unanswered (s : State) (d : Nat) : Bool :=
  let up := ((listedPorts (Tab.get 0 s.fab.ports d) 0).filter fun p => (s.link p).up).length
  s.fab.routes.any fun r => r.peer.toNat == d &&
    r.unacked.any fun e => decide (e.2.1 + 1000000 ≤ s.hub.gtime) && decide (up ≤ e.2.2.2)

/-- The collectives with a member at a lost node, ended with code 4 at this module's members.
Log 80: DEDUCED, unsafe. -/
def State.lostColls (s : State) (d : Nat) : State :=
  s.binds.foldl (fun s b => if s.memberAt b d then s.loseColl b else s) s

/-- The header addresses of the queues that the module knows to be mirrored at a node: those of cached headers, and those with
packets that are not yet accepted. -/
def State.mirroredAt (s : State) (d : Nat) : List (BitVec 16 × Addr) :=
  ((s.hub.queueTable.filter fun e =>
      let h := hdrOf s.node ([0, 0] ++ e.2.2)
      h.mir && h.bud == d).map (fun e => (e.1, e.2.1)) ++
    (s.hub.mirrors.filter fun e => e.bud == d && !e.acked).map fun e => (e.asid, e.va)).dedup

/-- The mirrored queues whose buddy is at a node, reported (R404).
Log 80: DEDUCED, unsafe. -/
def State.lostMirrors (s : State) (d : Nat) : State :=
  (s.mirroredAt d).foldl (fun s e => s.raiseMc ⟨0x11, 0xFF, 0, e.2.setWidth 64, BitVec.ofNat 64 d⟩) s

/-- NODE_LOST (R404). -/
def execNodeLost (node : Nat) (s : State) : Host.Outcome State Fault Refusal :=
  let d : BitVec 12 := BitVec.ofNat 12 node
  if s.fab.lost.contains d = true ∨ 4096 ≤ node ∨ s.fab.badPorts.contains node = true ∨
      (s.portsGone node || s.unanswered node) = false then .next s
  else
    let gone := (s.fab.routes.filter fun r => r.peer = d).flatMap fun r => r.unacked
    let clear (r : Route) : Route := if r.peer = d then { r with unacked := [] } else r
    let stays := s.mem.posted.filter fun p => !(p.out.any fun o => o.1 == node)
    let s1 := { s with mem := { s.mem with posted := stays }, fab := { s.fab with
      lost := s.fab.lost ++ [d],
      routes := s.fab.routes.map clear,
      reqs := s.fab.reqs.filter (fun e => e.1 != node), later := s.fab.later.filter (fun e => e.2.1 != node),
      behind := s.fab.behind.filter (fun e => e.1 != node) } }
    let held := (s.fab.waiting.filter fun e => e.1 = node).length + (s.fab.transit.filter fun e => e.1 = node).length
    let s2 := (List.range (gone.length + held)).foldl (fun s _ => s.bumpModule 2 true)
      { s1 with fab := { s1.fab with waiting := s1.fab.waiting.filter fun e => e.1 ≠ node,
                                     transit := s1.fab.transit.filter fun e => e.1 ≠ node } }
    let s3 := (s2.raiseMc ⟨0x10, 0xFF, 0, 0, BitVec.ofNat 64 node⟩).eventMessage 2 (BitVec.ofNat 64 node)
    .next ((s3.lostColls node).lostMirrors node)

/-! ## Requests of this module answered (R341, R364) -/

/-- Where an answer goes: a context's load or atomic, or what it posted, a channel of a core, a session of a control port,
a binding's collective engine, the queue controller's mirror or its test of a queue, an agent of the hub, a base die that
spills; or nowhere. -/
inductive Asker where
  | context (c : Nat) (fw : Bool)
  | post (c : Nat) (fw : Bool)
  | chan (c : Nat) (fw : Bool) (n : Nat)
  | collective (c : Nat) (fw : Bool) (n : Nat)
  | session (b : Bool) (n : Nat)
  | mirror
  | test
  | hub
  | spill
  | none
deriving DecidableEq, Repr

/-- The tag of a session's requests. -/
def sessTag (b : Bool) (n : Nat) : Nat := 0x4000 + (if b then 256 else 0) + n

/-- The asker that a tag names. -/
def askerOf (tag : Nat) : Asker :=
  let fw : Bool := tag / 256 % 2 = 1
  if tag = 0xFFFF then .mirror
  else if tag = retestTag then .test
  else if tag = freeTag then .none
  else if tag = hubTag then .hub
  else if tag = spillTag then .spill
  else if 3 * 2 ^ 14 ≤ tag then .collective (tag % 256) fw (tag / 512 % 32)
  else if 2 ^ 15 ≤ tag then .chan (tag % 256) fw (tag / 512 % 32)
  else if 0x4000 ≤ tag then .session fw (tag % 256)
  else if 512 ≤ tag then .post (tag % 256) fw
  else .context (tag % 256) fw

/-- A request no longer outstanding, and those held behind it sent on (R341).
Log 77: DEDUCED, unsafe. -/
def State.answered (s : State) (src : Nat) (f : Flit) (ops : List Nat) : State :=
  let same (g : Flit) : Bool := g.sameRow f && ops.contains g.memOp
  let s1 : State := match s.fab.reqs.find? fun e => e.1 = src ∧ same e.2 with
    | some e => { s with fab := { s.fab with reqs := s.fab.reqs.erase e } }
    | none =>
      match s.fab.later.find? fun e => e.1 = 0 ∧ e.2.1 = src ∧ same e.2.2 with
      | some e => { s with fab := { s.fab with later := s.fab.later.erase e } }
      | none => s
  let go := s1.fab.behind.filter fun e => e.1 == src
  let stay := s1.fab.behind.filter fun e => e.1 != src
  go.foldl (fun s e => s.sendFlit e.1 1 e.2) { s1 with fab := { s1.fab with behind := stay } }

/-- Retried requests sent again when their time has come.
Log 77: DEDUCED, unsafe. -/
def State.flushLater (s : State) : State :=
  let now := s.hub.gtime
  let due := s.fab.later.filter fun e => e.1 != 0 && decide (e.1 ≤ now)
  let sent := s.fab.later.map fun e => if e.1 ≠ 0 ∧ e.1 ≤ now then (0, e.2) else e
  let s1 := { s with fab := { s.fab with later := sent } }
  due.foldl (fun s e => s.routeFlit e.2.1 1 e.2.2) s1

/-- RETRY_WITH_WAIT_HINT (R341): the hint stands in this model's index field of arg1. -/
def execRetryWithWaitHint (f : Flit) (s : State) : Host.Outcome State Fault Refusal :=
  s.receive f 1 7 fun s =>
    let t := max 1 (s.hub.gtime + 4 * (f.index % 1024))
    match s.fab.reqs.find? fun e => e.1 = f.src ∧ e.2.sameRow f = true with
    | some e =>
      ({ s with fab := { s.fab with reqs := s.fab.reqs.erase e, later := s.fab.later ++ [(t, e)] } }).flushLater
    | none =>
      match s.fab.later.find? fun e => e.1 = 0 ∧ e.2.1 = f.src ∧ e.2.2.sameRow f = true with
      | some e =>
        let again := s.fab.later.map fun x => if x = e then (t, e.2) else x
        ({ s with fab := { s.fab with later := again } }).flushLater
      | none => s

/-- An answer's row kept for its asker under a key, with a mark where it is poisoned. -/
def keepAnswer (l : Tab Row) (key : Nat) (v : Row) (bad : Bool) : Tab Row :=
  let l1 := Tab.put l key v
  if bad then Tab.put l1 (poisonKey key) 0 else l1

def State.session (s : State) (b : Bool) (n : Nat) : Option Session :=
  (if b then s.hub.portB else s.hub.portA).sessions.find? (fun e => e.1 = n) |>.map fun e => e.2

def State.setPort (s : State) (b : Bool) (p : Port) : State :=
  { s with hub := if b then { s.hub with portB := p } else { s.hub with portA := p } }

def State.port (s : State) (b : Bool) : Port := if b then s.hub.portB else s.hub.portA

def State.setSession (s : State) (b : Bool) (n : Nat) (x : Session) : State :=
  let p := s.port b
  s.setPort b { p with sessions := Tab.put p.sessions n x }

/-- An answer to a context: dropped where the bundle that asked for it was given up (R27). -/
def Ctx.take (x : Ctx) (key : Nat) (v : Row) (bad : Bool) : Ctx :=
  match x.asked.find? fun e => e.1 = key with
  | some e => if e.2 = 1 then { x with asked := Tab.erase x.asked key } else { x with answers := keepAnswer x.answers key v bad }
  | none => x

/-- The posted operation whose flit awaits an answer (R141): its place and itself. -/
def State.awaited (s : State) (f : Flit) (stage : Nat) : Option (Nat × Posted) :=
  (s.mem.posted.zipIdx.find? fun e => e.1.stage == stage && e.1.row == f.row &&
    e.1.out.any fun o => o.1 == f.src && o.2.tag == f.tag).map fun e => (e.2, e.1)

/-- The row that a part-row store to an enciphered page asked for: it goes back merged with the store, for as long as nothing
else has been written to it, which its version tells (R140, R322, R328); on a poisoned row the home is left to drop the
store (R142).
Log 78: DEDUCED, unsafe. -/
def State.mergePosted (s : State) (i : Nat) (p : Posted) (f : Flit) : State :=
  let s1 := { s with mem := { s.mem with posted := s.mem.posted.set i { p with stage := 2 } } }
  match p.out with
  | none => s
  | some o =>
    let v := p.merge (s.mem.decipher p.ek p.row f.payload)
    let whole := ((memFlit 2 p.row 0 false 3 o.2.tag (s.mem.encipher p.ek p.row v)).withIndex f.index).forRank p.rank
    s1.sendFlit o.1 1 (if f.code = 6 then o.2.forRank p.rank else { whole with w3 := whole.w3 ||| (o.2.w3 &&& 224) })

/-- A row or an old value that has come back to its asker, under its key at its home (R322). -/
def State.answer (s : State) (f : Flit) (key : Nat) : State :=
  let bad := f.code = 2
  match if f.memOp = 1 ∧ (f.code = 3 ∨ f.code = 6) then s.awaited f 1 else none with
  | some e => s.mergePosted e.1 e.2 f
  | none =>
    match askerOf f.tag with
    | .context c fw =>
      let k := s.core c
      s.setCore c (k.setCtx fw ((k.ctx fw).take key f.payload bad))
    | .chan c fw n =>
      let k := s.core c
      match k.xfers.find? fun x => x.fw = fw ∧ x.chan = n ∧ x.asked.contains key = true with
      | some x =>
        s.setXfer c { x with asked := removeNat x.asked key, answers := keepAnswer x.answers key f.payload bad }
      | none => s
    | .session b n =>
      match s.session b n with
      | some x =>
        if x.asked.contains key then
          s.setSession b n { x with asked := removeNat x.asked key, answers := keepAnswer x.answers key f.payload bad }
        else s
      | none => s
    | .hub =>
      if s.hub.asked.contains key then
        { s with hub := { s.hub with asked := removeNat s.hub.asked key, answers := keepAnswer s.hub.answers key f.payload bad } }
      else s
    | .test => if bad then s else s.retested f.src f.row f.payload
    | .spill => s.spillAnswered f.src f.payload
    | .post _ _ => s
    | .collective _ _ _ => s
    | .mirror => s
    | .none => s

/-- READ_RESPONSE (R364). The request is over before what the answer sets off. -/
def execReadResponse (f : Flit) (s : State) : Host.Outcome State Fault Refusal :=
  s.receive f 1 1 fun s => (s.answered f.src f [0]).answer f (homeKey f.src f.row)

/-- ATOMIC_RESPONSE (R364): the old value stands at its own place in the payload; of a claim, word 0 is the slot
index and word 1 says whether it was made. -/
def execAtomicResponse (f : Flit) (s : State) : Host.Outcome State Fault Refusal :=
  s.receive f 1 5 fun s => (s.answered f.src f [4]).answer f (answerKey (homeKey f.src f.row))

/-- A mirror write acknowledged by the buddy (R406). -/
def State.mirrorAck (s : State) (f : Flit) : State :=
  let mine (e : Mirror) : Bool :=
    e.sent && !e.acked && e.index % 2 ^ 32 == f.index && e.bud == f.src && e.mrow == f.row
  match s.hub.mirrors.find? mine with
  | none => s
  | some e =>
    { s with hub := { s.hub with mirrors := s.hub.mirrors.map fun x => if x = e then { e with acked := true } else x } }

/-- One outstanding write of an asker fewer.
Log 78: DEDUCED, unsafe. -/
def State.writeOver (s : State) (f : Flit) : State :=
  match askerOf f.tag with
  | .chan c fw n =>
    let k := s.core c
    match k.xfers.find? fun x => x.fw = fw ∧ x.chan = n ∧ x.posted ≠ 0 with
    | some x => s.setXfer c { x with posted := x.posted - 1 }
    | none => s
  | .collective c fw n =>
    match s.binds.find? fun b => b.core = c ∧ b.fw = fw ∧ b.chan = n ∧ b.posted ≠ 0 with
    | some b => s.setBind { b with posted := b.posted - 1 }
    | none => s
  | .session b n =>
    match s.session b n with
    | some x => s.setSession b n { x with posted := x.posted - 1 }
    | none => s
  | .mirror => s.mirrorAck f
  | .post _ _ => s
  | .context _ _ => s
  | .hub => s
  | .spill => s
  | .test => s
  | .none => s

/-- A write acknowledged; a merged row that was refused, because its row has been written since it was read, is read again
(R140).
Log 78: DEDUCED, unsafe. -/
def State.writeDone (s : State) (f : Flit) : State :=
  match s.awaited f 2 with
  | none => s.writeOver f
  | some (i, p) =>
    if f.code = 3 then
      match p.out with
      | some o =>
        { s with mem := { s.mem with posted := s.mem.posted.set i { p with stage := 1 } } }.sendFlit o.1 1 (p.readFlit o.2)
      | none => s
    else { s with mem := { s.mem with posted := s.mem.posted.eraseIdx i } }.writeOver f

/-- WRITE_ACKNOWLEDGEMENT (R364, R406). -/
def execWriteAcknowledgement (f : Flit) (s : State) : Host.Outcome State Fault Refusal :=
  s.receive f 1 6 fun s => (s.writeDone f).answered f.src f [2, 3, 4]

/-! ## Requests of other modules performed here (R322, R364, R406) -/

/-- An answer to a request: its operation, the request's row and tag, a code.
Log 77: DEDUCED, unsafe. -/
def State.respond (s : State) (f : Flit) (op code : Nat) (p : Row) : State :=
  let g := memFlit op f.row f.elem f.w32 code f.tag p
  s.sendFlit f.src 1 { g with w3 := g.w3 ||| BitVec.ofNat 64 (f.index * 2 ^ 16) }

/-- Whether a row exists at this module (R316). -/
def rowHere (r : Nat) : Bool := inHbm (64 * r) 64 || inTier (64 * r) 64 || isHubRow r

/-- A request performed, or answered with a retry while its row's bank is refreshed or its channel has no usable copy of a
remap table (R341, R345): the hint stands in this model's index field of arg1.
Log 77: DEDUCED, unsafe. -/
def State.serveFlit (s : State) (f : Flit) (k : State → State) : State :=
  match s.waitHint f.row with
  | some h =>
    let g := memFlit 7 f.row f.elem f.w32 f.code f.tag 0
    s.sendFlit f.src 1 { g with w3 := g.w3 ||| BitVec.ofNat 64 (h * 2 ^ 16) }
  | none => (s.opened (64 * f.row)).serving f.actsFor k

/-- The version of a row: the number of the last write in its coherence order, in the 32 bits that a flit carries.
Log 78: DEDUCED, unsafe. -/
def Mem.version (m : Mem) (r : Nat) : Nat := (((m.recs r).getLast?.map fun w => w.ident).getD 0) % 2 ^ 32

/-- READ_REQUEST (R322, R364): performed at the home, which applies no key. A row of a memory-side page is read at its home
(R244), any other gives the last write in its coherence order, which then has reached its reader.
Log 43: DESIGN CHOICE, unsafe. -/
def execReadRequest (f : Flit) (s : State) : Host.Outcome State Fault Refusal :=
  s.receive f 1 0 fun s => s.serveFlit f fun s =>
    let r := f.row
    let bad := s.mem.bad.contains r
    let code := if f.code = 3 then if bad then 6 else 3 else if bad then 2 else 0
    if isHubRow r then s.respond f 1 0 (s.hubRow r)
    else if bitAt f.w3 5 then { s with mem := s.mem.seeHome f.agent r }.respond f 1 code (s.mem.home r)
    else
      match (s.mem.recs r).getLast? with
      | some w =>
        let s1 := s.reachAgent w.ident f.agent
        { s1 with mem := s1.mem.see f.agent r w.ident }.respond (f.withVersion (s.mem.version r)) 1 code w.val
      | none => s.respond (f.withVersion 0) 1 code (s.mem.home r)

/-- A row written by another module, coherent with the caches.
Log 78: DEDUCED, unsafe. -/
def State.remotePut (s : State) (a : Agent) (r : Nat) (v : Row) (poison : Bool) : State :=
  if isHubRow r then s.store a (msAcc r 0 0) v
  else if rowHere r = false then s
  else
    let s1 := s.writeHome a true r v
    { s1 with mem := if poison then { s1.mem with bad := insertNat s1.mem.bad r } else s1.mem }

/-- Bits of a row written by another module in one atomic step; a poisoned row keeps its poison, drops the write and is
reported (R142, R231, R394). -/
def State.remoteBits (s : State) (a : Agent) (r : Nat) (v mask : Row) : State :=
  if isHubRow r then s.store a (msAcc r 0 0) (overlay (s.hubRow r) v mask)
  else if s.mem.bad.contains r then s.dropReport r a
  else s.remotePut a r (overlay (s.mem.latest r) v mask) false

/-- The write of a mirror: the packet to its slot, and wi raised to cover it (R406). The header is that of the queue table
(R295).
Log 45: DEDUCED, unsafe. -/
def State.mirrorIn (s : State) (f : Flit) : State :=
  let asid : BitVec 16 := f.w1.extractLsb' 16 16
  let row := s.mem.latest f.row
  let q := s.headerOf s.node asid (mirrorVa f) row
  let i := (rowWord row 0).toNat / 2 ^ 32 * 2 ^ 32 + f.index
  match q.2.translate asid.toNat .write (q.1.slot i) with
  | .ok slot =>
    let s1 := (q.2.opened slot.pa).putSlot .queueController slot f.payload
    if (rowWord (s1.mem.latest f.row) 0).toNat < i + 1 then
      s1.remoteBits f.agent f.row (BitVec.ofNat 512 (i + 1)) (BitVec.ofNat 512 (2 ^ 64 - 1))
    else s1
  | .none (some pa) => q.2.noteError asid.toNat pa
  | _ => q.2

/-- The bits of a row that a mask of its bytes names. -/
def bitMask (m : Nat) : Row := ofLanes 8 ((List.range 64).map fun i => if m / 2 ^ i % 2 = 1 then 255 else 0)

/-- A row write performed: 0 the row, 1 a mirrored packet, 2 a poisoned row, 3 the row if it still stands as it was read, 4 the
bytes of a mask. It answers whether it was refused (R140). -/
def State.rowIn (s : State) (f : Flit) : State × Nat :=
  if f.code = 1 then (s.mirrorIn f, 0)
  else if f.code = 4 then (s.remoteBits f.agent f.row f.payload (bitMask f.mask), 0)
  else if f.code = 3 ∧ (s.mem.version f.row ≠ f.index ∨ s.mem.bad.contains f.row = true) then (s, 3)
  else (s.remotePut f.agent f.row f.payload (f.code == 2), 0)

/-- ROW_WRITE (R322, R364, R406); bit 7 of arg1 marks one whose release makes it durable in the capacity tier (R250). -/
def execRowWrite (f : Flit) (s : State) : Host.Outcome State Fault Refusal :=
  s.receive f 1 2 fun s => s.serveFlit f fun s =>
    let r := s.rowIn f
    (if r.2 = 0 && bitAt f.w3 7 && inTier (64 * f.row) 64 then { r.1 with mem := r.1.mem.harden f.row } else r.1).respond f 6 r.2 0

/-- WORD_WRITE (R142, R322, R364): the word, or with code 1 its bits under the mask in payload word 1. -/
def execWordWrite (f : Flit) (s : State) : Host.Outcome State Fault Refusal :=
  s.receive f 1 3 fun s => s.serveFlit f fun s =>
    let j := f.elem % 8
    let v := rowWord f.payload 0
    let mask : Word := if f.code = 1 then rowWord f.payload 1 else ~~~0
    let s1 :=
      if isHubRow f.row then (s.storeWord f.agent (msAcc f.row (8 * j) 0) (overlay64 (s.hubWord (hubOffset (64 * f.row + 8 * j))) v mask)).1
      else s.remoteBits f.agent f.row (setRowWord 0 j v) (setRowWord 0 j mask)
    s1.respond f 6 0 0

/-- The sequences of a rank that another module holds closed, where the step is a newer one, or discarded without a report
within their own.
Log 79: DEDUCED, unsafe. -/
def State.closeRemote (s : State) (v : BitVec 16) (step : Word) (report : Bool) : State :=
  if s.resident v = false ∧ (s.openStep v).toNat < step.toNat + (if report then 0 else 1) then
    let s0 := s.dropSeqs v report
    { s0 with mem := { s0.mem with open_ := Tab.put s0.mem.open_ v.toNat step } }
  else s

/-- An ordered add of a rank that another module holds, or the closing of its sequences; an add of a newer step closes those
of the step before.
Log 79: DEDUCED, unsafe. -/
def State.remoteAdd (s : State) (f : Flit) (k : Bool) : State :=
  let w (j : Nat) : Word := rowWord f.payload j
  let v : BitVec 16 := (w 2).setWidth 16
  let pa := 64 * f.row + (if f.w32 then 4 else 8) * f.elem
  if bitAt f.w3 12 then s.closeRemote v (w 3) (!bitAt (w 0) 0)
  else
    (s.closeRemote v (w 3) true).arriveAdd
      { stack := s.mem.stackOf pa, vrank := v, va := (w 4).setWidth 48, pa := pa, page := pa / 65536 * 65536, w := f.w32,
        k := k, q := fld (w 1) 0 32, op := w 0, stepNo := w 3, by_ := f.agent, born := 0, made := 0, rank := some v,
        node := if s.resident v then none else some f.src }

/-- The address of the ready queue whose header lies in a row, among those of an ASID's regions. -/
def State.readyVa (s : State) (asid : BitVec 16) (own : Addr) (row : Nat) : Option Addr :=
  (s.readyQueue asid own).filter fun va =>
    match s.translate asid.toNat .read (va.setWidth 64) with
    | .ok acc => acc.row == row && !s.isRemote acc
    | _ => false

/-- The claim of a slot for a producer at another module, if the write index still stands where it was read (R293); a
waiter is moved as after any append (R294), and on a mirrored queue the packet, which its producer writes, waits to be
accepted (R406); with bit 14 of arg1 the question is whether it has been. Word 0 of the answer is the slot index, word 1 says 0 full, 1 claimed, 2 moved on, or that the mirror's read
index has still to be read.
Log 45: DEDUCED, unsafe; log 77: DEDUCED, unsafe. -/
def State.remoteClaim (s : State) (f : Flit) : State :=
  let asid : BitVec 16 := (rowWord f.payload 1).setWidth 16
  let va : Addr := (rowWord f.payload 2).setWidth 48
  let row := s.mem.home f.row
  let q := s.headerOf s.node asid va row
  let h := q.1
  let bound := q.2.boundRi asid h
  if bitAt f.w3 14 then
    let i := (rowWord f.payload 0).toNat
    q.2.respond f 5 0 (ofWords [if s.hub.mirrors.any fun e => e.row == f.row && e.index == i && !s.accepted e then 0 else 1])
  else if h.wi ≠ rowWord f.payload 0 then s.respond f 5 0 (ofWords [h.wi, 2])
  else if s.quiescing asid || h.bad || bound.any fun ri => decide (2 ^ h.lc ≤ (h.wi - ri).toNat) then q.2.respond f 5 0 0
  else if bound.isNone then (q.2.touch asid (h.mra.setWidth 64)).respond f 5 0 (ofWords [h.wi, 2])
  else
    let s0 := q.2.dropAnswers (if h.mir then [(asid, h.mra.setWidth 64)] else [])
    let s1 := match s0.readyVa asid h.own f.row with
      | some va => s0.noteFirst asid va h.own
      | none => s0
    let s2 := s1.writeHome f.agent false f.row (setRowWord row 0 (h.wi + 1))
    ((s2.owesMirror asid va f.row h h.wi.toNat none).moveWaiter asid h.wq).respond f 5 0 (ofWords [h.wi, 1])

/-- A spill record of a rank of this module written for a base die of another, or freed (R337): word 0 of the answer is 1 + its
number, or 0 where the area is full.
Log 79: DEDUCED, unsafe. -/
def State.remoteSpill (s : State) (f : Flit) : State :=
  let v : BitVec 16 := (rowWord f.payload 2).setWidth 16
  let n := (rowWord f.payload 3).toNat
  if n ≠ 0 then ((s.touchSpill v 0).unspill v (n - 1)).respond f 6 0 0
  else
    match (s.touchSpill v 0).spillPut v ((List.range 4).map fun j => rowWord f.payload (4 + j)) with
    | some r => r.2.respond f 5 0 (setRowWord f.payload 0 (BitVec.ofNat 64 (r.1 + 1)))
    | none => s.respond f 5 0 (setRowWord f.payload 0 0)

/-- The take of a packet for a consumer at another module (R224): where its packet waits to be accepted by a mirror, the read
index stays, and the answer names another (R406).
Log 77: DEDUCED, unsafe. -/
def State.remoteTake (s : State) (f : Flit) : State :=
  let ri := rowWord f.payload 1
  if s.hub.mirrors.any fun e => e.row == f.row && e.index == ri.toNat && !s.accepted e then
    s.respond f 5 0 (setRowWord 0 1 (ri + 1))
  else
    let r := s.atomic f.agent (msAcc f.row 8 0) .acas false (rowWord f.payload 0).toNat ri.toNat
    r.2.2.respond f 5 (if r.2.1 then 2 else 0) (setRowElem false 0 8 r.1)

/-- ATOMIC_REQUEST (R144 to R149, R322, R364). A posted one, whose tag says so, is acknowledged. One of an ordered add waits
until the block of its rank can be read. -/
def execAtomicRequest (f : Flit) (s : State) : Host.Outcome State Fault Refusal :=
  let ordered := f.code = 13 ∨ f.code = 14
  let v : BitVec 16 := (rowWord f.payload 2).setWidth 16
  let s0 := if ordered then (s.rankRows v).foldl (fun s e => s.touch e.1 e.2) s else s
  if ordered ∧ s0.rankHere v = false then .next s0
  else
  s0.receive f 1 4 fun s => s.serveFlit f fun s =>
    let pa := (if f.w32 then 4 else 8) * f.elem
    if f.code = 15 then s.remoteClaim f
    else if f.code = 13 ∧ bitAt f.w3 14 then s.remoteSpill f
    else if ordered then (s.remoteAdd f (f.code == 14)).respond f 6 0 0
    else if bitAt f.w3 13 then s.remoteTake f
    else
      match memOpOf f.code with
      | none => s.respond f 6 0 0
      | some op =>
        let r := s.atomic f.agent (msAcc f.row pa 0) op f.w32 (rowWord f.payload 0).toNat (rowWord f.payload 1).toNat
        if 512 ≤ f.tag ∧ f.tag < 1024 then (if r.2.1 then s.dropReport f.row f.agent else r.2.2).respond f 6 0 0
        else r.2.2.respond f 5 (if r.2.1 then 2 else 0) (setRowElem f.w32 0 pa r.1)

/-- MIRROR_ACCEPT (R406): a packet that has been accepted waits no longer; its control-port append is answered when its event
finds it gone from the list. -/
def execMirrorAccept (idx : Nat) (s : State) : Host.Outcome State Fault Refusal :=
  match s.hub.mirrors[idx]? with
  | some e =>
    if s.accepted e then .next { s with hub := { s.hub with mirrors := s.hub.mirrors.eraseIdx idx } } else .next s
  | none => .next s

end Sys2Proof.Machine
end

