-- ==== Sys2Proof/Machine/Migration.lean ====
section
/-! DEFINITION. The migration engine Caribou (R330, R331, R371 to R375): local moves, migrate out and the arrival
of a rank, rank maps, the port table, binding updates and markers. -/

namespace Sys2Proof

/-! ## The fields of a Caribou data flit, in this model's places -/

/-- Log 81: DEDUCED, unsafe. -/
def Flit.carKind (f : Flit) : Nat := Machine.fld f.w2 56 4
def Flit.carAddr (f : Flit) : Addr := f.w2.setWidth 48
def Flit.carAsid (f : Flit) : BitVec 16 := f.w1.extractLsb' 16 16

end Sys2Proof

namespace Sys2Proof.Machine

/-! ## The command queue (R371) -/

/-- The header of Caribou's queue. -/
def caribouQueue : Addr := 0xFFFFFFFF0000

/-- The command at the head of the queue: its slot address and packet. -/
def State.command (s : State) : Option (Word × Row) :=
  match s.headerAt 0 caribouQueue with
  | none => none
  | some h =>
    let va := h.slot h.ri.toNat
    match s.hubRead 0 (va.setWidth 48) with
    | none => none
    | some v =>
      if h.bad || h.ri == h.wi || v.getLsbD 511 != h.seqBit h.ri.toNat || s.quiescing 0 then none else some (va, v)

def cmdOp (v : Row) : Nat := fld (rowWord v 0) 60 4
def cmdJob (v : Row) : BitVec 16 := (rowWord v 0).extractLsb' 32 16
def cmdVrank (v : Row) : BitVec 16 := (rowWord v 0).extractLsb' 16 16
def cmdSpace (v : Row) : BitVec 16 := (rowWord v 0).setWidth 16
def cmdLa (v : Row) : Addr := (rowWord v 1).setWidth 48
def cmdCw (v : Row) : Addr := (rowWord v 2).setWidth 48

/-- A reserved operation or bit of a command packet.
Log 83: DEDUCED, unsafe. -/
def cmdBad (v : Row) : Bool :=
  decide (3 < cmdOp v) || fld (rowWord v 0) 48 12 != 0 || fld (rowWord v 1) 48 4 != 0 || fld (rowWord v 2) 48 16 != 0 ||
    fld (rowWord v 2) 0 3 != 0 || fld (rowWord v 3) 0 8 != 0 || fld (rowWord v 4) 48 16 != 0 || rowWord v 5 != 0 ||
    rowWord v 6 != 0 || fld (rowWord v 7) 0 63 != 0

/-- The end of a command: Caribou's work published at PKG, then the completion word. -/
def State.cmdEnd (s : State) (cw : Addr) (cv : Word) (status : Nat) : State :=
  let s1 := s.publish .caribou .caribou 4
  let j := cw.toNat / 8 % 8
  s1.hubRewrite 0 (cw &&& ~~~63#48) fun r => setRowWord r j (cv + BitVec.ofNat 64 status)

/-- The refusal of a command (R371, R392).
Log 83: DEDUCED, unsafe. -/
def State.cmdRefuse (s : State) (slot : Word) (op : Nat) (cw : Addr) (cv : Word) : State :=
  (s.cmdEnd cw cv 1).raiseMc ⟨0x0B, 0xFF, 0, slot, BitVec.ofNat 64 op⟩

/-- The completion value's upper bits in place. -/
def cmdCv (v : Row) : Word := rowWord v 3 &&& ~~~255#64

/-- The row of the slot at the head of the queue. -/
def State.commandRow (s : State) : List (BitVec 16 × Word) :=
  match s.headerAt 0 caribouQueue with
  | some h => [(0, h.slot h.ri.toNat)]
  | none => []

/-- The row of a command's completion word. -/
def cwRow (cw : Addr) : BitVec 16 × Word := (0, (cw &&& ~~~63#48).setWidth 64)

/-- What Caribou does of the command at the head of its queue once it has read it, with the rows that the command names (R322).
Log 137: DESIGN CHOICE, unsafe. -/
def State.onCommand (s : State) (rows : Row → State → List (BitVec 16 × Word)) (k : State → State) : State :=
  s.reading [(0, caribouQueue.setWidth 64)] fun s => s.reading s.commandRow fun s =>
    match s.command with
    | some (_, v) => s.reading (cwRow (cmdCw v) :: rows v s) k
    | none => s

/-- A command taken and run at once; a packet that is not a command is refused, and so is a command for an ASID
that is being quiesced (R228).
Log 83: DEDUCED, unsafe. -/
def State.runCommand (s : State) (op : Nat) (f : Row → State → Option State) : State :=
  match s.car.busy, s.command with
  | none, some (slot, v) =>
    if cmdBad v ∧ (cmdOp v = op ∨ (op = 0 ∧ 3 < cmdOp v)) then
      ((s.take .caribou 0 caribouQueue).2).cmdRefuse slot (cmdOp v) (cmdCw v) (cmdCv v)
    else if cmdOp v = op then
      let s1 := (s.take .caribou 0 caribouQueue).2
      match (if s.quiescing (cmdSpace v) && decide (op < 2) then none else f v s1) with
      | some s2 => s2.cmdEnd (cmdCw v) (cmdCv v) 0
      | none => s1.cmdRefuse slot op (cmdCw v) (cmdCv v)
    else s
  | _, _ => s

/-! ## Page-table leaves -/

/-- The address of the entry of a table, when it names a table of the next level. -/
def Mem.tableAt (m : Mem) (p lo n : Nat) : Option Nat :=
  let e := m.word p
  if bitAt e 63 ∧ bitAt e 62 = false then some (fld e lo n * 2 ^ lo) else none

/-- The level-1 table of an ASID. -/
def Mem.level1 (m : Mem) (asid : Nat) : Option Nat := m.tableAt (m.tatb.toNat + 16 * asid) 13 31

/-- The address of the entry that maps a page as a leaf of the given size. -/
def Mem.leafPlace (m : Mem) (asid va : Nat) (big : Bool) : Option Nat :=
  match m.level1 asid with
  | none => none
  | some l1 =>
    match m.tableAt (l1 + 16 * (va / 2 ^ 39 % 512)) 12 32 with
    | none => none
    | some l2 =>
      let p2 := l2 + 16 * (va / 2 ^ 27 % 4096)
      if big then some p2
      else (m.tableAt p2 12 32).map fun l3 => l3 + 16 * (va / 2 ^ 16 % 2048)

/-- The leaf of a page, where it is valid. -/
def Mem.leafAt (m : Mem) (asid va : Nat) (big : Bool) : Option (Nat × Word × Word) :=
  match m.leafPlace asid va big with
  | none => none
  | some p => if bitAt (m.word p) 63 ∧ bitAt (m.word p) 62 then some (p, m.word p, m.word (p + 8)) else none

/-- The valid leaves of an ASID, in ascending address: address, size, words. -/
def Mem.leaves (m : Mem) (asid : Nat) : List (Nat × Bool × Word × Word) :=
  match m.level1 asid with
  | none => []
  | some l1 =>
    (List.range 512).flatMap fun i =>
      match m.tableAt (l1 + 16 * i) 12 32 with
      | none => []
      | some l2 =>
        (List.range 4096).flatMap fun j =>
          let va := i * 2 ^ 39 + j * 2 ^ 27
          match m.leafAt asid va true, m.tableAt (l2 + 16 * j) 12 32 with
          | some x, _ => [(va, true, x.2)]
          | none, some _ =>
            (List.range 2048).filterMap fun k =>
              (m.leafAt asid (va + k * 2 ^ 16) false).map fun x => (va + k * 2 ^ 16, false, x.2)
          | none, none => []

/-- A leaf rewritten at its place, for the rank that is moved (R448). -/
def Mem.setLeaf (m : Mem) (v : Option (BitVec 16)) (p : Nat) (w0 w1 : Word) : Mem :=
  let r := p / 64
  let j := p / 8 % 8
  m.storeHome .caribou v true r (setRowWord (setRowWord (m.latest r) j w0) (j + 1) w1)

/-- A leaf's word 0 with another frame. -/
def withFrame (w0 : Word) (frame : Nat) : Word :=
  (w0 &&& ~~~0xFFFFFFF0000#64) ||| BitVec.ofNat 64 (frame / 65536 % 2 ^ 28 * 65536)

def leafRows (big : Bool) : Nat := leafBytes big / 64

/-! ## The local move (R330, R331) -/

/-- The entries of a swap list, up to the one marked last; nothing where the list cannot be read.
Log 82: DEDUCED, unsafe. -/
def State.swapList (s : State) : Nat → Addr → Option (List (Word × Word))
  | 0, _ => none
  | n + 1, va =>
    match s.launchWords 0 (va.setWidth 64) 2 with
    | some [a, b] => if bitAt a 63 then some [(a, b)] else (s.swapList n (va + 16)).map fun l => (a, b) :: l
    | _ => none

/-- The addresses of a swap list's entries, as far as it can be read. -/
def State.swapRows (s : State) : Nat → Addr → List (BitVec 16 × Word)
  | 0, _ => []
  | n + 1, va =>
    (0, va.setWidth 64) ::
      match s.launchWords 0 (va.setWidth 64) 1 with
      | some [a] => if bitAt a 63 then [] else s.swapRows n (va + 16)
      | _ => []

/-- The rows of the pages of a list whose frames lie at another module. -/
def State.farPages (s : State) (asid : BitVec 16) (l : List (Word × Word)) : List (BitVec 16 × Word) :=
  l.flatMap fun e =>
    let va := fld e.1 16 32 * 65536
    match s.mem.leafAt asid.toNat va (bitAt e.1 62) with
    | some (_, w0, w1) =>
      if (leafOf w0 w1).home = s.node then []
      else (List.range (leafRows (bitAt e.1 62))).map fun i => (asid, BitVec.ofNat 64 (va + 64 * i))
    | none => []

/-- A frame copied to another for a rank, under the key of its leaf with each row's own tweak.
Log 82: DEDUCED, unsafe. -/
def Mem.moveFrame (m : Mem) (v : Option (BitVec 16)) (ek src dst : Nat) (n : Nat) : Mem :=
  (List.range n).foldl (fun m i =>
    let a := src / 64 + i
    let b := dst / 64 + i
    let m1 := (m.opened (64 * a)).writeBack a
    let m2 := m1.storeHome .caribou v true b (m1.encipher ek b (m1.decipher ek a (m1.latest a)))
    if m1.bad.contains a then { m2 with bad := insertNat m2.bad b } else m2) m

/-- A row of a page that moves, read wherever it lies, and whether it is poisoned. -/
def State.moveRow (s : State) (acc : Acc) : Row × Bool :=
  if s.isRemote acc then ((s.hubAt acc).getD 0, s.hub.answers.any fun e => e.1 == acc.key + 2 ^ 41)
  else (s.mem.decipher acc.leaf.ek acc.row (s.mem.latest acc.row), s.mem.bad.contains acc.row)

/-- A frame of another module copied to another frame there, for a rank (R322, R331).
Log 82: DEDUCED, unsafe. -/
def State.moveFarFrame (s : State) (v : Option (BitVec 16)) (l : Leaf) (dst n : Nat) : State :=
  (List.range n).foldl (fun s i =>
    let x := s.moveRow ⟨l.frame + 64 * i, l⟩
    let to_ : Acc := ⟨dst + 64 * i, { l with frame := dst }⟩
    s.sendFlit l.home 1 ((s.rowFlit to_ (if x.2 then 2 else 0) freeTag x.1).forRank v)) s

/-- A frame of n bytes at a home that moves: where an access to it goes. -/
structure Moved where
  home : Nat
  src : Nat
  dst : Nat
  n : Nat

/-- The place of a physical address of that home. -/
def Moved.place (f : Moved) (pa : Nat) : Nat := if f.src ≤ pa ∧ pa < f.src + f.n then pa - f.src + f.dst else pa

/-- A translation held since a probe, which follows its frame (R331). -/
def heldMove (f : Moved) (l : Held) : Held :=
  l.map fun e =>
    let x := leafOf e.2.1 e.2.2
    if x.home = f.home then (e.1, withFrame e.2.1 (f.place x.frame), e.2.2) else e

/-- A command's held translations follow their frames. -/
def Xfer.moved (f : Moved) (x : Xfer) : Xfer := { x with held := heldMove f x.held }

/-- The triggers of a context alike. -/
def Ctx.moved (f : Moved) (c : Ctx) : Ctx :=
  { c with chans := c.chans.map fun e => (e.1, { e.2 with trigs := e.2.trigs.map fun t => { t with x := t.x.moved f } }) }

/-- A core's commands alike. -/
def Core.moved (f : Moved) (k : Core) : Core :=
  { k with xfers := k.xfers.map (Xfer.moved f), prog := k.prog.moved f, fw := k.fw.moved f }

/-- A posted operation that has still to leave follows its frame. -/
def Posted.moved (f : Moved) (node : Nat) (p : Posted) : Posted :=
  let page := if p.page / 2 ^ 48 = f.home then p.page / 2 ^ 48 * 2 ^ 48 + f.place (p.page % 2 ^ 48) else p.page
  let row := f.place (64 * p.row) / 64
  match p.out with
  | none => if f.home = node then { p with row := row, page := page } else p
  | some o =>
    if o.1 = f.home ∧ p.stage = 0 then
      let w2 := (o.2.w2 &&& ~~~0xFFFFFFFFFC0#64) ||| BitVec.ofNat 64 (row % 2 ^ 38 * 64)
      { p with row := row, page := page, out := some (o.1, { o.2 with w2 := w2 }) }
    else p

/-- Accesses held while a frame moves, which are performed at the same offset of the new frame (R331): posted
operations, ordered adds and sequences, and those that commands have still to make.
Log 82: DEDUCED, unsafe. -/
def State.heldAccesses (s : State) (f : Moved) : State :=
  let near := f.home = s.node
  let at_ (pa : Nat) : Nat := if near then f.place pa else pa
  let page (p : Nat) : Nat := if near ∧ p / 2 ^ 48 = s.node then p / 2 ^ 48 * 2 ^ 48 + at_ (p % 2 ^ 48) else p
  { s with
    mem := { s.mem with
      posted := s.mem.posted.map (Posted.moved f s.node),
      adds := s.mem.adds.map (fun x => { x with pa := at_ x.pa, page := page x.page, stack := s.mem.stackOf (at_ x.pa) }),
      seqs := s.mem.seqs.map (fun q => { q with pa := at_ q.pa, stack := s.mem.stackOf (at_ q.pa) }) },
    cores := s.cores.map (fun e => (e.1, e.2.moved f)),
    binds := s.binds.map (fun b => { b with held := heldMove f b.held }) }

/-- One entry: the page moved, with the ordered state of its rank in the spill area first where it is a memory-side page
(R315), its old leaf invalidated and the accesses to it held; or nothing where it is refused.
Log 82: DEDUCED, unsafe. -/
def State.swapPage (s : State) (asid : Nat) (e : Word × Word) : Option State :=
  let big := bitAt e.1 62
  let va := fld e.1 16 32 * 65536
  let frame := fld e.2 16 28 * 65536
  let reserved := fld e.1 48 14 != 0 || fld e.1 0 16 != 0 || fld e.2 44 20 != 0 || fld e.2 0 16 != 0
  match s.mem.leafAt asid va big with
  | none => none
  | some (p, w0, w1) =>
    let l := leafOf w0 w1
    let n := leafBytes big
    let denied := (List.range 2048).any fun i =>
      decide (i * 65536 < n) && s.mem.regionDenies ⟨frame + i * 65536, l⟩ .write
    if reserved || frame % n != 0 || va % n != 0 || !(inHbm frame n || inTier frame n) || denied then none
    else
      let v := s.asidRank (BitVec.ofNat 16 asid)
      let s1 := if l.ms then v.elim s s.leaveSeqs else s
      let s2 : State := if l.home = s.node then { s1 with mem := s1.mem.moveFrame v l.ek l.frame frame (leafRows big) }
        else s1.moveFarFrame v l frame (leafRows big)
      let m := s2.mem.setLeaf v p (withFrame w0 frame) w1
      some ({ s2 with mem := m.invalidate 0 (BitVec.ofNat 16 asid) (BitVec.ofNat 48 va) }.heldAccesses ⟨l.home, l.frame, frame, n⟩)

/-- The pages of a list moved in order, refused entries reported (R331); whether one was refused.
Log 82: DEDUCED, unsafe. -/
def State.swapPages (s : State) (slot : Word) (asid : Nat) : List (Word × Word) → State × Bool
  | [] => (s, false)
  | e :: t =>
    match s.swapPage asid e with
    | some s1 => s1.swapPages slot asid t
    | none =>
      let r := (s.raiseMc ⟨0x0B, 0xFF, 0, slot, 0⟩).swapPages slot asid t
      (r.1, true)

/-- Whether a list leaves pages in the capacity tier. -/
def listCold (l : List (Word × Word)) : Bool := l.any fun e => inTier (fld e.2 16 28 * 65536) 65536

def State.setCold (s : State) (asid : BitVec 16) (b : Bool) : State :=
  let f (r : Rank) : Rank := if r.asid = asid then { r with cold := b } else r
  { s with disp := { s.disp with ranks := s.disp.ranks.map f } }

/-- The local move of a rank's pages by the list of a command, once the rows that it reads are here. -/
def State.localMove (s : State) (slot : Word) (v : Row) : State :=
  let asid := cmdSpace v
  let s1 := (s.take .caribou 0 caribouQueue).2
  match s1.swapList presetReach (cmdLa v) with
  | none => s1.cmdRefuse slot 0 (cmdCw v) (cmdCv v)
  | some l =>
    s.reading (s.farPages asid l) fun s =>
      let s1 := (s.take .caribou 0 caribouQueue).2
      let x := s1.swapPages slot asid.toNat l
      (x.1.setCold asid (listCold l)).cmdEnd (cmdCw v) (cmdCv v) (if x.2 then 1 else 0)

/-- LOCAL_MOVE (R330, R331, R371): while the rank's res is 2. -/
def execLocalMove (s : State) : Host.Outcome State Fault Refusal :=
  .next (s.onCommand (fun v s => if cmdOp v = 0 then s.swapRows presetReach (cmdLa v) else []) fun s =>
    match s.car.busy, s.command with
    | none, some (slot, v) =>
      let asid := cmdSpace v
      if cmdBad v ∨ cmdOp v ≠ 0 ∨ s.quiescing asid = true then s.runCommand 0 fun _ _ => none
      else
        match s.disp.ranks.find? fun r => r.asid = asid with
        | none => s.runCommand 0 fun _ _ => none
        | some r => s.forRank r.vrank fun s => if s.rankRes r.vrank ≠ 2 then s else s.localMove slot v
    | _, _ => s)

/-! ## Tables of the switch (R366, R371) -/

/-- The addresses of the rows of an image in ASID 0. -/
def tableRows (la : Addr) (n : Nat) : List (BitVec 16 × Word) :=
  (List.range n).map fun i => (0, (la + BitVec.ofNat 48 (64 * i)).setWidth 64)

/-- The rows of an image in ASID 0, where all can be read.
Log 84: DEDUCED, unsafe. -/
def State.imageTable (s : State) (la : Addr) (n : Nat) : Option (List Row) :=
  (List.range n).foldr (fun i acc =>
    match s.hubRead 0 (la + BitVec.ofNat 48 (64 * i)), acc with
    | some r, some l => some (r :: l)
    | _, _ => none) (some [])

/-- The rank map of an image; nothing where an entry has a reserved bit. -/
def mapOfImage (rows : List Row) : Option (Tab (BitVec 16)) :=
  let l : List (BitVec 16) := rows.flatMap fun r => (List.range 32).map fun i => BitVec.ofNat 16 (lane 16 r i)
  if l.any fun e => e.extractLsb' 12 3 != 0 then none
  else some ((l.zipIdx.filter fun e => e.1 != 0).map fun e => (e.2, e.1))

/-- The port table of an image; nothing where an entry breaks R371.
Log 84: DEDUCED, unsafe. -/
def portsOfImage (rows : List Row) : Option (Tab Word) :=
  let l := rows.flatMap rowWords
  let bad (e : Word) : Bool :=
    fld e 35 28 != 0 || fld e 32 3 == 0 || decide (4 < fld e 32 3) ||
      (List.range 4).any fun j => decide (143 < fld e (8 * j) 8)
  if l.any bad then none else some ((l.zipIdx.filter fun e => e.1 != 0).map fun e => (e.2, e.1))

/-- Flits that waited for a valid map entry injected again. -/
def State.unstick (s : State) : State :=
  s.fab.stuck.foldl State.inject { s with fab := { s.fab with stuck := [] } }

/-- Flits that waited for the port table accepted by the switch, or passed on by it (R393). -/
def State.unwait (s : State) : State :=
  let s1 := s.fab.waiting.foldl (fun s e => s.routeFlit e.1 e.2.1 e.2.2)
    { s with fab := { s.fab with waiting := [], transit := [] } }
  s.fab.transit.foldl (fun s e => s.pass e.1 e.2) s1

/-- LOAD_RANK_MAP (R366, R371, R393). -/
def execLoadRankMap (s : State) : Host.Outcome State Fault Refusal :=
  .next (s.onCommand (fun v _ => if cmdOp v = 2 then tableRows (cmdLa v) 2048 else []) fun s => s.runCommand 2 fun v s =>
    match (s.imageTable (cmdLa v) 2048).bind mapOfImage with
    | none => none
    | some m =>
      let job := cmdJob v
      let rest := s.fab.maps.filter fun e => e.1 != job
      if 16 ≤ rest.length then none
      else
        let bad := s.fab.badMaps.filter fun e => e.1 != job
        some ({ s with fab := { s.fab with maps := rest ++ [(job, m)], badMaps := bad } }).unstick)

/-- LOAD_PORT_TABLE (R366, R371, R393). -/
def execLoadPortTable (s : State) : Host.Outcome State Fault Refusal :=
  .next (s.onCommand (fun v _ => if cmdOp v = 3 then tableRows (cmdLa v) 512 else []) fun s => s.runCommand 3 fun v s =>
    (((s.imageTable (cmdLa v) 512).bind portsOfImage).map fun t =>
      ({ s with fab := { s.fab with ports := t, badPorts := [] } }).unwait))

/-! ## Migrate out (R372, R373): the source -/

/-- The data that Caribou engines exchange, in this model's places: the kind of datum in arg0 [59:56], an address in
[47:0], an operand in arg1.
Log 81: DEDUCED, unsafe. -/
def carFlit (job vr asid : BitVec 16) (op kind : Nat) (addr arg : Nat) (p : Row) : Flit :=
  ⟨0, BitVec.ofNat 64 (job.toNat * 2 ^ 48 + vr.toNat * 2 ^ 32 + asid.toNat * 2 ^ 16),
   BitVec.ofNat 64 (op * 2 ^ 60 + kind * 2 ^ 56 + addr % 2 ^ 48), BitVec.ofNat 64 arg, p⟩

/-- A control flit sent, also to this module itself. -/
def State.sendCtl (s : State) (dst : Nat) (f : Flit) : State :=
  if dst = s.node then
    s.toInbox { f with w0 := BitVec.ofNat 64 (dst * 2 ^ 52 + s.node * 2 ^ 40 + 2 * 2 ^ 36) }
  else s.sendFlit dst 2 f

def State.setBusy (s : State) (m : Migration) : State := { s with car := { s.car with busy := some m } }

def State.carSend (s : State) (m : Migration) (kind addr arg : Nat) (p : Row) : State :=
  s.sendCtl m.dn.toNat (carFlit m.job m.vrank m.asid 2 kind addr arg p)

/-- A landing block that breaks R372. -/
def landingBad (r : Row) : Bool :=
  fld (rowWord r 0) 16 48 != 0 || fld (rowWord r 1) 48 16 != 0 || fld (rowWord r 2) 48 16 != 0 ||
    fld (rowWord r 3) 32 32 != 0 || fld (rowWord r 4) 48 16 != 0 || fld (rowWord r 5) 5 59 != 0 || rowWord r 6 != 0 ||
    rowWord r 7 != 0

/-- Whether a leaf belongs to the rank (R373). -/
def Migration.owns (m : Migration) (e : Nat × Bool × Word × Word) : Bool :=
  let l := leafOf e.2.2.1 e.2.2.2
  l.own == m.asid.toNat && !l.sh

/-- Whether a listed frame has a leaf's size and tier. -/
def frameFits (e : Nat × Bool × Word × Word) (w : Word) : Bool :=
  bitAt w 63 == e.2.1 && inTier (fld w 16 28 * 65536) 65536 == inTier (leafOf e.2.2.1 e.2.2.2).frame 65536

/-- The next unused frame of the list for a leaf. -/
def Migration.nextFrame (m : Migration) (e : Nat × Bool × Word × Word) : Option Nat :=
  (List.range m.list.length).find? fun i => !m.used.contains i && frameFits e (m.list.getD i 0)

/-- Whether the frames match the leaves in number and size (R373). -/
def Migration.framesMatch (m : Migration) : Bool :=
  let mine := m.leaves.filter m.owns
  let reserved (w : Word) : Bool := fld w 44 19 != 0 || fld w 0 16 != 0
  !(m.list.any reserved) && mine.length == m.list.length &&
    [true, false].all fun big => [true, false].all fun tier =>
      (mine.filter fun e => e.2.1 == big && inTier (leafOf e.2.2.1 e.2.2.2).frame 65536 == tier).length ==
        (m.list.filter fun w => bitAt w 63 == big && inTier (fld w 16 28 * 65536) 65536 == tier).length

/-- The nodes with a valid entry in a job's map. -/
def State.mapNodes (s : State) (job : BitVec 16) : List (BitVec 12) :=
  match s.fab.maps.find? fun m => m.1 = job with
  | some m =>
    (m.2.filter fun e => e.2.getLsbD 15).foldl (fun l e =>
      let d : BitVec 12 := e.2.setWidth 12
      if l.contains d then l else l ++ [d]) []
  | none => []

/-- The command of a migration refused. -/
def State.moveRefuse (s : State) (m : Migration) : State :=
  ({ s with car := { s.car with busy := none } }).cmdRefuse m.slot 1 m.cw m.cv

/-- What the dispatchers keep of a rank that moves: the records that they know, those that they hold themselves with their rows,
and the addresses of its strands' saved images (R299, R306, R313, R373).
Log 51: DEDUCED, unsafe. -/
def State.sendKept (s : State) (m : Migration) : State :=
  let s1 := (s.disp.known.filter fun e => e.1 = m.asid).foldl (fun s e => s.carSend m 7 e.2.toNat 0 0) s
  let s2 := (s.disp.records.filter fun e => e.1 = m.asid).foldl (fun s e => s.carSend m 7 e.2.1.toNat 1 e.2.2) s1
  (s.disp.images.filter fun e => e.1 = m.asid).foldl (fun s e => s.carSend m 8 e.2.1.toNat e.2.2.toNat 0) s2

/-- The copying of the leaves, one row or one leaf at a time (R373 step 2).
Log 85: DESIGN CHOICE, safe. -/
def State.moveLeaf (s : State) (m : Migration) : State :=
  match m.leaves[m.pos]? with
  | none =>
    let r0 := (s.hubRead 0 m.block).getD 0
    let r1 := (s.hubRead 0 (m.block + 64)).getD 0
    let land := m.landing.getD 0
    let dest := (rowWord land 1).setWidth 48
    let da : Word := BitVec.ofNat 64 (fld (rowWord land 0) 0 16)
    let w0 := (rowWord r0 0 &&& ~~~0xFFFFF0000#64) ||| (da <<< 16) ||| BitVec.ofNat 64 (2 * 2 ^ 32)
    let s1 := (s.carSend m 4 (dest : Addr).toNat 0 (setRowWord r0 0 w0)).carSend m 4 ((dest : Addr) + 64).toNat 0 r1
    let t := s.hub.gtime + 20000 + (Config.free 32 [61, s.fresh]).toNat
    let nodes := s.mapNodes m.job
    let s2 := s1.sendKept m
    let upd := carFlit m.job m.vrank m.asid 0 0 m.dn.toNat t 0
    (nodes.foldl (fun s d => s.sendCtl d.toNat upd) s2).setBusy { m with phase := 3, t := t, waiting := nodes }
  | some e =>
    if m.owns e then
      match m.nextFrame e with
      | none => s.setBusy { m with pos := m.pos + 1, row := 0 }
      | some i =>
        let frame := fld (m.list.getD i 0) 16 28 * 65536
        let l := leafOf e.2.2.1 e.2.2.2
        if m.row < leafRows e.2.1 then
          s.reading [(m.asid, BitVec.ofNat 64 (e.1 + 64 * m.row))] fun s =>
            let x := s.moveRow ⟨l.frame + 64 * m.row, l⟩
            (s.carSend m 2 (frame + 64 * m.row) (l.ek + (if x.2 then 32 else 0)) x.1).setBusy { m with row := m.row + 1 }
        else
          let w1 := (e.2.2.2 &&& 0x000FFFFFFFFFFFFF) ||| BitVec.ofNat 64 (m.dn.toNat * 2 ^ 52)
          (s.carSend m 3 e.1 (if e.2.1 then 1 else 0) (ofWords [withFrame e.2.2.1 frame, w1])).setBusy
            { m with pos := m.pos + 1, row := 0, used := i :: m.used }
    else
      (s.carSend m 3 e.1 (if e.2.1 then 1 else 0) (ofWords [e.2.2.1, e.2.2.2])).setBusy
        { m with pos := m.pos + 1, row := 0 }

/-- The entries of the source ring written since the copy began, and the end of the migration (R373 steps 5 to 7). -/
def State.moveEnd (s : State) (m : Migration) : State :=
  let s1 := match s.backlog m.vrank with
    | none => s
    | some q =>
      ((List.range (q.wi - m.ring)).map fun j => m.ring + j).foldl (fun s i =>
        match s.hubRead m.asid (q.entry i), s.hubRead m.asid (q.entry i + 64) with
        | some a, some b => (s.carSend m 5 0 i a).carSend m 6 0 i b
        | _, _ => s) s
  let cold := s.disp.ranks.any fun r => r.vrank == m.vrank && r.cold
  let s2 := s1.sendCtl m.dn.toNat (carFlit m.job m.vrank m.asid 3 0 0 (if cold then 1 else 0) 0)
  (({ s2 with car := { s2.car with busy := none } }).setRes m.vrank 3).cmdEnd m.cw m.cv 0

/-- The rows that a migration under way reads next, of the rank's block and of its ring. -/
def State.moveRows (s : State) (m : Migration) : List (BitVec 16 × Word) :=
  if m.phase = 1 then s.blogRow m.vrank
  else if m.phase = 2 then [(0, m.block.setWidth 64), (0, m.block.setWidth 64 + 64)]
  else if m.waiting = [] then
    s.blogRow m.vrank ++ cwRow m.cw ::
      ((s.backlog m.vrank).map fun q => (List.range (q.wi - m.ring)).flatMap fun j => q.entryRows m.asid (m.ring + j)).getD []
  else [cwRow m.cw]

/-- One step of a migration under way. -/
def State.moveOn (s : State) (m : Migration) : State :=
  if m.phase = 0 then
    if m.asked = 0 then (s.carSend m 0 m.la.toNat 1 0).setBusy { m with asked := 1 }
    else
      match m.landing with
      | none => s
      | some r =>
        if landingBad r ∨ 128 ≤ m.ranks then s.moveRefuse m else s.setBusy { m with phase := 1, asked := 0 }
  else if m.phase = 1 then
    let land := m.landing.getD 0
    let n := fld (rowWord land 3) 0 32
    let fl : Addr := (rowWord land 2).setWidth 48
    if m.list.length < n then
      if m.asked ≤ m.list.length then
        (s.carSend m 0 (fl + BitVec.ofNat 48 (8 * m.list.length)).toNat 0 0).setBusy
          { m with asked := m.list.length + 1 }
      else s
    else
      let m1 := { m with leaves := s.mem.leaves m.asid.toNat,
                         ring := ((s.backlog m.vrank).map Ring_.wi).getD 0 }
      if m1.framesMatch then s.setBusy { m1 with phase := 2 } else s.moveRefuse m
  else if m.phase = 2 then s.moveLeaf m
  else if m.waiting = [] then s.moveEnd m
  else s

/-- MIGRATE_OUT (R371 to R373): a command begun while the rank's res is 2, or one step of the one under way. -/
def execMigrateOut (s : State) : Host.Outcome State Fault Refusal :=
  match s.car.busy with
  | some m => .next (s.forRank m.vrank fun s => s.reading (s.moveRows m) fun s => s.reading (s.moveRows m) fun s => s.moveOn m)
  | none =>
    .next (s.onCommand (fun _ _ => []) fun s =>
      match s.command with
      | some (slot, v) =>
        if cmdBad v ∨ cmdOp v ≠ 1 ∨ s.quiescing (cmdSpace v) = true then s.runCommand 1 fun _ _ => none
        else
          match s.disp.ranks.find? fun r => r.vrank = cmdVrank v ∧ r.asid = cmdSpace v with
          | none => s.runCommand 1 fun _ _ => none
          | some r => s.forRank r.vrank fun s =>
            if s.rankRes r.vrank ≠ 2 then s
            else
              ((s.take .caribou 0 caribouQueue).2).setBusy
                { job := cmdJob v, vrank := r.vrank, asid := r.asid, dn := (rowWord v 1).extractLsb' 52 12, la := cmdLa v,
                  block := (rowWord v 4).setWidth 48, cw := cmdCw v, cv := cmdCv v, slot := slot }
      | none => s)

/-! ## Binding updates and markers (R374) -/

/-- BINDING_UPDATE (R374). -/
def execBindingUpdate (f : Flit) (s : State) : Host.Outcome State Fault Refusal :=
  s.receive f 2 0 fun s =>
    let job : BitVec 16 := f.w1.extractLsb' 48 16
    let u := (job, f.rank, (f.w2.setWidth 12 : BitVec 12), f.w3.toNat)
    { s with fab := { s.fab with updates := s.fab.updates ++ [u] } }

/-- BINDING_UPDATE_APPLY (R374): at T or later the map's entry changes, and a marker goes to the old node. The marker's
operand is the next number of this node's cls 0 route to it, below which every flit with the old binding lies.
Log 133: DEDUCED, unsafe. -/
def execBindingUpdateApply (idx : Nat) (s : State) : Host.Outcome State Fault Refusal :=
  match s.fab.updates[idx]? with
  | none => .next s
  | some u =>
    if s.hub.gtime < u.2.2.2 then .next s
    else
      let old := s.rankNode u.1 u.2.1
      let e : BitVec 16 := BitVec.ofNat 16 (2 ^ 15 + u.2.2.1.toNat)
      let put (m : BitVec 16 × Tab (BitVec 16)) : BitVec 16 × Tab (BitVec 16) :=
        if m.1 = u.1 then (m.1, Tab.put m.2 u.2.1.toNat e) else m
      let s1 := { s with fab := { s.fab with
        maps := s.fab.maps.map put, updates := s.fab.updates.eraseIdx idx,
        badMaps := s.fab.badMaps.filter fun e => e != (u.1, u.2.1) } }
      match old with
      | some d => .next (s1.sendCtl d (carFlit u.1 u.2.1 0 1 0 0 (s1.route (BitVec.ofNat 12 d) 0).tx.toNat 0))
      | none => .next s1

/-- Whether every flit that a marker's sender injected with the old binding has reached its rank's ring ahead of the marker
(R374).
Log 133: DEDUCED, unsafe. -/
def State.markerDue (s : State) (f : Flit) : Bool :=
  let next := (s.route (BitVec.ofNat 12 f.src) 0).rx - f.w3.setWidth 32
  (f.src == s.node || decide (next.toNat < 2 ^ 31)) &&
    !s.fab.inbox.any fun x => x.src == f.src && x.cls == 0 && x.rank == f.rank

/-- MARKER (R374): taken behind every flit of its sender with the old binding. -/
def execMarker (f : Flit) (s : State) : Host.Outcome State Fault Refusal :=
  if s.markerDue f = false then .next s
  else s.receive f 2 1 fun s =>
    match s.car.busy with
    | some m =>
      if m.vrank = f.rank ∧ m.job = f.w1.extractLsb' 48 16 then
        s.setBusy { m with waiting := m.waiting.filter fun d => d.toNat != f.src }
      else s
    | none => s

/-! ## The destination (R372, R373) -/

/-- Where a rank lands: its ASID here and its block. -/
def State.landingOf (s : State) (v : BitVec 16) : Option (BitVec 16 × Addr) :=
  match s.car.landing.find? fun e => e.1 = v with
  | none => none
  | some e => (s.hubRead 0 e.2.1).map fun r => ((rowWord r 0).setWidth 16, (rowWord r 1).setWidth 48)

/-- The backlog ring of an arriving rank. -/
def State.landingRing (s : State) (v : BitVec 16) : Option (BitVec 16 × Ring_) :=
  match s.landingOf v with
  | none => none
  | some (asid, block) =>
    let va : Addr := ((s.hubRead 0 (block + 64)).map fun r => (rowWord r 2).setWidth 48).getD 0
    (s.hubRead asid va).map fun r =>
      (asid, ⟨va, (rowWord r 0).toNat, (rowWord r 1).toNat, (rowWord r 2).setWidth 48, fld (rowWord r 3) 0 5⟩)

/-- The row of an arriving rank's landing area. -/
def State.areaRow (s : State) (v : BitVec 16) : List (BitVec 16 × Word) :=
  ((s.car.landing.find? fun e => e.1 = v).map fun e => ((0 : BitVec 16), e.2.1.setWidth 64)).toList

/-- The row of its rank block that names its ring, once its area has been read. -/
def State.areaBlock (s : State) (v : BitVec 16) : List (BitVec 16 × Word) :=
  ((s.landingOf v).map fun e => ((0 : BitVec 16), (e.2 + 64).setWidth 64)).toList

/-- The header row of that ring, once its block has been read. -/
def State.areaRing (s : State) (v : BitVec 16) : List (BitVec 16 × Word) :=
  ((s.landingOf v).map fun e =>
    (e.1, ((s.hubRead 0 (e.2 + 64)).map fun r => rowWord r 2 &&& 0xFFFFFFFFFFFF).getD 0)).toList

/-- What Caribou does with the ring of an arriving rank once the rows that lead to it have been read. -/
def State.withRing (s : State) (v : BitVec 16) (k : State → State) : State :=
  s.reading (s.areaRow v) fun s => s.reading (s.areaBlock v) fun s => s.reading (s.areaRing v) k

/-- A row of ASID 0 read for a source, which for its landing block announces the rank that arrives. -/
def State.carRead (s : State) (f : Flit) : State :=
  let r := s.hubRead 0 (f.carAddr &&& ~~~63#48)
  let first := fld f.w3 0 1 = 1
  let s1 :=
    if first then
      let rest := s.car.landing.filter fun e => e.1 != f.rank
      { s with car := { s.car with landing := rest ++ [(f.rank, f.carAddr, 0)] } }
    else s
  let arg := 2 * s.disp.ranks.length + (if r.isSome then 1 else 0)
  s1.sendCtl f.src (carFlit (f.w1.extractLsb' 48 16) f.rank f.carAsid 2 1 f.carAddr.toNat arg (r.getD 0))

/-- A row that a source has asked for. -/
def State.carReply (s : State) (f : Flit) : State :=
  match s.car.busy with
  | none => s
  | some m =>
    if bitAt f.w3 0 = false then s.moveRefuse m
    else if m.phase = 0 then s.setBusy { m with landing := some f.payload, ranks := fld f.w3 1 63 }
    else
      let j := f.carAddr.toNat / 8 % 8
      let n := fld (rowWord (m.landing.getD 0) 3) 0 32 - m.list.length
      s.setBusy { m with list := m.list ++ ((rowWords f.payload).drop j).take n }

/-- A record that the dispatchers keep, with its row where it is a gang member's, or the address of a saved image. -/
def State.keepMoved (s : State) (asid : BitVec 16) (f : Flit) : State :=
  if f.carKind = 8 then
    { s with disp := { s.disp with images :=
      (s.disp.images.filter fun e => !(e.1 = asid ∧ e.2.1 = f.carAddr)) ++ [(asid, f.carAddr, f.w3.setWidth 48)] } }
  else if f.w3 = 0 then { s with disp := { s.disp with known := s.disp.known ++ [(asid, f.carAddr)] } }
  else { s with disp := { s.disp with records := s.disp.records ++ [(asid, f.carAddr, f.payload)] } }

/-- The row that a datum of Caribou reads or rewrites beside the ring. -/
def State.carRow (s : State) (f : Flit) : List (BitVec 16 × Word) :=
  if f.carKind = 0 ∨ f.carKind = 4 then [(0, (f.carAddr &&& ~~~63#48).setWidth 64)]
  else if f.carKind = 5 ∨ f.carKind = 6 then ((s.landingRing f.rank).map fun e => e.2.entryRows e.1 f.w3.toNat).getD []
  else []

/-- A datum of Caribou taken in, for the rank that moves (R448): a read or its reply, a frame row, a leaf, a row of the rank
block, a ring entry's two rows, a record that the dispatchers know, or a saved image. -/
def State.carData (s : State) (f : Flit) : State :=
    let kind := f.carKind
    let i := f.w3.toNat
    if kind = 0 then s.carRead f
    else if kind = 1 then s.carReply f
    else if kind = 2 then
      let r := f.carAddr.toNat / 64
      let s0 := s.opened (64 * r)
      let m := s0.mem.storeHome .caribou (some f.rank) true r (s0.mem.encipher (i % 32) r f.payload)
      { s0 with mem := if 32 ≤ i then { m with bad := insertNat m.bad r } else m }
    else if kind = 3 then
      match s.landingOf f.rank with
      | none => s
      | some (asid, _) =>
        match s.mem.leafPlace asid.toNat f.carAddr.toNat (i = 1) with
        | none => s
        | some p => { s with mem := s.mem.setLeaf (some f.rank) p (rowWord f.payload 0) (rowWord f.payload 1) }
    else if kind = 4 then s.hubRewrite 0 f.carAddr fun _ => f.payload
    else if kind = 7 ∨ kind = 8 then
      match s.landingOf f.rank with
      | none => s
      | some (asid, _) => s.keepMoved asid f
    else
      match s.landingRing f.rank with
      | none => s
      | some (asid, q) =>
        if kind = 5 then s.hubRewrite asid (q.entry i) fun _ => f.payload
        else
          (s.hubRewrite asid (q.entry i + 64) fun _ => f.payload).hubRewrite asid q.va fun r =>
            setRowWord r 0 (BitVec.ofNat 64 (max (rowWord r 0).toNat (i + 1)))

/-- CARIBOU_DATA (R373), once the rows that it needs have been read. -/
def execCaribouData (f : Flit) (s : State) : Host.Outcome State Fault Refusal :=
  .next (s.withRing f.rank fun s => s.reading (s.carRow f) fun s =>
    s.receiving f 2 2 fun s => s.serving (some f.rank) fun s => s.carData f)

/-- The flits of an arriving rank's late area, in arrival order. -/
def State.lateFlits (s : State) (base : Addr) (n : Nat) : List Flit :=
  (List.range n).map fun j =>
    let a := (s.hubRead 0 (base + BitVec.ofNat 48 (128 * j))).getD 0
    let b := (s.hubRead 0 (base + BitVec.ofNat 48 (128 * j + 64))).getD 0
    ⟨rowWord a 0, rowWord a 1, rowWord a 2, rowWord a 3, b⟩

/-- The late entries of an arriving rank appended to its ring in arrival order (R373 step 6); those for which a full ring
has no room wait before the flits delivered since (R370). -/
def State.lateAppend (s : State) (v : BitVec 16) (l : List Flit) : State :=
  let r := l.foldl (fun (x : State × List Flit) f =>
    match x.1.landingRing v with
    | some (asid, q) => if q.full || !x.2.isEmpty then (x.1, x.2 ++ [f]) else (x.1.ringWrite asid q q.wi f, x.2)
    | none => (x.1, x.2 ++ [f])) (s, [])
  { r.1 with fab := { r.1.fab with inbox := r.2 ++ r.1.fab.inbox } }

/-- The rows of an arriving rank's late area, and those of its ring to which they go. -/
def State.doneRows (s : State) (v : BitVec 16) : List (BitVec 16 × Word) :=
  match s.car.landing.find? fun e => e.1 = v, s.landingRing v with
  | some e, some (asid, q) =>
    match s.lateArea e.2.1 with
    | some a => (List.range e.2.2).flatMap fun j =>
        (⟨0, 0, 0, a.1, a.2⟩ : Ring_).entryRows 0 j ++ q.entryRows asid (q.wi + j)
    | none => []
  | _, _ => []

/-- CARIBOU_DONE (R373 step 6), once the rank table has room (R6). -/
def execCaribouDone (f : Flit) (s : State) : Host.Outcome State Fault Refusal :=
  if 128 ≤ s.disp.ranks.length then .next s
  else .next (s.withRing f.rank fun s => s.reading (s.doneRows f.rank) fun s => s.receiving f 2 3 fun s =>
    match s.car.landing.find? fun e => e.1 = f.rank, s.landingOf f.rank with
    | some e, some (asid, block) =>
      let s1 := match s.lateArea e.2.1 with
        | some a => s.lateAppend f.rank (s.lateFlits a.1 e.2.2)
        | none => s
      let rest := s1.car.landing.filter fun x => x.1 != f.rank
      let r : Rank := { vrank := f.rank, asid := asid, block := block, phase := 2, cold := bitAt f.w3 0 }
      let s2 : State := { s1 with car := { s1.car with landing := rest },
                                  disp := { s1.disp with ranks := s1.disp.ranks ++ [r] } }
      s2.ownStep f.rank
    | _, _ => s)

end Sys2Proof.Machine
end

