-- ==== Sys2Proof/Machine/Quiesce.lean ====
section
/-! DEFINITION. qsc and the quiesce records (R228, R295, R399 to R401). -/

namespace Sys2Proof.Machine

/-- The cached headers of an ASID leave the queue table (R295). -/
def State.dropHeaders (s : State) (asid : BitVec 16) : State :=
  { s with hub := { s.hub with queueTable := s.hub.queueTable.filter fun e => e.1 != asid } }

/-! ## What a quiesce cancels (R228, R399) -/

/-- Pending triggers of an ASID discarded on one channel, their identifiers complete.
Log 86: DEDUCED, unsafe. -/
def State.cancelTrigs (s : State) (asid : BitVec 16) (core : Nat) (fw : Bool) (chan : Nat) : State :=
  let k := s.core core
  let c := k.ctx fw
  let ch := Tab.get {} c.chans chan
  let mine := ch.trigs.filter fun t => t.x.asid == asid
  let rest := ch.trigs.filter fun t => t.x.asid != asid
  let s1 := s.setCore core (k.setCtx fw { c with chans := Tab.put c.chans chan { ch with trigs := rest } })
  if mine.isEmpty then s else mine.foldl (fun s t => s.completeId core fw t.x.chan t.x.ident) s1

/-- Every pending trigger of an ASID. -/
def State.cancelAllTrigs (s : State) (asid : BitVec 16) : State :=
  allCores.foldl (fun s c =>
    [false, true].foldl (fun s fw =>
      (List.range 16).foldl (fun s n => s.cancelTrigs asid c fw n) s) s) s

/-- A binding cancelled: every other member completes with code 4, and the binding's identifier completes once no write of its
result is outstanding (R402).
Log 86: DEDUCED, unsafe. -/
def State.cancelBind (s : State) (b : Binding) : State :=
  let s1 := if ((s.collOf b.key).val b.pos 1 true).isSome then s else s.failColl b.desc b.key b.members b.fired 4 0 0
  if b.posted = 0 ∧ b.image.isNone = true then s1.cutBind b else s1.setBind { b with cut := true }

/-- The ranks that have an ASID. -/
def State.ranksOf (s : State) (asid : BitVec 16) : List Rank := s.disp.ranks.filter fun r => r.asid == asid

/-! ## The records (R400, R401) -/

/-- The counts of an ASID: transfers, bindings, reductions, queue operations, migrations, port accesses. A mirror write to a
lost buddy is cancelled with the quiesce, and its packet is never accepted (R406); a trigger that waits during a quiesce was
issued after the qsc, which cancelled the others, and is refused work (R228).
Log 87: DEDUCED, unsafe. -/
def State.quiesceCounts (s : State) (asid : BitVec 16) : List Nat :=
  let moves (x : Xfer) : Bool := x.asid == asid && x.kind != .bred && x.kind != .cbind
  let trigs (c : Ctx) : Nat :=
    if s.quiescing asid then 0
    else c.chans.foldl (fun n e => n + (e.2.trigs.filter fun t => t.x.asid == asid).length) 0
  let cch := s.cores.foldl (fun n e => n + (e.2.xfers.filter moves).length + trigs e.2.prog + trigs e.2.fw) 0
  let waits (e : Mirror) : Bool := e.asid == asid && !s.fab.lost.contains (BitVec.ofNat 12 e.bud)
  let port (p : Port) : Nat := (p.sessions.filter fun e => !e.2.late && e.2.busy.any fun m => m.asid == asid && [1, 2, 3, 11].contains m.op.toNat).length
  [cch, (s.binds.filter fun b => b.asid == asid && !b.fin).length, (s.mem.red.filter fun b => b.asid == asid).length,
   (s.hub.mirrors.filter waits).length, (match s.car.busy with
     | some m => if m.asid = asid then 1 else 0
     | none => 0),
   port s.hub.portA + port s.hub.portB]

/-- The address of an ASID's record. -/
def quiesceVa (asid : BitVec 16) : Addr := BitVec.ofNat 48 (0x100000000 + 64 * asid.toNat)

/-- A record: dn, qn and the counts. -/
def quiesceRow (qn : Nat) (counts : List Nat) : Row :=
  let dn := if counts.all fun n => n == 0 then 2 ^ 63 else 0
  ofWords (BitVec.ofNat 64 (dn + qn % 2 ^ 32) :: counts.map fun n => BitVec.ofNat 64 n)

/-- qn of a record. -/
def State.quiesceNo (s : State) (asid : BitVec 16) : Nat :=
  ((s.hubRead 0 (quiesceVa asid)).map fun r => fld (rowWord r 0) 0 32).getD 0

def State.writeRecord (s : State) (asid : BitVec 16) (qn : Nat) : State :=
  s.hubRewrite 0 (quiesceVa asid) fun _ => quiesceRow qn (s.quiesceCounts asid)

/-! ## qsc -/

/-- The ASID that a qsc names. -/
def State.qscAsid (s : State) (a : BitVec 6) : BitVec 16 := (s.readS a).setWidth 16

/-- The ordered sequences of a rank discarded without being applied, here, in its spill area and at other modules (R399).
Log 35: DEDUCED, unsafe. -/
def State.discardSeqs (s : State) (v : BitVec 16) : State :=
  let s1 := (s.reloadSeqs v).dropSeqs v false
  let s2 := { s1 with mem := { s1.mem with adds := s1.mem.adds.filter fun x => x.vrank ≠ v } }
  s2.sendClose v (s2.openStep v) true

/-- Mode 0 (R228, R399, R401).
Log 86: DEDUCED, unsafe. -/
def State.quiesce (s : State) (asid : BitVec 16) : State :=
  let qn := s.quiesceNo asid + 1
  let s1 := s.dropHeaders asid
  let s2 := { s1 with hub := { s1.hub with quiesced := insertNat s1.hub.quiesced asid.toNat } }
  let s3 := s2.writeRecord asid qn
  let s4 := (s3.cancelAllTrigs asid)
  let s5 := (s4.binds.filter fun b => b.asid == asid && !b.fin).foldl State.cancelBind s4
  (s5.ranksOf asid).foldl (fun s r => s.discardSeqs r.vrank) s5

/-- Mode 1: the engines accept work again, and the record is no longer maintained (R228, R401). -/
def State.endQuiesce (s : State) (asid : BitVec 16) : State :=
  let s1 := s.dropHeaders asid
  { s1 with hub := { s1.hub with quiesced := removeNat s1.hub.quiesced asid.toNat } }

/-- A qsc by the mode that its register holds (R228): one syllable, whichever row of the table names it.
Log 9: DEDUCED, safe. -/
def State.qscMode (s : State) (a : BitVec 6) : Res :=
  match fld (s.readS a) 16 2 with
  | 0 => .ok (s.quiesce (s.qscAsid a))
  | 1 => .ok (s.endQuiesce (s.qscAsid a))
  | 2 => .ok (s.dropHeaders (s.qscAsid a))
  | _ => s.illegal 3

/-- qsc (R228), by the name of its mode 0.
Log 9: DEDUCED, safe. -/
def execQscQuiesce (g : BitVec 4) (a : BitVec 6) (s : State) : Host.Outcome State Fault Refusal :=
  issue g s (s.qscMode a)

/-- qsc (R228), by the name of its mode 1.
Log 9: DEDUCED, safe. -/
def execQscEndQuiesce (g : BitVec 4) (a : BitVec 6) (s : State) : Host.Outcome State Fault Refusal :=
  issue g s (s.qscMode a)

/-- qsc (R228), by the name of its mode 2.
Log 9: DEDUCED, safe. -/
def execQscQueueInvalidate (g : BitVec 4) (a : BitVec 6) (s : State) : Host.Outcome State Fault Refusal :=
  issue g s (s.qscMode a)

/-- QUIESCE_RECORD_UPDATE (R401): the record of a quiesced ASID rewritten when a count has fallen. -/
def execQuiesceRecordUpdate (asid : BitVec 16) (s : State) : Host.Outcome State Fault Refusal :=
  if s.quiescing asid then
    match s.hubRead 0 (quiesceVa asid) with
    | none => .next s
    | some r =>
      let now := s.quiesceCounts asid
      let old := (List.range 6).map fun j => fld (rowWord r (j + 1)) 0 32
      if (now.zip old).any fun p => decide (p.1 < p.2) then .next (s.writeRecord asid (fld (rowWord r 0) 0 32))
      else .next s
  else .next s

end Sys2Proof.Machine
end

