-- ==== Sys2Proof/Machine/HostPort.lean ====
section
/-! DEFINITION. The control ports (R410 to R421): frames, sessions, memory accesses, queue appends, the register
window, semaphores, the firmware mailbox, attestation and the manifest compare (R431 to R436). -/

namespace Sys2Proof

/-- A frame of the control transport with a good magic, version and length (R412).
Log 89: DEDUCED, unsafe. -/
def PortMsg.good (m : PortMsg) : Bool :=
  m.udp && m.magic == 0x4656 && m.ver == 1 && decide (m.plen.toNat ≤ 8192) && m.plen.toNat == m.body.length

/-- Whether an op is listed (R413).
Log 89: DEDUCED, unsafe. -/
def PortMsg.listed (m : PortMsg) : Bool := decide (1 ≤ m.op.toNat) && decide (m.op.toNat ≤ 14)

/-- Whether an op is executed before the boot state is running (R413). -/
def PortMsg.early (m : PortMsg) : Bool := [0x04, 0x05, 0x08, 0x09, 0x0C, 0x0D].contains m.op.toNat

/-- Whether a request has the fields that its row of R413 gives it: no address, an argument below a bound,
and a payload of a given length.
Log 89: DEDUCED, unsafe. -/
def PortMsg.plain (m : PortMsg) (args bytes : Nat) : Bool :=
  m.addr == 0 && decide (m.arg.toNat < args) && m.body.length == bytes

/-- Whether a request names words of the register window (R413). -/
def PortMsg.window (m : PortMsg) : Bool :=
  m.addr.toNat % 8 == 0 && decide (1 ≤ m.arg.toNat) && decide (m.arg.toNat ≤ 1024) &&
    decide (m.addr.toNat + 8 * m.arg.toNat ≤ 65536)

end Sys2Proof

namespace Sys2Proof.Machine

/-! ## Sessions (R413 to R417) -/

/-- How a request stands after an occurrence of its event: still under way, or to be answered with a status, a
value where the spec gives one, and a payload. -/
inductive Served where
  | wait (s : State)
  | done (status : Nat) (value : Option Nat) (body : List Byte) (s : State)

/-- The reply to a request (R412): a value that the spec does not give is free.
Log 91: DESIGN CHOICE, safe. -/
def State.replyOf (s : State) (m : PortMsg) (status : Nat) (value : Option Nat) (body : List Byte) : Reply where
  op := m.op + 0x80
  sess := m.sess
  seq := m.seq
  status := BitVec.ofNat 32 status
  value := match value with
    | some v => BitVec.ofNat 32 v
    | none => Config.free 32 [50, s.fresh]
  body := body
  plen := BitVec.ofNat 16 body.length
  asid := Config.free 16 [72, s.fresh]
  addr := Config.free 48 [73, s.fresh]

/-- A message sent by a port. -/
def State.portOut (s : State) (b : Bool) (r : Reply) : State :=
  let p := s.port b
  s.setPort b { p with out := p.out ++ [r] }

/-- The last 64 replies of a session with one more (R415).
Log 90: DEDUCED, unsafe. -/
def keepReply (l : List Reply) (r : Reply) : List Reply := (l ++ [r]).drop (l.length + 1 - 64)

/-- A request answered, its reply kept by its session, which is then free for its next request. -/
def State.reply (s : State) (m : PortMsg) (status : Nat) (value : Option Nat) (body : List Byte) : State :=
  let r := s.replyOf m status value body
  let s1 := match s.session m.portB m.sess.toNat with
    | some x =>
      s.setSession m.portB m.sess.toNat
        { x with replies := keepReply x.replies r, busy := none, pos := 0, asked := [], answers := [], posted := 0 }
    | none => s
  s1.portOut m.portB r

/-- An occurrence of a request carried to its end or left under way. -/
def finishServed (m : PortMsg) : Served → Host.Outcome State Fault Refusal
  | .wait s => .next s
  | .done status value body s => .next (s.reply m status value body)

/-- Whether some request of either port waits for other modules: it is executed as a whole, so none begins meanwhile
(R411, R416). -/
def State.portsBusy (s : State) : Bool :=
  (s.hub.portA.sessions ++ s.hub.portB.sessions).any fun e =>
    e.2.busy.isSome && (!e.2.asked.isEmpty || !e.2.answers.isEmpty || e.2.posted != 0)

/-- A request under R413 and R415: `run` is what its op does, once its turn has come and the boot state permits
it; an op that is not listed is answered with status 1, and so is a request with a status. A frame that is not good, or has
another op, is not this event's.
Log 89: DEDUCED, unsafe; log 90: DEDUCED, unsafe. -/
def State.serve (s : State) (m : PortMsg) (mine : Bool) (run : State → Served) :
    Host.Outcome State Fault Refusal :=
  if ((s.port m.portB).up && m.good && mine) = false then .next s
  else
    match s.session m.portB m.sess.toNat with
    | none => .next (s.reply m 1 none [])
    | some x =>
      let go (s : State) : Host.Outcome State Fault Refusal :=
        if m.status ≠ 0 then .next (s.reply m 1 none [])
        else if m.early || s.hub.bst == 4 || !m.listed then finishServed m (run s)
        else .next (s.reply m 6 none [])
      let ahead := m.seq.toNat - x.next.toNat
      if m.seq = 0 then .next (s.portOut m.portB (s.replyOf m 1 none []))
      else if x.busy = some m then go s
      else if m.seq.toNat < x.next.toNat then
        match x.replies.find? fun r => r.seq = m.seq with
        | some r => .next (s.portOut m.portB r)
        | none =>
          if x.busy.any fun y => y.seq == m.seq then .next s
          else .next (s.portOut m.portB (s.replyOf m 10 none []))
      else if x.held.any fun y => y.seq == m.seq && y != m then .next s
      else if ahead = 0 ∧ x.busy = none ∧ s.portsBusy = false then
        go (s.setSession m.portB m.sess.toNat
          { x with next := x.next + 1, busy := some m, held := x.held.filter (fun y => y != m), pos := 0, asked := [],
                   answers := [], posted := 0, late := s.quiescing m.asid })
      else if ahead ≤ 32 then
        if x.held.contains m then .next s
        else .next (s.setSession m.portB m.sess.toNat { x with held := x.held ++ [m] })
      else .next s

/-- The holder code of a port in a semaphore word (R421). -/
def holderOf (b : Bool) : Nat := if b then 2 else 1

/-- The session ends: its semaphores are free again, its held requests gone, its number free (R417). -/
def State.endSession (s : State) (b : Bool) (n : Nat) : State :=
  let mine (w : Word) : Bool := bitAt w 63 && fld w 61 2 == holderOf b && fld w 0 16 == n
  let p := s.port b
  let s1 := { s with hub := { s.hub with sems := s.hub.sems.filter fun (e : Nat × Word) => !mine e.2 } }
  s1.setPort b { p with sessions := p.sessions.filter fun e => e.1 != n }

/-- BAD_CONTROL_FRAME (R410, R412, R413, R415): a frame that is not good is dropped and counted; a request whose op is not
listed takes its turn in its session and is answered with status 1.
Log 89: DEDUCED, unsafe. -/
def execBadControlFrame (m : PortMsg) (s : State) : Host.Outcome State Fault Refusal :=
  if (s.port m.portB).up = false then .next s
  else if m.good = false then .next (s.bumpModule 0 false)
  else s.serve m (!m.listed) fun s => .done 1 none [] s

/-- OPEN (R415). -/
def execOpenSession (m : PortMsg) (s : State) : Host.Outcome State Fault Refusal :=
  let p := s.port m.portB
  if (p.up && m.good && m.op == 0x0C) = false then .next s
  else if (m.sess == 0 && m.seq == 1 && m.plain 1 0 && m.status == 0) = false then .next (s.portOut m.portB (s.replyOf m 1 none []))
  else
    match ((List.range 16).map fun i => i + 1).find? fun n => !p.sessions.any fun e => e.1 == n with
    | none => .next (s.portOut m.portB (s.replyOf m 9 none []))
    | some n =>
      let r := s.replyOf { m with sess := BitVec.ofNat 16 n } 0 none []
      let x : Session := { replies := [r] }
      .next (s.setPort m.portB { p with sessions := Tab.put p.sessions n x, last := some n, out := p.out ++ [r] })

/-- CLOSE (R417). -/
def execCloseSession (m : PortMsg) (s : State) : Host.Outcome State Fault Refusal :=
  match s.serve m (m.op == 0x0D) fun s =>
    .done (if m.plain 1 0 then 0 else 1) none [] s with
  | .next t =>
    let mine := match s.session m.portB m.sess.toNat, t.session m.portB m.sess.toNat with
      | some x, some y => x.next != y.next && m.plain 1 0 && m.status == 0
      | _, _ => false
    .next (if mine then t.endSession m.portB m.sess.toNat else t)
  | r => r

/-- SESSION_LINK_TIMEOUT (R417): once the port's link has been down for lto milliseconds. -/
def execSessionLinkTimeout (port : Bool) (s : State) : Host.Outcome State Fault Refusal :=
  let p := s.port port
  if p.up = false ∧ p.downAt + 1000000 * s.hub.lto ≤ s.hub.gtime then
    .next (p.sessions.foldl (fun s e => s.endSession port e.1) s)
  else .next s

/-- The link of a control port goes down, or comes back (R417): one that comes back after lto finds no session.
Log 103: DESIGN CHOICE, safe. -/
def State.portLink (s : State) (b : Bool) : State :=
  let p := s.port b
  let gone := p.up = false ∧ p.downAt + 1000000 * s.hub.lto ≤ s.hub.gtime
  let s1 := if gone then p.sessions.foldl (fun s e => s.endSession b e.1) s else s
  if s.hub.started then s1.setPort b { s1.port b with up := !p.up, downAt := s.hub.gtime } else s

/-! ## Memory through a port (R413, R414) -/

/-- Why a request cannot go on: a remote row has not come back, or a row fails with a status. -/
inductive Halt where
  | ask (s : State)
  /-- the status, and the offset of the failing row within the request, where it has one -/
  | fail (status : Nat) (off : Option Nat) (s : State)

abbrev Got (α : Type) := Except Halt (α × State)

/-- Continue with what was read. -/
def Got.bind {α β : Type} (x : Got α) (f : α → State → Got β) : Got β :=
  match x with
  | .ok r => f r.1 r.2
  | .error h => .error h

/-- The translation of a port's access under a message's ASID (R318, R413). -/
def State.portAcc (s : State) (asid : BitVec 16) (k : AccKind) (va : Nat) : Except Halt Acc :=
  match s.translate asid.toNat k (BitVec.ofNat 64 va) with
  | .ok acc => .ok acc
  | .denied => .error (.fail 3 none s)
  | .none none => .error (.fail 2 none s)
  | .none (some pa) => .error (.fail 2 none (s.walkError 255 asid.toNat pa))
  | .noMemory _ => .error (.fail 2 none s)
  | .stall pa => .error (.ask (s.opened pa))

/-- A remote row asked for by a session, once.
Log 92: DEDUCED, safe. -/
def State.portAsk (s : State) (m : PortMsg) (acc : Acc) : State :=
  match s.session m.portB m.sess.toNat with
  | none => s
  | some x =>
    if x.asked.contains acc.key ∨ (x.answers.any fun e => e.1 = acc.key) then s
    else
      (s.sendFlit acc.leaf.home 1 (acc.readFlit (sessTag m.portB m.sess.toNat))).setSession m.portB
        m.sess.toNat { x with asked := acc.key :: x.asked }

/-- The answers that a request's session holds. -/
def State.portAnswers (s : State) (m : PortMsg) : Tab Row :=
  ((s.session m.portB m.sess.toNat).map fun x => x.answers).getD []

/-- A row read by a port, whole (R231, R413).
Log 94: DEDUCED, unsafe. -/
def State.portRow (s : State) (m : PortMsg) (acc : Acc) : Got Row :=
  if s.isRemote acc then
    let l := s.portAnswers m
    match l.find? fun e => e.1 = acc.key with
    | none => .error (.ask (s.portAsk m acc))
    | some e =>
      if l.any fun e => e.1 = poisonKey acc.key then .error (.fail 4 none s)
      else .ok (s.mem.decipher acc.leaf.ek acc.row e.2, s)
  else
    let r := (s.opened acc.pa).load (.port m.portB) acc s.iss.pick
    if r.2.1 then .error (.fail 4 none s) else .ok (r.1, r.2.2)

/-- The pieces of rows that a range of bytes takes: address, place in the row, length. -/
def slices (addr n : Nat) : List (Nat × Nat × Nat) :=
  (List.range ((addr + n - 1) / 64 - addr / 64 + 1)).map fun k =>
    let base := 64 * (addr / 64 + k)
    let lo := max addr base
    (lo, lo - base, min (addr + n) (base + 64) - lo)

/-- Bytes of a row. -/
def sliceOf (r : Row) (o n : Nat) : List Byte := (List.range n).map fun i => BitVec.ofNat 8 (rowByte r (o + i))

/-- A re-snapshot of a port at HOST (R249).
Log 92: DEDUCED, safe. -/
def State.hostView (s : State) (b : Bool) : State := s.snapshot (.port b) (.port b) 10

/-- The pieces of a read, in order; a failure carries the offset of its row in the request.
Log 92: DEDUCED, safe. -/
def State.portRows (s : State) (m : PortMsg) : List (Nat × Nat × Nat) → List Byte → Served
  | [], got => .done 0 none got s
  | p :: t, got =>
    let off := p.1 - m.addr.toNat
    match s.portAcc m.asid .read p.1 with
    | .error (.ask s1) => .wait s1
    | .error (.fail st _ s1) => .done st (some off) [] s1
    | .ok acc =>
      match s.portRow m acc with
      | .error (.ask s1) => .wait s1
      | .error (.fail st _ s1) => .done st (some off) [] s1
      | .ok r => r.2.portRows m t (got ++ sliceOf r.1 p.2.1 p.2.2)

/-- READ (R249, R413). -/
def execHostRead (m : PortMsg) (s : State) : Host.Outcome State Fault Refusal :=
  s.serve m (m.op == 0x01) fun s =>
    if 1 ≤ m.arg.toNat ∧ m.arg.toNat ≤ 8192 ∧ m.body = [] then
      (s.hostView m.portB).portRows m (slices m.addr.toNat m.arg.toNat) []
    else .done 1 none [] s

/-- A request's session changed. -/
def State.mapSession (s : State) (m : PortMsg) (f : Session → Session) : State :=
  match s.session m.portB m.sess.toNat with
  | some x => s.setSession m.portB m.sess.toNat (f x)
  | none => s

/-- Writes at other modules that a request still waits for. -/
def State.portOwes (s : State) (m : PortMsg) : Bool :=
  (s.session m.portB m.sess.toNat).any fun x => x.posted != 0

/-- How a port may write a word of the hub page.
Log 115: DEDUCED, unsafe. -/
inductive RegClass where
  | unnamed | node | shared | closed
deriving DecidableEq, Repr

/-- Log 115: DEDUCED, unsafe. -/
def regClass (w : Nat) : RegClass :=
  if w = 0x8 then .node
  else if 0x1000 ≤ w ∧ w < 0x1200 ∨ 0x2000 ≤ w ∧ w < 0x4440 then .shared
  else if w < 0xA8 ∨ 0x100 ≤ w ∧ w < 0x128 ∨ 0x5000 ≤ w ∧ w < 0x5640 then .closed
  else .unnamed

/-- Words written in ascending order, each with its offset; the first that may not be written ends the request.
Log 115: DEDUCED, unsafe. -/
def State.regPuts (s : State) : List (Nat × Word) → Nat × State
  | [] => (0, s)
  | e :: t =>
    match regClass e.1 with
    | .closed => (3, s)
    | .node => if s.hub.bst = 4 then (6, s) else (s.hubStore 200 e.1 e.2).regPuts t
    | .shared => (s.hubStore 200 e.1 e.2).regPuts t
    | .unnamed => s.regPuts t

/-- One row of a write (R413): rewritten in one atomic step, also at another module, or of the hub page by the rule of its words
(R419).
Log 93: DEDUCED, unsafe. -/
def State.portPut (s : State) (m : PortMsg) (acc : Acc) (o : Nat) (b : List Byte) : Except Halt State :=
  let a : Agent := .port m.portB
  let l := b.map BitVec.toNat
  if s.isRemote acc then
    let tag := sessTag m.portB m.sess.toNat
    let p := ({} : Patch).add o l
    let s1 := if b.length = 64 then (s.flushPubs a).remoteRow acc tag p.val else s.sendPart a acc p.val p.mask tag false
    .ok (s1.mapSession m fun x => { x with posted := x.posted + 1 })
  else if isHubRow acc.row then
    let v := overBytes (s.hubRow acc.row) o l
    let words := (List.range 8).filter fun j => decide (o < 8 * j + 8) && decide (8 * j < o + b.length)
    match s.regPuts (words.map fun j => (hubOffset (64 * acc.row) + 8 * j, rowWord v j)) with
    | (0, s1) => .ok s1
    | (st, s1) => .error (.fail st none s1)
  else
    let s1 := s.opened acc.pa
    if b.length ≠ 64 ∧ s1.mem.bad.contains acc.row = true then .ok (s1.dropReport acc.row a)
    else .ok (s1.store a acc (overBytes (s1.peek acc) o l))

/-- What a port's write has done published at HOST before its reply (R249). -/
def State.portPublish (s : State) (m : PortMsg) : State := s.publish (.port m.portB) (.port m.portB) 10

/-- The rows of a write that have still to be done; those done are published, also where a later one fails.
Log 93: DEDUCED, unsafe. -/
def State.portWrite (s : State) (m : PortMsg) : List (Nat × Nat × Nat) → Served
  | [] =>
    if s.portOwes m then .wait s
    else .done 0 none [] (s.portPublish m)
  | p :: t =>
    let off := p.1 - m.addr.toNat
    let failed (st : Nat) (s : State) : Served := if s.portOwes m then .wait s else .done st (some off) [] (s.portPublish m)
    match s.portAcc m.asid .write p.1 with
    | .error (.ask s1) => .wait s1
    | .error (.fail st _ s1) => failed st s1
    | .ok acc =>
      match s.portPut m acc p.2.1 ((m.body.drop off).take p.2.2) with
      | .error (.ask s1) => .wait s1
      | .error (.fail st _ s1) => failed st s1
      | .ok s1 => (s1.mapSession m fun x => { x with pos := x.pos + 1 }).portWrite m t

/-- WRITE (R249, R413). -/
def execHostWrite (m : PortMsg) (s : State) : Host.Outcome State Fault Refusal :=
  s.serve m (m.op == 0x02) fun s =>
    if m.arg = 0 ∧ m.body ≠ [] then
      let done := ((s.session m.portB m.sess.toNat).map fun x => x.pos).getD 0
      s.portWrite m ((slices m.addr.toNat m.body.length).drop done)
    else .done 1 none [] s

/-! ## Queue appends (R293, R406, R413, R420) -/

/-- A payload of 64 bytes as a row. -/
def rowOfBytes (b : List Byte) : Row := ofLanes 8 (b.map BitVec.toNat)

/-- The reply to an append that met a fault.
Log 95: DEDUCED, unsafe. -/
def faultStatus (a : App) : Nat :=
  match a with
  | .fault true _ _ => 3
  | .fault false _ _ => 2
  | .poison => 4
  | _ => 1

def App.walked (a : App) : List Nat :=
  match a with
  | .fault _ _ (some pa) => [pa]
  | _ => []

/-- The format errors that an append's walks met, reported.
Log 94: DEDUCED, unsafe. -/
def State.appErrors (s : State) (asid : BitVec 16) (a : App) : State :=
  a.walked.foldl (fun s pa => s.walkError 255 asid.toNat pa) s

/-- The answers under some keys forgotten, so that what they answered is asked for again. -/
def Session.forget (x : Session) (keys : List Nat) : Session :=
  { x with answers := x.answers.filter fun e => !keys.contains e.1 }

/-- A packet written to a mirrored queue of another module: answered once its home says that it is accepted (R406, R413). -/
def State.portAccepted (s : State) (m : PortMsg) (acc : Acc) (x : Session) : Served :=
  let key := answerKey acc.key
  match x.answers.find? fun e => e.1 = key with
  | some e =>
    if rowWord e.2 0 = 1 then .done 0 none [] s else .wait (s.mapSession m fun x => x.forget [key])
  | none =>
    if x.asked.contains key then .wait s
    else
      let f := acceptFlit acc (x.pos - 1) (m.addr &&& ~~~63#48) (sessTag m.portB m.sess.toNat)
      .wait ((s.sendFlit acc.leaf.home 1 f).mapSession m fun x => { x with asked := key :: x.asked })

/-- An append to a queue whose header another module holds: the header is read, its slot translated, the slot claimed if the
write index still stands, and the packet written. -/
def State.portAppendRemote (s : State) (m : PortMsg) (acc : Acc) : Served :=
  let tag := sessTag m.portB m.sess.toNat
  let key := answerKey acc.key
  let a : Agent := .port m.portB
  match s.portRow m acc with
  | .error (.ask s1) => .wait s1
  | .error (.fail st _ s1) => .done st (some 0) [] s1
  | .ok r =>
    let s := r.2
    let h := hdrOf acc.leaf.home (rowWords r.1)
    let x := (s.session m.portB m.sess.toNat).getD {}
    if x.pos ≠ 0 then if x.posted ≠ 0 then .wait s else if h.mir then s.portAccepted m acc x else .done 0 none [] s
    else if h.bad then .done 1 none [] s
    else
      match s.portAcc m.asid .write (h.slot h.wi.toNat).toNat with
      | .error (.ask s1) => .wait s1
      | .error (.fail st _ s1) => .done st (some 0) [] s1
      | .ok slot =>
        match x.answers.find? fun e => e.1 = key with
        | none =>
          if x.asked.contains key then .wait s
          else
            let f := claimFlit acc h.wi (m.addr &&& ~~~63#48) tag
            .wait ((((s.publish a a h.qsc).flushPubs a).sendFlit acc.leaf.home 1 f).mapSession m fun x =>
              { x with asked := key :: x.asked })
        | some e =>
          if rowWord e.2 1 = 2 then .wait ((s.mapSession m fun x => x.forget [acc.key, key]).portAsk m acc)
          else if rowWord e.2 1 = 0 then .done 5 none [] s
          else
            let i := (rowWord e.2 0).toNat
            let v := h.stamp i (rowOfBytes m.body)
            let s1 := s.mapSession m fun x => { x.forget [key] with pos := i + 1 }
            if s.isRemote slot then .wait ((s1.remoteRow slot tag v).mapSession m fun x => { x with posted := x.posted + 1 })
            else .wait ((s1.opened slot.pa).put a slot v)

/-- An append to a queue of this module; on a mirrored queue it is answered once the packet is accepted.
Log 95: DEDUCED, unsafe; log 96: DEDUCED, unsafe. -/
def State.portAppend (s : State) (m : PortMsg) (asid : BitVec 16) (va : Addr) (acc : Acc) : Served :=
  let a : Agent := .port m.portB
  let h := (s.queueHdr asid va acc).1
  if s.mem.bad.contains acc.row then .done 4 (some 0) [] s
  else if h.bad then .done 1 none [] s
  else
    match (s.publish a a h.qsc).append a asid va (rowOfBytes m.body) (some m) with
    | (.done _, s1) =>
      let s2 := s1.moveWaiter asid h.wq
      if h.mir then .wait (s2.mapSession m fun x => { x with pos := 1 }) else .done 0 none [] s2
    | (.full, s1) => .done 5 none [] s1
    | (.later, s1) => .wait s1
    | (e, s1) => .done (faultStatus e) (some 0) [] (s1.appErrors asid e)

/-- QUEUE_APPEND (R223, R248, R293, R406, R413). -/
def execQueueAppend (m : PortMsg) (s : State) : Host.Outcome State Fault Refusal :=
  s.serve m (m.op == 0x03) fun s =>
    let x := (s.session m.portB m.sess.toNat).getD {}
    let va := m.addr &&& ~~~63#48
    if m.body.length ≠ 64 ∨ m.arg ≠ 0 then .done 1 none [] s
    else
      match s.portAcc m.asid .atomic va.toNat with
      | .error (.ask s1) => .wait s1
      | .error (.fail st _ s1) => .done st (some 0) [] s1
      | .ok acc =>
        if s.isRemote acc then s.portAppendRemote m acc
        else if x.pos = 1 then
          if s.hub.mirrors.any fun e => e.who == some m then .wait s else .done 0 none [] s
        else s.portAppend m m.asid va acc

/-- The header of the firmware mailbox (R420).
Log 96: DEDUCED, unsafe. -/
def mailboxVa : Addr := 0x000100800000

/-- NOTIFY (R420). -/
def execNotify (m : PortMsg) (s : State) : Host.Outcome State Fault Refusal :=
  s.serve m (m.op == 0x0E) fun s =>
    if m.plain 1 64 = false then .done 1 none [] s
    else
      match s.portAcc 0 .atomic mailboxVa.toNat with
      | .error (.ask s1) => .wait s1
      | .error (.fail st _ s1) => .done st (some 0) [] s1
      | .ok acc =>
        let told (s : State) : Served := .done 0 none [] (s.raiseAsync 0 ⟨0x23, if m.portB then 1 else 0, 0⟩)
        match s.portAppend m 0 mailboxVa acc with
        | .done 0 _ _ s1 => told s1
        | .wait s1 => if (s1.session m.portB m.sess.toNat).any fun x => x.pos == 1 then told s1 else .wait s1
        | r => r

/-! ## The register window (R419) -/

/-- The bytes of a word, from its lowest. -/
def wordBytes (w : Word) : List Byte := (List.range 8).map fun i => w.extractLsb' (8 * i) 8

/-- REGISTER_READ (R413, R419). -/
def execRegRead (m : PortMsg) (s : State) : Host.Outcome State Fault Refusal :=
  s.serve m (m.op == 0x04) fun s =>
    if (m.window && m.body == []) = false then .done 1 none [] s
    else .done 0 none ((List.range m.arg.toNat).flatMap fun i => wordBytes (s.hubWord (m.addr.toNat + 8 * i))) s

/-- Consecutive words written from an offset on.
Log 115: DEDUCED, unsafe. -/
def State.regPut (s : State) (off : Nat) (l : List Word) : Nat × State :=
  s.regPuts (l.zipIdx.map fun e => (off + 8 * e.2, e.1))

/-- A payload as words. -/
def wordsOf (b : List Byte) : List Word :=
  (List.range (b.length / 8)).map fun j =>
    BitVec.ofNat 64 (lanesNat 8 (((b.drop (8 * j)).take 8).map BitVec.toNat))

/-- REGISTER_WRITE (R413, R419). -/
def execRegWrite (m : PortMsg) (s : State) : Host.Outcome State Fault Refusal :=
  s.serve m (m.op == 0x05) fun s =>
    if (m.window && m.body.length == 8 * m.arg.toNat) = false then .done 1 none [] s
    else
      let r := s.regPut m.addr.toNat (wordsOf m.body)
      .done r.1 none [] r.2

/-! ## Semaphores (R421) -/

/-- The word of a semaphore held by a session.
Log 97: DEDUCED, unsafe. -/
def semWord (b : Bool) (n : Nat) : Word := BitVec.ofNat 64 (2 ^ 63 + holderOf b * 2 ^ 61 + n)

/-- Log 97: DEDUCED, unsafe. -/
def State.setSem (s : State) (i : Nat) (v : Word) : State :=
  { s with hub := { s.hub with sems := Tab.set 0 s.hub.sems i v } }

/-- The value of a reply with status 7.
Log 97: DEDUCED, unsafe. -/
def semHolder (w : Word) : Nat := fld w 61 2 * 65536 + fld w 0 16

/-- ACQUIRE (R421). -/
def execSemAcquire (m : PortMsg) (s : State) : Host.Outcome State Fault Refusal :=
  s.serve m (m.op == 0x06) fun s =>
    let i := m.arg.toNat
    let w := Tab.get 0 s.hub.sems i
    let mine := semWord m.portB m.sess.toNat
    if m.plain 64 0 = false then .done 1 none [] s
    else if bitAt w 63 = false then .done 0 none [] (s.setSem i mine)
    else if w = mine then .done 0 none [] s
    else .done 7 (some (semHolder w)) [] s

/-- RELEASE (R421). -/
def execSemRelease (m : PortMsg) (s : State) : Host.Outcome State Fault Refusal :=
  s.serve m (m.op == 0x07) fun s =>
    let i := m.arg.toNat
    let w := Tab.get 0 s.hub.sems i
    if m.plain 64 0 = false then .done 1 none [] s
    else if w = semWord m.portB m.sess.toNat then .done 0 none [] (s.setSem i 0)
    else .done 7 (some (semHolder w)) [] s

/-! ## Attestation (R431 to R433) -/

/-- The bytes of a digest. -/
def digestBytes (d : BitVec 256) : List Byte := (List.range 32).map fun i => d.extractLsb' (8 * i) 8

/-- The body of a report (R433).
Log 100: DEDUCED, unsafe. -/
def State.reportBody (s : State) (nonce : List Byte) : List Byte :=
  wordBytes 0x4B564101 ++ wordBytes (s.hub.bctr.setWidth 64) ++ wordBytes (BitVec.ofNat 64 s.hub.leaf) ++
    wordBytes (BitVec.ofNat 64 s.hub.gtime) ++ nonce ++ digestBytes Config.romm ++ digestBytes s.hub.curm ++
    digestBytes s.hub.incm ++ wordBytes (s.hubWord 0x18) ++ wordBytes (s.hub.node.setWidth 64) ++
    List.replicate 80 0

/-- A report: its body and the signature with Nspk = 1. -/
def State.report (s : State) (nonce : List Byte) : List Byte :=
  let b := s.reportBody nonce
  let c := s.hub.bctr.toNat
  b ++ [0, 0, 0, 1] ++ (Config.topSignature c).toList ++ (Config.bootKey c).toList ++
    (Config.leafSignature c s.hub.leaf b).toList

/-- What an attestation request finds (R432).
Log 102: DEDUCED, safe. -/
def State.attestNow (s : State) (m : PortMsg) : Served :=
  if m.plain 1 32 = false then .done 1 none [] s
  else if 32768 ≤ s.hub.bctr.toNat ∨ 2 ^ 20 ≤ s.hub.leaf then .done 11 none [] s
  else if s.hub.treeReady = false then .wait s
  else .done 0 none (s.report m.body) { s with hub := { s.hub with leaf := s.hub.leaf + 1 } }

/-- ATTEST (R432, R433). -/
def execAttest (m : PortMsg) (s : State) : Host.Outcome State Fault Refusal :=
  s.serve m (m.op == 0x0A) fun s => s.attestNow m

/-- The attestation requests that sessions hold (R432).
Log 102: DEDUCED, safe. -/
def Hub.heldAttests (h : Hub) : List PortMsg :=
  (h.portA.sessions ++ h.portB.sessions).filterMap fun e => e.2.busy.bind fun m =>
    if m.op = 0x0A then some m else none

/-- IDENTITY_TREE_READY (R422, R432): the tree is ready and the held requests are served. -/
def execIdentityTreeReady (s : State) : Host.Outcome State Fault Refusal :=
  if s.hub.started = false ∨ s.hub.treeReady = true then .next s
  else
    .next (s.hub.heldAttests.foldl (fun s m => match s.attestNow m with
      | .done st v b s1 => s1.reply m st v b
      | .wait s1 => s1) { s with hub := { s.hub with treeReady := true } })

/-! ## Manifest compare (R434 to R436) -/

/-- Bytes of an address space as a port reads them, piece by piece; a failure carries the address of its row's first byte. -/
def State.portBytes (s : State) (m : PortMsg) (asid : BitVec 16) : List (Nat × Nat × Nat) → List Byte → Got (List Byte)
  | [], got => .ok (got, s)
  | p :: t, got =>
    match s.portAcc asid .read p.1 with
    | .error (.fail st _ s1) => .error (.fail st (some p.1) s1)
    | .error h => .error h
    | .ok acc =>
      match s.portRow m acc with
      | .error (.fail st _ s1) => .error (.fail st (some p.1) s1)
      | .error h => .error h
      | .ok r => r.2.portBytes m asid t (got ++ sliceOf r.1 p.2.1 p.2.2)

def State.readBytes (s : State) (m : PortMsg) (asid : BitVec 16) (va n : Nat) : Got (List Byte) :=
  if n = 0 then .ok ([], s) else s.portBytes m asid (slices va n) []

/-- A failure within the request's own bytes, from an address on, at its offset there (R414). -/
def Got.within {α : Type} (a : Nat) (x : Got α) : Got α :=
  match x with
  | .error (.fail st (some va) s) => .error (.fail st (some (va - a)) s)
  | r => r

/-- A failure elsewhere, which has no offset within the request. -/
def Got.outside {α : Type} (x : Got α) : Got α :=
  match x with
  | .error (.fail st _ s) => .error (.fail st none s)
  | r => r

/-- Consecutive words of an address space. -/
def State.readWords (s : State) (m : PortMsg) (asid : BitVec 16) (va n : Nat) : Got (List Word) :=
  Got.bind (s.readBytes m asid va (8 * n)) fun b s => .ok (wordsOf b, s)

/-- A number as n bytes, from its lowest.
Log 100: DEDUCED, unsafe. -/
def leBytes (n x : Nat) : List Byte := (List.range n).map fun i => BitVec.ofNat 8 (x / 2 ^ (8 * i))

/-- The width, in bytes, that the implementation gives a digest's field whose width R435 does not state.
Log 5: DESIGN CHOICE, safe; log 99: DESIGN CHOICE, safe. -/
def openWidth (k : Nat) : Nat := Config.choice [60, k]

/-- The header rows of listed images.
Log 98: DEDUCED, unsafe. -/
def State.imageHeads (s : State) (m : PortMsg) (asid : BitVec 16) : List Word → Got (List (List Word))
  | [] => .ok ([], s)
  | a :: t =>
    Got.bind (s.readWords m asid a.toNat 8) fun h s =>
      Got.bind (s.imageHeads m asid t) fun l s => .ok (h :: l, s)

/-- The group entries of an endpoint table, each with its member list (R346). -/
def State.groupBytes (s : State) (m : PortMsg) (asid : BitVec 16) (cept : Nat) : Nat → Nat → Got (List Byte)
  | 0, _ => .ok ([], s)
  | k + 1, g =>
    Got.bind (s.readWords m asid (cept + 64 + 16 * g) 2) fun e s =>
      let n := fld (e.getD 1 0) 0 17
      Got.bind (s.readBytes m asid (fld (e.getD 0 0) 0 48) (2 * n)) fun l s =>
        Got.bind (s.groupBytes m asid cept k (g + 1)) fun t s => .ok (leBytes 4 n ++ l ++ t, s)

/-- The bytes of the seven fields (R435).
Log 99: DESIGN CHOICE, safe. -/
def State.manifestFields (s : State) (m : PortMsg) (v : BitVec 16) (images : List Word) : Got (List (List Byte)) :=
  let asid := s.rankAsid v
  Got.bind (s.readWords m 0 ((s.rankBlock v).getD 0).toNat 16) fun rb s =>
  let cept := fld (dw rb 12) 0 48
  let tm := fld (dw rb 8) 62 2
  let tbase := fld (dw rb 8) 0 48
  let tpos := dw rb 9
  let keys := wordBytes (dw rb 4) ++ wordBytes (dw rb 6)
  Got.bind (s.readWords m asid cept 8) fun e s =>
  Got.bind (s.imageHeads m asid images) fun heads s =>
  Got.bind (s.groupBytes m asid cept (fld (e.getD 1 0) 0 13) 0) fun groups s =>
  Got.bind (s.readBytes m asid tbase (16 * tpos.toNat)) fun trace s =>
    let nvr (h : List Word) : Nat := fld (h.getD 3 0) 0 32
    let fmts := heads.flatMap fun h =>
      leBytes (openWidth 0) (fld (h.getD 2 0) 13 19) ++ leBytes (openWidth 1) (fld (h.getD 3 0) 48 1) ++
        leBytes (openWidth 2) (nvr h)
    .ok ([leBytes 2 (fld (e.getD 0 0) 0 16) ++ leBytes 4 (nvr (heads.headD [])),
      digestBytes s.hub.curm, fmts,
      heads.flatMap (fun h => leBytes (openWidth 3) (fld (h.getD 2 0) 6 7)),
      leBytes (openWidth 4) (fld (e.getD 1 0) 0 13) ++ groups,
      leBytes 4 1 ++ keys,
      leBytes 1 tm ++ wordBytes tpos ++ trace], s)

/-- The number of the first field whose digest differs, or 0 (R435). -/
def firstDiffer (switching : Bool) (want : List Byte) : Nat → List (List Byte) → Nat
  | _, [] => 0
  | i, f :: t =>
    if (i == 2 && switching) || digestBytes (Config.sha256 f) != (want.drop (32 * (i - 1))).take 32 then i
    else firstDiffer switching want (i + 1) t

/-- Whether a manifest's header row is one for a rank (R434).
Log 98: DEDUCED, unsafe. -/
def manifestBad (w : List Word) (v : BitVec 16) : Bool :=
  w.getD 0 0 != 0x4B564D01 || w.getD 1 0 != v.setWidth 64 || fld (w.getD 2 0) 48 16 != 0 ||
    fld (w.getD 3 0) 7 57 != 0 || w.getD 3 0 == 0 || decide (64 < (w.getD 3 0).toNat) ||
    (w.drop 4).any fun x => x != 0

/-- The compare of R435: the first differing field, or nothing where the manifest is none of this rank.
Log 98: DEDUCED, unsafe. -/
def State.compare (s : State) (m : PortMsg) (v : BitVec 16) : Got (Option Nat) :=
  let a := m.addr.toNat
  Got.bind (Got.within a (s.readWords m m.asid a 8)) fun w s =>
    if manifestBad w v then .ok (none, s)
    else
      Got.bind (Got.within a (s.readBytes m m.asid (a + 64) 224)) fun want s => Got.outside (
      Got.bind (s.readWords m m.asid (w.getD 2 0).toNat (w.getD 3 0).toNat) fun images s =>
      Got.bind (s.manifestFields m v images) fun f s =>
        .ok (some (firstDiffer (s.hub.hos == 2) want 1 f), s))

/-- COMPARE_MANIFEST (R435, R436). -/
def execCompareManifest (m : PortMsg) (s : State) : Host.Outcome State Fault Refusal :=
  s.serve m (m.op == 0x0B) fun s =>
    let v : BitVec 16 := m.arg.setWidth 16
    if m.body ≠ [] ∨ m.addr.toNat % 64 ≠ 0 ∨ 65536 ≤ m.arg.toNat then .done 1 none [] s
    else if s.resident v = false then .done 12 none [] s
    else
      match (s.hostView m.portB).compare m v with
      | .error (.ask s1) => .wait s1
      | .error (.fail st off s1) => .done st off [] s1
      | .ok (none, s1) => .done 1 none [] s1
      | .ok (some n, s1) => .done 0 (some n) [] s1

end Sys2Proof.Machine
end

