-- ==== Sys2Proof/Machine/Boot.lean ====
section
/-! DEFINITION. Power-up and the loss of power (R422, R438), the firmware image (R423), boot (R424 to R426), live
hand-over (R427 to R430) and global time between modules (R445, R446). -/

namespace Sys2Proof.Machine

/-! ## Power -/

/-- The module without power: only the OTP counter stands (R422), and what was made durable in the capacity tier (R250).
Log 13: DESIGN CHOICE, unsafe. -/
def State.off (s : State) : State :=
  let m := State.reset.mem
  { State.reset with
    hub := { State.reset.hub with otp := s.hub.otp }, mem := { m with cells := s.mem.durable, durable := s.mem.durable },
    turns := s.turns, fresh := s.fresh }

/-- POWER_UP (R422): the boot counter advances and is used, the ports come up, and the identity tree is begun. A
module that has tripped waits for its input to be cycled (R438).
Log 11: DESIGN CHOICE, unsafe. -/
def execPowerUp (s : State) : Host.Outcome State Fault Refusal :=
  if s.hub.started ∨ s.hub.tripped then .next s
  else
    let h := s.off.hub
    .next { s.off with hub := { h with
      bctr := Config.otpCounter + h.otp, otp := h.otp + 1, started := true, portA := { h.portA with up := true },
      portB := { h.portB with up := true } } }

/-- INPUT_POWER_LOSS (R422, R438).
Log 13: DESIGN CHOICE, unsafe. -/
def execInputPowerLoss (s : State) : Host.Outcome State Fault Refusal := .next s.off

/-- Power removed until the input is cycled (R438, R442).
Log 13: DESIGN CHOICE, unsafe. -/
def State.trip (s : State) : State :=
  if s.hub.started then { s.off with hub := { s.off.hub with tripped := true } } else s

/-! ## The image (R423) -/

/-- Bytes lo to lo + n − 1 of a staging area.
Log 104: DEDUCED, unsafe. -/
def stagedBytes (c : List Host.Cell) (lo n : Nat) : List Byte := (List.range n).map fun i => Tab.get 0 c (lo + i)

/-- A staged image, by the fields of its header. -/
structure Img where
  svn : Nat
  blen : Nat
  entry : Nat
  bad : Bool
deriving DecidableEq, Repr

/-- The header of a staged image, and whether it breaks R423 or the staged length is not its own (R425). -/
def imageOf (c : List Host.Cell) (len : Nat) : Img :=
  let w := wordsOf (stagedBytes c 0 128)
  let g (j : Nat) : Word := w.getD j 0
  let blen := fld (g 2) 0 27
  let entry := fld (g 3) 0 26
  { svn := fld (g 1) 0 16, blen := blen, entry := entry,
    bad := g 0 != 0x4B564657 || fld (g 1) 16 48 != 0 || fld (g 2) 27 37 != 0 || fld (g 3) 26 38 != 0 ||
      ((w.drop 4).any fun x => x != 0) || decide (blen < 32) || decide (2 ^ 26 < blen) || blen % 32 != 0 ||
      entry % 32 != 0 || decide (blen ≤ entry) || len != 128 + blen + 2828 }

/-- The signed message: header and body. -/
def signedPart (c : List Host.Cell) (i : Img) : List Byte := stagedBytes c 0 (128 + i.blen)

/-- Whether an image is refused (R425).
Log 105: DEDUCED, safe. -/
def imageRefused (c : List Host.Cell) (i : Img) : Bool :=
  i.bad || decide (i.svn < Config.msvn.toNat) ||
    !Config.lmsVerify (signedPart c i) (stagedBytes c (128 + i.blen) 2828)

/-- The bytes of a staging area (R424).
Log 104: DEDUCED, unsafe. -/
def stageSize : Nat := 64 * 2 ^ 20 + 4096

/-- IMAGE_CHUNK (R424, R427). -/
def execImageChunk (m : PortMsg) (s : State) : Host.Outcome State Fault Refusal :=
  s.serve m (m.op == 0x08) fun s =>
    let h := s.hub
    let lo := m.addr.toNat
    let hi := lo + m.body.length
    if m.arg ≠ 0 ∨ stageSize < hi then .done 1 none [] s
    else if h.bst.toNat < 2 ∨ h.bst = 5 then
      .done 0 none [] { s with hub := { h with
        bst := 1, stage := putBytes h.stage lo m.body, staged := max h.staged hi } }
    else if h.bst = 4 ∧ h.hos ≠ 1 then
      .done 0 none [] { s with hub := { h with stage2 := putBytes h.stage2 lo m.body, staged2 := max h.staged2 hi } }
    else .done 6 none [] s

/-! ## Boot (R424 to R426) -/

/-- The end of a commit: its reply goes to the session that still waits for it.
Log 105: DEDUCED, safe. -/
def State.committed (s : State) (m : PortMsg) (status : Nat) : State :=
  let s1 := { s with hub := { s.hub with commit := none } }
  if (s1.session m.portB m.sess.toNat).any fun x => x.busy == some m then s1.reply m status none [] else s1

/-- The bytes of a page-table entry.
Log 106: DEDUCED, unsafe. -/
def entryBytes (w0 w1 : Word) : List Byte := wordBytes w0 ++ wordBytes w1

/-- The rows that the boot sequencer writes: the three tables and the body.
Log 106: DEDUCED, unsafe. -/
def bootRow (blen : Nat) (r : Nat) : Bool :=
  let a := 64 * r
  decide (a < 0x102000) || (decide (0x120000 ≤ a) && decide (a < 0x130000)) ||
    (decide (0x8000000 ≤ a) && decide (a < 0x8000000 + blen))

/-- Memory as the boot sequencer leaves it (R425): the ASID table with its entry 0, the two tables below it, and the
body.
Log 106: DEDUCED, unsafe. -/
def Mem.boot (m : Mem) (node : BitVec 12) (body : List Byte) : Mem :=
  let keep := m.cells.filter fun e => !bootRow body.length (e.1 / 64)
  let c0 := putBytes keep 0 (entryBytes (BitVec.ofNat 64 (2 ^ 63 + 0x100000)) 0)
  let c1 := putBytes c0 0x100000 (entryBytes (BitVec.ofNat 64 (2 ^ 63 + 0x120000)) 0)
  let c2 := putBytes c1 0x120000
    (entryBytes (BitVec.ofNat 64 (63 * 2 ^ 58 + 0x8000000)) (BitVec.ofNat 64 (node.toNat * 2 ^ 52)))
  { m with cells := putBytes c2 0x8000000 body, tatb := 0, tlb := [],
           log := m.log.filter (fun w => !bootRow body.length w.row),
           bad := m.bad.filter (fun r => !bootRow body.length r) }

/-- A core as the boot sequencer releases it (R15, R425). -/
def bootCore (h : Hub) (entry : Nat) : Core :=
  { prog := { run := .idle }, fw := { run := .running, pc := BitVec.ofNat 48 entry },
    lim := { up := h.up, dn := h.dn, cap := h.cap, up' := h.up, dn' := h.dn, cap' := h.cap } }

/-- The load and the release of every core (R425). Global time counts from 0 here unless a link has come up
(R445).
Log 105: DEDUCED, safe. -/
def State.boot (s : State) (i : Img) : State :=
  let h := s.hub
  { s with
    mem := s.mem.boot h.node (stagedBytes h.stage 128 i.blen)
    cores := (List.range 200).map fun c => (c, bootCore h i.entry)
    hub := { h with
      tnode := h.node, bst := 4, gtime := if h.linked then h.gtime else 0, ref := if h.linked then h.ref else h.node,
      capAt := if h.linked then h.capAt else 0 } }

/-- The boot sequencer's next stage: verification, then the load.
Log 104: DEDUCED, unsafe. -/
def State.bootStage (s : State) (m : PortMsg) : State :=
  let h := s.hub
  let i := imageOf h.stage h.staged
  if h.bst = 2 then
    if imageRefused h.stage i then { s with hub := { h with bst := 5, staged := 0 } }.committed m 8
    else { s with hub := { h with bst := 3, curm := Config.sha256 (signedPart h.stage i) } }
  else if h.bst = 3 then (s.boot i).committed m 0
  else s

/-- COMMIT_BOOT (R424 to R426): the first occurrence starts verification, the later ones are its stages. -/
def execCommitBoot (m : PortMsg) (s : State) : Host.Outcome State Fault Refusal :=
  if s.hub.commit = some m ∧ m.arg = 0 then .next (s.bootStage m)
  else
    s.serve m (m.op == 0x09 && m.arg != 1) fun s =>
      if m.plain 1 0 = false then .done 1 none [] s
      else if s.hub.bst ≠ 1 ∨ s.hub.node = 0 then .done 6 none [] s
      else .wait { s with hub := { s.hub with bst := 2, commit := some m } }

/-! ## Live hand-over (R427 to R430) -/

/-- The cores whose firmware context is not stopped. -/
def State.liveCores (s : State) : List Nat :=
  allCores.filter fun c => (s.core c).fw.run != .stopped && (s.core c).fw.run != .off

/-- A body copied to physical memory, row by row, coherent with the caches.
Log 107: DEDUCED, unsafe. -/
def Mem.putBody (m : Mem) (r : Nat) : Nat → List Byte → Mem
  | 0, _ => m
  | n + 1, b =>
    let v := overBytes (m.latest r) 0 ((b.take 64).map BitVec.toNat)
    (m.storeHome .queueController none true r v).putBody (r + 1) n (b.drop 64)

/-- Switching begins (R427): every core that must hand over is told, with info bit 1.
Log 107: DEDUCED, unsafe. -/
def State.startSwitch (s : State) (i : Img) : State :=
  let h := s.hub
  let live := s.liveCores
  let s1 : State := { s with
    cores := s.cores.map fun e => (e.1, { e.2 with handed := false })
    mem := s.mem.putBody (h.hofr.toNat / 64) ((i.blen + 63) / 64) (stagedBytes h.stage2 128 i.blen)
    hub := { h with
      incm := Config.sha256 (signedPart h.stage2 i), hotg := live.length, hocn := 0, hos := 2, hoAt := h.gtime,
      hotmoNow := h.hotmo, hoEntry := BitVec.ofNat 64 i.entry, staged2 := 0 } }
  (live.foldl (fun s c => s.raiseAsync c ⟨0x23, 2, 0⟩) s1).handoverEnd

/-- COMMIT_HAND_OVER (R427): the first occurrence starts verification, the next ends it. -/
def execCommitHandOver (m : PortMsg) (s : State) : Host.Outcome State Fault Refusal :=
  let h := s.hub
  let i := imageOf h.stage2 h.staged2
  if h.commit = some m ∧ m.arg = 1 then
    if imageRefused h.stage2 i then
      .next ({ s with hub := { h with hos := 4, incm := 0, staged2 := 0 } }.committed m 8)
    else if inHbm h.hofr.toNat i.blen = false ∧ inTier h.hofr.toNat i.blen = false then .fault (.noMemory h.hofr.toNat)
    else .next ((s.startSwitch i).committed m 0)
  else
    s.serve m (m.op == 0x09 && m.arg == 1) fun s =>
      if m.plain 2 0 = false then .done 1 none [] s
      else if s.hub.bst ≠ 4 ∨ s.hub.hofr = 0 ∨ s.hub.hova = 0 ∨ s.hub.hos = 1 ∨ s.hub.hos = 2 then .done 6 none [] s
      else .wait { s with hub := { s.hub with hos := 1, commit := some m } }

/-- A firmware context switched to the new firmware at a bundle boundary (R15, R429, R430): what the outgoing
firmware's channels still carry is cancelled. A core that the hub has forced gets its machine check.
Log 108: DEDUCED, unsafe. -/
def State.switchFirmware (s : State) (c : Nat) : State :=
  let k := s.core c
  let f := k.fw
  let pc := k.swapTo
  let f' := { f with
    run := .running, pc := pc, s := [], sdef := 0, p := [], loops := [], ags := [], chans := [], pend := [],
    waits := [], bundle := none, ended := false, mixed := false, answers := [], asked := [], sentAs := [], boundary := none,
    jumped := false, looped := false }
  let s1 := s.setCore c { k with fw := f', swap := false, forced := false, xfers := k.xfers.filter fun x => !x.fw }
  if k.forced then s1.raiseMc (coreReport 0x13 c 0 (f.pc.setWidth 64)) else s1

/-- A switch that is due at the present boundary of a core's firmware context: a stalled bundle completes first,
unless the hub forces the switch and R27 lets it be abandoned. A firmware context that has stopped is not switched.
Log 108: DEDUCED, unsafe. -/
def State.dueSwitch (s : State) (c : Nat) : State :=
  let k := s.core c
  if k.swap && !k.dead && k.fw.run != .stopped && k.fw.run != .off &&
      ((k.fw.waits == [] && !k.fw.ended) || (k.forced && k.fw.stoppable)) then
    s.switchFirmware c
  else s

/-- HODONE (R429). -/
def execHodone (core : Nat) (v : Word) (s : State) : Host.Outcome State Fault Refusal :=
  .next (s.hubStore core 0x30 v)

/-- HANDOVER_TIMEOUT (R430). -/
def execHandoverTimeout (s : State) : Host.Outcome State Fault Refusal :=
  let h := s.hub
  if h.hos = 2 ∧ h.hocn < h.hotg ∧ h.hoAt + h.hotmoNow * 1000000 ≤ h.gtime then
    let late := s.liveCores.filter fun c => !(s.core c).handed
    .next (late.foldl (fun s c => (s.handOver c true).dueSwitch c) s)
  else .next s

/-! ## Global time (R445, R446) -/

/-- The reference that a module has: the lowest node number that it can reach, its own among them (R445). A module whose node
number has not been written yet has none of its own.
Log 110: DESIGN CHOICE, safe. -/
def Hub.refOf (h : Hub) (refNode : BitVec 12) : BitVec 12 :=
  if h.node ≠ 0 ∧ h.node.toNat < refNode.toNat then h.node else refNode

/-- LINK_UP (R365, R445): the link starts afresh; with the first one the module takes its reference's time, and keeps its own
where it is the reference itself.
Log 109: DESIGN CHOICE, unsafe. -/
def execLinkUp (port : Nat) (refNode : BitVec 12) (refTime : Nat) (s : State) : Host.Outcome State Fault Refusal :=
  if s.hub.started = false ∨ 144 ≤ port ∨ (s.link port).up then .next s
  else
    let s1 := s.setLink port { up := true }
    if s.hub.linked then .next s1
    else
      let ref := s.hub.refOf refNode
      let t := if s.hub.node ≠ 0 ∧ ref = s.hub.node then s.hub.gtime else refTime
      .next { s1 with hub := { s1.hub with
        linked := true, gtime := t, capAt := t / 1000, ref := ref, off := 0, uns := false } }

/-- REFERENCE_CHANGE (R446): local time less the new reference's is `off`; the module is unsettled until it has come
within 50 ns. No node above the module's own becomes its reference, and with itself as the reference it is settled (R445). -/
def execReferenceChange (refNode : BitVec 12) (off : Int) (s : State) : Host.Outcome State Fault Refusal :=
  if s.hub.started = false ∨ s.hub.linked = false ∨ s.hub.ref = refNode ∨ s.hub.refOf refNode ≠ refNode then .next s
  else if s.hub.node ≠ 0 ∧ refNode = s.hub.node then
    .next { s with hub := { s.hub with ref := refNode, off := 0, uns := false } }
  else .next { s with hub := { s.hub with ref := refNode, off := off, uns := decide (50 < off.natAbs) } }

/-- The offset that is left after a time of slewing: smaller by at most 100 ppm of it, by an amount that the spec
leaves open (R446).
Log 110: DESIGN CHOICE, safe. -/
def slewed (off : Int) (ns fresh : Nat) : Int :=
  let d := min off.natAbs ((Config.free 64 [52, fresh]).toNat % (ns / 10000 + 1))
  if off < 0 then off + d else off - d

/-- The offset of a settled module after a time: within 50 ns of its reference, and changed by at most 100 ppm of the time, by
an amount that the spec leaves open (R445).
Log 110: DESIGN CHOICE, safe. -/
def settledOff (off : Int) (ns fresh : Nat) : Int :=
  let most := ns / 10000 + 1
  let d : Int := ((Config.free 64 [53, fresh]).toNat % (2 * most + 1) : Nat) - (most : Nat)
  max (-50) (min 50 (off + d))

/-- The offset from its reference after a time: slewed while unsettled, none for a module that is its own reference (R446).
Log 110: DESIGN CHOICE, safe. -/
def Hub.offAfter (h : Hub) (ns fresh : Nat) : Int :=
  if h.ref = h.node ∨ h.linked = false then h.off
  else if h.uns then slewed h.off ns fresh
  else settledOff h.off ns fresh

/-- TIME_REFERENCE_SETTLED (R446): the module is settled once its time lies within 50 ns of the reference. -/
def execTimeReferenceSettled (s : State) : Host.Outcome State Fault Refusal :=
  if s.hub.uns ∧ s.hub.off.natAbs ≤ 50 then .next { s with hub := { s.hub with uns := false } }
  else .next s

end Sys2Proof.Machine
end

