-- ==== Sys2Proof/Machine/Power.lean ====
section
/-! DEFINITION. Power, ramp limits and temperature as the hub keeps them (R272, R438 to R443), and the inventory
memory (R447). -/

namespace Sys2Proof.Machine

/-- The limits that a core's next window takes (R439, R441).
Log 112: DEDUCED, unsafe. -/
def State.syncLimits (s : State) (c : Nat) : State :=
  let k := s.core c
  let l := k.lim
  let l' : Limiter := { l with up' := s.hub.up, dn' := s.hub.dn, cap' := s.hub.cap }
  s.setCore c { k with lim := l' }

/-- The first cycle of a core's next window.
Log 112: DEDUCED, unsafe. -/
def Core.nextWindow (k : Core) : Nat := (k.cycle / windowLen + 1) * windowLen

/-- LIMITER_WINDOW_BOUNDARY (R272 to R274, R439): the core's cycles pass to the end of its window, whose dummy beats
are then counted. -/
def execLimiterWindowBoundary (core : Nat) (s : State) : Host.Outcome State Fault Refusal :=
  let s1 := s.syncLimits core
  let k := s1.core core
  if k.fw.run = .off then .next s else .next (s1.setCore core (k.toCycle k.nextWindow))

/-- RAMP_WORD_WRITE (R439). -/
def execRampWordWrite (v : Word) (s : State) : Host.Outcome State Fault Refusal := .next (s.setRamp v)

/-- THERMAL_CAP_ADJUST (R441): once for each 1 µs of global time. -/
def execThermalCapAdjust (s : State) : Host.Outcome State Fault Refusal :=
  if s.hub.started ∧ s.hub.capAt < s.hub.gtime / 1000 then .next { s with hub := Hub.adjusted 1 s.hub } else .next s

/-- TEMPERATURE_UPDATE (R440, R442). -/
def execTemperatureUpdate (tmax tin : BitVec 8) (s : State) : Host.Outcome State Fault Refusal :=
  if s.hub.started = false then .next s
  else if 110 ≤ tmax.toNat ∨ 50 < tin.toNat then .next s.trip
  else .next { s with hub := { s.hub.caughtUp with tmax := tmax, tin := tin } }

/-- POWER_TRIP (R438).
Log 13: DESIGN CHOICE, unsafe. -/
def execPowerTrip (s : State) : Host.Outcome State Fault Refusal := .next s.trip

/-- A byte of a number in an inventory field.
Log 113: DESIGN CHOICE, safe. -/
def inventoryNum (base x off : Nat) : Byte := BitVec.ofNat 8 (x / 2 ^ (8 * (off - base)))

/-- The length of the certificate, 1 to 16,000 (R447).
Log 5: DESIGN CHOICE, safe; log 113: DESIGN CHOICE, safe. -/
def certLength : Nat := 1 + Config.choice [55] % 16000

/-- A character of a text in an inventory field of 16 bytes, whose length is the text's own: ASCII, then zeros (R447).
Log 5: DESIGN CHOICE, safe; log 113: DESIGN CHOICE, safe. -/
def inventoryText (base off : Nat) : Byte :=
  if off - base < Config.choice [56, base] % 17 then BitVec.ofNat 8 (0x20 + (Config.free 8 [54, off]).toNat % 95) else 0

/-- The inventory memory (R447), which nothing on the module reads or writes: what the spec fixes of it, the rest as
each part is made.
Log 113: DESIGN CHOICE, safe. -/
def inventoryByte (off : Nat) : Byte :=
  if off < 0x8 then inventoryNum 0 0x4B564901 off
  else if off < 0x18 then inventoryText 0x8 off
  else if off < 0x28 then inventoryText 0x18 off
  else if off < 0x38 then Config.free 8 [54, off]
  else if off < 0x3A then inventoryNum 0x38 4500 off
  else if off < 0x3C then inventoryNum 0x3A 9000 off
  else if 0x40 ≤ off ∧ off < 0x7C then Config.free 8 [54, off]
  else if 0x80 ≤ off ∧ off < 0x82 then inventoryNum 0x80 certLength off
  else if 0x100 ≤ off ∧ off < 0x100 + certLength then Config.free 8 [54, off]
  else 0

end Sys2Proof.Machine
end

