-- ==== Sys2Proof/Machine/CoreEvents.lean ====
section
/-! DEFINITION. What happens at a core apart from its syllables: results that land early (R25, R26), stalled bundles
(R27), traps taken (R36 to R41), alarms, machine checks (R390) and firmware requests (R397). -/

namespace Sys2Proof.Machine

/-! ## Results -/

/-- One result of a list landed before its bound: its bits are written, those of older results under them are lost,
and its destination reads as undefined until the bound (R25, R26).
Log 14: DEDUCED, safe. -/
def landOne (fw : Bool) (ser : Nat) : List Pend → Core → List Pend → Core × List Pend
  | [], k, kept => (k, kept)
  | e :: t, k, kept =>
    if e.ser = ser then
      let e' : Pend := { e with live := 0, flags := 0, late := true }
      (k.landWrite fw e, shadowOlder e kept ++ e' :: t)
    else landOne fw ser t k (kept ++ [e])

/-- RESULT_LANDING (R25): a result in flight lands. -/
def execResultLanding (core : Nat) (fw : Bool) (ser : Nat) (s : State) : Host.Outcome State Fault Refusal :=
  let k := s.core core
  let r := landOne fw ser (k.ctx fw).pend k []
  if (k.ctx fw).pend.any fun e => e.ser == ser && e.issued < k.cycle then
    .next (s.setCore core (r.1.setCtx fw { r.1.ctx fw with pend := r.2 }))
  else .next s

/-! ## Stalled bundles (R27) -/

/-- Whether what a bundle waits for has come. -/
def State.waitOver (s : State) (c : Nat) (fw : Bool) (w : Wait) : Bool :=
  let k := s.core c
  let x := k.ctx fw
  let asid : BitVec 16 := if fw then 0 else x.asid
  let t : State := { s with iss := { s.iss with core := c, fw := fw } }
  let drained := !t.outstanding
  let come (key : Nat) : Bool := (x.answers.any fun e => e.1 == key) || !x.asked.any fun e => e.1 == key
  match w with
  | .full row want => k.sp.isFull row == want
  | .barrier off phase => phaseReached (rowWord (k.sp.row (off / 8)) (off % 8)) phase.toNat
  | .chan n target count => (Tab.get {} x.chans n).waitDone target count
  | .chanSusp n target count => (Tab.get {} x.chans n).waitDone target count
  | .packet hdr => s.queueHolds asid hdr
  | .packetSusp hdr _ => s.queueHolds asid hdr
  | .packetDrain hdr => drained || s.queueHolds asid hdr
  | .drain => drained
  | .gang g => (s.findGang g).any fun y => y.grel.contains c
  | .remote _ _ acc op _ _ _ _ _ => come (if op = .load then acc.key else answerKey acc.key)
  | .claim _ acc _ _ _ _ _ => come (answerKey acc.key)
  | .params _ acc => come acc.key
  | .paramsRegion pa => !s.mem.stalls pa
  | .ordered _ _ => !s.mem.posted.any fun p => p.by_ == .context c fw && p.out.isSome
  | .take _ acc _ => come (answerKey acc.key)
  | .performed => !s.mem.addsOut (.context c fw)
  | .hub rows => rows.all fun e => s.rowReady e.1 e.2 || !s.rowAsked e.1 e.2
  | .reask _ => true
  | .reduction stack => decide ((s.mem.red.filter fun b => b.stack == stack).length < 64)
  | .region pa => !s.mem.stalls pa
  | .partition => k.repart.isNone
  | .landed => !k.landing fw

/-- INTERLOCKED_BUNDLE_EFFECT (R27): once everything that a stalled bundle waits for has come, it stalls no more and
takes effect as a whole when its context next issues; a stop asked for waits until then. -/
def execInterlockedBundleEffect (core : Nat) (fw : Bool) (s : State) : Host.Outcome State Fault Refusal :=
  let k := s.core core
  let x := k.ctx fw
  if x.waits.all fun w => s.waitOver core fw w then
    .next (s.setCore core (k.setCtx fw { x with waits := [], ended := x.waits != [] || x.ended }))
  else .next s

/-! ## Traps and events -/

/-- DELEGATED_TRAP_ENTRY (R36, R37). -/
def execDelegatedTrapEntry (core : Nat) (t : Trap) (s : State) : Host.Outcome State Fault Refusal :=
  let k := s.core core
  if k.prog.run = .running ∧ delegable t.code = true ∧ bitAt k.fx.tdeleg t.code.toNat = true ∧ k.prog.inh = false then
    .next (s.delegatedEntry core t)
  else .next s

/-- PROGRAM_CONTEXT_STOP (R39). -/
def execProgramContextStop (core : Nat) (t : Trap) (s : State) : Host.Outcome State Fault Refusal :=
  if (s.core core).prog.run = .running then .next (s.programStop core t) else .next s

/-- CORE_MACHINE_CHECK (R40, R392). -/
def execCoreMachineCheck (core : Nat) (t : Trap) (s : State) : Host.Outcome State Fault Refusal :=
  if (s.core core).fw.run = .running then .next (s.coreCheck core t) else .next s

/-- ASYNC_EVENT_TAKEN (R33, R40, R41). -/
def execAsyncEventTaken (core : Nat) (s : State) : Host.Outcome State Fault Refusal := .next (s.takeAsync core)

/-- GLOBAL_TIME_ALARM (R33, R446).
Log 111: DEDUCED, safe. -/
def execGlobalTimeAlarm (core : Nat) (s : State) : Host.Outcome State Fault Refusal :=
  if (s.core core).fw.run = .off then .next s else .next (s.raiseAsync core ⟨0x24, 0, 0⟩)

/-! ## Errors of on-chip state (R393) -/

/-- A cached line lost: a dirty one is written back poisoned, a clean one fetched again. -/
def Mem.lineLost (m : Mem) (r : Nat) : Mem :=
  if (m.recs r).any fun w => w.dirty then (m.writeBack r).poison r else m

/-- An entry of a switch table of which both copies are uncorrectable, reported.
Log 134: DEDUCED, unsafe. -/
def State.tableLost (s : State) (det : Nat) : State := s.raiseMc ⟨0x12, 0xFF, 0, 0, BitVec.ofNat 64 det⟩

/-- What an error of on-chip state leaves (R393, R403).
Log 134: DEDUCED, unsafe. -/
def State.damaged (s : State) (d : Damage) : State :=
  match d with
  | .code c row =>
    let k := s.core c
    s.setCore c { k with code := k.code.filter fun e => e.1 != row }
  | .pad c row =>
    let k := s.core c
    if row < 5120 then s.setCore c { k with sp := { k.sp with bad := insertNat k.sp.bad row } } else s
  | .line row => { s with mem := s.mem.lineLost row }
  | .sequence i => { s with mem := { s.mem with seqs := s.mem.seqs.modify i fun q => { q with err := true } } }
  | .rankMap job v =>
    if s.fab.maps.any fun m => m.1 == job then
      ({ s with fab := { s.fab with badMaps := s.fab.badMaps ++ [(job, v)] } }).tableLost v.toNat
    else s
  | .portEntry node =>
    if node < 4096 then
      ({ s with fab := { s.fab with badPorts := insertNat s.fab.badPorts node } }).tableLost (2 ^ 63 + node)
    else s
  | .corrected => s.bumpModule 3 false
  | .codeword p => if p < 144 then s.bumpPort p 2 false else s

/-! ## Events of the hub -/

/-- MACHINE_CHECK (R390, R391): of a source that exists (R392). -/
def execMachineCheck (m : McReport) (s : State) : Host.Outcome State Fault Refusal :=
  if 1 ≤ m.src.toNat ∧ m.src.toNat ≤ 0x15 then .next (s.raiseMc m) else .next s

/-- FIRMWARE_REQUEST_WORD (R145, R397): a store ORs its value in, every other operation acts as R145 gives. -/
def execFirmwareRequestWord (core : Nat) (op : MemOp) (v cmp : Word) (s : State) :
    Host.Outcome State Fault Refusal :=
  let old := Tab.get 0 s.hub.freq core
  let new := if op = .store then old ||| v else BitVec.ofNat 64 (atomicOp op 64 old.toNat v.toNat cmp.toNat)
  if core < 200 then .next (s.setFreq core new) else .next s

end Sys2Proof.Machine
end

