-- ==== Sys2Proof/Machine/Local.lean ====
section
/-! DEFINITION. The L slot (R127 to R139): the scratchpad, full/empty bits, tile states and barrier words. -/

namespace Sys2Proof.Machine

/-- The word that an offset selects within its row. -/
def offWord (off : Word) : Nat := fld off 3 3

/-- ldw (R129). -/
def execLdw (g : BitVec 4) (t : BitVec 6) (a : BitVec 16) (s : State) :
    Host.Outcome State Fault Refusal :=
  let off := s.lAddr a 8
  issue g s (Res.andThen (s.spClean off) fun i =>
    .ok (s.issueS t (rowWord (s.sp.row i) (offWord off)) 4))

/-- stw (R129, R394). -/
def execStw (g : BitVec 4) (t : BitVec 6) (a : BitVec 16) (s : State) :
    Host.Outcome State Fault Refusal :=
  let off := s.lAddr a 8
  issue g s (Res.andThen (s.spClean off) fun i =>
    .ok (s.setSp (s.sp.setRow i (setRowWord (s.sp.row i) (offWord off) (s.readS t)))))

/-- ldr (R129). -/
def execLdr (g : BitVec 4) (t : BitVec 6) (a : BitVec 16) (s : State) :
    Host.Outcome State Fault Refusal :=
  issue g s (Res.andThen (s.spClean (s.lAddr a 64)) fun i =>
    .ok (s.issueRow t.toNat (s.sp.row i) 4 0))

/-- str (R129). -/
def execStr (g : BitVec 4) (t : BitVec 6) (a : BitVec 16) (s : State) :
    Host.Outcome State Fault Refusal :=
  issue g s (Res.andThen (s.spRow (s.lAddr a 64)) fun i =>
    .ok (s.setSp (s.sp.setRow i (s.readV t.toNat))))

/-- ldsy (R131): poison is met once the wait has ended (R394).
Log 39: DEDUCED, unsafe. -/
def execLdsy (g : BitVec 4) (t : BitVec 6) (a : BitVec 16) (s : State) :
    Host.Outcome State Fault Refusal :=
  let off := s.lAddr a 64
  issue g s (Res.andThen (s.spRow off) fun i =>
    if s.sp.isFull i = false then .wait (.full i true)
    else Res.andThen (s.spClean off) fun i =>
      let s1 := (s.observeMark i).issueRow t.toNat (s.sp.row i) 1 0
      .ok (s1.setSp (s1.sp.setFull i false)))

/-- stsy (R131).
Log 39: DEDUCED, unsafe. -/
def execStsy (g : BitVec 4) (t : BitVec 6) (a : BitVec 16) (s : State) :
    Host.Outcome State Fault Refusal :=
  issue g s (Res.andThen (s.spRow (s.lAddr a 64)) fun i =>
    if s.sp.isFull i then .wait (.full i false)
    else .ok (s.setSp ((s.sp.setRow i (s.readV t.toNat)).setFull i true)))

/-- feq (R133). -/
def execFeq (g : BitVec 4) (j : BitVec 3) (a : BitVec 16) (s : State) :
    Host.Outcome State Fault Refusal :=
  issue g s (Res.andThen (s.spRow (s.lAddr a 64)) fun i =>
    let full := s.sp.isFull i
    .ok ((if full then s.observeMark i else s).issuePair j full 1))

/-- fes (R133). -/
def execFes (g : BitVec 4) (v : BitVec 1) (a : BitVec 16) (s : State) :
    Host.Outcome State Fault Refusal :=
  issue g s (Res.andThen (s.spRow (s.lAddr a 64)) fun i =>
    .ok (s.setSp (s.sp.setFull i (v == 1))))

def tileStateOf (n : Nat) : TileState :=
  match n with
  | 0 => .empty
  | 1 => .filling
  | 2 => .ready
  | _ => .draining

/-- tlr (R134). -/
def execTlr (g : BitVec 4) (d t : BitVec 6) (s : State) : Host.Outcome State Fault Refusal :=
  let e := s.px.tile t.toNat
  let v := (if s.tileCfg e then 4 else 0) + tileCode e.st
  let s1 := if e.st = .ready then s.observeMark (2 ^ 22 + t.toNat) else s
  issue g s (.ok (s1.issueS d (BitVec.ofNat 64 v) 2))

/-- tls (R135, R261).
Log 36: DEDUCED, unsafe. -/
def execTls (g : BitVec 4) (t : BitVec 6) (x : BitVec 2) (s : State) :
    Host.Outcome State Fault Refusal :=
  let i := t.toNat
  let e := s.px.tile i
  let st := tileStateOf x.toNat
  let busy := (s.me.xfers.any fun f => f.tiles.contains i) ||
    s.binds.any fun b => b.core == s.iss.core && b.tile == i && b.fired.isSome && !b.fin && b.image.isNone
  issue g s
    (if s.tileCfg e = false then s.fault 0x07 (tileInfo i 0) 0
     else if (e.st = .filling ∨ e.st = .draining) ∧ busy = true ∧ s.ctx.acted = false then s.fault 0x07 (tileInfo i e.ringOf) 0
     else
       let vr := if st = .ready then e.rows else if st = .empty then 0 else e.vr
       let s1 := s.setPx (s.px.setTile i st vr)
       .ok (if e.st ≠ .ready ∧ st = .ready ∧ e.bnd = true then s1.fireTile s.iss.core i else s1))

/-- barv (R137). -/
def execBarv (g : BitVec 4) (t : BitVec 6) (a : BitVec 16) (s : State) :
    Host.Outcome State Fault Refusal :=
  let off := s.lAddr a 64
  issue g s (Res.andThen (s.spClean off) fun i =>
    .ok (s.setSp (s.sp.arrive i (offWord off) (fld (s.readS t) 0 16))))

/-- barw (R138): a poisoned row faults at the first test. -/
def execBarw (g : BitVec 4) (t : BitVec 6) (a : BitVec 16) (s : State) :
    Host.Outcome State Fault Refusal :=
  let off := s.lAddr a 64
  issue g s (Res.andThen (s.spClean off) fun i =>
    let ph := fld (s.readS t) 0 16
    if phaseReached (rowWord (s.sp.row i) (offWord off)) ph then
      .ok (s.observeMark (2 ^ 21 + 8 * i + offWord off))
    else .wait (.barrier (8 * i + offWord off) (BitVec.ofNat 16 ph)))

end Sys2Proof.Machine
end

