-- ==== Sys2Proof/Machine/Matrix.lean ====
section
/-! DEFINITION. The M slot and the matrix unit (R183 to R203): ring reads, beats, drains, the accumulator store,
and the ramp limiter's windows (R272 to R274). -/

namespace Sys2Proof.Machine

/-! ## Ring reads (R186, R187) -/

/-- The head tile of a ring. -/
def ProgX.headTile (x : ProgX) (q : Nat) : Nat := Tab.get 0 (x.ring q).pos (x.ring q).hd

/-- The tests of R187 for a read of k rows; a head tile that is not configured is not ready. -/
def State.ringTest (s : State) (q k : Nat) : Option Res :=
  let r := s.px.ring q
  if r.nt = 0 then some (s.fault 0x07 (tileInfo 0 q) 0)
  else
    let h := s.px.headTile q
    let e := s.px.tile h
    if e.st ≠ .ready ∨ s.tileCfg e = false ∨ e.vr < r.rcur + k then
      some (s.fault 0x07 (tileInfo h q) 0)
    else none

/-- The scratchpad rows that a read of k rows takes. -/
def ProgX.ringRows (x : ProgX) (q k : Nat) : List Nat :=
  (List.range k).map fun j => (x.tile (x.headTile q)).first + (x.ring q).rcur + j

/-- The cursor moved by k, and the head tile retired when asked to or read through. -/
def ProgX.ringMove (x : ProgX) (q k : Nat) (retire : Bool) : ProgX :=
  let r := x.ring q
  let h := x.headTile q
  let n := r.rcur + k
  if retire || n == (x.tile h).vr then
    let y := x.setTile h .empty 0
    { y with rings := Tab.put y.rings q { r with rcur := 0, hd := (r.hd + 1) % r.nt } }
  else { x with rings := Tab.put x.rings q { r with rcur := n } }

/-- The rows read, or the fault of the first poisoned one in read order. -/
def State.readRows (s : State) (rows : List Nat) : Except Res (List Row) :=
  match rows.find? fun i => s.sp.bad.contains i && !s.ctx.acted with
  | some i => .error (s.fault 0x09 0 (BitVec.ofNat 64 (64 * i)))
  | none => .ok (rows.map s.sp.row)

/-- A ring read observes the transfer that made the head tile ready (R242). -/
def State.observeHead (s : State) (q : Nat) : State := s.observeMark (2 ^ 22 + s.px.headTile q)

/-- A read of k rows from one ring, with what moves when it takes effect. -/
def State.ringRead (s : State) (q k : Nat) (retire : Bool) : Except Res (List Row × State) :=
  match s.ringTest q k with
  | some r => .error r
  | none =>
    match s.readRows (s.px.ringRows q k) with
    | .error r => .error r
    | .ok l => .ok (l, (s.observeHead q).setPx (s.px.ringMove q k retire))

/-- The reads of an acc: 8 rows of qa and 16 of qb, one read of 24 when the rings are one. -/
def State.ringPair (s : State) (qa qb : Nat) (ra rb : Bool) : Except Res (List Row × State) :=
  if qa = qb then s.ringRead qa 24 (ra || rb)
  else
    match s.ringTest qa 8, s.ringTest qb 16 with
    | some r, _ => .error r
    | none, some r => .error r
    | none, none =>
      match s.readRows (s.px.ringRows qa 8 ++ s.px.ringRows qb 16) with
      | .error r => .error r
      | .ok l =>
        .ok (l, ((s.observeHead qa).observeHead qb).setPx ((s.px.ringMove qa 8 ra).ringMove qb 16 rb))

/-! ## The unit's state -/

def State.mx (s : State) : Matrix := s.px.mx

def State.setMx (s : State) (x : Matrix) : State := s.setPx { s.px with mx := x }

/-- A table with consecutive keys from `i` replaced by the elements of a list. -/
def putRange {α : Type} (t : Tab α) (i : Nat) : List α → Tab α
  | [] => t
  | v :: l => putRange (Tab.put t i v) (i + 1) l

/-- The number of cell (r, c) of accumulator x. -/
def cellNo (x r c : Nat) : Nat := 128 * x + 16 * r + c

/-- The cells of the array in row-major order. -/
def allCells : List (Nat × Nat) := (List.range 8).flatMap fun r => (List.range 16).map fun c => (r, c)

def Matrix.pacc (m : Matrix) (x r c : Nat) : BitVec 1024 := Tab.get 0 m.pa (cellNo x r c)

def Matrix.bound (m : Matrix) (x r c : Nat) : Nat := (Tab.get 0 m.g (cellNo x r c)).toNat

def Matrix.entry (m : Matrix) (row c : Nat) : BitVec 128 := Tab.get 0 m.acc (16 * (row % 256) + c)

def Matrix.setEntry (m : Matrix) (row c : Nat) (v : BitVec 128) : Matrix :=
  { m with acc := Tab.put m.acc (16 * (row % 256) + c) v }

/-- Qx(s, c) (R183). -/
def Matrix.slot (m : Matrix) (x s c : Nat) : Nat :=
  ((m.pacc x (s / 8) c).extractLsb' (128 * (s % 8)) 128).toNat

/-- A 1024-bit value with bits [128j + 127 : 128j] replaced. -/
def setSlot (v : BitVec 1024) (j q : Nat) : BitVec 1024 :=
  let m : BitVec 1024 := BitVec.ofNat 1024 (2 ^ 128 - 1) <<< (128 * j)
  (v &&& ~~~m) ||| (BitVec.ofNat 1024 (q % 2 ^ 128) <<< (128 * j))

/-- Invalid, overflow and inexact as the sticky bits hold them, and back.
Log 143: DESIGN CHOICE, unsafe. -/
def stickyOf (f : Flags) : BitVec 3 :=
  BitVec.ofNat 3 ((if f.getLsbD 0 then 1 else 0) + (if f.getLsbD 2 then 2 else 0) +
    (if f.getLsbD 4 then 4 else 0))

def ofSticky (b : BitVec 3) : Flags :=
  flagIf (b.getLsbD 0) flInvalid ||| flagIf (b.getLsbD 1) flOverflow ||| flagIf (b.getLsbD 2) flInexact

/-- The sticky bits' number of Qx(s, c). -/
def stickyNo (x s c : Nat) : Nat := 8 * cellNo x (s / 8) c + s % 8

/-- A slot replaced and its sticky bits raised. -/
def Matrix.setSlot (m : Matrix) (x s c : Nat) (q : Nat × Flags) : Matrix :=
  let i := cellNo x (s / 8) c
  let j := stickyNo x s c
  { m with pa := Tab.put m.pa i (Machine.setSlot (m.pacc x (s / 8) c) (s % 8) q.1),
           sticky := Tab.put m.sticky j (Tab.get 0 m.sticky j ||| stickyOf q.2) }

/-- The counter and high-water mark of accumulator x. -/
def Matrix.diag (m : Matrix) (x : Nat) : Nat × Nat := if x = 0 then (m.d0, m.h0) else (m.d1, m.h1)

def Matrix.setDiag (m : Matrix) (x d h : Nat) : Matrix :=
  if x = 0 then { m with d0 := d, h0 := h } else { m with d1 := d, h1 := h }

/-- mclr of one accumulator (R193). -/
def Matrix.clear (m : Matrix) (x : Nat) : Matrix :=
  let out {α : Type} (n : Nat) (t : Tab α) : Tab α := t.filter fun e => e.1 / n != x
  ({ m with pa := out 128 m.pa, g := out 128 m.g, sticky := out 1024 m.sticky }).setDiag x 0 0

/-! ## Beats -/

/-- The ramp limiter's count of a beat that issued (R272).
Log 25: DEDUCED, unsafe. -/
def State.countBeat (s : State) : State :=
  let k := s.me
  s.setMe { k with lim := { k.lim with beats := k.lim.beats + 1 } }

/-- The reserved combinations of acc (R188). -/
def accReserved (f : Word) : Bool :=
  fmtPam f || fmtEfa f == 3 || fmtEfa f == 4 || fmtEfb f == 3 || fmtEfb f == 4 ||
    ((fmtEfa f == 9 || fmtEfa f == 10 || fmtEfb f == 9 || fmtEfb f == 10) && fmtWidth f != 8) ||
    (fmtScm f == 2 && fmtWidth f == 8)

/-- The increment of a cell's guard bound (R63). -/
def guardInc (w : Nat) (a b : List Int) : Nat := 512 / w * maxAbs a * maxAbs b

/-- One integer beat, given the 24 rows (R189): the first cell that would overflow its guard, or the unit
after the beat. -/
def Matrix.beat (m : Matrix) (f : Word) (x : Nat) (rows : List Row) : Except (Nat × Nat) Matrix :=
  let w := fmtWidth f
  let A := (rows.take 8).map (coeffs (fmtEfa f) (fmtPla f) (fmtPrd f) w)
  let B := (rows.drop 8).map (coeffs (fmtEfb f) (fmtPlb f) (fmtPrd f) w)
  let a (r : Nat) := A.getD r []
  let b (c : Nat) := B.getD c []
  match allCells.find? fun p => 2 ^ (w - 1) ≤ m.bound x p.1 p.2 + guardInc w (a p.1) (b p.2) with
  | some p => .error p
  | none =>
    .ok { m with
      ea := putRange m.ea 0 (rows.take 8),
      eb := putRange m.eb 0 (rows.drop 8),
      g := allCells.foldl (fun t p => Tab.put t (cellNo x p.1 p.2)
        (BitVec.ofNat 64 (m.bound x p.1 p.2 + guardInc w (a p.1) (b p.2)))) m.g,
      pa := allCells.foldl (fun t p => Tab.put t (cellNo x p.1 p.2)
        (m.pacc x p.1 p.2 + BitVec.ofInt 1024 (packVal w (a p.1) * packVal w (b p.2)))) m.pa }

/-- acc (R188, R189). -/
def execAcc (g : BitVec 4) (x : BitVec 1) (a b : BitVec 3) (r : BitVec 2) (s : State) :
    Host.Outcome State Fault Refusal :=
  issue g s
    (if accReserved s.fmt then s.illegal 3
     else Res.andThen (s.ringPair a.toNat b.toNat (r.getLsbD 1) (r.getLsbD 0)) fun p =>
       match p.2.mx.beat s.fmt x.toNat p.1 with
       | .error cell => s.fault 0x08 (16 * cell.1 + cell.2 + 256 * x.toNat) 0
       | .ok m => .ok ((p.2.setMx m).countBeat))

/-- The products of one column of a diagonal beat, by chunk row (R190). -/
def Matrix.diagProducts (m : Matrix) (F : Fmt) (rows : List Row) (c : Nat) : List (List (Nat × Flags)) :=
  (List.range 8).map fun r => (List.range 4).map fun l =>
    mulQ F (lane F.width (rows.getD r 0) l) (lane F.width (Tab.get 0 m.ob (16 * r + c)) l)

/-- One diagonal beat, given the 8 rows (R190). -/
def Matrix.diagonal (m : Matrix) (F : Fmt) (x : Nat) (rows : List Row) : Matrix :=
  let d := m.diag x
  let m1 := { m with ea := putRange m.ea 0 rows }
  let m2 := (List.range 16).foldl (fun n c =>
    n.setSlot x d.1 c (diagBeat (n.slot x d.1 c) (m.diagProducts F rows c))) m1
  m2.setDiag x ((d.1 + 1) % 64) (max d.2 (d.1 + 1))

/-- dacc (R190). -/
def execDacc (g : BitVec 4) (x : BitVec 1) (a : BitVec 3) (r : BitVec 1) (s : State) :
    Host.Outcome State Fault Refusal :=
  let f := s.fmt
  let F := if fmtEfa f = 3 then fmtF64 else fmtF32
  issue g s
    (if fmtPam f = false ∨ fmtEfa f ≠ fmtEfb f ∨ (fmtEfa f ≠ 3 ∧ fmtEfa f ≠ 4) then s.illegal 3
     else Res.andThen (s.ringRead a.toNat 8 (r == 1)) fun p =>
       .ok ((p.2.setMx (p.2.mx.diagonal F x.toNat p.1)).countBeat))

/-- push.b (R191). -/
def execPush (g : BitVec 4) (q : BitVec 3) (r : BitVec 1) (s : State) :
    Host.Outcome State Fault Refusal :=
  issue g s (Res.andThen (s.ringRead q.toNat 16 (r == 1)) fun p =>
    .ok (p.2.setMx { p.2.mx with eb := putRange p.2.mx.eb 0 p.1 }))

/-- The stationary words one chunk row down (R192). -/
def Matrix.shiftDown (m : Matrix) : Matrix :=
  let ob := allCells.map fun p =>
    if p.1 = 0 then Tab.get 0 m.eb p.2 else Tab.get 0 m.ob (16 * (p.1 - 1) + p.2)
  { m with ob := putRange [] 0 ob, d0 := 0, d1 := 0 }

/-- shift.b (R192). -/
def execShift (g : BitVec 4) (s : State) : Host.Outcome State Fault Refusal :=
  issue g s (.ok (s.setMx s.mx.shiftDown))

/-- mclr (R193). -/
def execMclr (g : BitVec 4) (x : BitVec 2) (s : State) : Host.Outcome State Fault Refusal :=
  let m := if x.getLsbD 0 then s.mx.clear 0 else s.mx
  issue g s (.ok (s.setMx (if x.getLsbD 1 then m.clear 1 else m)))

/-- aclr (R194): n is the count less one. -/
def execAclr (g : BitVec 4) (a n : BitVec 8) (s : State) : Host.Outcome State Fault Refusal :=
  let lo := 16 * a.toNat
  let hi := 16 * (a.toNat + n.toNat + 1)
  issue g s (.ok (s.setMx { s.mx with acc := s.mx.acc.filter fun e => !(lo ≤ e.1 && e.1 < hi) }))

/-- sld.a (R195). -/
def execSldA (g : BitVec 4) (q : BitVec 3) (s : State) : Host.Outcome State Fault Refusal :=
  issue g s (Res.andThen (s.ringRead q.toNat 1 false) fun p =>
    .ok (p.2.setMx { p.2.mx with
      sa := putRange p.2.mx.sa 0 ((List.range 8).map fun r => (p.1.getD 0 0).extractLsb' (8 * r) 8) }))

/-- sld.b (R195). -/
def execSldB (g : BitVec 4) (q : BitVec 3) (s : State) : Host.Outcome State Fault Refusal :=
  issue g s (Res.andThen (s.ringRead q.toNat 1 false) fun p =>
    .ok (p.2.setMx { p.2.mx with
      sb := putRange p.2.mx.sb 0 ((List.range 16).map fun c => (p.1.getD 0 0).extractLsb' (8 * c) 8) }))

/-! ## Drains -/

/-- The digits of a cell's accumulator at a slot width (R64). -/
def Matrix.digits (m : Matrix) (w x r c : Nat) : List Int :=
  extractDigits w (2 * (512 / w) - 1) (bvInt (m.pacc x r c))

/-- The scale exponent of a block-scaled drain (R198). -/
def scaleExp (f : Word) (sa sb : Nat) : Int :=
  ((sa : Int) - 127) + ((sb : Int) - 127) + (if fmtEfa f = 0 then 8 - (fmtPla f : Int) else 0) +
    (if fmtEfb f = 0 then 8 - (fmtPlb f : Int) else 0)

/-- The term a block-scaled drain adds, as a Q128 pattern with its flags (R198). -/
def scaledTerm (f : Word) (sa sb : Nat) (dd : Int) : Nat × Flags :=
  if sa = 255 ∨ sb = 255 then (fmtQ128.canon, flInvalid)
  else
    let t := scale2 dd.natAbs 1 (scaleExp f sa sb)
    deliver fmtQ128 ⟨0, false, false⟩ 0 (.fin (decide (dd < 0)) t.1 t.2)

/-- The flags that an addition of a block-scaled drain sets (R198).
Log 141: DEDUCED, unsafe. -/
def drainFlags (fl : Flags) : Flags := fl &&& (flInexact ||| flOverflow)

/-- drd of one cell with pam = 0 (R198). -/
def drainDot (f : Word) (x R : Nat) (acc : Matrix × Flags) (p : Nat × Nat) : Matrix × Flags :=
  let m := acc.1
  let w := fmtWidth f
  let dd := (m.digits w x p.1 p.2).getD (512 / w - 1) 0
  let e := m.entry (R + p.1) p.2
  if fmtScm f = 0 then (m.setEntry (R + p.1) p.2 (e + BitVec.ofInt 128 dd), acc.2)
  else
    let t := scaledTerm f (Tab.get 0x7F m.sa p.1).toNat (Tab.get 0x7F m.sb p.2).toNat dd
    let y := addQ e.toNat t.1
    (m.setEntry (R + p.1) p.2 (BitVec.ofNat 128 y.1), acc.2 ||| t.2 ||| drainFlags y.2)

/-- drd of one diagonal slot with pam = 1 (R199). -/
def drainSlot (x R : Nat) (acc : Matrix × Flags) (p : Nat × Nat) : Matrix × Flags :=
  let m := acc.1
  let y := addQ (m.entry (R + p.2) p.1).toNat (m.slot x p.2 p.1)
  (m.setEntry (R + p.2) p.1 (BitVec.ofNat 128 y.1),
   acc.2 ||| ofSticky (Tab.get 0 m.sticky (stickyNo x p.2 p.1)) ||| y.2)

/-- drd (R197 to R199). -/
def execDrd (g : BitVec 4) (x : BitVec 1) (a : BitVec 8) (c : BitVec 1) (s : State) :
    Host.Outcome State Fault Refusal :=
  let f := s.fmt
  let i := x.toNat
  let r :=
    if fmtPam f then
      ((List.range 16).flatMap fun c => (List.range (s.mx.diag i).2).map fun j => (c, j)).foldl
        (drainSlot i a.toNat) (s.mx, 0)
    else allCells.foldl (drainDot f i a.toNat) (s.mx, 0)
  let m := if c = 1 then r.1.clear i else r.1
  issue g s (.ok ((s.setMx m).issueBits .none 0 0 1 r.2 false))

/-- The convolution word of a cell (R200). -/
def Matrix.convWord (m : Matrix) (w x r c : Nat) : BitVec 1024 :=
  BitVec.ofInt 1024 (packVal w ((m.digits w x r c).map fun d => ((wrapNat w d : Nat) : Int)))

/-- drc of one cell (R200). -/
def Matrix.drainConv (m : Matrix) (w x R : Nat) (p : Nat × Nat) : Matrix :=
  let v := m.convWord w x p.1 p.2
  (List.range 8).foldl (fun n e =>
    n.setEntry (R + 8 * p.1 + e) p.2 (v.extractLsb' (128 * e) 128)) m

/-- drc (R197, R200). -/
def execDrc (g : BitVec 4) (x : BitVec 1) (a : BitVec 8) (c : BitVec 1) (s : State) :
    Host.Outcome State Fault Refusal :=
  let f := s.fmt
  issue g s
    (if fmtPam f ∨ fmtScm f ≠ 0 then s.illegal 3
     else
       let m := allCells.foldl (fun n p => n.drainConv (fmtWidth f) x.toNat a.toNat p) s.mx
       .ok (s.setMx (if c = 1 then m.clear x.toNat else m)))

/-! ## The accumulator store -/

/-- a2v (R201). -/
def execA2v (g : BitVec 4) (d : BitVec 5) (a : BitVec 8) (q : BitVec 2) (s : State) :
    Host.Outcome State Fault Refusal :=
  let v := ofLanes 128 ((List.range 4).map fun i => (s.mx.entry a.toNat (4 * q.toNat + i)).toNat)
  issue g s (.ok (s.issueRow d.toNat v 4 0))

/-- v2a (R201). -/
def execV2a (g : BitVec 4) (a : BitVec 8) (q : BitVec 2) (v : BitVec 6) (s : State) :
    Host.Outcome State Fault Refusal :=
  let p := s.portRead 0 v
  issue g s (.ok (p.2.setMx ((List.range 4).foldl (fun m i =>
    m.setEntry a.toNat (4 * q.toNat + i) (BitVec.ofNat 128 (lane 128 p.1 i))) p.2.mx)))

/-- An entry converted to an element (R202). -/
def drainElem (f : Word) (dst : Elem) (m rb : Nat) (x : BitVec 128) : Nat × Flags :=
  let rd : Rnd := ⟨m, fmtSat f, fmtFtz f⟩
  if fmtPam f ∨ fmtScm f ≠ 0 then
    let v := decodeF fmtQ128 x.toNat
    match dst with
    | .flt T => let y := deliver T rd rb v; (y.1, y.2 ||| nanFlags v)
    | .int sg w => floatToInt m sg w rb v
  else
    match dst with
    | .int sg w => reduceInt (fmtSat f) sg w (bvInt x)
    | .flt T => deliver T rd rb (intV (bvInt x))

/-- Elements written to a row as one result that lands within 8 cycles (R203). -/
def State.issueElems (s : State) (row lo w : Nat) (l : List (Nat × Flags)) : State :=
  let val := ofLanes w (l.map fun e => e.1)
  let mask := ofLanes w (l.map fun _ => 2 ^ w - 1)
  s.issueBits (.row row) (val <<< lo) (mask <<< lo) 8 (l.foldl (fun f e => f ||| e.2) 0) false

/-- a2s (R202, R203, R394).
Log 128: DESIGN CHOICE, unsafe. -/
def execA2s (g : BitVec 4) (a : BitVec 8) (t : BitVec 4) (r : BitVec 3) (n : BitVec 4) (s : State) :
    Host.Outcome State Fault Refusal :=
  let dst := elemOf t.toNat
  let w := dst.width
  let off := (Tab.get {} s.ctx.ags n.toNat).cur
  let B := 2 * w
  let ch := s.chunks r.toNat 16
  let es := (List.range 16).map fun c =>
    drainElem s.fmt dst ch.1 (ch.2.1.getD c 0) (s.mx.entry a.toNat c)
  issue g s
    (if B ≤ 64 then
       Res.andThen (if B = 64 then s.spRow off else s.spClean off) fun i =>
         .ok (ch.2.2.issueElems i (8 * ((off.toNat % 64) / B * B)) w es)
     else
       Res.andThen (s.spRow off) fun i =>
         Res.andThen (s.spRow (off + 64)) fun j =>
           .ok ((ch.2.2.issueElems i 0 w (es.take 8)).issueElems j 0 w (es.drop 8)))

/-! ## The ramp limiter (R273) -/

/-- A bundle with a beat that the limiter holds until a window begins that has room for it (R273).
Log 25: DEDUCED, unsafe. -/
def Core.holdBeat : Nat → Core → Core
  | 0, k => k
  | n + 1, k =>
    if k.lim.beats + 1 ≤ k.lim.most then k
    else holdBeat n (k.toCycle ((k.cycle / windowLen + 1) * windowLen))

end Sys2Proof.Machine
end

