-- ==== Sys2Proof/Machine/Scalar.lean ====
section
/-! DEFINITION. The scalar slots X and Y (R116 to R126, R81): arithmetic, bit fields, compares, predicates,
immediates and address generators. -/

namespace Sys2Proof.Machine

/-- A scalar result with its bound (R116). -/
def scalar (g : BitVec 4) (d : BitVec 6) (bound : Nat) (v : Word) (s : State) :
    Host.Outcome State Fault Refusal :=
  issue g s (.ok (s.issueS d v bound))

/-- A predicate pair written by a compare (R16, R121). -/
def compare (g : BitVec 4) (j : BitVec 3) (c : Bool) (s : State) : Host.Outcome State Fault Refusal :=
  issue g s (.ok (s.issuePair j c 1))

/-- A single predicate (R122). -/
def predicate (g : BitVec 4) (d : BitVec 4) (c : Bool) (s : State) : Host.Outcome State Fault Refusal :=
  issue g s (.ok (s.issueP d.toNat c 1))

/-- A signed product, exact. -/
def signedMul (a b : Word) : Int := a.toInt * b.toInt

/-- A field of ext, extn and ins: position and length (R119). -/
def fieldPos (b : Word) : Nat := fld b 0 6

def fieldLen (b : Word) : Nat := fld b 6 6 + 1

/-- Leading zero bits (R119). -/
def clzWord (a : Word) : Nat := if a = 0 then 64 else 63 - a.toNat.log2

/-- Trailing zero bits (R119). -/
def ctzWord (a : Word) : Nat := ((List.range 64).find? fun i => a.getLsbD i).getD 64

/-- One bits (R119). -/
def popWord (a : Word) : Nat := (List.range 64).countP fun i => a.getLsbD i

/-- The conditions of R121 by code. -/
def condition (c : BitVec 3) (a b : Word) : Bool :=
  match c.toNat with
  | 0 => a == b
  | 1 => a != b
  | 2 => decide (a.toInt < b.toInt)
  | 3 => decide (b.toInt ≤ a.toInt)
  | 4 => decide (a.toNat < b.toNat)
  | 5 => decide (b.toNat ≤ a.toNat)
  | _ => a &&& b != 0

/-- The 38 bits of a long immediate are its own operand; lih keeps the low 38 bits of its destination (R81). -/
def lihValue (old : Word) (imm : BitVec 38) : Word :=
  BitVec.ofNat 64 (fld old 0 38 + imm.toNat % 2 ^ 26 * 2 ^ 38)

/-- The quotient and remainder of R118. -/
def divValue (a b : Word) : Word := if b = 0 then ~~~0 else BitVec.ofInt 64 (a.toInt.tdiv b.toInt)

def remValue (a b : Word) : Word := if b = 0 then a else BitVec.ofInt 64 (a.toInt.tmod b.toInt)

def divnValue (a b : Word) : Word := if b = 0 then ~~~0 else BitVec.ofNat 64 (a.toNat / b.toNat)

def remnValue (a b : Word) : Word := if b = 0 then a else BitVec.ofNat 64 (a.toNat % b.toNat)

/-- add (R117). -/
def execAdd (g : BitVec 4) (d a b : BitVec 6) (s : State) : Host.Outcome State Fault Refusal :=
  let a := s.readS a
  let b := s.readS b
  scalar g d 1 (a + b) s

/-- sub (R117). -/
def execSub (g : BitVec 4) (d a b : BitVec 6) (s : State) : Host.Outcome State Fault Refusal :=
  let a := s.readS a
  let b := s.readS b
  scalar g d 1 (a - b) s

/-- sAnd (R117). -/
def execSAnd (g : BitVec 4) (d a b : BitVec 6) (s : State) : Host.Outcome State Fault Refusal :=
  let a := s.readS a
  let b := s.readS b
  scalar g d 1 (a &&& b) s

/-- sOr (R117). -/
def execSOr (g : BitVec 4) (d a b : BitVec 6) (s : State) : Host.Outcome State Fault Refusal :=
  let a := s.readS a
  let b := s.readS b
  scalar g d 1 (a ||| b) s

/-- sXor (R117). -/
def execSXor (g : BitVec 4) (d a b : BitVec 6) (s : State) : Host.Outcome State Fault Refusal :=
  let a := s.readS a
  let b := s.readS b
  scalar g d 1 (a ^^^ b) s

/-- andn (R117). -/
def execAndn (g : BitVec 4) (d a b : BitVec 6) (s : State) : Host.Outcome State Fault Refusal :=
  let a := s.readS a
  let b := s.readS b
  scalar g d 1 (a &&& ~~~b) s

/-- shl (R117). -/
def execShl (g : BitVec 4) (d a b : BitVec 6) (s : State) : Host.Outcome State Fault Refusal :=
  let a := s.readS a
  let b := s.readS b
  scalar g d 1 (a <<< fieldPos b) s

/-- shr (R117). -/
def execShr (g : BitVec 4) (d a b : BitVec 6) (s : State) : Host.Outcome State Fault Refusal :=
  let a := s.readS a
  let b := s.readS b
  scalar g d 1 (a >>> fieldPos b) s

/-- sar (R117). -/
def execSar (g : BitVec 4) (d a b : BitVec 6) (s : State) : Host.Outcome State Fault Refusal :=
  let a := s.readS a
  let b := s.readS b
  scalar g d 1 (a.sshiftRight (fieldPos b)) s

/-- ror (R117). -/
def execRor (g : BitVec 4) (d a b : BitVec 6) (s : State) : Host.Outcome State Fault Refusal :=
  let a := s.readS a
  let b := s.readS b
  scalar g d 1 (a.rotateRight (fieldPos b)) s

/-- mul (R117). -/
def execMul (g : BitVec 4) (d a b : BitVec 6) (s : State) : Host.Outcome State Fault Refusal :=
  let a := s.readS a
  let b := s.readS b
  scalar g d 3 (a * b) s

/-- mulh (R117). -/
def execMulh (g : BitVec 4) (d a b : BitVec 6) (s : State) : Host.Outcome State Fault Refusal :=
  let a := s.readS a
  let b := s.readS b
  scalar g d 4 (BitVec.ofInt 64 (signedMul a b / 2 ^ 64)) s

/-- mulhn (R117). -/
def execMulhn (g : BitVec 4) (d a b : BitVec 6) (s : State) : Host.Outcome State Fault Refusal :=
  let a := s.readS a
  let b := s.readS b
  scalar g d 4 (BitVec.ofNat 64 (a.toNat * b.toNat / 2 ^ 64)) s

/-- div (R118). -/
def execDiv (g : BitVec 4) (d a b : BitVec 6) (s : State) : Host.Outcome State Fault Refusal :=
  let a := s.readS a
  let b := s.readS b
  scalar g d 26 (divValue a b) s

/-- divn (R118). -/
def execDivn (g : BitVec 4) (d a b : BitVec 6) (s : State) : Host.Outcome State Fault Refusal :=
  let a := s.readS a
  let b := s.readS b
  scalar g d 26 (divnValue a b) s

/-- rem (R118). -/
def execRem (g : BitVec 4) (d a b : BitVec 6) (s : State) : Host.Outcome State Fault Refusal :=
  let a := s.readS a
  let b := s.readS b
  scalar g d 26 (remValue a b) s

/-- remn (R118). -/
def execRemn (g : BitVec 4) (d a b : BitVec 6) (s : State) : Host.Outcome State Fault Refusal :=
  let a := s.readS a
  let b := s.readS b
  scalar g d 26 (remnValue a b) s

/-- sMin (R117). -/
def execSMin (g : BitVec 4) (d a b : BitVec 6) (s : State) : Host.Outcome State Fault Refusal :=
  let a := s.readS a
  let b := s.readS b
  scalar g d 1 (if a.toInt ≤ b.toInt then a else b) s

/-- sMax (R117). -/
def execSMax (g : BitVec 4) (d a b : BitVec 6) (s : State) : Host.Outcome State Fault Refusal :=
  let a := s.readS a
  let b := s.readS b
  scalar g d 1 (if a.toInt ≤ b.toInt then b else a) s

/-- minn (R117). -/
def execMinn (g : BitVec 4) (d a b : BitVec 6) (s : State) : Host.Outcome State Fault Refusal :=
  let a := s.readS a
  let b := s.readS b
  scalar g d 1 (if a.toNat ≤ b.toNat then a else b) s

/-- maxn (R117). -/
def execMaxn (g : BitVec 4) (d a b : BitVec 6) (s : State) : Host.Outcome State Fault Refusal :=
  let a := s.readS a
  let b := s.readS b
  scalar g d 1 (if a.toNat ≤ b.toNat then b else a) s

/-- ext (R119). -/
def execExt (g : BitVec 4) (d a b : BitVec 6) (s : State) : Host.Outcome State Fault Refusal :=
  let a := s.readS a
  let b := s.readS b
  scalar g d 2 (BitVec.ofInt 64 (signNat (a.toNat / 2 ^ fieldPos b) (fieldLen b))) s

/-- extn (R119). -/
def execExtn (g : BitVec 4) (d a b : BitVec 6) (s : State) : Host.Outcome State Fault Refusal :=
  let a := s.readS a
  let b := s.readS b
  scalar g d 2 (BitVec.ofNat 64 (a.toNat / 2 ^ fieldPos b % 2 ^ fieldLen b)) s

/-- ins (R119): bits at 64 and above are dropped. -/
def execIns (g : BitVec 4) (d a b : BitVec 6) (s : State) : Host.Outcome State Fault Refusal :=
  let f := s.readS b
  let m : Word := BitVec.ofNat 64 ((2 ^ fieldLen f - 1) * 2 ^ fieldPos f)
  let x : Word := BitVec.ofNat 64 ((s.readS a).toNat % 2 ^ fieldLen f * 2 ^ fieldPos f)
  scalar g d 2 ((s.readS d &&& ~~~m) ||| x) s

/-- clz (R119). -/
def execClz (g : BitVec 4) (d a : BitVec 6) (s : State) : Host.Outcome State Fault Refusal :=
  scalar g d 2 (BitVec.ofNat 64 (clzWord (s.readS a))) s

/-- ctz (R119). -/
def execCtz (g : BitVec 4) (d a : BitVec 6) (s : State) : Host.Outcome State Fault Refusal :=
  scalar g d 2 (BitVec.ofNat 64 (ctzWord (s.readS a))) s

/-- pcnt (R119). -/
def execPcnt (g : BitVec 4) (d a : BitVec 6) (s : State) : Host.Outcome State Fault Refusal :=
  scalar g d 2 (BitVec.ofNat 64 (popWord (s.readS a))) s

/-- sel (R120). -/
def execSel (g : BitVec 4) (d a b : BitVec 6) (f : BitVec 4) (s : State) :
    Host.Outcome State Fault Refusal :=
  scalar g d 1 (if s.readP f then s.readS a else s.readS b) s

/-- cmp (R121). -/
def execCmp (g : BitVec 4) (j c : BitVec 3) (a b : BitVec 6) (s : State) :
    Host.Outcome State Fault Refusal :=
  compare g j (condition c (s.readS a) (s.readS b)) s

/-- cmpi (R121). -/
def execCmpi (g : BitVec 4) (j c : BitVec 3) (a : BitVec 6) (i : BitVec 10) (s : State) :
    Host.Outcome State Fault Refusal :=
  compare g j (condition c (s.readS a) (i.signExtend 64)) s

/-- pand (R122). -/
def execPand (g d a b : BitVec 4) (n m : BitVec 1) (s : State) : Host.Outcome State Fault Refusal :=
  predicate g d ((s.readP a ^^ n == 1) && (s.readP b ^^ m == 1)) s

/-- por (R122). -/
def execPor (g d a b : BitVec 4) (n m : BitVec 1) (s : State) : Host.Outcome State Fault Refusal :=
  predicate g d ((s.readP a ^^ n == 1) || (s.readP b ^^ m == 1)) s

/-- pxor (R122). -/
def execPxor (g d a b : BitVec 4) (n m : BitVec 1) (s : State) : Host.Outcome State Fault Refusal :=
  predicate g d ((s.readP a ^^ n == 1) ^^ (s.readP b ^^ m == 1)) s

/-- addi (R123). -/
def execAddi (g : BitVec 4) (d a : BitVec 6) (i : BitVec 10) (s : State) :
    Host.Outcome State Fault Refusal :=
  scalar g d 1 (s.readS a + i.signExtend 64) s

/-- andi (R123). -/
def execAndi (g : BitVec 4) (d a : BitVec 6) (i : BitVec 10) (s : State) :
    Host.Outcome State Fault Refusal :=
  scalar g d 1 (s.readS a &&& i.signExtend 64) s

/-- ori (R123). -/
def execOri (g : BitVec 4) (d a : BitVec 6) (i : BitVec 10) (s : State) :
    Host.Outcome State Fault Refusal :=
  scalar g d 1 (s.readS a ||| i.signExtend 64) s

/-- xori (R123). -/
def execXori (g : BitVec 4) (d a : BitVec 6) (i : BitVec 10) (s : State) :
    Host.Outcome State Fault Refusal :=
  scalar g d 1 (s.readS a ^^^ i.signExtend 64) s

/-- shli (R123). -/
def execShli (g : BitVec 4) (d a k : BitVec 6) (s : State) : Host.Outcome State Fault Refusal :=
  scalar g d 1 (s.readS a <<< k.toNat) s

/-- shri (R123). -/
def execShri (g : BitVec 4) (d a k : BitVec 6) (s : State) : Host.Outcome State Fault Refusal :=
  scalar g d 1 (s.readS a >>> k.toNat) s

/-- sari (R123). -/
def execSari (g : BitVec 4) (d a k : BitVec 6) (s : State) : Host.Outcome State Fault Refusal :=
  scalar g d 1 ((s.readS a).sshiftRight k.toNat) s

/-- li with its lip (R81, R124); one write from the X slot (R72). -/
def execLi (g : BitVec 4) (d : BitVec 6) (imm : BitVec 38) (s : State) :
    Host.Outcome State Fault Refusal :=
  scalar g d 1 (imm.signExtend 64) s

/-- lih with its lip (R81, R124). -/
def execLih (g : BitVec 4) (d : BitVec 6) (imm : BitVec 38) (s : State) :
    Host.Outcome State Fault Refusal :=
  scalar g d 1 (lihValue (s.readS d) imm) s

/-- An address generator of the issuing context replaced. -/
def State.setAg (s : State) (n : Nat) (a : AddrGen) : State :=
  s.setCtx { s.ctx with ags := Tab.put s.ctx.ags n a }

/-- agb (R125). -/
def execAgb (g n : BitVec 4) (a : BitVec 6) (s : State) : Host.Outcome State Fault Refusal :=
  issue g s (.ok (s.setAg n.toNat { Tab.get {} s.ctx.ags n.toNat with cur := s.readS a }))

/-- ags (R125). -/
def execAgs (g n : BitVec 4) (k : BitVec 3) (a : BitVec 6) (s : State) :
    Host.Outcome State Fault Refusal :=
  let x := Tab.get {} s.ctx.ags n.toNat
  issue g s (.ok (s.setAg n.toNat { x with strides := Tab.set 0 x.strides k.toNat (s.readS a) }))

/-- agr (R125). -/
def execAgr (g : BitVec 4) (d : BitVec 6) (n : BitVec 4) (s : State) :
    Host.Outcome State Fault Refusal :=
  scalar g d 1 (Tab.get {} s.ctx.ags n.toNat).cur s

end Sys2Proof.Machine
end

