-- ==== Sys2Proof/Machine/Dispatch.lean ====
section
/-! DEFINITION. The dispatch of an instruction to its meaning, one arm per constructor. -/

namespace Sys2Proof.Machine

def exec (i : Instr) (s : State) : Host.Outcome State Fault Refusal :=
  match i with
  | .nop g => Sys2Proof.Machine.execNop g s
  | .br g d => Sys2Proof.Machine.execBr g d s
  | .brl g l d => Sys2Proof.Machine.execBrl g l d s
  | .jr g a => Sys2Proof.Machine.execJr g a s
  | .jrl g d a => Sys2Proof.Machine.execJrl g d a s
  | .jt g a im l p => Sys2Proof.Machine.execJt g a im l p s
  | .loop g k a e => Sys2Proof.Machine.execLoop g k a e s
  | .loopi g k n e => Sys2Proof.Machine.execLoopi g k n e s
  | .lbrk g k => Sys2Proof.Machine.execLbrk g k s
  | .wfmt g a => Sys2Proof.Machine.execWfmt g a s
  | .mfs g a n => Sys2Proof.Machine.execMfs g a n s
  | .mts g a n => Sys2Proof.Machine.execMts g a n s
  | .trap g im => Sys2Proof.Machine.execTrap g im s
  | .bkpt g im => Sys2Proof.Machine.execBkpt g im s
  | .tret g => Sys2Proof.Machine.execTret g s
  | .susp g => Sys2Proof.Machine.execSusp g s
  | .yield g => Sys2Proof.Machine.execYield g s
  | .exitS g a => Sys2Proof.Machine.execExitS g a s
  | .chk g c r d => Sys2Proof.Machine.execChk g c r d s
  | .stepB g => Sys2Proof.Machine.execStepB g s
  | .grel g => Sys2Proof.Machine.execGrel g s
  | .tlbiPage g a b => Sys2Proof.Machine.execTlbiPage g a b s
  | .tlbiAsid g a b => Sys2Proof.Machine.execTlbiAsid g a b s
  | .tlbiAll g a b => Sys2Proof.Machine.execTlbiAll g a b s
  | .asw g a => Sys2Proof.Machine.execAsw g a s
  | .ctxs g a => Sys2Proof.Machine.execCtxs g a s
  | .ctxr g a => Sys2Proof.Machine.execCtxr g a s
  | .fwsh g im => Sys2Proof.Machine.execFwsh g im s
  | .qscQuiesce g a => Sys2Proof.Machine.execQscQuiesce g a s
  | .qscEndQuiesce g a => Sys2Proof.Machine.execQscEndQuiesce g a s
  | .qscQueueInvalidate g a => Sys2Proof.Machine.execQscQueueInvalidate g a s
  | .cres g => Sys2Proof.Machine.execCres g s
  | .ckill g => Sys2Proof.Machine.execCkill g s
  | .add g d a b => Sys2Proof.Machine.execAdd g d a b s
  | .sub g d a b => Sys2Proof.Machine.execSub g d a b s
  | .sAnd g d a b => Sys2Proof.Machine.execSAnd g d a b s
  | .sOr g d a b => Sys2Proof.Machine.execSOr g d a b s
  | .sXor g d a b => Sys2Proof.Machine.execSXor g d a b s
  | .andn g d a b => Sys2Proof.Machine.execAndn g d a b s
  | .shl g d a b => Sys2Proof.Machine.execShl g d a b s
  | .shr g d a b => Sys2Proof.Machine.execShr g d a b s
  | .sar g d a b => Sys2Proof.Machine.execSar g d a b s
  | .ror g d a b => Sys2Proof.Machine.execRor g d a b s
  | .mul g d a b => Sys2Proof.Machine.execMul g d a b s
  | .mulh g d a b => Sys2Proof.Machine.execMulh g d a b s
  | .mulhn g d a b => Sys2Proof.Machine.execMulhn g d a b s
  | .div g d a b => Sys2Proof.Machine.execDiv g d a b s
  | .divn g d a b => Sys2Proof.Machine.execDivn g d a b s
  | .rem g d a b => Sys2Proof.Machine.execRem g d a b s
  | .remn g d a b => Sys2Proof.Machine.execRemn g d a b s
  | .sMin g d a b => Sys2Proof.Machine.execSMin g d a b s
  | .sMax g d a b => Sys2Proof.Machine.execSMax g d a b s
  | .minn g d a b => Sys2Proof.Machine.execMinn g d a b s
  | .maxn g d a b => Sys2Proof.Machine.execMaxn g d a b s
  | .ext g d a b => Sys2Proof.Machine.execExt g d a b s
  | .extn g d a b => Sys2Proof.Machine.execExtn g d a b s
  | .ins g d a b => Sys2Proof.Machine.execIns g d a b s
  | .clz g d a => Sys2Proof.Machine.execClz g d a s
  | .ctz g d a => Sys2Proof.Machine.execCtz g d a s
  | .pcnt g d a => Sys2Proof.Machine.execPcnt g d a s
  | .sel g d a b f => Sys2Proof.Machine.execSel g d a b f s
  | .cmp g j c a b => Sys2Proof.Machine.execCmp g j c a b s
  | .cmpi g j c a im => Sys2Proof.Machine.execCmpi g j c a im s
  | .pand g d a b n m => Sys2Proof.Machine.execPand g d a b n m s
  | .por g d a b n m => Sys2Proof.Machine.execPor g d a b n m s
  | .pxor g d a b n m => Sys2Proof.Machine.execPxor g d a b n m s
  | .addi g d a im => Sys2Proof.Machine.execAddi g d a im s
  | .andi g d a im => Sys2Proof.Machine.execAndi g d a im s
  | .ori g d a im => Sys2Proof.Machine.execOri g d a im s
  | .xori g d a im => Sys2Proof.Machine.execXori g d a im s
  | .shli g d a fs => Sys2Proof.Machine.execShli g d a fs s
  | .shri g d a fs => Sys2Proof.Machine.execShri g d a fs s
  | .sari g d a fs => Sys2Proof.Machine.execSari g d a fs s
  | .li g d imm => Sys2Proof.Machine.execLi g d imm s
  | .lih g d imm => Sys2Proof.Machine.execLih g d imm s
  | .agb g n a => Sys2Proof.Machine.execAgb g n a s
  | .ags g n k a => Sys2Proof.Machine.execAgs g n k a s
  | .agr g d n => Sys2Proof.Machine.execAgr g d n s
  | .ldw g t a => Sys2Proof.Machine.execLdw g t a s
  | .stw g t a => Sys2Proof.Machine.execStw g t a s
  | .ldr g t a => Sys2Proof.Machine.execLdr g t a s
  | .str g t a => Sys2Proof.Machine.execStr g t a s
  | .ldsy g t a => Sys2Proof.Machine.execLdsy g t a s
  | .stsy g t a => Sys2Proof.Machine.execStsy g t a s
  | .feq g j a => Sys2Proof.Machine.execFeq g j a s
  | .fes g v a => Sys2Proof.Machine.execFes g v a s
  | .tlr g d t => Sys2Proof.Machine.execTlr g d t s
  | .tls g t fs => Sys2Proof.Machine.execTls g t fs s
  | .barv g t a => Sys2Proof.Machine.execBarv g t a s
  | .barw g t a => Sys2Proof.Machine.execBarw g t a s
  | .gldw g t b d => Sys2Proof.Machine.execGldw g t b d s
  | .gstw g t b d => Sys2Proof.Machine.execGstw g t b d s
  | .gldr g t b d => Sys2Proof.Machine.execGldr g t b d s
  | .gstr g t b d => Sys2Proof.Machine.execGstr g t b d s
  | .gldws g t b d => Sys2Proof.Machine.execGldws g t b d s
  | .gldrs g t b d => Sys2Proof.Machine.execGldrs g t b d s
  | .aadd g d a v w q r => Sys2Proof.Machine.execAadd g d a v w q r s
  | .amin g d a v w k q r => Sys2Proof.Machine.execAmin g d a v w k q r s
  | .amax g d a v w k q r => Sys2Proof.Machine.execAmax g d a v w k q r s
  | .aand g d a v w q r => Sys2Proof.Machine.execAand g d a v w q r s
  | .aor g d a v w q r => Sys2Proof.Machine.execAor g d a v w q r s
  | .axor g d a v w q r => Sys2Proof.Machine.execAxor g d a v w q r s
  | .aswp g d a v w q r => Sys2Proof.Machine.execAswp g d a v w q r s
  | .acas g d a v w q r => Sys2Proof.Machine.execAcas g d a v w q r s
  | .afadd g d a v w q r => Sys2Proof.Machine.execAfadd g d a v w q r s
  | .aoadd g d a v w k r => Sys2Proof.Machine.execAoadd g d a v w k r s
  | .phase g fs => Sys2Proof.Machine.execPhase g fs s
  | .copy g c a d q r fs => Sys2Proof.Machine.execCopy g c a d q r fs s
  | .gath g c a d q r fs => Sys2Proof.Machine.execGath g c a d q r fs s
  | .scat g c a d q r fs => Sys2Proof.Machine.execScat g c a d q r fs s
  | .wstr g c a d q fs => Sys2Proof.Machine.execWstr g c a d q fs s
  | .cwid g c a fs => Sys2Proof.Machine.execCwid g c a fs s
  | .cwcnt g c a fs => Sys2Proof.Machine.execCwcnt g c a fs s
  | .trig g c a b => Sys2Proof.Machine.execTrig g c a b s
  | .enq g p a v => Sys2Proof.Machine.execEnq g p a v s
  | .deq g v a fs => Sys2Proof.Machine.execDeq g v a fs s
  | .cbind g c a d q r fs => Sys2Proof.Machine.execCbind g c a d q r fs s
  | .bred g c a d q r fs => Sys2Proof.Machine.execBred g c a d q r fs s
  | .hist g c a d r fs => Sys2Proof.Machine.execHist g c a d r fs s
  | .sarv g => Sys2Proof.Machine.execSarv g s
  | .vadd g d a b m t => Sys2Proof.Machine.execVadd g d a b m t s
  | .vsub g d a b m t => Sys2Proof.Machine.execVsub g d a b m t s
  | .vmul g d a b m t => Sys2Proof.Machine.execVmul g d a b m t s
  | .vmulh g d a b m t => Sys2Proof.Machine.execVmulh g d a b m t s
  | .vmin g d a b m t => Sys2Proof.Machine.execVmin g d a b m t s
  | .vmax g d a b m t => Sys2Proof.Machine.execVmax g d a b m t s
  | .vminn g d a b m t => Sys2Proof.Machine.execVminn g d a b m t s
  | .vmaxn g d a b m t => Sys2Proof.Machine.execVmaxn g d a b m t s
  | .vand g d a b m t => Sys2Proof.Machine.execVand g d a b m t s
  | .vor g d a b m t => Sys2Proof.Machine.execVor g d a b m t s
  | .vxor g d a b m t => Sys2Proof.Machine.execVxor g d a b m t s
  | .vsel g d a b m t => Sys2Proof.Machine.execVsel g d a b m t s
  | .vshli g d a im m t => Sys2Proof.Machine.execVshli g d a im m t s
  | .vshri g d a im m t => Sys2Proof.Machine.execVshri g d a im m t s
  | .vsari g d a im m t => Sys2Proof.Machine.execVsari g d a im m t s
  | .vperm g d a b m t => Sys2Proof.Machine.execVperm g d a b m t s
  | .vbc g d fs m t => Sys2Proof.Machine.execVbc g d fs m t s
  | .vins g d fs l m t => Sys2Proof.Machine.execVins g d fs l m t s
  | .vext g d a l t => Sys2Proof.Machine.execVext g d a l t s
  | .vcmp g m a b c t => Sys2Proof.Machine.execVcmp g m a b c t s
  | .mand g d a b => Sys2Proof.Machine.execMand g d a b s
  | .mor g d a b => Sys2Proof.Machine.execMor g d a b s
  | .mxor g d a b => Sys2Proof.Machine.execMxor g d a b s
  | .mandn g d a b => Sys2Proof.Machine.execMandn g d a b s
  | .mset g d a => Sys2Proof.Machine.execMset g d a s
  | .vfaddF64 g d a b m r => Sys2Proof.Machine.execVfaddF64 g d a b m r s
  | .vfaddF32 g d a b m r => Sys2Proof.Machine.execVfaddF32 g d a b m r s
  | .vfaddBf16 g d a b m r => Sys2Proof.Machine.execVfaddBf16 g d a b m r s
  | .vfaddF16 g d a b m r => Sys2Proof.Machine.execVfaddF16 g d a b m r s
  | .vfsubF64 g d a b m r => Sys2Proof.Machine.execVfsubF64 g d a b m r s
  | .vfsubF32 g d a b m r => Sys2Proof.Machine.execVfsubF32 g d a b m r s
  | .vfsubBf16 g d a b m r => Sys2Proof.Machine.execVfsubBf16 g d a b m r s
  | .vfsubF16 g d a b m r => Sys2Proof.Machine.execVfsubF16 g d a b m r s
  | .vfmulF64 g d a b m r => Sys2Proof.Machine.execVfmulF64 g d a b m r s
  | .vfmulF32 g d a b m r => Sys2Proof.Machine.execVfmulF32 g d a b m r s
  | .vfmulBf16 g d a b m r => Sys2Proof.Machine.execVfmulBf16 g d a b m r s
  | .vfmulF16 g d a b m r => Sys2Proof.Machine.execVfmulF16 g d a b m r s
  | .vfmaF64 g d a b m r => Sys2Proof.Machine.execVfmaF64 g d a b m r s
  | .vfmaF32 g d a b m r => Sys2Proof.Machine.execVfmaF32 g d a b m r s
  | .vfmaBf16 g d a b m r => Sys2Proof.Machine.execVfmaBf16 g d a b m r s
  | .vfmaF16 g d a b m r => Sys2Proof.Machine.execVfmaF16 g d a b m r s
  | .vfmin g d a b m t => Sys2Proof.Machine.execVfmin g d a b m t s
  | .vfmax g d a b m t => Sys2Proof.Machine.execVfmax g d a b m t s
  | .vfcmp g m a b c t => Sys2Proof.Machine.execVfcmp g m a b c t s
  | .vcvt g d a f t r => Sys2Proof.Machine.execVcvt g d a f t r s
  | .vrcpe g d a m t => Sys2Proof.Machine.execVrcpe g d a m t s
  | .vrsqe g d a m t => Sys2Proof.Machine.execVrsqe g d a m t s
  | .vrcps g d a b m t => Sys2Proof.Machine.execVrcps g d a b m t s
  | .vrsqs g d a b m t => Sys2Proof.Machine.execVrsqs g d a b m t s
  | .vexp2 g d a m t => Sys2Proof.Machine.execVexp2 g d a m t s
  | .vlog2 g d a m t => Sys2Proof.Machine.execVlog2 g d a m t s
  | .vredi g d a o m t => Sys2Proof.Machine.execVredi g d a o m t s
  | .vredf g d a o m t => Sys2Proof.Machine.execVredf g d a o m t s
  | .vrfill g d m t => Sys2Proof.Machine.execVrfill g d m t s
  | .vhist g a f m => Sys2Proof.Machine.execVhist g a f m s
  | .vrmg031 g d a b fs => Sys2Proof.Machine.execVrmg031 g d a b fs s
  | .vrmg3263 g d a b fs => Sys2Proof.Machine.execVrmg3263 g d a b fs s
  | .vbpt g d a t => Sys2Proof.Machine.execVbpt g d a t s
  | .vpack g d a b w v o => Sys2Proof.Machine.execVpack g d a b w v o s
  | .vunpk g d a w v o => Sys2Proof.Machine.execVunpk g d a w v o s
  | .vdig g d a b w v o => Sys2Proof.Machine.execVdig g d a b w v o s
  | .vbq g d a f t r => Sys2Proof.Machine.execVbq g d a f t r s
  | .vbdq g d a f t r => Sys2Proof.Machine.execVbdq g d a f t r s
  | .push g q r => Sys2Proof.Machine.execPush g q r s
  | .shift g => Sys2Proof.Machine.execShift g s
  | .acc g x a b r => Sys2Proof.Machine.execAcc g x a b r s
  | .dacc g x a r => Sys2Proof.Machine.execDacc g x a r s
  | .drd g x a c => Sys2Proof.Machine.execDrd g x a c s
  | .drc g x a c => Sys2Proof.Machine.execDrc g x a c s
  | .mclr g x => Sys2Proof.Machine.execMclr g x s
  | .sldA g q => Sys2Proof.Machine.execSldA g q s
  | .sldB g q => Sys2Proof.Machine.execSldB g q s
  | .a2v g d a q => Sys2Proof.Machine.execA2v g d a q s
  | .v2a g a q v => Sys2Proof.Machine.execV2a g a q v s
  | .a2s g a t r n => Sys2Proof.Machine.execA2s g a t r n s
  | .aclr g a n => Sys2Proof.Machine.execAclr g a n s
  | .resultLanding core fw ser => Sys2Proof.Machine.execResultLanding core fw ser s
  | .interlockedBundleEffect core fw => Sys2Proof.Machine.execInterlockedBundleEffect core fw s
  | .loopBoundary core fw => Sys2Proof.Machine.execLoopBoundary core fw s
  | .delegatedTrapEntry core t => Sys2Proof.Machine.execDelegatedTrapEntry core t s
  | .programContextStop core t => Sys2Proof.Machine.execProgramContextStop core t s
  | .coreMachineCheck core t => Sys2Proof.Machine.execCoreMachineCheck core t s
  | .asyncEventTaken core => Sys2Proof.Machine.execAsyncEventTaken core s
  | .globalTimeAlarm core => Sys2Proof.Machine.execGlobalTimeAlarm core s
  | .preemptionRequest core => Sys2Proof.Machine.execPreemptionRequest core s
  | .machineCheck m => Sys2Proof.Machine.execMachineCheck m s
  | .engineRowWrite core fw chan ident => Sys2Proof.Machine.execEngineRowWrite core fw chan ident s
  | .transferComplete core fw chan ident => Sys2Proof.Machine.execTransferComplete core fw chan ident s
  | .triggerFire core fw chan => Sys2Proof.Machine.execTriggerFire core fw chan s
  | .wstrTileStart core fw chan ident => Sys2Proof.Machine.execWstrTileStart core fw chan ident s
  | .wstrTileReady core fw chan ident => Sys2Proof.Machine.execWstrTileReady core fw chan ident s
  | .grelRelease gang => Sys2Proof.Machine.execGrelRelease gang s
  | .collectiveFire core tile => Sys2Proof.Machine.execCollectiveFire core tile s
  | .collectiveNodeCombine key lo k => Sys2Proof.Machine.execCollectiveNodeCombine key lo k s
  | .collectiveComplete core tile => Sys2Proof.Machine.execCollectiveComplete core tile s
  | .linkFlitReceive port lseq crcOk f => Sys2Proof.Machine.execLinkFlitReceive port lseq crcOk f s
  | .negativeAcknowledgement port lseq => Sys2Proof.Machine.execNegativeAcknowledgement port lseq s
  | .routeResendTimeout dst cls => Sys2Proof.Machine.execRouteResendTimeout dst cls s
  | .nodeLost node => Sys2Proof.Machine.execNodeLost node s
  | .collectiveFlit f => Sys2Proof.Machine.execCollectiveFlit f s
  | .readRequest f => Sys2Proof.Machine.execReadRequest f s
  | .readResponse f => Sys2Proof.Machine.execReadResponse f s
  | .rowWrite f => Sys2Proof.Machine.execRowWrite f s
  | .wordWrite f => Sys2Proof.Machine.execWordWrite f s
  | .atomicRequest f => Sys2Proof.Machine.execAtomicRequest f s
  | .atomicResponse f => Sys2Proof.Machine.execAtomicResponse f s
  | .writeAcknowledgement f => Sys2Proof.Machine.execWriteAcknowledgement f s
  | .retryWithWaitHint f => Sys2Proof.Machine.execRetryWithWaitHint f s
  | .bindingUpdate f => Sys2Proof.Machine.execBindingUpdate f s
  | .bindingUpdateApply idx => Sys2Proof.Machine.execBindingUpdateApply idx s
  | .marker f => Sys2Proof.Machine.execMarker f s
  | .caribouData f => Sys2Proof.Machine.execCaribouData f s
  | .caribouDone f => Sys2Proof.Machine.execCaribouDone f s
  | .routeAcknowledgement f => Sys2Proof.Machine.execRouteAcknowledgement f s
  | .localMove => Sys2Proof.Machine.execLocalMove s
  | .migrateOut => Sys2Proof.Machine.execMigrateOut s
  | .loadRankMap => Sys2Proof.Machine.execLoadRankMap s
  | .loadPortTable => Sys2Proof.Machine.execLoadPortTable s
  | .dispatchTake core => Sys2Proof.Machine.execDispatchTake core s
  | .launchPacketTake core => Sys2Proof.Machine.execLaunchPacketTake core s
  | .gangReservationComplete gang => Sys2Proof.Machine.execGangReservationComplete gang s
  | .partitionChange core => Sys2Proof.Machine.execPartitionChange core s
  | .gangRelease gang => Sys2Proof.Machine.execGangRelease gang s
  | .readyWaitPreemption die => Sys2Proof.Machine.execReadyWaitPreemption die s
  | .stepBoundary vrank => Sys2Proof.Machine.execStepBoundary vrank s
  | .readyPacketReclaim idx => Sys2Proof.Machine.execReadyPacketReclaim idx s
  | .memsideOperation idx => Sys2Proof.Machine.execMemsideOperation idx s
  | .orderedAddArrival idx => Sys2Proof.Machine.execOrderedAddArrival idx s
  | .reductionBlockRun stack => Sys2Proof.Machine.execReductionBlockRun stack s
  | .parityDifferenceApply idx => Sys2Proof.Machine.execParityDifferenceApply idx s
  | .uncorrectableRead row => Sys2Proof.Machine.execUncorrectableRead row s
  | .rowRemap channel pseudo bank dramRow => Sys2Proof.Machine.execRowRemap channel pseudo bank dramRow s
  | .remapTableReload channel => Sys2Proof.Machine.execRemapTableReload channel s
  | .writeReachesAgent write a => Sys2Proof.Machine.execWriteReachesAgent write a s
  | .tlbiComplete core => Sys2Proof.Machine.execTlbiComplete core s
  | .coreStateError core fw det => Sys2Proof.Machine.execCoreStateError core fw det s
  | .quiesceRecordUpdate asid => Sys2Proof.Machine.execQuiesceRecordUpdate asid s
  | .mirrorAccept idx => Sys2Proof.Machine.execMirrorAccept idx s
  | .limiterWindowBoundary core => Sys2Proof.Machine.execLimiterWindowBoundary core s
  | .thermalCapAdjust => Sys2Proof.Machine.execThermalCapAdjust s
  | .temperatureUpdate tmax tin => Sys2Proof.Machine.execTemperatureUpdate tmax tin s
  | .powerTrip => Sys2Proof.Machine.execPowerTrip s
  | .powerUp => Sys2Proof.Machine.execPowerUp s
  | .identityTreeReady => Sys2Proof.Machine.execIdentityTreeReady s
  | .linkUp port refNode refTime => Sys2Proof.Machine.execLinkUp port refNode refTime s
  | .referenceChange refNode off => Sys2Proof.Machine.execReferenceChange refNode off s
  | .sessionLinkTimeout port => Sys2Proof.Machine.execSessionLinkTimeout port s
  | .hostRead m => Sys2Proof.Machine.execHostRead m s
  | .hostWrite m => Sys2Proof.Machine.execHostWrite m s
  | .queueAppend m => Sys2Proof.Machine.execQueueAppend m s
  | .regRead m => Sys2Proof.Machine.execRegRead m s
  | .regWrite m => Sys2Proof.Machine.execRegWrite m s
  | .semAcquire m => Sys2Proof.Machine.execSemAcquire m s
  | .semRelease m => Sys2Proof.Machine.execSemRelease m s
  | .imageChunk m => Sys2Proof.Machine.execImageChunk m s
  | .commitBoot m => Sys2Proof.Machine.execCommitBoot m s
  | .commitHandOver m => Sys2Proof.Machine.execCommitHandOver m s
  | .attest m => Sys2Proof.Machine.execAttest m s
  | .compareManifest m => Sys2Proof.Machine.execCompareManifest m s
  | .openSession m => Sys2Proof.Machine.execOpenSession m s
  | .closeSession m => Sys2Proof.Machine.execCloseSession m s
  | .notify m => Sys2Proof.Machine.execNotify m s
  | .hodone core v => Sys2Proof.Machine.execHodone core v s
  | .handoverTimeout => Sys2Proof.Machine.execHandoverTimeout s
  | .firmwareRequestWord core op v cmp => Sys2Proof.Machine.execFirmwareRequestWord core op v cmp s
  | .regionAnnounce v => Sys2Proof.Machine.execRegionAnnounce v s
  | .rampWordWrite v => Sys2Proof.Machine.execRampWordWrite v s
  | .tkey7Write core v => Sys2Proof.Machine.execTkey7Write core v s
  | .tregWrite core v => Sys2Proof.Machine.execTregWrite core v s
  | .cacheLineWriteBack row => Sys2Proof.Machine.execCacheLineWriteBack row s
  | .inputPowerLoss => Sys2Proof.Machine.execInputPowerLoss s
  | .timeReferenceSettled => Sys2Proof.Machine.execTimeReferenceSettled s
  | .regionTableLoadComplete => Sys2Proof.Machine.execRegionTableLoadComplete s
  | .badControlFrame m => Sys2Proof.Machine.execBadControlFrame m s
  | .reservedCodeFlit f => Sys2Proof.Machine.execReservedCodeFlit f s

end Sys2Proof.Machine
end

