-- ==== Sys2Proof/Machine/Bundle.lean ====
section
/-! DEFINITION. One bundle: its fetch, its syllables in the order in which they act, the choice among their faults
(R28, R29), stalls (R27), and its end (R23, R55, R102); the turn of a core (R13, R40, R41); and time. -/

namespace Sys2Proof

/-- Whether an event of the table comes from outside a core's own bundles: not the syllables, nor what is
performed as a part of them.
Log 24: DESIGN CHOICE, safe. -/
def Instr.scheduled (i : Instr) : Bool :=
  (encode i).isNone && (encodePair i).isNone &&
    match i with
    | .loopBoundary _ _ => false
    | .delegatedTrapEntry _ _ => false
    | .programContextStop _ _ => false
    | .coreMachineCheck _ _ => false
    | .hodone _ _ => false
    | .firmwareRequestWord _ _ _ _ => false
    | .regionAnnounce _ => false
    | .rampWordWrite _ => false
    | .tkey7Write _ _ => false
    | .tregWrite _ _ => false
    | _ => true

end Sys2Proof

namespace Sys2Proof.Machine

/-! ## Fetch -/

/-- The channels that a context may name (R84, R285).
Log 23: DESIGN CHOICE, safe. -/
def Core.channels (k : Core) (fw : Bool) : Nat :=
  if fw then 4
  else match k.strand with
    | some t => t.nchan
    | none => 16

/-- The half of a row in which a bundle lies (R68). -/
def bundleOf (r : Row) (pc : Addr) : BitVec 256 := r.extractLsb' (256 * (pc.toNat / 32 % 2)) 256

/-- A fetch that faults (R30, R33, R393).
Log 21: DEDUCED, unsafe. -/
def State.fetchTrap (s : State) (code : Nat) : Trap :=
  { s.trapOf code 0 (s.iss.pc.setWidth 64) with fat := s.ctx.jumped }

/-- The bundle at the issue's address: the stalled bundle of the context, or from the locked instruction store of a gang, or
from memory.
Log 21: DEDUCED, unsafe; log 22: DESIGN CHOICE, unsafe. -/
def State.fetchBundle (s : State) : Except Res (BitVec 256 × State) :=
  let pc := s.iss.pc
  match s.ctx.bundle, if s.iss.fw then none else s.me.code.find? fun e => e.1 = pc.toNat / 64 with
  | some b, _ => .ok (b, s)
  | none, some e => .ok (bundleOf e.2 pc, s)
  | none, none =>
    match s.xlate .fetch (pc.setWidth 64) with
    | .denied => .error (.trap (s.fetchTrap 0x03) [])
    | .none none => .error (.trap (s.fetchTrap 0x02) [])
    | .none (some pa) => .error (.trap (s.fetchTrap 0x02) [pa])
    | .noMemory pa => .error (.stop (.noMemory pa))
    | .stall pa => .error (.wait (.region pa))
    | .ok acc =>
      if s.mem.stalls acc.pa && !s.isRemote acc then .error (.wait (.region acc.pa))
      else
        match s.ctxLoad .fetch (pc.setWidth 64) acc with
        | .error r => .error r
        | .ok (row, bad, s1) =>
          if bad then .error (.trap (s.fetchTrap 0x09) []) else .ok (bundleOf row pc, s1)

/-! ## The syllables of a bundle -/

/-- Whether a syllable is a jump table, whose entry load comes before the bundle's G-slot access (R141). -/
def isJumpTable : Instr → Bool
  | .jt _ _ _ _ _ => true
  | _ => false

/-- Whether a syllable reads what another of its bundle changes at issue, whose change it must not see (R25): a tile's word
or a special register. -/
def readsFirst : Instr → Bool
  | .tlr _ _ _ => true
  | .mfs _ _ _ => true
  | _ => false

/-- The syllables in the order in which they act: a jump table, the reads of tile words and special registers, then X, V, W,
M, L, G and Y, then any other control syllable, which acts after the rest of its bundle (R25, R31, R97, R102, R112).
Log 6: DEDUCED, unsafe. -/
def issueOrder (l : List (Nat × Instr)) : List (Nat × Instr) :=
  let slot (k : Nat) : List (Nat × Instr) := l.filter fun e => e.1 == k && !isJumpTable e.2 && !readsFirst e.2
  l.filter (fun e => isJumpTable e.2) ++ l.filter (fun e => readsFirst e.2) ++ [1, 5, 6, 7, 3, 4, 2, 0].flatMap slot

/-- The faults found in a bundle, each with the format errors that its walks met. -/
abbrev Traps := List (Trap × List Nat)

/-- Every syllable issued in turn. One that faults leaves the state as it was for the next, for the faults of all of
them compete (R29).
Log 6: DEDUCED, unsafe. -/
def runSyllables : List (Nat × Instr) → State → Traps → Host.Outcome (State × Traps) Fault Refusal
  | [], s, ts => .next (s, ts)
  | e :: l, s, ts =>
    let s0 := { s with iss := { s.iss with slot := e.1, trap := none, errs := [] } }
    match exec e.2 s0 with
    | .next s1 =>
      match s1.iss.trap with
      | some t => runSyllables l s0 (ts ++ [(t, s1.iss.errs)])
      | none => runSyllables l s1 ts
    | .fault f => .fault f
    | .refused r => .refused r

/-- The first of two faults under R29: illegal bundles before the others, then the lower slot.
Log 38: DEDUCED, unsafe. -/
def trapBefore (a b : Trap × List Nat) : Bool :=
  let key (t : Trap) : Nat := (if t.code = 0x01 then 0 else 8) + t.slot.toNat
  decide (key a.1 ≤ key b.1)

/-- The fault that a bundle reports (R29).
Log 20: DEDUCED, unsafe; log 38: DEDUCED, unsafe. -/
def firstTrap : Traps → Option (Trap × List Nat)
  | [] => none
  | e :: l =>
    match firstTrap l with
    | none => some e
    | some x => if trapBefore e x then some e else some x

/-- The syllables that decode, and the faults of those that do not (R75). -/
def State.fates (s : State) (b : BitVec 256) : List (Nat × Instr) × Traps :=
  let l := decodeBundle s.iss.fw (s.me.channels s.iss.fw) b
  (l.filterMap fun e => match e.2 with
      | .ok i => some (e.1, i)
      | .error _ => none,
   l.filterMap fun e => match e.2 with
      | .ok _ => none
      | .error r => some (⟨1, BitVec.ofNat 3 e.1, r, false, 0, s.iss.pc⟩, []))

/-! ## How a bundle ends -/

/-- The issuing core after one more cycle. -/
def State.tick (s : State) : State := s.setMe (s.me.toCycle (s.me.cycle + 1))

/-- A bundle that faults has no effect but its trap (R28, R29). -/
def State.trapEnd (s : State) (t : Trap × List Nat) : State := (s.trapped t.1 t.2).tick

/-- A translation under which the stalled bundle goes on, whatever the tables hold then (R326). -/
def State.keepAs (s : State) (k : AccKind) (va : Word) (acc : Acc) : State :=
  let c := s.ctx
  s.setCtx { c with sentAs := (k, va, acc) :: c.sentAs.filter fun e => !(e.1 == k && e.2.1 == va) }

/-- A request of the stalled bundle sent to a remote home once, with the translation that it was made under (R326); one that
was given up and is still to be answered is waited for first.
Log 44: DESIGN CHOICE, safe. -/
def State.askOnce (s : State) (k : AccKind) (va : Word) (acc : Acc) (key : Nat) (f : Flit) : State :=
  if s.ctx.asked.any fun e => e.1 = key then s
  else
    let s1 := s.sendFlit acc.leaf.home 1 ((acc.flit f).forRank (s.rankOf s.agent))
    (s1.setCtx { s1.ctx with asked := Tab.put s1.ctx.asked key 0 }).keepAs k va acc

/-- The read of a row by which nothing changes at its home. -/
def State.askRow (s : State) (k : AccKind) (va : Word) (acc : Acc) : State :=
  s.askOnce k va acc acc.key (memFlit 0 acc.row 0 false 0 s.myTag 0)

/-- A request that changes something at its home: what the context releases with it is published and performed before it
leaves, once (R147, R223, R236 item 2). -/
def State.askEffect (s : State) (va : Word) (acc : Acc) (rel : Option Nat) (f : Flit) : State :=
  let key := answerKey acc.key
  if s.ctx.asked.any fun e => e.1 = key then s
  else
    let s1 := match rel with
      | some sc => (s.release sc).getD (s.publish s.agent s.agent sc)
      | none => s
    (s1.flushPubs s1.agent).askOnce .atomic va acc key f

/-- Whether a wait sends a request that changes something at its home. -/
def Wait.effect : Wait → Bool
  | .remote _ _ _ op _ _ _ _ _ => op != .load
  | .claim _ _ _ _ _ _ _ => true
  | .take _ _ _ => true
  | _ => false

/-- What a wait sends to a remote home (R144, R224, R293, R322, R364). -/
def State.sendWait (s : State) (w : Wait) : State :=
  match w with
  | .remote k va acc op word w32 val cmp rel =>
    if op = .load then s.askRow k va acc
    else s.askEffect va acc rel (memFlit 4 acc.row word.toNat w32 (memOpCode op) s.myTag (ofWords [val, cmp]))
  | .params va acc => s.askRow .read va acc
  | .claim va acc wi _ rel slotVa slot =>
    (s.keepAs .write slotVa slot).askEffect va acc (some rel) (claimFlit acc wi (va.setWidth 48 &&& ~~~63#48) s.myTag)
  | .take va acc ri => s.askEffect va acc none (takeFlit acc ri s.myTag)
  | .hub rows => rows.foldl (fun s e => s.touch e.1 e.2) s
  | .reask rows => s.setCtx (s.ctx.forget rows)
  | _ => s

/-- A wait that suspends its strand (R291, R294). -/
def Wait.suspends : Wait → Bool
  | .chanSusp _ _ _ => true
  | .packetSusp _ _ => true
  | _ => false

/-- The strand suspended by a wait. -/
def State.suspendWait (s : State) (w : Wait) : State :=
  match w with
  | .chanSusp c target count => s.suspendAt (some (c, target, count))
  | .packetSusp hdr wq => s.suspendPacket hdr wq
  | _ => s

/-- What the waits of a bundle send: the reads; a request that changes something only when nothing else of the bundle waits,
and one at a time, so that a bundle that faults has changed nothing (R28).
Log 44: DESIGN CHOICE, safe. -/
def State.sendWaits (s : State) (waits : List Wait) : State :=
  let acts := waits.filter Wait.effect
  if acts.length = waits.length then (acts.take 1).foldl State.sendWait s
  else (waits.filter fun w => !w.effect).foldl State.sendWait s

/-- A guard as the syllable of a slot reads it. -/
def State.guardAt (s : State) (slot : Nat) (g : BitVec 4) : Bool := { s with iss := { s.iss with slot := slot } }.readP g

/-- Whether a bundle holds an atomic with a result or with aq, or an enq, that issues with a true guard (R27).
Log 135: DEDUCED, unsafe. -/
def State.holdsAtomic (s : State) (l : List (Nat × Instr)) : Bool :=
  l.any fun e => match e.2 with
    | .aadd g d _ _ _ q _ => s.guardAt e.1 g && (d != 0 || q == 1)
    | .aand g d _ _ _ q _ => s.guardAt e.1 g && (d != 0 || q == 1)
    | .aor g d _ _ _ q _ => s.guardAt e.1 g && (d != 0 || q == 1)
    | .axor g d _ _ _ q _ => s.guardAt e.1 g && (d != 0 || q == 1)
    | .aswp g d _ _ _ q _ => s.guardAt e.1 g && (d != 0 || q == 1)
    | .acas g d _ _ _ q _ => s.guardAt e.1 g && (d != 0 || q == 1)
    | .afadd g d _ _ _ q _ => s.guardAt e.1 g && (d != 0 || q == 1)
    | .amin g d _ _ _ _ q _ => s.guardAt e.1 g && (d != 0 || q == 1)
    | .amax g d _ _ _ _ q _ => s.guardAt e.1 g && (d != 0 || q == 1)
    | .enq g _ _ _ => s.guardAt e.1 g
    | _ => false

/-- The translation of a jump table's entry kept for a bundle that is about to change something elsewhere, after which it
faults no more (R28). -/
def State.keepEntry (s : State) (l : List (Nat × Instr)) : State :=
  l.foldl (fun s e => match e.2 with
    | .jt g a i n _ =>
      let va := s.readS a + 8 * s.readS i
      if s.guardAt e.1 g = false ∨ (s.readS n).toNat ≤ (s.readS i).toNat then s
      else match s.xlate .read va with
        | .ok acc => s.keepAs .read va acc
        | _ => s
    | _ => s) s

/-- A bundle that must wait has no effect yet (R27): its requests are sent, or its strand suspends. -/
def State.stall (s : State) (b : Option (BitVec 256)) (l : List (Nat × Instr)) (waits : List Wait) : State :=
  let s1 := s.setCtx { s.ctx with waits := waits, bundle := b, ended := false, mixed := s.holdsAtomic l }
  let s2 :=
    if waits.all Wait.suspends then waits.head?.elim s1 s1.suspendWait
    else (if waits.all Wait.effect then s1.keepEntry l else s1).sendWaits waits
  (s2.tick).actStops s.iss.core

/-- Whether an M syllable is a beat that issues with a true guard (R272).
Log 25: DEDUCED, unsafe. -/
def State.beat (s : State) (l : List (Nat × Instr)) : Bool :=
  l.any fun e => match e.2 with
    | .acc g _ _ _ _ => s.guardAt e.1 g
    | .dacc g _ _ _ => s.guardAt e.1 g
    | _ => false

/-- The program context's counts after a bundle (R23, R55). -/
def ProgX.afterBundle (x : ProgX) (iss : Issue) : ProgX :=
  { x with shCnt := if iss.fmtSet then x.shCnt else x.shCnt - 1,
           rcnt0 := x.rcnt0 + BitVec.ofNat 64 iss.drawn0, rcnt1 := x.rcnt1 + BitVec.ofNat 64 iss.drawn1 }

/-- The boundary after a bundle without a transfer (R102). -/
def State.endBundle (s : State) : State :=
  if s.iss.xfer then s
  else (s.setCtx { s.ctx with boundary := some s.iss.pc }).boundaryOf s.iss.core s.iss.fw

/-- The end of a bundle that has taken effect. -/
def State.commit (s : State) : State :=
  let s1 := s.endBundle
  let s2 := s1.setCtx s1.ctx.settle
  let k := s2.me
  let s3 := s2.setMe { k with px := if s.iss.fw then k.px else k.px.afterBundle s2.iss }
  let s4 := s3.tick
  if s.iss.fw then s4 else s4.actStops s.iss.core

/-- The bundle executed from the state in which it has been fetched; `s0` is the state before it. -/
def State.runBundle (s0 s : State) (b : BitVec 256) : Host.Outcome State Fault Refusal :=
  let f := s.fates b
  match runSyllables (issueOrder f.1) s f.2 with
  | .next (s1, ts) =>
    match firstTrap ts with
    | some t => .next (s0.trapEnd t)
    | none => if s1.iss.waits = [] then .next s1.commit else .next (s0.stall (some b) f.1 s1.iss.waits)
  | .fault f => .fault f
  | .refused r => .refused r

/-- The bundle at the pc of the issuing context. One with a beat that the limiter has no room for is held until the
core's next window begins (R273).
Log 25: DEDUCED, unsafe. -/
def State.issueBundle (s : State) : Host.Outcome State Fault Refusal :=
  match s.fetchBundle with
  | .error (.trap t errs) => .next (s.trapEnd (t, errs))
  | .error (.wait w) => .next (s.stall none [] [w])
  | .error (.stop f) => .fault f
  | .error (.ok s1) => .next s1
  | .ok (b, s1) =>
    if s1.beat (s1.fates b).1 then
      let held := s.me.holdBeat 1
      let k := (held.landDue false held.cycle).landDue true held.cycle
      if k.lim.beats + 1 ≤ k.lim.most then (s.setMe k).runBundle (s1.setMe k) b else .next (s.setMe k)
    else s.runBundle s1 b

/-! ## The turn of a core (R13) -/

/-- A context that could issue a bundle now.
Log 17: DEDUCED, safe. -/
def State.readyCtx (s : State) (c : Nat) (fw : Bool) : Bool :=
  let k := s.core c
  let x := k.ctx fw
  x.run == .running && !k.dead && (fw || k.repart.isNone) && x.waits.all fun w => s.waitOver c fw w

/-- Whether the firmware context is within its share of 256 consecutive cycles (R13).
Log 17: DEDUCED, safe. -/
def Core.withinShare (k : Core) : Bool :=
  decide ((k.fx.issued.filter fun t => decide (k.cycle < t + 256)).length < k.fx.fwshare)

/-- Which context issues: the firmware's first while it is within its share, or the program context is not ready; a
stalled bundle that nothing else keeps from the core is tried again.
Log 17: DEDUCED, safe. -/
def State.chooseCtx (s : State) (c : Nat) : Option Bool :=
  let k := s.core c
  let p := s.readyCtx c false
  if s.readyCtx c true && (!p || k.withinShare) then some true
  else if p then some false
  else if k.prog.run == .running && k.repart.isNone then some false
  else if k.fw.run == .running then some true
  else none

/-- A firmware bundle counted in its share, where the program context was ready as it issued (R13); one that stalls has not
issued yet. `s` is the state in which it was to issue, `t` the state after.
Log 17: DEDUCED, safe. -/
def State.countShare (s : State) (c : Nat) (t : State) : State :=
  let now := (s.core c).cycle
  let k := t.core c
  if s.readyCtx c false ∧ k.fw.waits = [] then
    t.setCore c { k with fx := { k.fx with issued := now :: k.fx.issued.filter fun x => decide (now < x + 256) } }
  else t

/-- The core after `hold` more cycles, with the results that are due.
Log 3: DESIGN CHOICE, safe. -/
def State.openTurn (s : State) (c hold : Nat) : State :=
  let s1 := s.syncLimits c
  let k := (s1.core c).toCycle ((s1.core c).cycle + hold)
  s1.setCore c ((k.landDue false k.cycle).landDue true k.cycle)

/-- The issue frame of a context's bundle.
Log 3: DESIGN CHOICE, safe. -/
def State.frame (s : State) (c : Nat) (fw : Bool) (pick : Nat) : State :=
  { s with iss := { core := c, fw := fw, pc := ((s.core c).ctx fw).pc, pick := pick } }

/-- What a core does in its turn: a switch of firmware or an event that is due at its boundary, then one bundle. -/
def State.coreTurn (s : State) (c pick hold : Nat) : Host.Outcome State Fault Refusal :=
  let s1 := (((s.openTurn c hold).dueSwitch c).takeAsync c).actStops c
  match s1.chooseCtx c with
  | none => .next (s1.setCore c ((s1.core c).toCycle ((s1.core c).cycle + 1)))
  | some fw =>
    match (s1.frame c fw pick).issueBundle with
    | .next s2 => .next (if fw then s1.countShare c s2 else s2)
    | r => r

/-- Time passing (R441, R443 to R446): the ceiling is brought up to date, requests whose time has come are sent again, the module's
offset from its reference changes, and its power is measured anew.
Log 3: DESIGN CHOICE, safe; log 114: DESIGN CHOICE, safe. -/
def State.passTime (s : State) (ns : Nat) : State :=
  let h := s.hub.caughtUp
  let power := if h.started then Config.free 64 [51, s.fresh] &&& 0x0000FFFF0000FFFF else 0
  { s with hub := { h with gtime := h.gtime + ns, off := h.offAfter ns s.fresh, power := power } }.flushLater

/-- What a turn does.
Log 1: DESIGN CHOICE, safe; log 24: DESIGN CHOICE, safe. -/
def State.act (s : State) : Turn → Host.Outcome State Fault Refusal
  | .core c pick hold => s.coreTurn c pick hold
  | .time ns => .next (s.passTime ns)
  | .occur i => if i.scheduled then exec i s else .next s
  | .walk asid va => .next { s with mem := s.mem.cacheWalk asid va.toNat }
  | .cached l => .next { s with mem := s.mem.useCached l }
  | .retest i => .next (s.retest i)
  | .moveWaiter i => .next (s.moveFar i)
  | .mirrorWrite i => .next (s.mirrorWrite i)
  | .badHeader i => .next { s with hub := { s.hub with queueTable := s.hub.queueTable.eraseIdx i } }
  | .cellError row => .next (s.cellError row)
  | .correctedError row => .next (s.correctedError row)
  | .sramError channel second => .next { s with mem := s.mem.sramError channel second }
  | .refresh bank hint => .next (s.refreshBank bank hint)
  | .enterRank block => .next (s.enterRank block)
  | .freeRank v => .next (s.freeRank v)
  | .reportKill job => .next (s.eventMessage 1 (job.setWidth 64))
  | .damage d => .next (s.damaged d)
  | .portLink b => .next (s.portLink b)

/-- One turn: what it does, and then what the hub and the base dies have met is reported (R321, R343, R344). -/
def State.turn (s : State) (t : Turn) : Host.Outcome State Fault Refusal :=
  match s.act t with
  | .next s1 => .next s1.reportPending
  | r => r

/-- The next turn: the first of the list, or with none the core that issued last.
Log 2: DESIGN CHOICE, unsafe. -/
def State.nextTurn (s : State) : Turn := s.turns.headD (.core s.iss.core 0 0)

/-! ## A word placed for the next step -/

/-- The bundle that holds one syllable, no-ops elsewhere. -/
def loneBundle (slot : Nat) (w : Syl) : BitVec 256 := (w.setWidth 256) <<< (32 * slot)

/-- The row whose first bundle is given. -/
def bundleRow (b : BitVec 256) : Row := b.setWidth 512

/-- The machine running, with its page tables, a bundle at virtual address 0 and core 0 about to issue it in a
context: what a boot and a launch would have placed.
Log 8: DESIGN CHOICE, safe. -/
def State.placeBundle (s : State) (fw : Bool) (b : BitVec 256) : State :=
  let k := s.core 0
  let ready (x : Ctx) : Ctx := { x with run := .running, pc := 0, asid := 0, waits := [], bundle := none }
  let k' : Core :=
    { k with
      prog := if fw then { k.prog with run := .idle } else ready k.prog
      fw := if fw then ready k.fw else { k.fw with run := .sleeping, waits := [] }
      fx := { k.fx with events := [] }
      dead := false, repart := none, swap := false, preempt := false, kill := false, faulty := none, code := [] }
  let body := rowByteList (bundleRow b)
  { s.setCore 0 k' with
    mem := s.mem.boot s.hub.tnode body
    hub := { s.hub with bst := 4, started := true }
    iss := { s.iss with core := 0 }
    turns := [] }

end Sys2Proof.Machine
end

