-- ==== Sys2Proof/Machine/Step.lean ====
section
/-! DEFINITION. One step of the module: the next turn. -/

namespace Sys2Proof.Machine

/-- One step: the next turn is taken from the list and carried out, with free values of its own.
Log 2: DESIGN CHOICE, unsafe; log 4: DESIGN CHOICE, safe. -/
def step (s : State) : Host.Outcome State Fault Refusal :=
  { s with turns := s.turns.tail, fresh := s.fresh + 1 }.turn s.nextTurn

/-- The machine with the instruction whose table word is `w` where the next step fetches: in its slot of a bundle
that holds nothing else.
Log 8: DESIGN CHOICE, safe. -/
def State.withFetchWord (s : State) (_nbits w : Nat) : State :=
  let v := BitVec.ofNat 32 w
  let p := (tableSlot v).getD (false, 0)
  s.placeBundle p.1 (loneBundle p.2 v)

end Sys2Proof.Machine
end

