-- ==== Sys2Proof/Safety.lean ====
section
/-! DEFINITION. The terms in which claims are stated: the guard of a syllable, the invariant of memory, what a
step may leave changed, a context some cycles later, and the results of lanes. -/

namespace Sys2Proof

/-- The guard of a syllable (R16, R69); an event of the table has none. -/
def Instr.guard : Instr → Option (BitVec 4)
  | .nop g => some g
  | .br g _ => some g
  | .brl g _ _ => some g
  | .jr g _ => some g
  | .jrl g _ _ => some g
  | .jt g _ _ _ _ => some g
  | .loop g _ _ _ => some g
  | .loopi g _ _ _ => some g
  | .lbrk g _ => some g
  | .wfmt g _ => some g
  | .mfs g _ _ => some g
  | .mts g _ _ => some g
  | .trap g _ => some g
  | .bkpt g _ => some g
  | .tret g => some g
  | .susp g => some g
  | .yield g => some g
  | .exitS g _ => some g
  | .chk g _ _ _ => some g
  | .stepB g => some g
  | .grel g => some g
  | .tlbiPage g _ _ => some g
  | .tlbiAsid g _ _ => some g
  | .tlbiAll g _ _ => some g
  | .asw g _ => some g
  | .ctxs g _ => some g
  | .ctxr g _ => some g
  | .fwsh g _ => some g
  | .qscQuiesce g _ => some g
  | .qscEndQuiesce g _ => some g
  | .qscQueueInvalidate g _ => some g
  | .cres g => some g
  | .ckill g => some g
  | .add g _ _ _ => some g
  | .sub g _ _ _ => some g
  | .sAnd g _ _ _ => some g
  | .sOr g _ _ _ => some g
  | .sXor g _ _ _ => some g
  | .andn g _ _ _ => some g
  | .shl g _ _ _ => some g
  | .shr g _ _ _ => some g
  | .sar g _ _ _ => some g
  | .ror g _ _ _ => some g
  | .mul g _ _ _ => some g
  | .mulh g _ _ _ => some g
  | .mulhn g _ _ _ => some g
  | .div g _ _ _ => some g
  | .divn g _ _ _ => some g
  | .rem g _ _ _ => some g
  | .remn g _ _ _ => some g
  | .sMin g _ _ _ => some g
  | .sMax g _ _ _ => some g
  | .minn g _ _ _ => some g
  | .maxn g _ _ _ => some g
  | .ext g _ _ _ => some g
  | .extn g _ _ _ => some g
  | .ins g _ _ _ => some g
  | .clz g _ _ => some g
  | .ctz g _ _ => some g
  | .pcnt g _ _ => some g
  | .sel g _ _ _ _ => some g
  | .cmp g _ _ _ _ => some g
  | .cmpi g _ _ _ _ => some g
  | .pand g _ _ _ _ _ => some g
  | .por g _ _ _ _ _ => some g
  | .pxor g _ _ _ _ _ => some g
  | .addi g _ _ _ => some g
  | .andi g _ _ _ => some g
  | .ori g _ _ _ => some g
  | .xori g _ _ _ => some g
  | .shli g _ _ _ => some g
  | .shri g _ _ _ => some g
  | .sari g _ _ _ => some g
  | .li g _ _ => some g
  | .lih g _ _ => some g
  | .agb g _ _ => some g
  | .ags g _ _ _ => some g
  | .agr g _ _ => some g
  | .ldw g _ _ => some g
  | .stw g _ _ => some g
  | .ldr g _ _ => some g
  | .str g _ _ => some g
  | .ldsy g _ _ => some g
  | .stsy g _ _ => some g
  | .feq g _ _ => some g
  | .fes g _ _ => some g
  | .tlr g _ _ => some g
  | .tls g _ _ => some g
  | .barv g _ _ => some g
  | .barw g _ _ => some g
  | .gldw g _ _ _ => some g
  | .gstw g _ _ _ => some g
  | .gldr g _ _ _ => some g
  | .gstr g _ _ _ => some g
  | .gldws g _ _ _ => some g
  | .gldrs g _ _ _ => some g
  | .aadd g _ _ _ _ _ _ => some g
  | .amin g _ _ _ _ _ _ _ => some g
  | .amax g _ _ _ _ _ _ _ => some g
  | .aand g _ _ _ _ _ _ => some g
  | .aor g _ _ _ _ _ _ => some g
  | .axor g _ _ _ _ _ _ => some g
  | .aswp g _ _ _ _ _ _ => some g
  | .acas g _ _ _ _ _ _ => some g
  | .afadd g _ _ _ _ _ _ => some g
  | .aoadd g _ _ _ _ _ _ => some g
  | .phase g _ => some g
  | .copy g _ _ _ _ _ _ => some g
  | .gath g _ _ _ _ _ _ => some g
  | .scat g _ _ _ _ _ _ => some g
  | .wstr g _ _ _ _ _ => some g
  | .cwid g _ _ _ => some g
  | .cwcnt g _ _ _ => some g
  | .trig g _ _ _ => some g
  | .enq g _ _ _ => some g
  | .deq g _ _ _ => some g
  | .cbind g _ _ _ _ _ _ => some g
  | .bred g _ _ _ _ _ _ => some g
  | .hist g _ _ _ _ _ => some g
  | .sarv g => some g
  | .vadd g _ _ _ _ _ => some g
  | .vsub g _ _ _ _ _ => some g
  | .vmul g _ _ _ _ _ => some g
  | .vmulh g _ _ _ _ _ => some g
  | .vmin g _ _ _ _ _ => some g
  | .vmax g _ _ _ _ _ => some g
  | .vminn g _ _ _ _ _ => some g
  | .vmaxn g _ _ _ _ _ => some g
  | .vand g _ _ _ _ _ => some g
  | .vor g _ _ _ _ _ => some g
  | .vxor g _ _ _ _ _ => some g
  | .vsel g _ _ _ _ _ => some g
  | .vshli g _ _ _ _ _ => some g
  | .vshri g _ _ _ _ _ => some g
  | .vsari g _ _ _ _ _ => some g
  | .vperm g _ _ _ _ _ => some g
  | .vbc g _ _ _ _ => some g
  | .vins g _ _ _ _ _ => some g
  | .vext g _ _ _ _ => some g
  | .vcmp g _ _ _ _ _ => some g
  | .mand g _ _ _ => some g
  | .mor g _ _ _ => some g
  | .mxor g _ _ _ => some g
  | .mandn g _ _ _ => some g
  | .mset g _ _ => some g
  | .vfaddF64 g _ _ _ _ _ => some g
  | .vfaddF32 g _ _ _ _ _ => some g
  | .vfaddBf16 g _ _ _ _ _ => some g
  | .vfaddF16 g _ _ _ _ _ => some g
  | .vfsubF64 g _ _ _ _ _ => some g
  | .vfsubF32 g _ _ _ _ _ => some g
  | .vfsubBf16 g _ _ _ _ _ => some g
  | .vfsubF16 g _ _ _ _ _ => some g
  | .vfmulF64 g _ _ _ _ _ => some g
  | .vfmulF32 g _ _ _ _ _ => some g
  | .vfmulBf16 g _ _ _ _ _ => some g
  | .vfmulF16 g _ _ _ _ _ => some g
  | .vfmaF64 g _ _ _ _ _ => some g
  | .vfmaF32 g _ _ _ _ _ => some g
  | .vfmaBf16 g _ _ _ _ _ => some g
  | .vfmaF16 g _ _ _ _ _ => some g
  | .vfmin g _ _ _ _ _ => some g
  | .vfmax g _ _ _ _ _ => some g
  | .vfcmp g _ _ _ _ _ => some g
  | .vcvt g _ _ _ _ _ => some g
  | .vrcpe g _ _ _ _ => some g
  | .vrsqe g _ _ _ _ => some g
  | .vrcps g _ _ _ _ _ => some g
  | .vrsqs g _ _ _ _ _ => some g
  | .vexp2 g _ _ _ _ => some g
  | .vlog2 g _ _ _ _ => some g
  | .vredi g _ _ _ _ _ => some g
  | .vredf g _ _ _ _ _ => some g
  | .vrfill g _ _ _ => some g
  | .vhist g _ _ _ => some g
  | .vrmg031 g _ _ _ _ => some g
  | .vrmg3263 g _ _ _ _ => some g
  | .vbpt g _ _ _ => some g
  | .vpack g _ _ _ _ _ _ => some g
  | .vunpk g _ _ _ _ _ => some g
  | .vdig g _ _ _ _ _ _ => some g
  | .vbq g _ _ _ _ _ => some g
  | .vbdq g _ _ _ _ _ => some g
  | .push g _ _ => some g
  | .shift g => some g
  | .acc g _ _ _ _ => some g
  | .dacc g _ _ _ => some g
  | .drd g _ _ _ => some g
  | .drc g _ _ _ => some g
  | .mclr g _ => some g
  | .sldA g _ => some g
  | .sldB g _ => some g
  | .a2v g _ _ _ => some g
  | .v2a g _ _ _ => some g
  | .a2s g _ _ _ _ => some g
  | .aclr g _ _ => some g
  | _ => none

/-- The slot of a syllable (R12, R78, R80, R83, R85, R88, R90): 0 C, 1 X (and Y), 2 Y alone, 3 L, 4 G, 5 V, 6 W alone, 7 M.
An event has none, and neither have a long immediate, which is a pair, and the two further steps of quiesce, which
share its word. -/
def Instr.slot : Instr → Option Nat
  | .nop .. | .br .. | .brl .. | .jr .. | .jrl .. | .jt .. | .loop .. | .loopi .. | .lbrk .. | .wfmt .. | .mfs ..
  | .mts .. | .trap .. | .bkpt .. | .tret .. | .susp .. | .yield .. | .exitS .. | .chk .. | .stepB .. | .grel ..
  | .tlbiPage .. | .tlbiAsid .. | .tlbiAll .. | .asw .. | .ctxs .. | .ctxr .. | .fwsh .. | .qscQuiesce .. | .cres ..
  | .ckill .. => some 0
  | .add .. | .sub .. | .sAnd .. | .sOr .. | .sXor .. | .andn .. | .shl .. | .shr .. | .sar .. | .ror .. | .mul ..
  | .mulh .. | .mulhn .. | .div .. | .divn .. | .rem .. | .remn .. | .sMin .. | .sMax .. | .minn .. | .maxn ..
  | .ext .. | .extn .. | .ins .. | .clz .. | .ctz .. | .pcnt .. | .sel .. | .cmp .. | .cmpi .. | .pand .. | .por ..
  | .pxor .. | .addi .. | .andi .. | .ori .. | .xori .. | .shli .. | .shri .. | .sari .. => some 1
  | .agb .. | .ags .. | .agr .. => some 2
  | .ldw .. | .stw .. | .ldr .. | .str .. | .ldsy .. | .stsy .. | .feq .. | .fes .. | .tlr .. | .tls .. | .barv ..
  | .barw .. => some 3
  | .gldw .. | .gstw .. | .gldr .. | .gstr .. | .gldws .. | .gldrs .. | .aadd .. | .amin .. | .amax .. | .aand ..
  | .aor .. | .axor .. | .aswp .. | .acas .. | .afadd .. | .aoadd .. | .phase .. | .copy .. | .gath .. | .scat ..
  | .wstr .. | .cwid .. | .cwcnt .. | .trig .. | .enq .. | .deq .. | .cbind .. | .bred .. | .hist .. | .sarv .. => some 4
  | .vadd .. | .vsub .. | .vmul .. | .vmulh .. | .vmin .. | .vmax .. | .vminn .. | .vmaxn .. | .vand .. | .vor ..
  | .vxor .. | .vsel .. | .vshli .. | .vshri .. | .vsari .. | .vperm .. | .vbc .. | .vins .. | .vext .. | .vcmp ..
  | .mand .. | .mor .. | .mxor .. | .mandn .. | .mset .. | .vfaddF64 .. | .vfaddF32 .. | .vfaddBf16 .. | .vfaddF16 ..
  | .vfsubF64 .. | .vfsubF32 .. | .vfsubBf16 .. | .vfsubF16 .. | .vfmulF64 .. | .vfmulF32 .. | .vfmulBf16 ..
  | .vfmulF16 .. | .vfmaF64 .. | .vfmaF32 .. | .vfmaBf16 .. | .vfmaF16 .. | .vfmin .. | .vfmax .. | .vfcmp ..
  | .vcvt .. | .vrcpe .. | .vrsqe .. | .vrcps .. | .vrsqs .. | .vexp2 .. | .vlog2 .. | .vredi .. | .vredf ..
  | .vrfill .. | .vhist .. => some 5
  | .vrmg031 .. | .vrmg3263 .. | .vbpt .. | .vpack .. | .vunpk .. | .vdig .. | .vbq .. | .vbdq .. => some 6
  | .push .. | .shift .. | .acc .. | .dacc .. | .drd .. | .drc .. | .mclr .. | .sldA .. | .sldB .. | .a2v ..
  | .v2a .. | .a2s .. | .aclr .. => some 7
  | _ => none

/-- Whether a syllable is present in a context (R12, R78, R83, R85): the firmware context has the slots C, X, Y, L and
G, without what needs vector registers or a matrix unit; the program context lacks the privileged codes. -/
def Instr.present (fw : Bool) : Instr → Bool
  | .tlbiPage .. | .tlbiAsid .. | .tlbiAll .. | .asw .. | .ctxs .. | .ctxr .. | .fwsh .. | .qscQuiesce .. | .cres ..
  | .ckill .. => fw
  | .ldr .. | .str .. | .ldsy .. | .stsy .. | .tlr .. | .tls .. | .barv .. | .barw .. | .gldr .. | .gstr ..
  | .gldrs .. | .enq .. | .deq .. => !fw
  | i => !fw || match i.slot with
    | some k => decide (k < 5)
    | none => false

end Sys2Proof

namespace Sys2Proof.Machine

/-! ## Memory -/

/-- The invariant of memory: its list of bytes is in canonical form. -/
def State.Canonical (s : State) : Prop := s.mem.wf = true

/-- One byte of memory as the last write in its row's coherence order left it. -/
def Mem.newest (m : Mem) (a : Nat) : Byte := (m.latest (a / 64)).extractLsb' (8 * (a % 64)) 8

/-- Every byte of memory reads as before, at its home and in coherence order. -/
def MemoryKept (s t : State) : Prop :=
  (∀ a, t.mem.byte a = s.mem.byte a) ∧ ∀ a, t.mem.newest a = s.mem.newest a

/-- Every byte reads as before but those of the row `r`. -/
def MemoryKeptBut (r : Nat) (s t : State) : Prop :=
  ∀ a, a / 64 ≠ r → t.mem.byte a = s.mem.byte a ∧ t.mem.newest a = s.mem.newest a

/-- No machine check waits for the end of a step to be reported. -/
def State.Reported (s : State) : Prop := s.mem.walkErrs = [] ∧ s.mem.reports = [] ∧ s.mem.recoveries = 0

/-- The state in which the queue controller has looked at the named rows: those of this module are read, and the others asked
for. -/
def State.rowsRead (s : State) (l : List (BitVec 16 × Word)) : State := l.foldl (fun s e => s.touch e.1 e.2) s

/-- No named row has still to come from another module. -/
def State.RowsHere (s : State) (l : List (BitVec 16 × Word)) : Prop :=
  ∀ e ∈ l, (s.rowsRead l).rowReady e.1 e.2 = true

/-! ## What an issue leaves changed -/

/-- Only results on their way to the named destinations, and the named port latches, are new: every other register,
flag, special register, scratchpad row, byte of memory and part of the machine is as it was. -/
structure OnlyIssues (dests : List Dest) (latches : List Nat) (s t : State) : Prop where
  rest : t = { s with cores := t.cores }
  others : ∀ c, c ≠ s.iss.core → t.core c = s.core c
  here : t.me =
    { (s.me.setCtx s.iss.fw { s.ctx with pend := t.ctx.pend }) with
      ser := t.me.ser, px := { s.me.px with latch := t.me.px.latch } }
  adds : ∀ e ∈ t.ctx.pend, e ∈ s.ctx.pend ∨ e.dest ∈ dests
  latch : ∀ n, n ∉ latches → Tab.get 0 t.me.px.latch n = Tab.get 0 s.me.px.latch n

/-- Only the scratchpad of the issuing core is changed, in the named rows. -/
structure OnlyScratch (rows : List Nat) (s t : State) : Prop where
  rest : t = { s with cores := t.cores }
  others : ∀ c, c ≠ s.iss.core → t.core c = s.core c
  here : t.me = { s.me with sp := t.me.sp }
  part : t.me.sp.part = s.me.sp.part
  row : ∀ i, i ∉ rows → t.me.sp.row i = s.me.sp.row i ∧ t.me.sp.isFull i = s.me.sp.isFull i ∧
    t.me.sp.bad.contains i = s.me.sp.bad.contains i

/-- Only the core c is changed. -/
def OnlyCore (c : Nat) (s t : State) : Prop :=
  t = { s with cores := t.cores } ∧ ∀ d, d ≠ c → t.core d = s.core d

/-- Only the matrix unit of the issuing core, its rings and tile table, its count of beats, and which writes the core has
in view are changed; every byte of memory is as it was. -/
structure OnlyMatrix (s t : State) : Prop where
  rest : t = { s with cores := t.cores, mem := { s.mem with log := t.mem.log } }
  others : ∀ c, c ≠ s.iss.core → t.core c = s.core c
  here : t.me = { s.me with
    px := { s.px with mx := t.px.mx, rings := t.px.rings, tiles := t.px.tiles }, lim := t.me.lim }
  seen : ∀ b, t.mem.newest b = s.mem.newest b

/-- The next `rows` of ring `q` can be read (R187): the ring has a tile at its head that is configured, ready and long
enough, and none of the rows is poisoned (R394). -/
structure State.RingHas (s : State) (q : Nat) (rows : List Row) : Prop where
  some_ : (s.px.ring q).nt ≠ 0
  ready : (s.px.tile (s.px.headTile q)).st = .ready
  here : s.tileCfg (s.px.tile (s.px.headTile q)) = true
  valid : (s.px.ring q).rcur + rows.length ≤ (s.px.tile (s.px.headTile q)).vr
  data : ∀ j, j < rows.length → let i := (s.px.tile (s.px.headTile q)).first + (s.px.ring q).rcur + j
    i ∉ s.sp.bad ∧ rows[j]? = some (s.sp.row i)

/-! ## Time -/

/-- The state n cycles of the issuing core later, with the results of the issuing context that are due landed. -/
def State.later (s : State) (n : Nat) : State :=
  s.setMe ((s.me.toCycle (s.me.cycle + n)).landDue s.iss.fw (s.me.cycle + n))

/-- No result of the issuing context is on its way to a destination. -/
def State.settled (s : State) (d : Dest) : Prop := ∀ e ∈ s.ctx.pend, e.dest ≠ d

/-! ## Lanes -/

/-- The n lanes of width w of a row are those that f gives. -/
def LanesAre (w n : Nat) (r : Row) (f : Nat → Nat) : Prop := ∀ i, i < n → lane w r i = f i

/-- The lanes of a row but those under the mask bits `u`, which nothing constrains (R182). -/
def LanesBut (w n : Nat) (r : Row) (u : Word) (f : Nat → Nat) : Prop :=
  ∀ i, i < n → u.getLsbD i = false → lane w r i = f i

/-- An exact integer result reduced to w bits (R44): wrapped, or with saturation the nearer bound. -/
def reducedTo (sat : Bool) (w : Nat) (x : Int) : Nat :=
  let top : Int := 2 ^ (w - 1)
  if sat then (if x < -top then 2 ^ (w - 1) else if top ≤ x then 2 ^ (w - 1) - 1 else (x % (2 ^ w : Int)).toNat)
  else (x % (2 ^ w : Int)).toNat

/-- Bits [lo + n − 1 : lo] of a number. -/
def bitsOf (x lo n : Nat) : Nat := x / 2 ^ lo % 2 ^ n

/-- The compare conditions of R121 by code: eq, ne, lt, ge, ltn, gen, tst. -/
def holds (c : BitVec 3) (a b : Word) : Bool :=
  match c.toNat with
  | 0 => decide (a.toNat = b.toNat)
  | 1 => decide (a.toNat ≠ b.toNat)
  | 2 => decide (a.toInt < b.toInt)
  | 3 => decide (a.toInt ≥ b.toInt)
  | 4 => decide (a.toNat < b.toNat)
  | 5 => decide (a.toNat ≥ b.toNat)
  | _ => decide (a.toNat &&& b.toNat ≠ 0)

end Sys2Proof.Machine
end

