-- ==== Sys2Proof/Certificates/Slice0/Obligations.lean ====
section
/-! DEFINITION. The statements for the provers. Where one statement joins several claims, each claim stands under its
own name in `Claims`, beside it. -/

open Sys2Proof Sys2Proof.Machine

/-! ## Scalar instructions -/

/-- R117, R116: the three-register arithmetic and logic instructions complete with the result of exact arithmetic on
the natural readings x, y and the signed readings X, Y, reduced to 64 bits, under the latency bound of the table. -/
def Claims.ScalarArithmetic : Prop :=
  ∀ (s : State) (g : BitVec 4) (d a b : BitVec 6), s.readP g = true →
    let x := (s.readS a).toNat
    let y := (s.readS b).toNat
    let X := (s.readS a).toInt
    let Y := (s.readS b).toInt
    let k := y % 64
    exec (.add g d a b) s = .next (s.issueS d (BitVec.ofNat 64 (x + y)) 1) ∧
    exec (.sub g d a b) s = .next (s.issueS d (BitVec.ofInt 64 (X - Y)) 1) ∧
    exec (.sAnd g d a b) s = .next (s.issueS d (BitVec.ofNat 64 (x &&& y)) 1) ∧
    exec (.sOr g d a b) s = .next (s.issueS d (BitVec.ofNat 64 (x ||| y)) 1) ∧
    exec (.sXor g d a b) s = .next (s.issueS d (BitVec.ofNat 64 (x ^^^ y)) 1) ∧
    exec (.andn g d a b) s = .next (s.issueS d (BitVec.ofNat 64 (x &&& (2 ^ 64 - 1 - y))) 1) ∧
    exec (.shl g d a b) s = .next (s.issueS d (BitVec.ofNat 64 (x * 2 ^ k)) 1) ∧
    exec (.shr g d a b) s = .next (s.issueS d (BitVec.ofNat 64 (x / 2 ^ k)) 1) ∧
    exec (.sar g d a b) s = .next (s.issueS d (BitVec.ofInt 64 (X / 2 ^ k)) 1) ∧
    exec (.ror g d a b) s = .next (s.issueS d (BitVec.ofNat 64 (x / 2 ^ k + x * 2 ^ (64 - k))) 1) ∧
    exec (.mul g d a b) s = .next (s.issueS d (BitVec.ofNat 64 (x * y)) 3) ∧
    exec (.mulh g d a b) s = .next (s.issueS d (BitVec.ofInt 64 (X * Y / 2 ^ 64)) 4) ∧
    exec (.mulhn g d a b) s = .next (s.issueS d (BitVec.ofNat 64 (x * y / 2 ^ 64)) 4) ∧
    exec (.sMin g d a b) s = .next (s.issueS d (BitVec.ofInt 64 (min X Y)) 1) ∧
    exec (.sMax g d a b) s = .next (s.issueS d (BitVec.ofInt 64 (max X Y)) 1) ∧
    exec (.minn g d a b) s = .next (s.issueS d (BitVec.ofNat 64 (min x y)) 1) ∧
    exec (.maxn g d a b) s = .next (s.issueS d (BitVec.ofNat 64 (max x y)) 1)

/-- R118: the divisions complete for every divisor, zero among them, and truncate toward zero. -/
def Claims.ScalarDivision : Prop :=
  ∀ (s : State) (g : BitVec 4) (d a b : BitVec 6), s.readP g = true →
    let x := (s.readS a).toNat
    let y := (s.readS b).toNat
    let X := (s.readS a).toInt
    let Y := (s.readS b).toInt
    exec (.div g d a b) s = .next (s.issueS d (BitVec.ofInt 64
      (if Y = 0 then -1 else if X = -2 ^ 63 ∧ Y = -1 then -2 ^ 63 else X.tdiv Y)) 26) ∧
    exec (.rem g d a b) s = .next (s.issueS d (BitVec.ofInt 64
      (if Y = 0 then X else if X = -2 ^ 63 ∧ Y = -1 then 0 else X - Y * X.tdiv Y)) 26) ∧
    exec (.divn g d a b) s = .next (s.issueS d (BitVec.ofNat 64 (if y = 0 then 2 ^ 64 - 1 else x / y)) 26) ∧
    exec (.remn g d a b) s = .next (s.issueS d (BitVec.ofNat 64 (if y = 0 then x else x - y * (x / y))) 26)

/-- The scalar arithmetic, logic, shift, multiply and divide instructions each deliver the result the tables give for
every operand, with its latency bound, and nothing else changes. -/
def Obligations.ScalarIntegers : Prop :=
  Claims.ScalarArithmetic ∧ Claims.ScalarDivision

/-- R119: the bit-field and counting instructions, bit by bit: pos and len come from s[b], and bits at 64 and above
read zero and are dropped. -/
def Obligations.ScalarBitFields : Prop :=
  ∀ (s : State) (g : BitVec 4) (d a b : BitVec 6), s.readP g = true →
    let x := s.readS a
    let pos := bitsOf (s.readS b).toNat 0 6
    let len := bitsOf (s.readS b).toNat 6 6 + 1
    (∃ v, exec (.ext g d a b) s = .next (s.issueS d v 2) ∧
      ∀ i, i < 64 → v.getLsbD i = x.getLsbD (pos + min i (len - 1))) ∧
    (∃ v, exec (.extn g d a b) s = .next (s.issueS d v 2) ∧
      ∀ i, i < 64 → v.getLsbD i = (decide (i < len) && x.getLsbD (pos + i))) ∧
    (∃ v, exec (.ins g d a b) s = .next (s.issueS d v 2) ∧
      ∀ i, i < 64 → v.getLsbD i =
        if pos ≤ i ∧ i < pos + len then x.getLsbD (i - pos) else (s.readS d).getLsbD i) ∧
    (∃ n, exec (.clz g d a) s = .next (s.issueS d (BitVec.ofNat 64 n) 2) ∧ n ≤ 64 ∧
      (∀ i, i < n → x.getLsbD (63 - i) = false) ∧ (n < 64 → x.getLsbD (63 - n) = true)) ∧
    (∃ n, exec (.ctz g d a) s = .next (s.issueS d (BitVec.ofNat 64 n) 2) ∧ n ≤ 64 ∧
      (∀ i, i < n → x.getLsbD i = false) ∧ (n < 64 → x.getLsbD n = true)) ∧
    exec (.pcnt g d a) s =
      .next (s.issueS d (BitVec.ofNat 64 ((List.range 64).filter fun i => x.getLsbD i).length) 2)

/-- R120 to R122, R16: select, the compares with their predicate pair, and predicate logic. -/
def Claims.ScalarConditions : Prop :=
  ∀ (s : State) (g : BitVec 4), s.readP g = true →
    (∀ d a b f, exec (.sel g d a b f) s =
      .next (s.issueS d (if s.readP f then s.readS a else s.readS b) 1)) ∧
    (∀ j c a b, c ≠ 7#3 → exec (.cmp g j c a b) s =
      .next ((s.issueP (2 * j.toNat) (holds c (s.readS a) (s.readS b)) 1).issueP (2 * j.toNat + 1)
        (!holds c (s.readS a) (s.readS b)) 1)) ∧
    (∀ j c a i, c ≠ 7#3 → exec (.cmpi g j c a i) s =
      .next ((s.issueP (2 * j.toNat) (holds c (s.readS a) (BitVec.ofInt 64 i.toInt)) 1).issueP (2 * j.toNat + 1)
        (!holds c (s.readS a) (BitVec.ofInt 64 i.toInt)) 1)) ∧
    (∀ d a b (n m : BitVec 1),
      let x := s.readP a != (n == 1)
      let y := s.readP b != (m == 1)
      exec (.pand g d a b n m) s = .next (s.issueP d.toNat (x && y) 1) ∧
      exec (.por g d a b n m) s = .next (s.issueP d.toNat (x || y) 1) ∧
      exec (.pxor g d a b n m) s = .next (s.issueP d.toNat (x != y) 1))

/-- R123, R124, R81: the immediate forms and the long immediates. -/
def Claims.ScalarImmediates : Prop :=
  ∀ (s : State) (g : BitVec 4) (d a : BitVec 6), s.readP g = true →
    let x := (s.readS a).toNat
    let X := (s.readS a).toInt
    (∀ i : BitVec 10,
      exec (.addi g d a i) s = .next (s.issueS d (BitVec.ofInt 64 (X + i.toInt)) 1) ∧
      exec (.andi g d a i) s = .next (s.issueS d (s.readS a &&& BitVec.ofInt 64 i.toInt) 1) ∧
      exec (.ori g d a i) s = .next (s.issueS d (s.readS a ||| BitVec.ofInt 64 i.toInt) 1) ∧
      exec (.xori g d a i) s = .next (s.issueS d (s.readS a ^^^ BitVec.ofInt 64 i.toInt) 1)) ∧
    (∀ k : BitVec 6,
      exec (.shli g d a k) s = .next (s.issueS d (BitVec.ofNat 64 (x * 2 ^ k.toNat)) 1) ∧
      exec (.shri g d a k) s = .next (s.issueS d (BitVec.ofNat 64 (x / 2 ^ k.toNat)) 1) ∧
      exec (.sari g d a k) s = .next (s.issueS d (BitVec.ofInt 64 (X / 2 ^ k.toNat)) 1)) ∧
    ∀ imm : BitVec 38,
      exec (.li g d imm) s = .next (s.issueS d (BitVec.ofInt 64 imm.toInt) 1) ∧
      exec (.lih g d imm) s = .next (s.issueS d
        (BitVec.ofNat 64 (bitsOf (s.readS d).toNat 0 38 + bitsOf imm.toNat 0 26 * 2 ^ 38)) 1)

/-- Compares write a predicate and its complement for every condition, predicate logic combines predicates with
optional inversion, and the immediate forms act as their register forms on the extended immediate. -/
def Obligations.ScalarTests : Prop :=
  Claims.ScalarConditions ∧ Claims.ScalarImmediates

/-- R125: the address generators. The other strides and every other generator keep their values. -/
def Obligations.AddressGenerators : Prop :=
  ∀ (s : State) (g n : BitVec 4) (a : BitVec 6), s.readP g = true →
    let old (i : Nat) : AddrGen := Tab.get {} s.ctx.ags i
    (∃ t, exec (.agb g n a) s = .next t ∧ OnlyCore s.iss.core s t ∧ t.ctx = { s.ctx with ags := t.ctx.ags } ∧
      Tab.get {} t.ctx.ags n.toNat = { old n.toNat with cur := s.readS a } ∧
      ∀ i, i ≠ n.toNat → Tab.get {} t.ctx.ags i = old i) ∧
    (∀ k : BitVec 3, ∃ t, exec (.ags g n k a) s = .next t ∧ OnlyCore s.iss.core s t ∧
      t.ctx = { s.ctx with ags := t.ctx.ags } ∧
      (Tab.get {} t.ctx.ags n.toNat).cur = (old n.toNat).cur ∧
      Tab.get 0 (Tab.get {} t.ctx.ags n.toNat).strides k.toNat = s.readS a ∧
      (∀ j, j ≠ k.toNat →
        Tab.get 0 (Tab.get {} t.ctx.ags n.toNat).strides j = Tab.get 0 (old n.toNat).strides j) ∧
      ∀ i, i ≠ n.toNat → Tab.get {} t.ctx.ags i = old i) ∧
    ∀ d, exec (.agr g d n) s = .next (s.issueS d (old n.toNat).cur 1)

/-! ## Guards and results over time -/

/-- R16: a syllable whose guard reads false has no effect at all. -/
def Claims.FalseGuard : Prop :=
  ∀ (i : Instr) (g : BitVec 4) (s : State), i.guard = some g → s.readP g = false → exec i s = .next s

/-- R15, R16, R116: what is written to s0 and p0 is discarded, and they read zero and true. -/
def Claims.FixedRegisters : Prop :=
  ∀ s : State, s.readS 0 = 0 ∧ s.readP 0 = true ∧ s.readM 0 = ~~~0#64 ∧
    (∀ v L, s.issueS 0 v L = s) ∧ (∀ b L, s.issueP 0 b L = s) ∧
    (∀ b L, s.issuePair 0 b L = s.issueP 1 (!b) L) ∧
    ∀ (j : BitVec 3) b L, s.issuePair j b L = (s.issueP (2 * j.toNat) b L).issueP (2 * j.toNat + 1) (!b) L

/-- R16: a syllable whose guard reads false has no effect; p0 stays true; a compare writes p(2j) and the complement to
p(2j+1), and with pair 0 only p1. -/
def Obligations.Guards : Prop :=
  Claims.FalseGuard ∧ Claims.FixedRegisters

/-- R25: a scalar result with the bound L. The issuing bundle still reads the prior value; before L cycles have passed
the register reads the free value of the reading step, wholly unconstrained; from L cycles on it reads the result. -/
def Claims.ResultLands : Prop :=
  ∀ (s : State) (d : BitVec 6) (v : Word) (L : Nat), d ≠ 0 → 1 ≤ L → s.settled (.s d.toNat) →
    let t := s.issueS d v L
    t.readS d = s.readS d ∧
    (∀ n, 1 ≤ n → n < L → (t.later n).readS d =
      (Config.free 512 [1, d.toNat, s.fresh, s.iss.slot]).setWidth 64) ∧
    ∀ n, L ≤ n → (t.later n).readS d = v

/-- R26: of two results for one register, the one issued later is what the register holds once both have landed,
whichever bound is the shorter. -/
def Claims.LaterResultWins : Prop :=
  ∀ (s : State) (d : BitVec 6) (v w : Word) (L M m n : Nat), d ≠ 0 → 1 ≤ L → 1 ≤ M → s.settled (.s d.toNat) →
    L ≤ m + n → M ≤ m + n → ((((s.issueS d v L).issueS d w M).later m).later n).readS d = w

/-- R25, R26: a result in flight lands at any cycle after its issue. It writes the bits that no younger result has
written, those bits of results issued before it for the same destination are shadowed, and nothing outside the core
changes. One whose every bit a younger result has written leaves its destination and the marks as they are; the status
flags that it carries are set all the same. Which younger results shadow it is log 125 (DESIGN CHOICE). -/
def Claims.ResultLanding : Prop :=
  ∀ (s : State) (c : Nat) (fw : Bool) (e : Pend) (older younger : List Pend),
    let x := (s.core c).ctx fw
    let merged (old : Row) : Row := (old &&& ~~~e.live) ||| (e.val &&& e.live)
    x.pend = older ++ e :: younger → (∀ y ∈ older, y.ser ≠ e.ser) → e.issued < (s.core c).cycle →
    ∃ u, exec (.resultLanding c fw e.ser) s = .next u ∧ OnlyCore c s u ∧
      let k := u.core c
      (k.ctx fw).pend = shadowOlder e older ++ { e with live := 0, flags := 0, late := true } :: younger ∧
      (fw = false → k.px.fpstat = (s.core c).px.fpstat ||| e.flags) ∧
      (e.late = true → e.live = 0 → (k.ctx fw).s = x.s ∧ (k.ctx fw).p = x.p ∧ (k.ctx fw).sdef = x.sdef ∧
        k.px.v = (s.core c).px.v ∧ k.px.vdef = (s.core c).px.vdef ∧ k.px.m = (s.core c).px.m ∧ k.sp = (s.core c).sp) ∧
      (e.late = false → (∀ i, e.dest = .s i → (k.ctx fw).sdef.getLsbD i = (e.defer && decide (i < 64))) ∧
        ∀ i, e.dest = .v i → k.px.vdef.getLsbD i = (e.defer && decide (i < 32))) ∧
      (e.late = false ∨ e.live ≠ 0 →
        (∀ i, e.dest = .s i → Tab.get 0 (k.ctx fw).s i = (merged ((Tab.get 0 x.s i).setWidth 512)).setWidth 64) ∧
        (∀ i, e.dest = .p i → Tab.get false (k.ctx fw).p i = e.val.getLsbD 0) ∧
        (∀ i, e.dest = .v i → Tab.get 0 k.px.v i = merged (Tab.get 0 (s.core c).px.v i)) ∧
        (∀ i, e.dest = .m i → Tab.get 0 k.px.m i = (merged ((Tab.get 0 (s.core c).px.m i).setWidth 512)).setWidth 64) ∧
        ∀ i, e.dest = .row i → k.sp.row i = merged ((s.core c).sp.row i))

/-- R25, R26: before its bound a result reads as an unconstrained value, from its bound on as the result; of two
results the later issued stays; a landing event writes only the bits that no younger result has written. -/
def Obligations.ResultsOverTime : Prop :=
  Claims.ResultLands ∧ Claims.LaterResultWins ∧ Claims.ResultLanding

/-! ## Control -/

/-- R98, R97, R34: the direct and register transfers complete; the next bundle is the one at the target, and a link
is the address of the bundle after the issuing one. Bits [63:48] and [4:0] of a register target are ignored. R106: the active
levels whose end is the issuing bundle become inactive, every count and every other level stays, and no generator moves. -/
def Claims.Branches : Prop :=
  ∀ (s : State) (g : BitVec 4), s.readP g = true →
    let left (t : State) : Prop := ∀ j, (Tab.get {} t.ctx.loops j : LoopLevel) =
      { (Tab.get {} s.ctx.loops j : LoopLevel) with
        act := (Tab.get {} s.ctx.loops j : LoopLevel).act && (Tab.get {} s.ctx.loops j : LoopLevel).fin != s.iss.pc }
    (∀ d : BitVec 22, ∃ t, exec (.br g d) s = .next t ∧ OnlyCore s.iss.core { s with iss := t.iss } t ∧
      t.iss = { s.iss with xfer := true } ∧
      t.ctx = { s.ctx with pc := t.ctx.pc, jumped := true, looped := false, loops := t.ctx.loops } ∧
      t.ctx.pc = alignPc (BitVec.ofInt 48 (s.iss.pc.toInt + 32 * d.toInt)) ∧ left t) ∧
    (∀ (l : BitVec 6) (d : BitVec 16), ∃ t, exec (.brl g l d) s = .next t ∧
      t.ctx = { s.ctx with pc := t.ctx.pc, jumped := true, looped := false, loops := t.ctx.loops, pend := t.ctx.pend } ∧
      t.ctx.pend = (s.issueS l ((s.iss.pc + 32).setWidth 64) 1).ctx.pend ∧
      t.ctx.pc = alignPc (BitVec.ofInt 48 (s.iss.pc.toInt + 32 * d.toInt)) ∧ left t) ∧
    (∀ a : BitVec 6, ∃ t, exec (.jr g a) s = .next t ∧
      t.ctx = { s.ctx with pc := t.ctx.pc, jumped := true, looped := false, loops := t.ctx.loops } ∧
      t.ctx.pc.toNat = bitsOf (s.readS a).toNat 5 43 * 32 ∧ left t) ∧
    ∀ d a : BitVec 6, ∃ t, exec (.jrl g d a) s = .next t ∧
      t.ctx = { s.ctx with pc := t.ctx.pc, jumped := true, looped := false, loops := t.ctx.loops, pend := t.ctx.pend } ∧
      t.ctx.pend = (s.issueS d ((s.iss.pc + 32).setWidth 64) 1).ctx.pend ∧
      t.ctx.pc.toNat = bitsOf (s.readS a).toNat 5 43 * 32 ∧ left t

/-- R99, R142: a jump table. Out of range it falls through, reading no memory; in range, with a readable entry, it
clears its predicate and transfers to the entry, leaving the levels that end there (R106). -/
def Claims.JumpTable : Prop :=
  ∀ (s : State) (g : BitVec 4) (a i l : BitVec 6) (p : BitVec 4), s.readP g = true →
    ((s.readS l).toNat ≤ (s.readS i).toNat → exec (.jt g a i l p) s = .next (s.issueP p.toNat true 1)) ∧
    ((s.readS i).toNat < (s.readS l).toNat → ∀ row s1,
      s.loadFor (s.readS a + 8 * s.readS i) 8 = .ok (row, s1) →
      ∃ t, exec (.jt g a i l p) s = .next t ∧ t.iss.xfer = true ∧
        t.ctx.pc = alignPc ((rowWord row (fld (s.readS a + 8 * s.readS i) 3 3)).setWidth 48) ∧
        t.ctx.pend = (s1.issueP p.toNat false 1).ctx.pend ∧
        ∀ j, (Tab.get {} t.ctx.loops j : LoopLevel) =
          { (Tab.get {} s1.ctx.loops j : LoopLevel) with
            act := (Tab.get {} s1.ctx.loops j : LoopLevel).act && (Tab.get {} s1.ctx.loops j : LoopLevel).fin != s1.iss.pc })

/-- R110, R111: chk transfers when the register's deferred-fault bit is set, leaving the levels that end there (R106), and does nothing otherwise; s0 never
branches; the bit stays. nop (R70) has no effect. -/
def Claims.DeferredFaultCheck : Prop :=
  ∀ (s : State) (g : BitVec 4) (c : BitVec 1) (r : BitVec 6) (d : BitVec 15), s.readP g = true →
    let bit := if c = 0 then r ≠ 0 ∧ s.ctx.sdef.getLsbD r.toNat = true else s.px.vdef.getLsbD r.toNat = true
    (¬ bit → exec (.chk g c r d) s = .next s) ∧
    (bit → ∃ t, exec (.chk g c r d) s = .next t ∧ t.iss.xfer = true ∧ t.ctx.sdef = s.ctx.sdef ∧ t.px = s.px ∧
      t.ctx.pc = alignPc (BitVec.ofInt 48 (s.iss.pc.toInt + 32 * d.toInt)) ∧
      ∀ j, (Tab.get {} t.ctx.loops j : LoopLevel) =
        { (Tab.get {} s.ctx.loops j : LoopLevel) with
          act := (Tab.get {} s.ctx.loops j : LoopLevel).act && (Tab.get {} s.ctx.loops j : LoopLevel).fin != s.iss.pc }) ∧
    exec (.nop g) s = .next s

/-- The direct and register transfers, the jump table and chk: the target, the link, the predicate, and which levels a
transfer leaves inactive, every count and generator staying; nop does nothing. -/
def Obligations.Transfers : Prop :=
  Claims.Branches ∧ Claims.JumpTable ∧ Claims.DeferredFaultCheck

/-- R100, R101: a loop setup writes its level alone, and moves no address generator; with a count of zero the level is
inactive and control goes to the bundle after its end. -/
def Claims.LoopSetup : Prop :=
  ∀ (s : State) (g : BitVec 4) (k : BitVec 3), s.readP g = true → k.toNat < 6 →
    let written (t : State) (n : Word) (e : Nat) : Prop :=
      let l : LoopLevel := Tab.get {} t.ctx.loops k.toNat
      l.count = n ∧ l.start = s.iss.pc + 32 ∧ l.fin = s.iss.pc + BitVec.ofNat 48 (32 * e) ∧
      t.ctx.ags = s.ctx.ags ∧
      (n ≠ 0 → l.act = true ∧ t.ctx.pc = s.ctx.pc ∧ t.iss = s.iss ∧
        ∀ j, j ≠ k.toNat → Tab.get {} t.ctx.loops j = Tab.get {} s.ctx.loops j) ∧
      (n = 0 → l.act = false ∧ t.iss.xfer = true ∧ t.ctx.pc = alignPc (s.iss.pc + BitVec.ofNat 48 (32 * e) + 32))
    (∀ (a : BitVec 6) (e : BitVec 13), ∃ t, exec (.loop g k a e) s = .next t ∧
      written t (s.readS a) e.toNat) ∧
    ∀ (n : BitVec 10) (e : BitVec 9), ∃ t, exec (.loopi g k n e) s = .next t ∧
      written t (BitVec.ofNat 64 n.toNat) e.toNat

/-- R104, R106: lbrk clears the active bits of its level and of every level with a higher number, changing no count, and
transfers to the bundle after its level's end; on an inactive level it has no effect. -/
def Claims.LoopBreak : Prop :=
  ∀ (s : State) (g : BitVec 4) (k : BitVec 3), s.readP g = true →
    let l : LoopLevel := Tab.get {} s.ctx.loops k.toNat
    (l.act = false → exec (.lbrk g k) s = .next s) ∧
    (l.act = true → ∃ t, exec (.lbrk g k) s = .next t ∧ t.iss.xfer = true ∧ t.ctx.pc = alignPc (l.fin + 32) ∧
      t.ctx.ags = s.ctx.ags ∧ ∀ j,
        (Tab.get {} t.ctx.loops j).count = (Tab.get {} s.ctx.loops j).count ∧
        (k.toNat ≤ j → (Tab.get {} t.ctx.loops j).act = false) ∧
        (j < k.toNat → (Tab.get {} t.ctx.loops j).act =
          ((Tab.get {} s.ctx.loops j : LoopLevel).act && (Tab.get {} s.ctx.loops j : LoopLevel).fin != s.iss.pc)))

/-- R102: the examination of a boundary. With the six levels' ends elsewhere, the next bundle in sequence follows; when
the innermost active level that ends there has more than one iteration left, it goes back to its start with one less
and every generator moved by that level's stride. A level that ends there with its last iteration becomes inactive, moving no
generator, and the next lower one is examined: it goes back in turn, or, with none that does, the next bundle follows. -/
def Claims.LoopBoundary : Prop :=
  ∀ (s : State) (c : Nat) (fw : Bool) (b : Addr), ((s.core c).ctx fw).boundary = some b →
    let x := (s.core c).ctx fw
    let level (j : Nat) : LoopLevel := Tab.get {} x.loops j
    ((∀ j, j < 6 → (level j).act = true → (level j).fin ≠ b) →
      ∃ t, exec (.loopBoundary c fw) s = .next t ∧ OnlyCore c s t ∧
        (t.core c).ctx fw = { x with pc := b + 32, jumped := false, looped := false, boundary := none }) ∧
    let ends (j : Nat) : Prop := (level j).act = true ∧ (level j).fin = b
    let spent (t : State) (j : Nat) : Prop := (ends j → Tab.get {} ((t.core c).ctx fw).loops j = { level j with count := 0, act := false }) ∧
      (¬ ends j → Tab.get {} ((t.core c).ctx fw).loops j = level j)
    ((∀ j, j < 6 → ends j → (level j).count = 1) →
      ∃ t, exec (.loopBoundary c fw) s = .next t ∧ OnlyCore c s t ∧ ((t.core c).ctx fw).pc = b + 32 ∧
        ((t.core c).ctx fw).ags = x.ags ∧ ((t.core c).ctx fw).boundary = none ∧ ∀ j, j < 6 → spent t j) ∧
    ∀ k, k < 6 → ends k → (level k).count ≠ 1 →
      (∀ j, k < j → j < 6 → ends j → (level j).count = 1) →
      ∃ t, exec (.loopBoundary c fw) s = .next t ∧ OnlyCore c s t ∧
        ((t.core c).ctx fw).pc = (level k).start ∧
        Tab.get {} ((t.core c).ctx fw).loops k = { level k with count := (level k).count - 1 } ∧
        (∀ j, j < k ∨ 6 ≤ j → Tab.get {} ((t.core c).ctx fw).loops j = level j) ∧ (∀ j, k < j → j < 6 → spent t j) ∧
        ((t.core c).ctx fw).ags = x.ags.map fun e => (e.1, { e.2 with cur := e.2.cur + Tab.get 0 e.2.strides k })

/-- R100 to R102, R104: a setup writes its level, and with a count of zero leaves it inactive and transfers past its
end; a break leaves its level and the ones inside it; the boundary counts down from the innermost level and loops
back. -/
def Obligations.Loops : Prop :=
  Claims.LoopSetup ∧ Claims.LoopBreak ∧ Claims.LoopBoundary

/-- R24, R107: a write of fmt is refused with reason 4 in the shadow, before any test of the value; a value with a
reserved code with reason 3; fmt is unchanged in both. Otherwise it starts the shadow of R23 with the old value. -/
def Claims.FormatWrite : Prop :=
  ∀ (s : State) (g : BitVec 4) (a : BitVec 6), s.readP g = true →
    let v := s.readS a
    let reserved := 10 < bitsOf v.toNat 28 4 ∨ 10 < bitsOf v.toNat 24 4 ∨ bitsOf v.toNat 14 2 = 3 ∨ 5 < bitsOf v.toNat 10 3
    let refused (r : Nat) : Prop :=
      exec (.wfmt g a) s = .next (s.trapped (s.trapOf 0x01 r 0) [])
    (s.iss.fw = true → refused 3) ∧
    (s.iss.fw = false → s.px.shCnt ≠ 0 → refused 4) ∧
    (s.iss.fw = false → s.px.shCnt = 0 → reserved → refused 3) ∧
    (s.iss.fw = false → s.px.shCnt = 0 → ¬ reserved → ∃ t, exec (.wfmt g a) s = .next t ∧
      t.px = { s.px with shVal := s.px.fmt, fmt := v &&& 0xFFFFFFC0#64, shCnt := 4 } ∧ t.ctx = s.ctx ∧
      t.iss = { s.iss with fmtSet := true } ∧ OnlyCore s.iss.core { s with iss := t.iss } t)

/-- R108, R19, R20: moves from and to the special registers that both contexts have, and those of one context: cause,
epc, faddr, tvec, tstat, tscr, asid, rcb, vrank and gtime are read whole; epc, tvec and tscr are written; a
write to a read-only register raises reason 6. -/
def Claims.SharedSpecials : Prop :=
  ∀ (s : State) (g : BitVec 4) (a : BitVec 6), s.readP g = true →
    let reads (n : BitVec 8) (v : Word) : Prop := exec (.mfs g a n) s = .next (s.issueS a v 1)
    let refused (n : BitVec 8) : Prop := exec (.mts g a n) s = .next (s.trapped (s.trapOf 0x01 6 0) [])
    let c := s.ctx
    reads 0x02 c.cause ∧ reads 0x03 (c.epc.setWidth 64) ∧ reads 0x04 c.faddr ∧ reads 0x05 (c.tvec.setWidth 64) ∧
    reads 0x06 (BitVec.ofNat 64 ((if c.inh then 8 else 0) + c.fsc.toNat)) ∧ reads 0x07 c.tscr ∧
    reads 0x08 (if s.iss.fw then 0 else c.asid.setWidth 64) ∧ reads 0x09 c.rcb ∧ reads 0x0A (c.vrank.setWidth 64) ∧
    reads 0x0C (BitVec.ofNat 64 s.hub.gtime) ∧
    (∀ n, n ∈ [0x02#8, 0x04#8, 0x06#8, 0x08#8, 0x0B#8, 0x0C#8] → refused n) ∧
    (s.iss.fw = false → ∀ n, n ∈ [0x09#8, 0x0A#8] → refused n) ∧
    (∀ n : BitVec 8, n ∈ [0x03#8, 0x05#8, 0x07#8] → ∃ t, exec (.mts g a n) s = .next t ∧ OnlyCore s.iss.core s t ∧
      t.ctx = { s.ctx with
        epc := if n = 0x03 then alignPc ((s.readS a).setWidth 48) else s.ctx.epc,
        tvec := if n = 0x05 then alignPc ((s.readS a).setWidth 48) else s.ctx.tvec,
        tscr := if n = 0x07 then s.readS a else s.ctx.tscr })

/-- R19, R20, R21, R22: the special registers of a program context alone: fmt reads as the format in force, and a write of it is that of
wfmt; fmtsv (whose bits that fmt does not have stay zero, log 26), the two random streams and the sixteen watermarks. A number of
the firmware's is reserved. -/
def Claims.ProgramSpecials : Prop :=
  ∀ (s : State) (g : BitVec 4) (a : BitVec 6), s.readP g = true → s.iss.fw = false →
    let v := s.readS a
    let reads (n : BitVec 8) (w : Word) : Prop := exec (.mfs g a n) s = .next (s.issueS a w 1)
    let refused (i : Instr) (r : Nat) : Prop := exec i s = .next (s.trapped (s.trapOf 0x01 r 0) [])
    reads 0x00 s.fmt ∧ reads 0x0B (coreIdWord s.iss.core) ∧ reads 0x0D s.px.fmtsv ∧ reads 0x10 s.px.rkey0 ∧
    reads 0x11 s.px.rcnt0 ∧ reads 0x12 s.px.rkey1 ∧ reads 0x13 s.px.rcnt1 ∧
    (∀ n, n < 16 → reads (BitVec.ofNat 8 (0x20 + n)) (Tab.get {} s.ctx.chans n).tw ∧
      refused (.mts g a (BitVec.ofNat 8 (0x20 + n))) 6) ∧
    exec (.mts g a 0x00) s = exec (.wfmt g a) s ∧
    (∃ t, exec (.mts g a 0x0D) s = .next t ∧ OnlyCore s.iss.core s t ∧ t.ctx = s.ctx ∧
      t.px = { s.px with fmtsv := v &&& 0xFFFFFFC0#64 }) ∧
    (∀ n : BitVec 8, n ∈ [0x10#8, 0x11#8, 0x12#8, 0x13#8] → ∃ t, exec (.mts g a n) s = .next t ∧
      OnlyCore s.iss.core { s with iss := t.iss } t ∧ t.ctx = s.ctx ∧
      t.px = { s.px with
        rkey0 := if n = 0x10 then v else s.px.rkey0, rcnt0 := if n = 0x11 then v else s.px.rcnt0,
        rkey1 := if n = 0x12 then v else s.px.rkey1, rcnt1 := if n = 0x13 then v else s.px.rcnt1 }) ∧
    ∀ n : BitVec 8, 0x80 ≤ n.toNat → refused (.mfs g a n) 3 ∧ refused (.mts g a n) 3

/-- R9, R19: coreid holds the core's number, its die and its group. -/
def Claims.CoreIdentity : Prop :=
  ∀ c, c < 200 → let w := (coreIdWord c).toNat
    bitsOf w 0 8 = c ∧ bitsOf w 8 2 = c / 50 ∧ bitsOf w 10 3 = c % 50 / 10 ∧ bitsOf w 13 51 = 0

/-- R19, R20, R35, R36, R39, R324: the special registers of a firmware context alone. The trap registers of the program context keep only
the bits that exist (log 26); a write of fwev clears the bits that are written as one; rcb and vrank are written; the four
watermarks are read alone; the translation control registers, of which the keys read as zero and tnode, tinv, tregs and
tferr are read-only. The program's own numbers are reserved. -/
def Claims.FirmwareSpecials : Prop :=
  ∀ (s : State) (g : BitVec 4) (a : BitVec 6), s.readP g = true → s.iss.fw = true →
    let v := s.readS a
    let reads (n : BitVec 8) (w : Word) : Prop := exec (.mfs g a n) s = .next (s.issueS a w 1)
    let refused (i : Instr) (r : Nat) : Prop := exec i s = .next (s.trapped (s.trapOf 0x01 r 0) [])
    let p := s.me.prog
    let writes (n : BitVec 8) (p : State → Prop) : Prop := ∃ t, exec (.mts g a n) s = .next t ∧ OnlyCore s.iss.core s t ∧ p t
    (∀ n, n < 4 → reads (BitVec.ofNat 8 (0x20 + n)) (Tab.get {} s.ctx.chans n).tw ∧
      refused (.mts g a (BitVec.ofNat 8 (0x20 + n))) 6) ∧
    (reads 0x80 (BitVec.ofNat 64 s.fx.fwshare) ∧ reads 0x81 s.fx.tdeleg ∧ reads 0x82 p.cause ∧ reads 0x83 (p.epc.setWidth 64) ∧
      reads 0x84 p.faddr ∧ reads 0x85 (BitVec.ofNat 64 ((if p.inh then 8 else 0) + p.fsc.toNat)) ∧ reads 0x86 s.px.fmtsv ∧
      reads 0x87 (s.fx.fwev.setWidth 64)) ∧
    (reads 0xC0 s.mem.tatb ∧ reads 0xC1 (s.hub.tnode.setWidth 64) ∧ reads 0xC2 (BitVec.ofNat 64 (s.fx.tlbis.length % 65536)) ∧
      reads 0xC3 (s.fx.tkix.setWidth 64) ∧ (∀ n : BitVec 8, 0xC4 ≤ n.toNat → n.toNat ≤ 0xCB → reads n 0) ∧
      reads 0xCC s.mem.treg ∧ reads 0xCE s.mem.tferr ∧
      reads 0xCD (BitVec.ofNat 64 ((if s.mem.tregErr then 2 else 0) + (if s.mem.regionsIn.isSome then 1 else 0)))) ∧
    (writes 0x09 (fun t => t.ctx = { s.ctx with rcb := v }) ∧
      writes 0x0A (fun t => t.ctx = { s.ctx with vrank := v.setWidth 16 }) ∧
      writes 0x81 (fun t => t.fx = { s.fx with tdeleg := v &&& 0x1DC2#64 } ∧ t.ctx = s.ctx)) ∧
    (writes 0x82 (fun t => t.me.prog = { p with cause := v &&& 0xFFFFFFFF0000F83F#64 } ∧ t.ctx = s.ctx) ∧
      writes 0x83 (fun t => t.me.prog = { p with epc := alignPc (v.setWidth 48) } ∧ t.ctx = s.ctx) ∧
      writes 0x84 (fun t => t.me.prog = { p with faddr := v } ∧ t.ctx = s.ctx) ∧
      writes 0x85 (fun t => t.me.prog = { p with inh := v.getLsbD 3, fsc := v.setWidth 3 } ∧ t.ctx = s.ctx) ∧
      writes 0x86 (fun t => t.px = { s.px with fmtsv := v &&& 0xFFFFFFC0#64 } ∧ t.ctx = s.ctx) ∧
      writes 0x87 (fun t => t.fx.fwev = s.fx.fwev &&& ~~~(v.setWidth 2) ∧ t.ctx = s.ctx)) ∧
    (exec (.mts g a 0xC0) s = .next { s with mem := { s.mem with tatb := v &&& 0xFFFFFF00000#64 } } ∧
      writes 0xC3 (fun t => t.fx = { s.fx with tkix := v.setWidth 5 } ∧ t.ctx = s.ctx) ∧
      (∀ n, n < 7 → writes (BitVec.ofNat 8 (0xC4 + n)) fun t => Tab.get 0 t.fx.tkeys n = v ∧ t.ctx = s.ctx ∧
        ∀ j, j ≠ n → Tab.get 0 t.fx.tkeys j = Tab.get 0 s.fx.tkeys j)) ∧
    (∀ n : BitVec 8, n ∈ [0xC1#8, 0xC2#8, 0xCD#8, 0xCE#8] → refused (.mts g a n) 6) ∧
    ∀ n : BitVec 8, n ∈ [0x00#8, 0x01#8, 0x0D#8, 0x10#8, 0x11#8, 0x12#8, 0x13#8] →
      refused (.mfs g a n) 3 ∧ refused (.mts g a n) 3

/-- R20, R27: both moves of fpstat wait until every earlier result of the context has landed; then the read gives the
flags, and the write replaces them. -/
def Claims.StatusFlags : Prop :=
  ∀ (s : State) (g : BitVec 4) (a : BitVec 6), s.readP g = true → s.iss.fw = false →
    (s.me.landing false = true → exec (.mfs g a 0x01) s = .next (s.waiting .landed) ∧
      exec (.mts g a 0x01) s = .next (s.waiting .landed)) ∧
    (s.me.landing false = false →
      exec (.mfs g a 0x01) s = .next (s.issueS a (s.px.fpstat.setWidth 64) 1) ∧
      ∃ t, exec (.mts g a 0x01) s = .next t ∧ t.px = { s.px with fpstat := (s.readS a).setWidth 7 } ∧
        OnlyCore s.iss.core s t)

/-- R20, R226: fwshare holds at least 1 and at most 64, whatever is written; fwsh writes its immediate in the same
way. -/
def Claims.FirmwareShare : Prop :=
  ∀ (s : State) (g : BitVec 4), s.readP g = true → s.iss.fw = true →
    let clamped (v : Nat) : Nat := max 1 (min v 64)
    (∀ a, ∃ t, exec (.mts g a 0x80) s = .next t ∧ t.fx = { s.fx with fwshare := clamped (s.readS a).toNat } ∧
      OnlyCore s.iss.core s t) ∧
    ∀ i : BitVec 7, ∃ t, exec (.fwsh g i) s = .next t ∧ t.fx = { s.fx with fwshare := clamped i.toNat } ∧
      OnlyCore s.iss.core s t

/-- The format write with its refusals and its shadow, the reads and writes of the special registers, the sticky flags
and the share of the firmware context. -/
def Obligations.SpecialRegisters : Prop :=
  Claims.FormatWrite ∧ Claims.SharedSpecials ∧ Claims.ProgramSpecials ∧ Claims.CoreIdentity ∧ Claims.FirmwareSpecials ∧ Claims.StatusFlags ∧ Claims.FirmwareShare

/-! ## Traps -/

/-- R37: the entry of a delegated program-context trap, once its earlier results have landed. -/
def Claims.DelegatedEntry : Prop :=
  ∀ (s : State) (c : Nat) (t : Trap), (s.core c).prog.run = .running → delegable t.code = true →
    bitAt (s.core c).fx.tdeleg t.code.toNat = true → (s.core c).prog.inh = false →
    ∃ u, exec (.delegatedTrapEntry c t) s = .next u ∧ OnlyCore c s u ∧
      let k := (s.core c).landEarlier false
      (u.core c).prog.cause = causeWord t false ∧ (u.core c).prog.faddr = t.faddr ∧
      (u.core c).prog.epc = alignPc t.epc ∧ (u.core c).px.fmtsv = k.px.shVal ∧
      (u.core c).prog.inh = true ∧ (u.core c).prog.fsc = BitVec.ofNat 3 k.px.shCnt ∧
      (u.core c).px.shCnt = 0 ∧ (u.core c).prog.pc = k.prog.tvec ∧ (u.core c).prog.s = k.prog.s ∧
      (u.core c).px.fmt = k.px.fmt ∧ (u.core c).fw = k.fw

/-- R32: the fields of cause. -/
def Claims.CauseLayout : Prop :=
  ∀ (t : Trap) (dbl : Bool), let w := (causeWord t dbl).toNat
    bitsOf w 32 32 = t.info.toNat ∧ bitsOf w 16 16 = 0 ∧ bitsOf w 15 1 = (if t.fat then 1 else 0) ∧
    bitsOf w 14 1 = (if dbl then 1 else 0) ∧ bitsOf w 11 3 = t.slot.toNat ∧ bitsOf w 6 5 = 0 ∧
    bitsOf w 0 6 = t.code.toNat

/-- R37, R32: a delegated trap waits for earlier results, writes cause, faddr, epc, fmtsv and tstat, clears the live
shadow count and goes to tvec. -/
def Obligations.DelegatedTraps : Prop :=
  Claims.DelegatedEntry ∧ Claims.CauseLayout

/-- R39: a program context that stops: its trap registers, dbl when it was in its handler, the live shadow saved, inh
left as it was, fwev bit 0, and cause 0x21 pending for the firmware context. -/
def Claims.ProgramStop : Prop :=
  ∀ (s : State) (c : Nat) (t : Trap), (s.core c).prog.run = .running →
    ∃ u, exec (.programContextStop c t) s = .next u ∧ u.mem = s.mem ∧ (∀ d, d ≠ c → u.core d = s.core d) ∧
      let k := (s.core c).landEarlier false
      let p := (u.core c).prog
      p.cause = causeWord t k.prog.inh ∧ p.faddr = t.faddr ∧ p.epc = alignPc t.epc ∧ p.inh = k.prog.inh ∧
      p.fsc = BitVec.ofNat 3 k.px.shCnt ∧ (u.core c).px.fmtsv = k.px.shVal ∧ p.run = .stopped ∧
      (u.core c).fx.fwev.getLsbD 0 = true ∧ ∃ e ∈ (u.core c).fx.events, e.code = 0x21 ∧ e.info = 0 ∧ e.faddr = 0

/-- R40: a synchronous fault of the firmware context inside its handler stops both contexts, with dbl set and tstat
unchanged; the next one outside it enters its handler as R37 says. -/
def Claims.FirmwareTraps : Prop :=
  ∀ (s : State) (c : Nat) (t : Trap), (s.core c).fw.run = .running →
    (∃ u, exec (.coreMachineCheck c t) s = .next u ∧ (u.core c).dead = true ∧ (u.core c).prog.run = .stopped ∧
      (u.core c).fw.run = .stopped ∧ (u.core c).fw.cause = causeWord t true ∧ (u.core c).fw.faddr = t.faddr ∧
      (u.core c).fw.epc = alignPc t.epc ∧ (u.core c).fw.inh = ((s.core c).landEarlier true).fw.inh) ∧
    (s.iss.core = c → s.iss.fw = true → s.ctx.inh = false →
      let u := s.takeTrap t
      OnlyCore c s u ∧ (u.core c).fw.cause = causeWord t false ∧ (u.core c).fw.epc = alignPc t.epc ∧
      (u.core c).fw.faddr = t.faddr ∧ (u.core c).fw.inh = true ∧
      (u.core c).fw.pc = ((s.core c).landEarlier true).fw.tvec)

/-- R39, R40: a cause that is not delegated stops the program context and is event 0x21 of the firmware; a firmware
fault outside its handler enters it, and one inside stops the core. -/
def Obligations.UndelegatedTraps : Prop :=
  Claims.ProgramStop ∧ Claims.FirmwareTraps

/-- R31, R109, R37, R39, R40: a software trap and a breakpoint complete their bundle first: the boundary is examined,
and epc is the bundle that would come next. The firmware context and a delegating program context enter their
handlers; another program context stops. -/
def Claims.CompletingTraps : Prop :=
  ∀ (s : State) (g : BitVec 4) (i : BitVec 16), s.readP g = true →
    let next := (s.ctx.boundaryAt s.iss.pc).pc
    let t (code : Nat) : Trap := ⟨BitVec.ofNat 6 code, 0, i.setWidth 32, false, 0, next⟩
    let entered (x : Instr) (code : Nat) : Prop := ∃ u, exec x s = .next u ∧
      u.ctx.cause = causeWord (t code) false ∧ u.ctx.epc = alignPc next ∧ u.ctx.faddr = 0 ∧ u.ctx.inh = true ∧
      u.ctx.pc = s.ctx.tvec ∧ u.mem = s.mem
    let stopped (x : Instr) (code : Nat) : Prop := ∃ u, exec x s = .next u ∧
      u.ctx.cause = causeWord (t code) s.ctx.inh ∧ u.ctx.epc = alignPc next ∧ u.ctx.inh = s.ctx.inh ∧
      u.ctx.run = .stopped ∧ u.fx.fwev.getLsbD 0 = true ∧ u.mem = s.mem
    let route (x : Instr) (code : Nat) : Prop :=
      (s.iss.fw = true → s.ctx.inh = false → entered x code) ∧
      (s.iss.fw = false → s.ctx.inh = false → bitAt s.fx.tdeleg code = true → entered x code) ∧
      (s.iss.fw = false → s.ctx.inh = true ∨ bitAt s.fx.tdeleg code = false → stopped x code)
    route (.trap g i) 0x0B ∧ route (.bkpt g i) 0x0C

/-- R38: the trap return. Outside a handler it raises illegal-bundle with info 7; inside one it restores the live
shadow, clears inh and transfers to epc. -/
def Claims.TrapReturn : Prop :=
  ∀ (s : State) (g : BitVec 4), s.readP g = true →
    (s.ctx.inh = false → exec (.tret g) s = .next (s.trapped (s.trapOf 0x01 7 0) [])) ∧
    (s.ctx.inh = true → ∃ t, exec (.tret g) s = .next t ∧ t.ctx.inh = false ∧ t.ctx.pc = alignPc s.ctx.epc ∧
      t.iss.xfer = true ∧ t.ctx.loops = leaveLevels s.iss.pc s.ctx.loops ∧ t.ctx.fsc = s.ctx.fsc ∧
      t.px.shVal = (if s.iss.fw then s.px.shVal else s.px.fmtsv) ∧
      t.px.shCnt = (if s.iss.fw then s.px.shCnt else s.ctx.fsc.toNat) ∧ t.px.fmt = s.px.fmt ∧ t.mem = s.mem)

/-- trap and bkpt take their causes with the immediate in info, delegated or not, and tret returns to epc with the
saved shadow, or raises illegal-bundle outside a handler. -/
def Obligations.TrapInstructions : Prop :=
  Claims.CompletingTraps ∧ Claims.TrapReturn

/-! ## Strands and the system instructions -/

/-- R115: in the firmware context susp and yield stop issue until an event is pending, and exit, step and grel have no
effect. -/
def Claims.FirmwareSuspension : Prop :=
  ∀ (s : State) (g : BitVec 4), s.readP g = true → s.iss.fw = true →
    let sleeps (i : Instr) : Prop := ∃ t, exec i s = .next t ∧ t.ctx.pc = (s.ctx.boundaryAt s.iss.pc).pc ∧
      (s.fx.events = [] → t.ctx.run = .sleeping) ∧ (s.fx.events ≠ [] → t.ctx.run = s.ctx.run) ∧ t.mem = s.mem
    sleeps (.susp g) ∧ sleeps (.yield g) ∧
    (∀ a, exec (.exitS g a) s = .next s) ∧ exec (.stepB g) s = .next s ∧ exec (.grel g) s = .next s

/-- R112: susp and yield of a strand. It waits for the results on their way, and then for what its engines and posted
operations still do, and for the rows of its record and its regions where another module holds them (log 137); with nothing of
these left its record is written, as suspended or as ready, with the address
of the next bundle, and the core is released, or kept asleep for a pinned strand. -/
def Claims.StrandSuspends : Prop :=
  ∀ (s : State) (g : BitVec 4) (k : Strand), s.readP g = true → s.iss.fw = false → s.me.strand = some k →
    (s.me.landing false = true → exec (.susp g) s = .next (s.waiting .landed) ∧
      exec (.yield g) s = .next (s.waiting .landed)) ∧
    (s.me.landing false = false → s.outstanding = true → exec (.susp g) s = .next (s.waiting .drain) ∧
      exec (.yield g) s = .next (s.waiting .drain)) ∧
    let rows := s.strandRows k
    (s.me.landing false = false → s.outstanding = false → ¬ s.RowsHere rows →
      exec (.susp g) s = .next (s.waiting (.hub rows)) ∧ exec (.yield g) s = .next (s.waiting (.hub rows))) ∧
    (s.me.landing false = false → s.outstanding = false → s.RowsHere rows →
      let s0 := s.rowsRead rows
      let s1 := ((s0.setMe (s0.me.landAll false)).publish s0.agent s0.agent 6).advance
      let written (st : Nat) : State := s1.suspendRecord s1.iss.core k s1.ctx.pc st
      let released (i : Instr) (st : Nat) : Prop := ∃ t, exec i s = .next t ∧
        t = ((written st).parkStrand s1.iss.core k none).dropAnswers rows ∧
        (k.pin = 0 → (t.core s.iss.core).strand = none ∧ (t.core s.iss.core).prog.run = .idle) ∧
        (k.pin ≠ 0 → (t.core s.iss.core).strand = some { k with asleep := true, wake := none } ∧
          (t.core s.iss.core).prog.run = .sleeping)
      released (.susp g) 1 ∧ released (.yield g) 2)

/-- R112, R115: in the firmware context susp and yield sleep until an event is pending and exit, step and grel do
nothing; a strand waits for its results and its outstanding work, then its record is written and its core released. -/
def Obligations.Suspension : Prop :=
  Claims.FirmwareSuspension ∧ Claims.StrandSuspends

/-- R112, R287: exit delivers s[a] as the exit code, takes the strand from the live count of its region, leaves its
gang and releases the core. -/
def Claims.StrandExits : Prop :=
  ∀ (s : State) (g : BitVec 4) (a : BitVec 6) (k : Strand), s.readP g = true → s.iss.fw = false →
    s.me.strand = some k → s.me.landing false = false → s.outstanding = false →
    let rows := s.strandRows k
    s.RowsHere rows →
    let s0 := s.rowsRead rows
    let s1 := ((s0.setMe (s0.me.landAll false)).publish s0.agent s0.agent 6).advance
    let s2 := s1.hubRewrite k.asid k.record fun r => setRecSt 5 (setRowWord r 5 (s.readS a))
    ∃ t, exec (.exitS g a) s = .next t ∧
      t = (((s2.countLive k.asid k.rcb (-1)).leaveGang s0.iss.core k).freeCore s0.iss.core).dropAnswers rows ∧
      (t.core s.iss.core).strand = none ∧ (t.core s.iss.core).prog.run = .idle

/-- R112, R113: step of a strand of its rank's root region writes its record with the step-wait mark; elsewhere it
raises the engine command fault with reason 10. That faddr is 0 there, and not another value, is the model's choice (log 124). -/
def Claims.StrandSteps : Prop :=
  ∀ (s : State) (g : BitVec 4) (k : Strand), s.readP g = true → s.iss.fw = false → s.me.strand = some k →
    let block := s.rankRows k.vrank
    (¬ s.RowsHere block → exec (.stepB g) s = .next (s.waiting (.hub block))) ∧
    (s.RowsHere block → let r := s.rowsRead block
     (r.rankHere k.vrank = true → r.rankRoot k.vrank ≠ k.rcb →
       exec (.stepB g) s = .next (s.trapped (s.trapOf 0x0A 10 0) [])) ∧
     (r.rankHere k.vrank = true → r.rankRoot k.vrank = k.rcb → r.me.strand = some k → r.me.landing false = false →
       r.outstanding = false → let rows := r.strandRows k
       r.RowsHere rows → let s0 := r.rowsRead rows
       let s1 := ((s0.setMe (s0.me.landAll false)).publish s0.agent s0.agent 6).advance
       exec (.stepB g) s = .next
         (((((s1.suspendRecord s1.iss.core k s1.ctx.pc 4).parkStrand s1.iss.core k none).dropAnswers rows).markStepped
           k.vrank).dropAnswers block)))

/-- R114: grel. A strand of no gang passes; a member waits until the dispatcher lets its core pass, and then its
gang's list no longer names it. GREL_RELEASE, once every member waits and none still has to pass, chooses a time at
least 64 ns ahead, and lets all of them pass at that time. -/
def Claims.GangBarrier : Prop :=
  ∀ (s : State) (g : BitVec 4) (k : Strand), s.readP g = true → s.iss.fw = false → s.me.strand = some k →
    (k.gang = none → exec (.grel g) s = .next s) ∧
    (∀ n x, k.gang = some n → s.findGang n = some x →
      (s.iss.core ∉ x.grel → exec (.grel g) s = .next (s.waiting (.gang x.ident))) ∧
      (s.iss.core ∈ x.grel → exec (.grel g) s = .next (s.setGang { x with grel := removeNat x.grel s.iss.core }))) ∧
    ∀ n x, s.findGang n = some x → x.grel = [] →
      (∀ c ∈ x.cores, Wait.gang n ∈ (s.core c).prog.waits) →
      (x.grelAt = none → ∃ T, s.hub.gtime + 64 ≤ T ∧
        exec (.grelRelease n) s = .next (s.setGang { x with grelAt := some T })) ∧
      ∀ T, x.grelAt = some T → T ≤ s.hub.gtime →
        exec (.grelRelease n) s = .next (s.setGang { x with grelAt := none, grel := x.cores })

/-- R112 to R114: exit and step of a strand after their waits, and grel, which waits for all members and their release
time. -/
def Obligations.StrandEnds : Prop :=
  Claims.StrandExits ∧ Claims.StrandSteps ∧ Claims.GangBarrier

/-- R226, R326: the three forms of tlbi. At once the issuing core's own translations no longer use an entry that the
instruction names; it is posted behind those not yet complete, and TLBI_COMPLETE ends the oldest: no translation cache
then holds an entry that it names, so that what it names is translated by the tables alone. -/
def Claims.TranslationInvalidate : Prop :=
  ∀ (s : State) (g : BitVec 4) (a b : BitVec 6), s.readP g = true →
    let named (e : Nat × BitVec 16 × Addr) (n : Nat) (va : Word) : Prop :=
      e.1 = 2 ∨ (e.1 = 1 ∧ n = e.2.1.toNat) ∨ (e.1 = 0 ∧ n = e.2.1.toNat ∧ va.toNat / 65536 = e.2.2.toNat / 65536)
    let bare (t : State) : State := { t with mem := { t.mem with tlb := [] } }
    let posts (i : Instr) (e : Nat × BitVec 16 × Addr) : Prop := ∃ t, exec i s = .next t ∧
      t = { s with cores := t.cores, mem := { s.mem with tlb := t.mem.tlb } } ∧
      (∀ d, d ≠ s.iss.core → t.core d = s.core d) ∧
      t.fx = { s.fx with tlbis := s.fx.tlbis ++ [e] } ∧ t.ctx = s.ctx ∧
      ∀ n k va, named e n va → t.coreTranslate n k va = (bare t).translate n k va
    posts (.tlbiPage g a b) (0, (s.readS b).setWidth 16, (s.readS a).setWidth 48) ∧
    posts (.tlbiAsid g a b) (1, (s.readS b).setWidth 16, 0) ∧ posts (.tlbiAll g a b) (2, 0, 0) ∧
    ∀ c, ∃ t, exec (.tlbiComplete c) s = .next t ∧
      t = { s with cores := t.cores, mem := { s.mem with tlb := t.mem.tlb } } ∧ (∀ d, d ≠ c → t.core d = s.core d) ∧
      (t.core c).fx = { (s.core c).fx with tlbis := (s.core c).fx.tlbis.drop 1 } ∧
      (t.core c).prog = (s.core c).prog ∧ (t.core c).fw = (s.core c).fw ∧ (∀ x ∈ t.mem.tlb, x ∈ s.mem.tlb) ∧
      ∀ e rest, (s.core c).fx.tlbis = e :: rest → ∀ n k va, named e n va →
        t.translate n k va = (bare t).translate n k va

/-- R325: a walker's turn leaves what it found in the translation caches and changes no translation until a turn puts
entries in use; with none in use every translation is by the tables alone. A machine check that was waiting to be
reported is no part of this. Which entries a cache holds, and which are in use, is the model's choice (log 42). -/
def Claims.TranslationCaches : Prop :=
  (∀ (s : State) (n : Nat) (va : Addr), s.nextTurn = .walk n va → s.Reported → ∃ u, step s = .next u ∧
    u.cores = s.cores ∧ u.mem = { s.mem with tlb := u.mem.tlb } ∧ (∀ x ∈ s.mem.tlb, x ∈ u.mem.tlb) ∧
    ∀ m k w, u.translate m k w = s.translate m k w) ∧
  ∀ (s : State) (l : List Nat), s.nextTurn = .cached l → s.Reported → ∃ u, step s = .next u ∧ u.cores = s.cores ∧
    u.mem = { s.mem with tlb := u.mem.tlb } ∧
    (l = [] → ∀ m k w, u.translate m k w = { u with mem := { u.mem with tlb := [] } }.translate m k w)

/-- R226, R227, R39, R228: asw sets the program context's ASID while it is stopped or holds no strand, and is refused
with reason 11 otherwise; cres resumes a stopped context at its epc, or where a pre-emption left it, and asleep where
its strand slept, then re-issues its cancelled transfers; it changes no context that is not stopped; a kill waits for
the context's bundle boundary. That a pre-empted context goes on from its pc with its live shadow kept, and that it forgets its
waits and answers, is the model's reading (log 50). -/
def Claims.ContextControl : Prop :=
  ∀ (s : State) (g : BitVec 4) (a : BitVec 6), s.readP g = true →
    let k := s.me
    let still := k.prog.run = .stopped ∨ k.strand = none
    (still → ∃ t, exec (.asw g a) s = .next t ∧ OnlyCore s.iss.core s t ∧
      t.me = { k with prog := { k.prog with asid := (s.readS a).setWidth 16 } }) ∧
    (¬ still → exec (.asw g a) s = .next (s.trapped (s.trapOf 0x0A 11 (s.readS a)) [])) ∧
    (k.prog.run ≠ .stopped → exec (.cres g) s = .next s) ∧
    (k.prog.run = .stopped → k.dead = true → exec (.cres g) s = .next s) ∧
    (k.prog.run = .stopped → k.dead = false → ∃ u : State, exec (.cres g) s = .next (u.reissue s.iss.core) ∧
      u.me.prog.run = (if (k.strand.map Strand.asleep).getD false = true then .sleeping else .running) ∧
      u.me.prog.pc = alignPc (if k.pre then k.prog.pc else k.prog.epc) ∧ u.me.prog.inh = k.prog.inh ∧
      u.me.prog.waits = [] ∧ u.me.prog.answers = [] ∧ u.me.parked = k.parked ∧
      u.px.shVal = (if k.pre then k.px.shVal else k.px.fmtsv) ∧
      u.px.shCnt = (if k.pre then k.px.shCnt else k.prog.fsc.toNat)) ∧
    ∃ t, exec (.ckill g) s = .next t ∧ t = (s.setMe { k with kill := true }).actStops s.iss.core

/-- tlbi removes what it names from the translation caches when it completes, and a walker fills them; asw, cres and
ckill set the registers and contexts they name. -/
def Obligations.ContextInstructions : Prop :=
  Claims.TranslationInvalidate ∧ Claims.TranslationCaches ∧ Claims.ContextControl

/-- R226, R227, R314: the context image's save and restore begin as transfers of firmware channel c0, once the probe
has found every page, in a context that is stopped or holds no strand. -/
def Obligations.ImageTransfers : Prop :=
  ∀ (s : State) (g : BitVec 4) (a : BitVec 6), s.readP g = true →
    let v := s.readS a
    let va := imageAddr v
    let still := s.me.prog.run = .stopped ∨ s.me.strand = none
    (256 ≤ (s.chanAt 0).outstanding →
      exec (.ctxs g a) s = .next (s.trapped (s.trapOf 0x0A 5 v) []) ∧
      exec (.ctxr g a) s = .next (s.trapped (s.trapOf 0x0A 5 v) [])) ∧
    ((s.chanAt 0).outstanding < 256 → ¬ still →
      exec (.ctxs g a) s = .next (s.trapped (s.trapOf 0x0A 11 v) []) ∧
      exec (.ctxr g a) s = .next (s.trapped (s.trapOf 0x0A 11 v) [])) ∧
    ((s.chanAt 0).outstanding < 256 → still →
      (let rows := imageRows s.sp.part ((s.me.xfers.filter fun x => !x.fw).length + s.me.parked.length)
       ∀ held, s.probeSpan 0 (imageSpan true va rows) [] = .ok held →
        exec (.ctxs g a) s = .next (((s.drawId 0 0).imageBinds s.iss.core va).startXfer s.iss.core
          (s.imageXfer .ctxs va rows held))) ∧
      ∀ r held, s.loadFor (va.setWidth 64) 2 = .ok r →
        let P := (rowWord r.1 1).toNat
        let n := (rowWord r.1 3).toNat
        let rows := if rowWord r.1 0 = 0x4B561001#64 ∧ P ≤ 294912 ∧ n ≤ 4096 then imageRows P n else 1
        r.2.probeSpan 0 (imageSpan false va rows) [] = .ok held →
        exec (.ctxr g a) s = .next ((r.2.drawId 0 0).startXfer s.iss.core (r.2.imageXfer .ctxr va rows held)))

/-- R228, R295, R20, R33: qsc begins a quiesce, ends one, or invalidates cached headers, by the mode that its register
holds in bits [17:16]; the mode 3 is a reserved operand. Each name of the instruction means the same. -/
def Obligations.Quiesce : Prop :=
  ∀ (s : State) (g : BitVec 4) (a : BitVec 6) (i : Instr), s.readP g = true →
    i = .qscQuiesce g a ∨ i = .qscEndQuiesce g a ∨ i = .qscQueueInvalidate g a →
    let asid : BitVec 16 := (s.readS a).setWidth 16
    let md := bitsOf (s.readS a).toNat 16 2
    (md = 0 → exec i s = .next (s.quiesce asid)) ∧ (md = 1 → exec i s = .next (s.endQuiesce asid)) ∧
    (md = 2 → exec i s = .next { s with hub := { s.hub with
      queueTable := s.hub.queueTable.filter fun e => e.1 != asid } }) ∧
    (md = 3 → exec i s = .next (s.trapped (s.trapOf 0x01 3 0) []))

/-! ## Local and device memory -/

/-- R76, R127 to R129, R394: the scratchpad's loads and stores. The offset's row out of the partition traps with
faddr the offset; a poisoned row traps, but for a whole-row store and in a bundle that has already changed something at another
module (log 44); else a load delivers the word or row, and a store changes its word or row alone. -/
def Claims.ScratchpadWords : Prop :=
  ∀ (s : State) (g : BitVec 4) (t : BitVec 6) (a : BitVec 16), s.readP g = true →
    (s.iss.fw = true → s.me.repart = none) →
    let addr (scale : Nat) : Word :=
      if a.getLsbD 15 = true then (Tab.get {} s.ctx.ags (bitsOf a.toNat 11 4)).cur
      else s.readS (BitVec.ofNat 6 (bitsOf a.toNat 9 6)) +
        (a.extractLsb' 0 9).signExtend 64 * BitVec.ofNat 64 scale
    let row (x : Word) : Nat := x.toNat / 64
    let out (x : Word) : Prop := s.sp.part ≤ 64 * row x
    let traps (i : Instr) (code : Nat) (x : Word) : Prop := exec i s = .next (s.trapped (s.trapOf code 0 x) [])
    let word (r : Row) (j : Nat) : Word := r.extractLsb' (64 * j) 64
    let j := bitsOf (addr 8).toNat 3 3
    (out (addr 8) → traps (.ldw g t a) 0x06 (addr 8) ∧ traps (.stw g t a) 0x06 (addr 8)) ∧
    (out (addr 64) → traps (.ldr g t a) 0x06 (addr 64) ∧ traps (.str g t a) 0x06 (addr 64)) ∧
    (¬ out (addr 8) → row (addr 8) ∈ s.sp.bad → s.ctx.acted = false →
      traps (.ldw g t a) 0x09 (addr 8) ∧ traps (.stw g t a) 0x09 (addr 8)) ∧
    (¬ out (addr 64) → row (addr 64) ∈ s.sp.bad → s.ctx.acted = false → traps (.ldr g t a) 0x09 (addr 64)) ∧
    (¬ out (addr 8) → row (addr 8) ∉ s.sp.bad →
      exec (.ldw g t a) s = .next (s.issueS t (word (s.sp.row (row (addr 8))) j) 4) ∧
      ∃ u, exec (.stw g t a) s = .next u ∧ OnlyScratch [row (addr 8)] s u ∧
        u.sp.isFull (row (addr 8)) = s.sp.isFull (row (addr 8)) ∧
        ∀ n, n < 8 → word (u.sp.row (row (addr 8))) n =
          if n = j then s.readS t else word (s.sp.row (row (addr 8))) n) ∧
    (¬ out (addr 64) → row (addr 64) ∉ s.sp.bad →
      exec (.ldr g t a) s = .next (s.issueRow t.toNat (s.sp.row (row (addr 64))) 4 0)) ∧
    (¬ out (addr 64) → ∃ u, exec (.str g t a) s = .next u ∧ OnlyScratch [row (addr 64)] s u ∧
      u.sp.row (row (addr 64)) = s.readV t.toNat ∧ row (addr 64) ∉ u.sp.bad ∧
      u.sp.isFull (row (addr 64)) = s.sp.isFull (row (addr 64)))

/-- R130, R131, R133: the full/empty accesses. A synchronizing load waits for a full row, delivers it and leaves it
empty; a synchronizing store waits for an empty one and leaves it full; feq reads the bit and fes writes it. -/
def Claims.FullEmptyRows : Prop :=
  ∀ (s : State) (g : BitVec 4) (t : BitVec 6) (a : BitVec 16), s.readP g = true →
    (s.iss.fw = true → s.me.repart = none) →
    let off := s.lAddr a 64
    let i := off.toNat / 64
    64 * i < s.sp.part →
    (s.sp.isFull i = false → exec (.ldsy g t a) s = .next (s.waiting (.full i true))) ∧
    (s.sp.isFull i = true → i ∈ s.sp.bad → s.ctx.acted = false →
      exec (.ldsy g t a) s = .next (s.trapped (s.trapOf 0x09 0 off) [])) ∧
    (s.sp.isFull i = true → i ∉ s.sp.bad → ∃ u, exec (.ldsy g t a) s = .next u ∧
      u.ctx = (s.issueRow t.toNat (s.sp.row i) 1 0).ctx ∧ u.sp.isFull i = false ∧ u.sp.rows = s.sp.rows ∧
      ∀ x, u.mem.byte x = s.mem.byte x) ∧
    (s.sp.isFull i = true → exec (.stsy g t a) s = .next (s.waiting (.full i false))) ∧
    (s.sp.isFull i = false → ∃ u, exec (.stsy g t a) s = .next u ∧ OnlyScratch [i] s u ∧
      u.sp.row i = s.readV t.toNat ∧ u.sp.isFull i = true) ∧
    (∀ j : BitVec 3, ∃ u, exec (.feq g j a) s = .next u ∧
      u.ctx.pend = ((s.issueP (2 * j.toNat) (s.sp.isFull i) 1).issueP (2 * j.toNat + 1)
        (!s.sp.isFull i) 1).ctx.pend ∧ u.sp = s.sp ∧ ∀ x, u.mem.byte x = s.mem.byte x) ∧
    ∀ v : BitVec 1, ∃ u, exec (.fes g v a) s = .next u ∧ OnlyScratch [i] s u ∧ u.sp.row i = s.sp.row i ∧
      u.sp.isFull i = (v == 1)

/-- Scratchpad loads and stores of words and rows, the synchronising forms that wait on the full bit, and feq and fes.
-/
def Obligations.ScratchpadAccess : Prop :=
  Claims.ScratchpadWords ∧ Claims.FullEmptyRows

/-- R134, R135: tlr reads a tile's configured bit and state. tls traps on an unconfigured tile and on one that an
outstanding transfer or a fired binding (log 36) holds (unless its bundle has already changed something at another module, log 44); else it
writes the state, and a bound tile made ready whose binding
has not fired fires it, which makes the tile draining; a binding that is being saved fires too (R304). -/
def Claims.TileStates : Prop :=
  ∀ (s : State) (g : BitVec 4), s.readP g = true →
    let cfg (e : Tile) : Prop := e.rows ≠ 0 ∧ 64 * (e.first + e.rows) ≤ s.sp.part
    let code (x : TileState) : Nat :=
      match x with
      | .empty => 0
      | .filling => 1
      | .ready => 2
      | .draining => 3
    (∀ d t : BitVec 6, let e := s.px.tile t.toNat
      ∃ u, exec (.tlr g d t) s = .next u ∧ u.px = s.px ∧ u.sp = s.sp ∧
        (cfg e → u.ctx = (s.issueS d (BitVec.ofNat 64 (4 + code e.st)) 2).ctx) ∧
        (¬ cfg e → u.ctx = (s.issueS d (BitVec.ofNat 64 (code e.st)) 2).ctx)) ∧
    ∀ (t : BitVec 6) (x : BitVec 2) (st : TileState), code st = x.toNat →
      let i := t.toNat
      let e := s.px.tile i
      let held := (∃ f ∈ s.me.xfers, i ∈ f.tiles) ∨
        ∃ b ∈ s.binds, b.core = s.iss.core ∧ b.tile = i ∧ b.fired ≠ none ∧ b.fin = false ∧ b.image = none
      let busy := (e.st = .filling ∨ e.st = .draining) ∧ held ∧ s.ctx.acted = false
      let able (b : Binding) : Prop := b.core = s.iss.core ∧ b.tile = i ∧ ∀ va, b.image = some va →
        ∃ x ∈ s.me.xfers, x.kind = .ctxs ∧ (x.desc.getD 1 0).setWidth 48 = va
      let fires := e.st ≠ .ready ∧ st = .ready ∧ e.bnd = true ∧ ∃ b ∈ s.binds, able b ∧ b.fired = none
      let vr := if st = .ready then e.rows else if st = .empty then 0 else e.vr
      (¬ cfg e → exec (.tls g t x) s = .next (s.trapped (s.trapOf 0x07 i 0) [])) ∧
      (cfg e → busy → exec (.tls g t x) s =
        .next (s.trapped (s.trapOf 0x07 (i + 256 * (if e.rv then e.rq else 0)) 0) [])) ∧
      (cfg e → ¬ busy → ¬ fires → ∃ u, exec (.tls g t x) s = .next u ∧
        u.px.tile i = { e with st := st, vr := vr } ∧ u.binds = s.binds ∧ u.sp = s.sp) ∧
      (cfg e → ¬ busy → fires → ∃ u, exec (.tls g t x) s = .next u ∧
        u.px.tile i = { e with st := .draining, vr := vr } ∧
        ∀ b ∈ u.binds, able b → b.fired ≠ none)

/-- R136 to R138: an arrival at a barrier word, and a wait for a phase. The arrival that reaches the need starts the
next phase with none arrived; the wait ends once the phase is the awaited one or one of the 32,767 after it. -/
def Claims.BarrierWords : Prop :=
  ∀ (s : State) (g : BitVec 4) (t : BitVec 6) (a : BitVec 16), s.readP g = true →
    (s.iss.fw = true → s.me.repart = none) →
    let off := s.lAddr a 64
    let i := off.toNat / 64
    let j := bitsOf off.toNat 3 3
    64 * i < s.sp.part → i ∉ s.sp.bad →
    let word (r : Row) (n : Nat) : Word := r.extractLsb' (64 * n) 64
    let w := (word (s.sp.row i) j).toNat
    let need := bitsOf w 16 16
    let arrived := bitsOf w 32 16
    let phase := bitsOf w 48 16
    let n := bitsOf (s.readS t).toNat 0 16
    (∃ u, exec (.barv g t a) s = .next u ∧ OnlyScratch [i] s u ∧
      u.sp.isFull i = s.sp.isFull i ∧
      (∀ k, k < 8 → k ≠ j → word (u.sp.row i) k = word (s.sp.row i) k) ∧
      let w' := (word (u.sp.row i) j).toNat
      bitsOf w' 0 32 = bitsOf w 0 32 ∧
      (n = 0 → w' = w) ∧
      (n ≠ 0 → need ≤ arrived + n → bitsOf w' 48 16 = (phase + 1) % 2 ^ 16 ∧ bitsOf w' 32 16 = 0) ∧
      (n ≠ 0 → arrived + n < need → bitsOf w' 48 16 = phase ∧ bitsOf w' 32 16 = arrived + n)) ∧
    ((phase + 2 ^ 16 - n) % 2 ^ 16 < 2 ^ 15 → ∃ u, exec (.barw g t a) s = .next u ∧
      u.cores = s.cores ∧ u.iss = s.iss ∧ ∀ x, u.mem.byte x = s.mem.byte x) ∧
    (2 ^ 15 ≤ (phase + 2 ^ 16 - n) % 2 ^ 16 →
      exec (.barw g t a) s = .next (s.waiting (.barrier (8 * i + j) (BitVec.ofNat 16 n))))

/-- tlr and tls read and change tile states; barv arrives at a barrier word and barw waits for its phase. -/
def Obligations.TilesAndBarriers : Prop :=
  Claims.TileStates ∧ Claims.BarrierWords

/-- R142, R143: an access that finds no translation or is denied traps, with the address it named, bit 0 of info for a
store or atomic, and the format error that its walk met; a speculative load defers both faults instead, its destination zero and
marked, and reports a format error alone (R143). What an access
meets is what the request that its stalled bundle has sent met, else what its tables give. -/
def Obligations.AccessFaults : Prop :=
  ∀ (s : State) (g : BitVec 4), s.readP g = true →
    let outcome (i : Instr) (k : AccKind) (va : Word) : Prop :=
      let info := if k = .read then 0 else 1
      (s.xlate k va = .denied → exec i s = .next (s.trapped (s.trapOf 0x05 info va) [])) ∧
      (s.xlate k va = .none none → exec i s = .next (s.trapped (s.trapOf 0x04 info va) [])) ∧
      ∀ pa, s.xlate k va = .none (some pa) →
        exec i s = .next (s.trapped (s.trapOf 0x04 info va) [pa])
    let addr (b : BitVec 6) (d : BitVec 10) (scale : Nat) : Word :=
      s.readS b + d.signExtend 64 * BitVec.ofNat 64 scale
    (∀ t b d, outcome (.gldw g t b d) .read (addr b d 8) ∧ outcome (.gldr g t b d) .read (addr b d 64) ∧
      outcome (.gstw g t b d) .write (addr b d 8) ∧ outcome (.gstr g t b d) .write (addr b d 64)) ∧
    (∀ d a v w q r, outcome (.aadd g d a v w q r) .atomic (s.readS a) ∧
      outcome (.aand g d a v w q r) .atomic (s.readS a) ∧ outcome (.aor g d a v w q r) .atomic (s.readS a) ∧
      outcome (.axor g d a v w q r) .atomic (s.readS a) ∧ outcome (.aswp g d a v w q r) .atomic (s.readS a) ∧
      outcome (.acas g d a v w q r) .atomic (s.readS a) ∧ outcome (.afadd g d a v w q r) .atomic (s.readS a) ∧
      outcome (.aoadd g d a v w q r) .atomic (s.readS a) ∧
      ∀ k, outcome (.amin g d a v w k q r) .atomic (s.readS a) ∧
        outcome (.amax g d a v w k q r) .atomic (s.readS a)) ∧
    ∀ t b d,
      let row (u : State) : State := u.issueBits (.v t.toNat) 0 (~~~0) 1 0 true
      let told (pa : Nat) : State := s.walkError s.iss.core s.ctxAsid pa
      (s.xlate .read (addr b d 64) = .denied ∨ s.xlate .read (addr b d 64) = .none none →
        exec (.gldrs g t b d) s = .next (row s)) ∧
      (∀ pa, s.xlate .read (addr b d 64) = .none (some pa) → exec (.gldrs g t b d) s = .next (row (told pa))) ∧
      (t ≠ 0 → s.xlate .read (addr b d 8) = .denied ∨ s.xlate .read (addr b d 8) = .none none →
        exec (.gldws g t b d) s = .next (s.issueDeferred t)) ∧
      (t ≠ 0 → ∀ pa, s.xlate .read (addr b d 8) = .none (some pa) →
        exec (.gldws g t b d) s = .next ((told pa).issueDeferred t)) ∧
      let aside := s.translate s.ctxAsid .read (addr b d 8)
      (t = 0 → aside = .denied ∨ aside = .none none → exec (.gldws g t b d) s = .next s) ∧
      (t = 0 → ∀ pa, aside = .none (some pa) → exec (.gldws g t b d) s = .next (told pa))

/-- R140 to R142, R238, R251, R341: a load of device memory by a context with no posted operation of its own. A local row
that is not poisoned is delivered as the context may read it: the home's where the mapping is not cached, one of the
writes that have reached it where it is; a row of the hub page gives the hub's words; and a row homed elsewhere is asked
for, and delivered once its answer is there. Poison traps with the address of the line (unless the bundle has already changed
something at another module, log 44), and is deferred by a speculative load (R143). That poison stops the reading of a row at its
own home, and that of an answer as its flit says, is log 44 too. -/
def Claims.DeviceLoads : Prop :=
  ∀ (s : State) (g : BitVec 4) (t b : BitVec 6) (d : BitVec 10), s.readP g = true →
    (∀ p ∈ s.mem.posted, p.by_ ≠ s.agent) → (∀ x ∈ s.mem.adds, x.by_ ≠ s.agent) →
    let addr (scale : Nat) : Word := s.readS b + d.signExtend 64 * BitVec.ofNat 64 scale
    let here (va : Word) (acc : Acc) : Prop :=
      s.xlate .read va = .ok acc ∧ s.mem.stalls acc.pa = false ∧ s.isRemote acc = false
    let plain (va : Word) (acc : Acc) : Prop := here va acc ∧ isHubRow acc.row = false ∧ acc.row ∉ s.mem.bad
    let afar (va : Word) (acc : Acc) : Prop := s.xlate .read va = .ok acc ∧ s.isRemote acc = true
    let answer (acc : Acc) : Option (Nat × Row) := s.ctx.answers.find? fun e => e.1 = acc.key
    let poisoned (acc : Acc) : Bool := s.ctx.answers.any fun e => e.1 = poisonKey acc.key
    let legal (acc : Acc) (r : Row) : Prop :=
      if acc.leaf.ms = true ∨ acc.leaf.c = false then r = s.mem.decipher acc.leaf.ek acc.row (s.mem.home acc.row)
      else ∃ e ∈ s.candidates s.agent acc.row, r = s.mem.decipher acc.leaf.ek acc.row e.2
    let word (r : Row) (va : Word) : Word := r.extractLsb' (64 * bitsOf va.toNat 3 3) 64
    let line (va : Word) : Word := va &&& ~~~63#64
    let loads (i : Instr) (scale : Nat) (gives : Row → State) : Prop :=
      (∀ acc, plain (addr scale) acc → ∃ r u, legal acc r ∧ exec i s = .next u ∧ u.ctx = (gives r).ctx ∧
        ∀ x, u.mem.byte x = s.mem.byte x) ∧
      (∀ acc, here (addr scale) acc → isHubRow acc.row = true → acc.row ∉ s.mem.bad →
        exec i s = .next (gives (s.hubRow acc.row))) ∧
      (∀ acc, afar (addr scale) acc → answer acc = none →
        exec i s = .next (s.waiting (.remote .read (addr scale) acc .load 0 false 0 0 none))) ∧
      ∀ acc e, afar (addr scale) acc → answer acc = some e → poisoned acc = false →
        exec i s = .next (gives (s.mem.decipher acc.leaf.ek acc.row e.2))
    let spoilt (i : Instr) (scale : Nat) (u : State) : Prop := s.ctx.acted = false →
      (∀ acc, here (addr scale) acc → isHubRow acc.row = false → acc.row ∈ s.mem.bad → exec i s = .next u) ∧
      ∀ acc e, afar (addr scale) acc → answer acc = some e → poisoned acc = true → exec i s = .next u
    let traps (i : Instr) (scale : Nat) : Prop := spoilt i scale (s.trapped (s.trapOf 0x09 0 (line (addr scale))) [])
    loads (.gldw g t b d) 8 (fun r => s.issueS t (word r (addr 8)) 1) ∧ traps (.gldw g t b d) 8 ∧
    loads (.gldr g t b d) 64 (fun r => s.issueRow t.toNat r 1 0) ∧ traps (.gldr g t b d) 64 ∧
    (t ≠ 0 → loads (.gldws g t b d) 8 fun r => s.issueS t (word r (addr 8)) 1) ∧
    (t ≠ 0 → spoilt (.gldws g t b d) 8 (s.issueDeferred t)) ∧
    spoilt (.gldrs g t b d) 64 (s.issueBits (.v t.toNat) 0 (~~~0) 1 0 true) ∧
    (t = 0 → ∀ acc, s.translate s.ctxAsid .read (addr 8) = .ok acc → exec (.gldws g t b d) s = .next s) ∧
    loads (.gldrs g t b d) 64 fun r => s.issueRow t.toNat r 1 0

/-- R140 to R142, R245, R251, R328, R364: a store that finds its translation. At a remote home it is posted, and goes there as a
request once its way is free; on a memory-side page it is posted; else, after the context's own posted operations that
it must follow, it changes its word or row, as the mapping then reads it, and every byte of every other row stays; a word
store onto a poisoned row is dropped and reported, and a whole row clears poison. A dirty line of another row that stands at the
place which the stored line takes in the core's array (which place is free, log 138) is written back before (R378). Where an
operation that it must follow
is still on its way to another module, it is posted behind that one. How the requests and their answers look is log 77. -/
def Claims.DeviceStores : Prop :=
  ∀ (s : State) (g : BitVec 4) (t b : BitVec 6) (d : BitVec 10) (acc : Acc), s.readP g = true →
    let addr (scale : Nat) : Word := s.readS b + d.signExtend 64 * BitVec.ofNat 64 scale
    let here (scale : Nat) : Prop :=
      s.xlate .write (addr scale) = .ok acc ∧ s.mem.stalls acc.pa = false ∧ s.isRemote acc = false
    let afar (scale : Nat) : Prop := s.xlate .write (addr scale) = .ok acc ∧ s.isRemote acc = true
    let word (r : Row) (n : Nat) : Word := r.extractLsb' (64 * n) 64
    let j := acc.pa / 8 % 8
    let operation (va : Word) (n : Nat) (v : Word) (r : Row) (out : Option (Nat × Flit)) (wide : Bool) : Posted :=
      { by_ := s.agent, row := acc.row, va := va.setWidth 48, page := acc.page, op := .store, word := n, w32 := false,
        val := v, rowVal := r, born := s.me.cycle, made := s.mem.nextId, rank := s.rankOf s.agent,
        ek := acc.leaf.ek, out := out, wide := wide }
    let posts (p : Posted) : State :=
      { s with mem := { s.mem with nextId := s.mem.nextId + 1, posted := s.mem.posted ++ [p] } }
    let sends (i : Instr) (p : Posted) (f : Flit) : Prop := exec i s =
      .next (if (posts p).mem.wayFree p.way = true then (posts p).sendPosted s.mem.posted.length p acc.leaf.home f
        else posts p)
    let wordFlit := acc.wordFlit s.postTag (s.readS t)
    let rowFlit := s.rowFlit acc 0 s.postTag (s.readV t.toNat)
    (afar 8 → sends (.gstw g t b d) (operation (addr 8) j (s.readS t) 0 (some (acc.leaf.home, wordFlit)) false) wordFlit) ∧
    (afar 64 → sends (.gstr g t b d) (operation (addr 64) 16 0 (s.readV t.toNat) (some (acc.leaf.home, rowFlit)) false)
      rowFlit) ∧
    (here 8 → acc.leaf.ms = true → exec (.gstw g t b d) s = .next (posts (operation (addr 8) j (s.readS t) 0 none false))) ∧
    (here 64 → acc.leaf.ms = true →
      exec (.gstr g t b d) s = .next (posts (operation (addr 64) 16 0 (s.readV t.toNat) none false))) ∧
    ((∀ p ∈ s.mem.posted, p.by_ ≠ s.agent) → (∀ x ∈ s.mem.adds, x.by_ ≠ s.agent) → s.beforeStore acc = some s) ∧
    (acc.leaf.ms = false → s.beforeStore acc = none →
      (here 8 → exec (.gstw g t b d) s = .next (posts (operation (addr 8) j (s.readS t) 0 none true))) ∧
      (here 64 → exec (.gstr g t b d) s = .next (posts (operation (addr 64) 16 0 (s.readV t.toNat) none true)))) ∧
    (∀ s1, acc.leaf.ms = false → isHubRow acc.row = true → s.beforeStore acc = some s1 →
      (here 8 → exec (.gstw g t b d) s = .next (s1.hubPut s.agent (hubOffset acc.pa) (s.readS t))) ∧
      (here 64 → ∃ u, exec (.gstr g t b d) s = .next u ∧ u.mem = s1.mem)) ∧
    ∀ s1, acc.leaf.ms = false → isHubRow acc.row = false → s.beforeStore acc = some s1 →
      let line := s1.lineFor s.agent acc.row
      let s2 := if acc.leaf.c = true then { s1 with mem := s1.mem.evict line acc.row } else s1
      ((∀ w ∈ s1.mem.log, w.dirty = true → w.row ≠ acc.row → w.line ≠ line) → s2 = s1) ∧
      (here 8 → acc.row ∈ s1.mem.bad → exec (.gstw g t b d) s = .next (s1.dropReport acc.row s.agent)) ∧
      (here 8 → acc.row ∉ s1.mem.bad → ∃ u, exec (.gstw g t b d) s = .next u ∧ u.cores = s1.cores ∧
        MemoryKeptBut acc.row s2 u ∧
        ∀ n, n < 8 → word (u.peek acc) n = if n = j then s.readS t else word (s1.peek acc) n) ∧
      (here 64 → ∃ u, exec (.gstr g t b d) s = .next u ∧ u.cores = s1.cores ∧ MemoryKeptBut acc.row s2 u ∧
        u.peek acc = s.readV t.toNat ∧ acc.row ∉ u.mem.bad)

/-- Device loads deliver the word or row that the context may see, the speculative forms defer their faults, and
stores change exactly the stored bytes. -/
def Obligations.DeviceAccess : Prop :=
  Claims.DeviceLoads ∧ Claims.DeviceStores

/-- R144 to R147, R246, R252: the atomics. Without a result and without aq they are posted, with their operands; at a remote
home they go there as a request once their way is free. Else, at a local row, the old element is delivered and the new
one stands at the home, the row's other elements and all other rows as they were, after the context's posted operations to the page, or with rl after
all of them; a poisoned row traps, with info 0 (log 140); where one of those operations is still on its way to another module the bundle waits.
At a remote home the bundle waits until the request has been made and answered, and then delivers the old element (logs 44, 77). -/
def Claims.Atomics : Prop :=
  ∀ (s : State) (g : BitVec 4) (d a v : BitVec 6) (w k q r : BitVec 1) (acc : Acc), s.readP g = true →
    s.xlate .atomic (s.readS a) = .ok acc →
    let here := s.mem.stalls acc.pa = false ∧ s.isRemote acc = false
    let afar := s.isRemote acc = true
    let W := if w = 1 then 32 else 64
    let x := (s.readS v).toNat % 2 ^ W
    let cmp := (s.readS d).toNat % 2 ^ W
    let int (n : Nat) : Int := (BitVec.ofNat W n).toInt
    let scope := if s.isRemote acc = true then 9 else 4
    let s1 := if r = 1 then s.publish s.agent s.agent scope else s
    let n := if w = 1 then acc.pa / 4 % 16 else acc.pa / 8 % 8
    let other (y : Row) (j : Nat) : Nat := y.toNat / 2 ^ (W * j) % 2 ^ W
    let element (y : Row) : Nat := other y n
    let ready := if r = 1 then s.release 4 else s.drain s.agent (fun p => p.page == acc.page) true
    let answer := s.ctx.answers.find? fun e => e.1 = answerKey acc.key
    let poisoned := s.ctx.answers.any fun e => e.1 = poisonKey (answerKey acc.key)
    let does (i : Instr) (op : MemOp) (f : Nat → Nat) : Prop :=
      let operation (out : Option (Nat × Flit)) : Posted :=
        { by_ := s.agent, row := acc.row, va := (s.readS a).setWidth 48, page := acc.page, op := op, word := n,
          w32 := w == 1, val := s.readS v, rowVal := 0, born := s.me.cycle, made := s1.mem.nextId,
          rank := s1.rankOf s1.agent, ek := acc.leaf.ek, out := out }
      let posts (p : Posted) : State :=
        { s1 with mem := { s1.mem with nextId := s1.mem.nextId + 1, posted := s1.mem.posted ++ [p] } }
      let flit := acc.flit (memFlit 4 acc.row n (w == 1) (memOpCode op) s.postTag (ofWords [s.readS v, s.readS d]))
      let sent := operation (some (acc.leaf.home, flit))
      (d = 0 → q = 0 → here → exec i s = .next (posts (operation none))) ∧
      (d = 0 → q = 0 → afar → exec i s = .next (if (posts sent).mem.wayFree sent.way = true
        then (posts sent).sendPosted s1.mem.posted.length sent acc.leaf.home flit else posts sent)) ∧
      (¬ (d = 0 ∧ q = 0) → here → ready = none → exec i s = .next (s.waiting (.ordered acc.page true))) ∧
      (¬ (d = 0 ∧ q = 0) → here → isHubRow acc.row = false → ∀ s2, ready = some s2 →
        (acc.row ∈ s2.mem.bad →
          exec i s = .next (s.trapped (s.trapOf 0x09 0 (s.readS a &&& ~~~63#64)) [])) ∧
        (acc.row ∉ s2.mem.bad →
          let old := element (s2.mem.home acc.row)
          ∃ u, exec i s = .next u ∧ u.me = (s2.issueS d (BitVec.ofNat 64 old) 1).me ∧
            element (u.mem.home acc.row) = f old ∧
            (∀ j, j < 512 / W → j ≠ n → other (u.mem.home acc.row) j = other (s2.mem.home acc.row) j) ∧ ∀ b, b / 64 ≠ acc.row → u.mem.byte b = s2.mem.byte b)) ∧
      (¬ (d = 0 ∧ q = 0) → here → isHubRow acc.row = true → ∀ s2, ready = some s2 → ∃ u, exec i s = .next u ∧
        u.ctx.pend = (s2.issueS d (BitVec.ofNat 64 (element (s2.hubRow acc.row))) 1).ctx.pend ∧
        ∀ b, u.mem.byte b = s2.mem.byte b) ∧
      (¬ (d = 0 ∧ q = 0) → afar →
        (answer = none → (∀ p ∈ s.mem.posted, p.by_ ≠ s.agent) → exec i s = .next (s.waiting (.remote .atomic (s.readS a)
          acc op (BitVec.ofNat 4 n) (w == 1) (s.readS v) (s.readS d) (if r = 1 then some 9 else none)))) ∧
        ∀ e, answer = some e →
          (poisoned = true → exec i s = .next (s.trapped (s.trapOf 0x09 0 (s.readS a &&& ~~~63#64)) [])) ∧
          (poisoned = false → exec i s = .next
            ((if q = 1 then s.snapshot s.agent s.agent 9 else s).issueS d (BitVec.ofNat 64 (element e.2)) 1)))
    does (.aadd g d a v w q r) .aadd (fun o => (o + x) % 2 ^ W) ∧
    does (.aand g d a v w q r) .aand (fun o => o &&& x) ∧
    does (.aor g d a v w q r) .aor (fun o => o ||| x) ∧
    does (.axor g d a v w q r) .axor (fun o => o ^^^ x) ∧
    does (.aswp g d a v w q r) .aswp (fun _ => x) ∧
    does (.acas g d a v w q r) .acas (fun o => if o = cmp then x else o) ∧
    does (.afadd g d a v w q r) .afadd
      (fun o => (addF (if w = 1 then fmtF32 else fmtF64) ⟨0, false, false⟩ 0 o x).1 % 2 ^ W) ∧
    does (.amin g d a v w k q r) (if k = 1 then .aminn else .amin)
      (fun o => if k = 1 then min o x else if int o ≤ int x then o else x) ∧
    does (.amax g d a v w k q r) (if k = 1 then .amaxn else .amax)
      (fun o => if k = 1 then max o x else if int x ≤ int o then o else x)

/-- R144 to R147: an atomic on a local, readable row outside the hub page, with none of the context's own operations on their
way, completes: posted without a result and without aq, and else the old element is on its way to the result register, and the
new one stands in its place in the row, whose other elements keep their values, as do all other rows; with rl after the publication
at PKG. -/
def Claims.AtomicsComplete : Prop :=
  ∀ (s : State) (g : BitVec 4) (d a v : BitVec 6) (w k q r : BitVec 1) (acc : Acc), s.readP g = true →
    s.xlate .atomic (s.readS a) = .ok acc → s.isRemote acc = false → s.mem.stalls acc.pa = false →
    isHubRow acc.row = false → acc.row ∉ s.mem.bad → s.mem.posted = [] → s.mem.adds = [] →
    let W := if w = 1 then 32 else 64
    let x := (s.readS v).toNat % 2 ^ W
    let cmp := (s.readS d).toNat % 2 ^ W
    let int (n : Nat) : Int := (BitVec.ofNat W n).toInt
    let n := if w = 1 then acc.pa / 4 % 16 else acc.pa / 8 % 8
    let element (y : Row) (j : Nat) : Nat := y.toNat / 2 ^ (W * j) % 2 ^ W
    let s1 := if r = 1 then s.publish s.agent s.agent 4 else s
    let does (i : Instr) (f : Nat → Nat) : Prop :=
      (d = 0 → q = 0 → ∃ u p, exec i s = .next u ∧ u.cores = s.cores ∧ u.mem.posted = [p] ∧ p.by_ = s.agent ∧
        p.row = acc.row ∧ p.word = n ∧ p.val = s.readS v ∧ ∀ b, u.mem.byte b = s1.mem.byte b) ∧
      (¬ (d = 0 ∧ q = 0) → let old := element (s1.mem.home acc.row) n
        ∃ u, exec i s = .next u ∧ u.me = (s.issueS d (BitVec.ofNat 64 old) 1).me ∧
          element (u.mem.home acc.row) n = f old ∧
          (∀ j, j < 512 / W → j ≠ n → element (u.mem.home acc.row) j = element (s1.mem.home acc.row) j) ∧
          ∀ b, b / 64 ≠ acc.row → u.mem.byte b = s1.mem.byte b)
    does (.aadd g d a v w q r) (fun o => (o + x) % 2 ^ W) ∧
    does (.aand g d a v w q r) (fun o => o &&& x) ∧
    does (.aor g d a v w q r) (fun o => o ||| x) ∧
    does (.axor g d a v w q r) (fun o => o ^^^ x) ∧
    does (.aswp g d a v w q r) (fun _ => x) ∧
    does (.acas g d a v w q r) (fun o => if o = cmp then x else o) ∧
    does (.afadd g d a v w q r)
      (fun o => (addF (if w = 1 then fmtF32 else fmtF64) ⟨0, false, false⟩ 0 o x).1 % 2 ^ W) ∧
    does (.amin g d a v w k q r)
      (fun o => if k = 1 then min o x else if int o ≤ int x then o else x) ∧
    does (.amax g d a v w k q r)
      (fun o => if k = 1 then max o x else if int x ≤ int o then o else x)

/-- R148, R149: an ordered add outside the hub page goes on its way to its rank's sequence, with its number, operand and
step; at a remote home it is posted as a request for that module. In the firmware context the block of the rank in vrank, which
gives the step (log 79), has been read first. -/
def Claims.OrderedAdd : Prop :=
  ∀ (s0 : State) (g : BitVec 4) (d a v : BitVec 6) (w k r : BitVec 1) (acc : Acc), s0.readP g = true →
    let block := s0.rankRows s0.ctx.vrank
    let s := if s0.iss.fw = true then s0.rowsRead block else s0
    (s0.iss.fw = true → ¬ s0.RowsHere block → exec (.aoadd g d a v w k r) s0 = .next (s0.waiting (.hub block))) ∧
    ((s0.iss.fw = true → s0.RowsHere block ∧ s.rankHere s0.ctx.vrank = true) →
    s.xlate .atomic (s.readS a) = .ok acc →
    (s.isRemote acc = true → ∃ u p, exec (.aoadd g d a v w k r) s0 = .next u ∧ u.cores = s.cores ∧
      p ∈ u.mem.posted ∧ p.by_ = s.agent ∧ p.row = acc.row ∧ u.mem.adds.length = s.mem.adds.length ∧
      ∃ f, p.out = some (acc.leaf.home, f) ∧ f.memOp = 4 ∧ f.row = acc.row ∧ rowWord f.payload 0 = s.readS v ∧
        rowWord f.payload 1 = BitVec.ofNat 64 (bitsOf (s.readS d).toNat 0 32) ∧
        rowWord f.payload 2 = s.ctx.vrank.setWidth 64 ∧ rowWord f.payload 3 = s.stepNumber) ∧
    (s.isRemote acc = false → s.mem.stalls acc.pa = false →
    (isHubRow acc.row = true → exec (.aoadd g d a v w k r) s0 = .next (s0.trapped (s0.trapOf 0x05 1 (s.readS a)) [])) ∧
    (isHubRow acc.row = false → ∃ u x, exec (.aoadd g d a v w k r) s0 = .next u ∧ u.cores = s.cores ∧
      u.mem.adds = (if r = 1 then s.publish s.agent s.agent 4 else s).mem.adds ++ [x] ∧
      x.vrank = s.ctx.vrank ∧ x.q = bitsOf (s.readS d).toNat 0 32 ∧ x.op = s.readS v ∧ x.w = (w == 1) ∧
      x.k = (k == 1) ∧ x.pa = acc.pa ∧ x.by_ = s.agent ∧
      x.va.toNat = (s.readS a).toNat % 2 ^ 48 / (if w = 1 then 4 else 8) * (if w = 1 then 4 else 8) ∧
      ∀ t, s.me.strand = some t → s.iss.fw = false → x.stepNo = t.stepNo)))

/-- Each atomic delivers the old value and leaves the new one in the element alone, and completes wherever its address
is mapped, aligned and not poisoned; the ordered add is sent to its buffer with its key, number and step. -/
def Obligations.AtomicOperations : Prop :=
  Claims.Atomics ∧ Claims.AtomicsComplete ∧ Claims.OrderedAdd

/-- R152, R235, R237, R250, R251: phase completes at every scope. It publishes the context's view at its scope, with the operations that
the context has posted, and then takes into the view every write that has
reached the context and that a member of the scope made or published; it changes memory's record of writes alone. At a
scope inside the module no byte of memory changes; at PKG, HOST and TIER every line in the view becomes clean, and at TIER what its
rows of the capacity tier then hold is durable. -/
def Obligations.Phase : Prop :=
  ∀ (s : State) (g sc : BitVec 4), s.readP g = true →
    let s1 := s.publish s.agent s.agent sc.toNat
    let x := s1.scopeOf sc.toNat s.agent
    ∃ u, exec (.phase g sc) s = .next u ∧ u = { s with mem := u.mem } ∧
      (∀ e ∈ s1.mem.log, s1.reaches e s.agent = true →
        (s1.member x e.row e.by_ e.rank = true ∨ ∃ p ∈ e.pub, s1.member x e.row p.1.who p.1.rank = true) →
        ∃ e' ∈ u.mem.log, e'.ident = e.ident ∧ e'.viewed.contains s.agent = true) ∧
      (∀ e ∈ s.mem.log, e.inView s.agent = true →
        ∃ e' ∈ u.mem.log, e'.ident = e.ident ∧ e'.inView s.agent = true ∧
          (∃ p ∈ e'.pub, p.1.code = sc.toNat ∧ p.1.who = s.agent) ∧
          ((sc = 4 ∨ sc = 10 ∨ sc = 11) → (s.mem.recs e.row).find? (fun w => w.dirty) = some e → e'.dirty = false)) ∧
      (∀ p ∈ s.mem.posted, p.by_ = s.agent → ∃ p' ∈ u.mem.posted, p'.made = p.made ∧ p'.by_ = s.agent ∧ p'.pub ≠ none) ∧
      (sc ≠ 4 → sc ≠ 10 → sc ≠ 11 → MemoryKept s u) ∧
      (sc = 11 → ∀ e ∈ s.mem.log, e.inView s.agent = true → inTier (64 * e.row) 64 = true → ∀ i, i < 64 →
        Tab.get 0 u.mem.durable (64 * e.row + i) = u.mem.byte (64 * e.row + i))

/-! ## Engine commands, channels and queues -/

/-- R84, R208, R209, R212, R214, R216, R225, R228: the five commands with a descriptor. A channel that the context may not name
is illegal; a reason of R212 traps with faddr the descriptor's offset; a command that passes its checks draws the next
identifier of its channel into s[d] and becomes outstanding with its resolved descriptor, but for an ASID that is being
quiesced, where the identifier completes at once. Device memory is unchanged, and so is the scratchpad. -/
def Obligations.EngineCommands : Prop :=
  ∀ (s : State) (g c : BitVec 4) (a d : BitVec 6), s.readP g = true →
    let n := c.toNat
    let off := s.readS a
    let ch (t : State) (i : Nat) : Chan := Tab.get {} t.ctx.chans i
    let issues (i : Instr) (k : XKind) (aq rl : Bool) (sc : Nat) : Prop :=
      (s.chanOk n = false → exec i s = .next (s.trapped (s.trapOf 0x01 3 0) [])) ∧
      ∀ d0, s.chanOk n = true → s.readDesc off = .ok d0 →
        (∀ r, s.indexPoison k (resolveDesc s.ctx d0) = none → s.cmdReason k false n d0 (resolveDesc s.ctx d0) = some r →
          exec i s = .next (s.trapped (s.trapOf 0x0A r off) [])) ∧
        ∀ x, s.checkCmd k none n d0 off aq rl sc = .ok x →
          (s.quiescing s.cmdAsid = true →
            exec i s = .next ((s.drawId n d).completeId s.iss.core s.iss.fw n x.ident)) ∧
          (s.quiescing s.cmdAsid = false → ∃ u y, exec i s = .next u ∧ u.me.xfers = s.me.xfers ++ [y] ∧
            y.kind = k ∧ y.fw = s.iss.fw ∧ y.chan = n ∧ y.ident = ((ch s n).iss + 1).toNat ∧
            y.desc = resolveDesc s.ctx d0 ∧ y.aq = aq ∧ y.rl = rl ∧ y.sc = sc ∧ y.pos = 0 ∧
            ch u n = { ch s n with iss := (ch s n).iss + 1 } ∧ (∀ m, m ≠ n → ch u m = ch s m) ∧
            u.ctx.pend = (s.issueS d ((ch s n).iss + 1) 1).ctx.pend ∧ u.sp = s.sp ∧
            ∀ b, u.mem.byte b = s.mem.byte b)
    (∀ q r : BitVec 1, ∀ sc : BitVec 4, issues (.copy g c a d q r sc) .copy (q == 1) (r == 1) sc.toNat ∧
      issues (.gath g c a d q r sc) .gath (q == 1) (r == 1) sc.toNat ∧
      issues (.scat g c a d q r sc) .scat (q == 1) (r == 1) sc.toNat) ∧
    (∀ q : BitVec 1, ∀ sc : BitVec 4, issues (.wstr g c a d q sc) .wstr (q == 1) false sc.toNat) ∧
    ∀ r : BitVec 1, ∀ sc : BitVec 4, issues (.hist g c a d r sc) .hist false (r == 1) sc.toNat

/-- R221, R222, R270: trig. A command that passes its checks draws the next identifier of its own channel and waits on the
named channel with its threshold, in firing order; what is due already fires at once, and nothing else is transferred. -/
def Claims.Triggers : Prop :=
  ∀ (s : State) (g c : BitVec 4) (a b : BitVec 6), s.readP g = true →
    let n := c.toNat
    let T := s.readS a
    let off := s.readS b
    (s.chanOk n = false → exec (.trig g c a b) s = .next (s.trapped (s.trapOf 0x01 3 0) [])) ∧
    ∀ d0 k x, s.chanOk n = true → s.readDesc off = .ok d0 → opKind (d3 d0 33 3) = some k →
      let tc := d2 d0 32 4
      s.checkCmd k (some (n, T)) tc d0 off (d2 d0 36 1 == 1) (d2 d0 37 1 == 1) (d2 d0 38 4) = .ok x →
      ∃ u : State, exec (.trig g c a b) s = .next (u.fireAll s.iss.core s.iss.fw) ∧
        ((∀ e ∈ u.ctx.chans, e.2.due = false) → u.fireAll s.iss.core s.iss.fw = u) ∧
        u.me.xfers = s.me.xfers ∧ u.ctx.pend = s.ctx.pend ∧
        (Tab.get {} u.ctx.chans n).trigs = insertTrig (Tab.get {} s.ctx.chans n).trigs ⟨T, x⟩ ∧
        (Tab.get {} u.ctx.chans tc).iss = (Tab.get {} s.ctx.chans tc).iss + 1 ∧
        x.ident = ((Tab.get {} s.ctx.chans tc).iss + 1).toNat ∧ ∀ y, u.mem.byte y = s.mem.byte y

/-- R220, R27, R291: the channel waits. By identifier the wait ends when the watermark has reached s[a], by count when
no more than s[a] transfers are outstanding; else the bundle stalls, or suspends a pinned strand where u asks it: once
its posted atomics and ordered adds have been performed (R150), and the rows that the suspension rewrites are here (log 137). -/
def Claims.ChannelWaits : Prop :=
  ∀ (s : State) (g c : BitVec 4) (a : BitVec 6) (u : BitVec 1), s.readP g = true →
    let n := c.toNat
    let ch : Chan := Tab.get {} s.ctx.chans n
    let t := (s.readS a).toNat
    let suspends := u = 1 ∧ s.iss.fw = false ∧ ∃ k, s.me.strand = some k ∧ k.pin ≠ 0
    let adds := (∃ p ∈ s.mem.posted, p.by_ = s.agent ∧ p.op ≠ .store) ∨ ∃ p ∈ s.mem.adds, p.by_ = s.agent
    let waits (i : Instr) (count : Bool) (ends : Prop) : Prop :=
      (s.chanOk n = false → exec i s = .next (s.trapped (s.trapOf 0x01 3 0) [])) ∧
      (s.chanOk n = true → ends → ∃ v, exec i s = .next v ∧ v.cores = s.cores ∧ v.iss = s.iss ∧
        ∀ b, v.mem.byte b = s.mem.byte b) ∧
      (s.chanOk n = true → ¬ ends → ¬ suspends → exec i s = .next (s.waiting (.chan n (s.readS a) count))) ∧
      (s.chanOk n = true → ¬ ends → suspends →
        (adds → exec i s = .next (s.waiting .performed)) ∧
        (¬ adds → ∀ l, s.strandWaits = some l → exec i s = .next (s.waiting (.hub l))) ∧
        (¬ adds → s.strandWaits = none → exec i s = .next (s.waiting (.chanSusp n (s.readS a) count))))
    waits (.cwid g c a u) false (t ≤ ch.tw.toNat) ∧
    waits (.cwcnt g c a u) true ((ch.iss.toNat + 2 ^ 64 - ch.tw.toNat) % 2 ^ 64 ≤ t)

/-- A trigger waits in firing order on its channel; the channel waits end at their watermark or count, and else stall
the bundle or suspend a pinned strand. -/
def Obligations.ChannelInstructions : Prop :=
  Claims.Triggers ∧ Claims.ChannelWaits

/-- R223, R224, R228, R245, R248, R291, R294, R295, R33, R407: enqueue and dequeue. A header on another module is asked for. At a local
one, what the context has posted to its page comes first (R245). A poisoned header traps, and an invalid one
traps with reason 7 and faddr the register (log 37). An enq waits for the read index of a mirror that it has not read yet; an append,
after the publication that the queue's scope asks for, gives its
predicate false, or true where the queue is full or the ASID is being quiesced. A take delivers the oldest packet and
takes its view; without one the bundle waits, or with u suspends its strand on the queue's waiter queue, as R112 and R150 let it.
How headers are cached and used is log 45. -/
def Claims.QueueInstructions : Prop :=
  ∀ (s : State) (g p : BitVec 4) (a v : BitVec 6) (u : BitVec 1) (acc : Acc), s.readP g = true →
    let va : Word := s.readS a &&& ~~~63#64
    let hdr : Addr := va.setWidth 48
    let asid := s.cmdAsid
    let reason7 (i : Instr) : Prop := exec i s = .next (s.trapped (s.trapOf 0x0A 7 (s.readS a)) [])
    let poisoned (i : Instr) (x : Word) : Prop := exec i s = .next (s.trapped (s.trapOf 0x09 0 x) [])
    s.xlate .atomic va = .ok acc →
    (s.isRemote acc = true → (∀ e ∈ s.ctx.answers, e.1 ≠ acc.key) →
      let asks (i : Instr) : Prop := exec i s = .next (s.waiting (.remote .atomic va acc .load 0 false 0 0 none))
      asks (.enq g p a v) ∧ ((∀ x ∈ s.mem.posted, x.by_ ≠ s.agent) → (∀ x ∈ s.mem.adds, x.by_ ≠ s.agent) → asks (.deq g v a u))) ∧
    (s.mem.stalls acc.pa = false → s.isRemote acc = false →
     let earlier := s.drain s.agent (fun x => x.page == acc.page) true
     (earlier = none → exec (.enq g p a v) s = .next (s.waiting (.ordered acc.page true)) ∧
       exec (.deq g v a u) s = .next (s.waiting (.ordered acc.page true))) ∧
     ∀ s0, earlier = some s0 →
     let q := (s0.queueHdr asid hdr acc).2
     let h := (s0.queueHdr asid hdr acc).1
     (acc.row ∈ q.mem.bad → poisoned (.enq g p a v) va) ∧
     (acc.row ∉ q.mem.bad → h.bad = true → reason7 (.enq g p a v)) ∧
     (acc.row ∉ q.mem.bad → h.bad = false → s.quiescing asid = true →
       exec (.enq g p a v) s = .next (q.issueP p.toNat true 1)) ∧
     (acc.row ∉ q.mem.bad → h.bad = false → s.quiescing asid = false →
       (q.boundRi asid h = none → exec (.enq g p a v) s = .next (s.waiting (.hub [(asid, h.mra.setWidth 64)]))) ∧
       (q.boundRi asid h ≠ none → q.release h.qsc = none →
         exec (.enq g p a v) s = .next (s.waiting (.ordered acc.page true))) ∧
       ∀ s1, q.boundRi asid h ≠ none → q.release h.qsc = some s1 →
         let r := s1.append s.agent asid hdr (s.readV v.toNat) none
         (r.1 = .full → exec (.enq g p a v) s = .next (r.2.issueP p.toNat true 1)) ∧
         (r.1 = .bad → reason7 (.enq g p a v)) ∧
         (r.1 = .poison → poisoned (.enq g p a v) va) ∧
         (r.1 = .later → exec (.enq g p a v) s = .next (s.waiting (.hub [(asid, h.mra.setWidth 64)]))) ∧
         (∀ denied x err, r.1 = .fault denied x err → exec (.enq g p a v) s = .next
           (s.trapped (s.trapOf (if denied then 0x05 else 0x04) 1 x) err.toList)) ∧
         ∀ i, r.1 = .done i → exec (.enq g p a v) s = .next ((r.2.moveWaiter asid h.wq).issueP p.toNat false 1)) ∧
     (s0 = s → s.ctx.acted = false →
       let from_ := h.slot h.ri.toNat
       let waits : Prop :=
         (u = 0 → exec (.deq g v a u) s = .next (s.waiting (.packet hdr))) ∧
         (u = 1 → s.iss.fw = false → ∀ k, s.me.strand = some k → h.wq ≠ 0 → s.ctx.waits = [] →
           (k.pin = 0 → s.outstanding = true → exec (.deq g v a u) s = .next (s.waiting (.packetDrain hdr))) ∧
           (k.pin ≠ 0 ∨ s.outstanding = false →
             (s.addsOut = true → exec (.deq g v a u) s = .next (s.waiting .performed)) ∧
             (s.addsOut = false → ∀ l, s.strandWaits = some l → exec (.deq g v a u) s = .next (s.waiting (.hub l))) ∧
             ∀ w, s.addsOut = false → s.strandWaits = none →
               s.dataAcc .atomic (h.wq.setWidth 64) 1 = .ok w → s.isRemote w = false →
               let x := (s.queueHdr asid h.wq w).1
               (w.row ∈ s.mem.bad → poisoned (.deq g v a u) (h.wq.setWidth 64)) ∧
               (w.row ∉ s.mem.bad → x.bad = true → reason7 (.deq g v a u)) ∧
               (w.row ∉ s.mem.bad → x.bad = false → ∀ y, s.dataAcc .write (x.slot x.wi.toNat) 1 = .ok y →
                 exec (.deq g v a u) s = .next (s.waiting (.packetSusp hdr h.wq)))))
       (acc.row ∈ q.mem.bad → poisoned (.deq g v a u) va) ∧
       (acc.row ∉ q.mem.bad → h.bad = true → reason7 (.deq g v a u)) ∧
       (acc.row ∉ q.mem.bad → h.bad = false → s.quiescing asid = true ∨ h.ri = h.wi → waits) ∧
       ∀ slot r, acc.row ∉ q.mem.bad → h.bad = false → s.quiescing asid = false → h.ri ≠ h.wi →
         s.dataAcc .read from_ 0 = .ok slot → q.slotRow from_ slot = .ok r →
         (r.2.packetIn acc.row h r.1 = false → s.isRemote slot = false → waits) ∧
         (r.2.packetIn acc.row h r.1 = true → exec (.deq g v a u) s =
           .next (((r.2.takeAt s.agent acc h).issueRow v.toNat r.1 1 0).snapshot s.agent s.agent h.qsc))))

/-- R292, R293, R406, R407: an append to a queue that is not being quiesced, whose header is memory-side or uncached. It is full when the
write index and the read index, the peer's where the queue has a mirror, are 2^lc apart, and can not be told to be while the
peer's has not been read; else the packet stands in the
slot of the write index with its sequence bit, the index is one more, and a mirrored packet waits for its
acknowledgement. A poisoned header stops it (log 45). -/
def Claims.QueueAppend : Prop :=
  ∀ (s0 : State) (a : Agent) (asid : BitVec 16) (va : Addr) (v : Row) (acc slot : Acc),
    let s := s0.actFor (s0.asidRank asid)
    let plain (x : Acc) : Prop := s.mem.stalls x.pa = false ∧ s.isRemote x = false ∧ isHubRow x.row = false
    s.translate asid.toNat .atomic (va.setWidth 64) = .ok acc → plain acc → acc.leaf.ms = true ∨ acc.leaf.c = false →
    let q := s.queueHdr asid va acc
    let h := q.1
    let r := s0.append a asid va v none
    let index (t : State) (j : Nat) : Word := (t.peek acc).extractLsb' (64 * j) 64
    h.wi = index s 0 ∧ h.ri = index s 1 ∧
    (acc.row ∈ s.mem.bad → r.1 = .poison) ∧ (acc.row ∉ s.mem.bad → h.bad = true → r.1 = .bad) ∧
    (acc.row ∉ s.mem.bad → h.bad = false → s.quiescing asid = false →
     s.translate asid.toNat .write ((h.base + BitVec.ofNat 48 (64 * (h.wi.toNat % 2 ^ h.lc))).setWidth 64) = .ok slot →
     plain slot → slot.row ≠ acc.row →
     (q.2.boundRi asid h = none → r.1 = .later) ∧
     ∀ ri, q.2.boundRi asid h = some ri → (h.mir = false → ri = h.ri) ∧
       (2 ^ h.lc ≤ (h.wi - ri).toNat → r.1 = .full ∧ ∀ b, r.2.mem.byte b = s.mem.byte b) ∧
       ((h.wi - ri).toNat < 2 ^ h.lc → r.1 = .done h.wi.toNat ∧ index r.2 0 = h.wi + 1 ∧
         (∀ j, 0 < j → j < 8 → index r.2 j = index s j) ∧
         (∀ i, i < 511 → (r.2.peek slot).getLsbD i = v.getLsbD i) ∧
         ((r.2.peek slot).getLsbD 511 = true ↔ h.wi.toNat / 2 ^ h.lc % 2 = 0) ∧
         (h.mir = false → r.2.hub.mirrors = s.hub.mirrors) ∧
         (h.mir = true → r.2.hub.mirrors.length = s.hub.mirrors.length + 1 ∧
           ∃ e ∈ r.2.hub.mirrors, e.asid = asid ∧ e.va = va ∧ e.row = acc.row ∧ e.index = h.wi.toNat ∧ e.bud = h.bud ∧
             e.who = none ∧ e.acked = false) ∧
         ∀ b, b / 64 ≠ acc.row → b / 64 ≠ slot.row → r.2.mem.byte b = s.mem.byte b))

/-- R223, R224, R292, R293: enq and deq complete. With no posted operation of the context on its way, header and slot local,
readable and memory-side or uncached, and no mirror: an enq finds room and gives its predicate false with the packet
in the slot and the write index one more, or finds none and gives it true; a deq whose oldest packet carries its
sequence bit delivers it, and the read index is one more. -/
def Claims.QueueCompletion : Prop :=
  ∀ (s : State) (g p : BitVec 4) (a v : BitVec 6) (u : BitVec 1) (acc slot : Acc), s.readP g = true →
    (∀ x ∈ s.mem.posted, x.by_ ≠ s.agent) → (∀ x ∈ s.mem.adds, x.by_ ≠ s.agent) → s.ctx.acted = false →
    let va : Word := s.readS a &&& ~~~63#64
    let hdr : Addr := va.setWidth 48
    let asid := s.cmdAsid
    let plain (t : State) (x : Acc) : Prop := t.mem.stalls x.pa = false ∧ t.isRemote x = false ∧
      isHubRow x.row = false ∧ (x.leaf.ms = true ∨ x.leaf.c = false) ∧ x.row ∉ t.mem.bad
    let index (t : State) (j : Nat) : Word := (t.peek acc).extractLsb' (64 * j) 64
    let h := (s.queueHdr asid hdr acc).1
    s.xlate .atomic va = .ok acc → plain s acc → h.bad = false → h.mir = false → s.quiescing asid = false →
    slot.row ≠ acc.row →
    (let s1 := ((s.queueHdr asid hdr acc).2.publish s.agent s.agent h.qsc).actFor (s.asidRank asid)
     let h1 := (s1.queueHdr asid hdr acc).1
     s1.translate asid.toNat .atomic (hdr.setWidth 64) = .ok acc → plain s1 acc → h1.bad = false → h1.mir = false →
     s1.translate asid.toNat .write (h1.slot h1.wi.toNat) = .ok slot → plain s1 slot →
     (2 ^ h1.lc ≤ (h1.wi - h1.ri).toNat → ∃ t : State, exec (.enq g p a v) s = .next (t.issueP p.toNat true 1) ∧
       ∀ b, t.mem.byte b = s1.mem.byte b) ∧
     ((h1.wi - h1.ri).toNat < 2 ^ h1.lc → ∃ t : State, exec (.enq g p a v) s =
         .next ((t.moveWaiter asid h.wq).issueP p.toNat false 1) ∧ index t 0 = h1.wi + 1 ∧
       (∀ i, i < 511 → (t.peek slot).getLsbD i = (s.readV v.toNat).getLsbD i) ∧
       ((t.peek slot).getLsbD 511 = true ↔ h1.wi.toNat / 2 ^ h1.lc % 2 = 0))) ∧
    (h.ri ≠ h.wi → s.xlate .read (h.slot h.ri.toNat) = .ok slot → plain s slot →
     ((s.peek slot).getLsbD 511 = true ↔ h.ri.toNat / 2 ^ h.lc % 2 = 0) →
     ∃ t : State, exec (.deq g v a u) s =
         .next ((t.issueRow v.toNat (s.peek slot) 1 0).snapshot s.agent s.agent h.qsc) ∧
       index t 1 = h.ri + 1 ∧ (∀ j, j < 8 → j ≠ 1 → index t j = index s j) ∧ t.cores = s.cores ∧
       ∀ b, b / 64 ≠ acc.row → t.mem.byte b = s.mem.byte b)

/-- enq and deq with their refusals and waits; an append puts the packet with its sequence bit into the slot of the
write index, and moves the index by one; with room, or with a packet there, enq and deq complete. -/
def Obligations.Queues : Prop :=
  Claims.QueueInstructions ∧ Claims.QueueAppend ∧ Claims.QueueCompletion

/-- R225, R305: sarv publishes the context's view at VRANK and counts one more arrival of the rank's current step, where the
rank's block is mapped memory-side or uncached and its rows are here; while they are not it waits (log 137). -/
def Claims.StepArrival : Prop :=
  ∀ (s : State) (g : BitVec 4) (b : Addr) (acc : Acc), s.readP g = true →
    let block := s.rankRows s.ctx.vrank
    (¬ s.RowsHere block → exec (.sarv g) s = .next (s.waiting (.hub block))) ∧
    (s.RowsHere block → let r := s.rowsRead block
     r.rankHere s.ctx.vrank = true → r.rankBlock s.ctx.vrank = some b → (∀ e ∈ r.disp.records, ¬ (e.1 = 0 ∧ e.2.1 = b)) →
     r.translate 0 .read (b.setWidth 64) = .ok acc → r.isRemote acc = false → isHubRow acc.row = false →
     acc.row ∉ r.mem.bad → r.mem.stalls acc.pa = false → acc.leaf.ms = true ∨ acc.leaf.c = false →
     let w (t : State) : Nat := ((t.peek acc).extractLsb' 192 64).toNat
     ∃ u, exec (.sarv g) s = .next u ∧ u.cores = r.cores ∧ bitsOf (w u) 32 32 = (bitsOf (w r) 32 32 + 1) % 2 ^ 32 ∧
       bitsOf (w u) 0 32 = bitsOf (w r) 0 32 ∧ MemoryKeptBut acc.row r u)

/-- R84, R225, R338, R385: bred. Its engine starts from the context's view, with aq after the re-snapshot, and reads the block. With
rows that are readable, a valid field set, every span probed and room on its
stack, the block waits behind those of its stack, outstanding under the identifier drawn; a field error traps with
reason 9, a full channel with reason 5, and a full stack waits. -/
def Claims.ReductionCommand : Prop :=
  ∀ (s : State) (g c : BitVec 4) (a d : BitVec 6) (q r : BitVec 1) (sc : BitVec 4), s.readP g = true →
    let n := c.toNat
    let va : Word := BitVec.ofNat 64 (bitsOf (s.readS a).toNat 6 42 * 64)
    let i : Instr := .bred g c a d q r sc
    let e : Agent := .engine s.iss.core s.iss.fw n (s.nextIdent n)
    let s1 := if q = 1 then (s.shareView s.agent e).snapshot e s.agent sc.toNat else s.shareView s.agent e
    (s.chanOk n = false → exec i s = .next (s.trapped (s.trapOf 0x01 3 0) [])) ∧
    ∀ acc r0 r1, s.chanOk n = true → s1.paramRow e va = .ok r0 → r0.2.paramRow e (va + 64) = .ok r1 →
      r1.2.dataAcc .read va 0 = .ok acc →
      let t : State := r1.2
      let w := rowWords r0.1 ++ rowWords r1.1
      let ch : Chan := Tab.get {} t.ctx.chans n
      let stack := t.mem.stackOf acc.pa
      let full := 64 ≤ (t.mem.red.filter fun b => b.stack = stack).length
      (256 ≤ (ch.iss - ch.tw).toNat → exec i s = .next (s.trapped (s.trapOf 0x0A 5 (s.readS a)) [])) ∧
      ((ch.iss - ch.tw).toNat < 256 → redBad w = true →
        exec i s = .next (s.trapped (s.trapOf 0x0A 9 (s.readS a)) [])) ∧
      ∀ held, (ch.iss - ch.tw).toNat < 256 → redBad w = false → t.probeAll t.ctxAsid (redSpans w) [] = .ok held →
        t.quiescing t.cmdAsid = false →
        (full → exec i s = .next (s.waiting (.reduction stack))) ∧
        (¬ full → ∃ u b x, exec i s = .next u ∧ u.mem.red = t.mem.red ++ [b] ∧
          u.me.xfers = t.me.xfers ++ [x] ∧ b.stack = stack ∧ b.core = s.iss.core ∧ b.fw = s.iss.fw ∧
          b.chan = n ∧ b.ident = s.nextIdent n ∧ b.words = w ∧ x.ident = b.ident ∧ x.chan = n ∧
          x.kind = .bred)

/-- sarv counts one more arrival of the current step; bred puts its block behind those of its stack, or traps or
waits. -/
def Obligations.StepsAndReductions : Prop :=
  Claims.StepArrival ∧ Claims.ReductionCommand

/-- R225, R349, R352: cbind, with the rank's block read and, before it takes effect, the rank's backlog (log 137). A full channel
traps with reason 5, what the collective engine refuses with reason 8 (of a module with 4096 bindings any, log 142); else
the tile is bound, an identifier is drawn, and the binding is in force with the fields of its parameter block. -/
def Obligations.CollectiveBind : Prop :=
  ∀ (s0 : State) (g c : BitVec 4) (a d : BitVec 6) (q r : BitVec 1) (sc : BitVec 4), s0.readP g = true →
    let n := c.toNat
    let off := s0.readS a
    let i : Instr := .cbind g c a d q r sc
    let vrank := s0.ctx.vrank
    let block := s0.rankRows vrank
    let traps (code : Nat) : Prop := exec i s0 = .next (s0.trapped (s0.trapOf 0x0A code off) [])
    let waits (l : List (BitVec 16 × Word)) : Prop := exec i s0 = .next (s0.waiting (.hub l))
    (s0.chanOk n = false → exec i s0 = .next (s0.trapped (s0.trapOf 0x01 3 0) [])) ∧
    (s0.chanOk n = true → ¬ s0.RowsHere block → waits block) ∧
    ∀ w, s0.chanOk n = true → s0.RowsHere block → let s := s0.rowsRead block
      let ch : Chan := Tab.get {} s.ctx.chans n
      s.rankHere vrank = true → s.readDesc off = .ok w →
      (256 ≤ (ch.iss - ch.tw).toNat → traps 5) ∧
      ((ch.iss - ch.tw).toNat < 256 → s.bindBad w = true → traps 8) ∧
      ((ch.iss - ch.tw).toNat < 256 → s.bindBad w = false → ∀ x, s.endpoint (fld (dw w 0) 36 12) = .ok x →
        (x.1 = none → traps 8) ∧
        ∀ job m held, x.1 = some (job, m) →
          ((collDesc w).kind = 1 ∨ (collDesc w).kind = 2 → (collDesc w).root < m.length) → s.quiescing s.collAsid = false →
          let rows := (collDesc w).copyRows m.length (m.idxOf vrank) (s.px.tile (fld (dw w 0) 30 6)).rows
          (if dw w 3 = 0 ∨ rows = 0 then .ok [] else s.probeSpan s.collAsid.toNat
            ⟨true, ((dw w 3).toNat : Int), 64 * rows⟩ []) = .ok held →
          let s1 := x.2.drawId n d
          let blog := s1.blogRow vrank
          let s2 := s1.rowsRead blog
          let ring := s2.ringRows vrank
          (¬ s1.RowsHere blog → waits blog) ∧ (s1.RowsHere blog → ¬ s2.RowsHere ring → waits ring) ∧
          (s1.RowsHere blog → s2.RowsHere ring → ∃ b : Binding,
            exec i s0 = .next (((((s2.rowsRead ring).installBind b).dropAnswers ring).dropAnswers blog).dropAnswers block) ∧
            b.vrank = vrank ∧ b.core = s.iss.core ∧ b.fw = s.iss.fw ∧ b.chan = n ∧ b.ident = s.nextIdent n ∧
            b.tile = fld (dw w 0) 30 6 ∧ b.members = m ∧ b.desc = collDesc w ∧ b.sw = fld (dw w 4) 0 32 ∧
            b.key.job = job ∧ b.key.cid = (dw w 0).setWidth 16 ∧ b.held = held ∧ b.fired = none))

/-! ## Vectors and matrices -/

/-- R18: a source field of a port. 0 to 31 reads the register, which the port's latch captures; every other value reads
the latch, and changes nothing. -/
def Claims.SourcePorts : Prop :=
  ∀ (s : State) (port : Nat) (a : BitVec 6),
    let n := (s.iss.slot - 5) * 3 + port
    let r := s.portRead port a
    (a.toNat < 32 → r.1 = s.readV a.toNat ∧ OnlyIssues [] [n] s r.2 ∧ Tab.get 0 r.2.px.latch n = s.readV a.toNat) ∧
    (32 ≤ a.toNat → r.1 = Tab.get 0 s.px.latch n ∧ r.2 = s)

/-- R158 to R162, R164: selection, permutation, the moves between scalars and lanes, the integer compares and the mask
logic. -/
def Claims.LaneMoves : Prop :=
  ∀ (s : State) (g : BitVec 4) (m : BitVec 3) (t : BitVec 2), s.readP g = true →
    let W := 8 * 2 ^ t.toNat
    let n := 512 / W
    let mk := s.readM m.toNat
    let un := s.unsureM m.toNat
    let L (r : Row) (k : Nat) : Nat := r.toNat / 2 ^ (W * k) % 2 ^ W
    let sg (x : Nat) : Int := (BitVec.ofNat W x).toInt
    (∀ (d : BitVec 5) (a b : BitVec 6), let p := s.ports a b
      (∃ val, exec (.vsel g d a b m t) s = .next (p.2.2.issueRow d.toNat val 2 0) ∧
        LanesBut W n val un (fun k => if mk.getLsbD k then L p.1 k else L p.2.1 k)) ∧
      ∃ val, exec (.vperm g d a b m t) s = .next (p.2.2.issueV d.toNat val (laneMask W n (mk ||| un)) 3 0) ∧
        LanesBut W n val un (fun k => L p.1 (L p.2.1 k % n))) ∧
    (∀ (d : BitVec 5) (a l : BitVec 6),
      (∃ val, exec (.vbc g d a m t) s = .next (s.issueV d.toNat val (laneMask W n (mk ||| un)) 3 0) ∧
        LanesBut W n val un (fun _ => (s.readS a).toNat % 2 ^ W)) ∧
      ∃ val, exec (.vins g d a l m t) s = .next (s.issueV d.toNat val
          (laneMask W n ((mk ||| un) &&& (1#64 <<< l.toNat))) 3 0) ∧
        LanesBut W n val (un &&& (1#64 <<< l.toNat)) (fun _ => (s.readS a).toNat % 2 ^ W)) ∧
    (∀ d a l : BitVec 6, let p := s.portRead 0 a
      exec (.vext g d a l t) s = .next (p.2.issueS d (BitVec.ofNat 64 (L p.1 l.toNat)) 3)) ∧
    (∀ (a b : BitVec 6) (c : BitVec 3), let p := s.ports a b
      ∃ v : Word, exec (.vcmp g m a b c t) s = .next (p.2.2.issueM m.toNat v 2 0) ∧
        (∀ k, n ≤ k → v.getLsbD k = false) ∧
        ∀ k, k < n → v.getLsbD k =
          let x := L p.1 k
          let y := L p.2.1 k
          if c = 0 then decide (x = y) else if c = 1 then decide (x ≠ y) else if c = 2 then decide (sg x < sg y)
          else if c = 3 then decide (sg x ≤ sg y) else if c = 4 then decide (x < y) else decide (y ≤ x)) ∧
    ∀ (a b : BitVec 3), let x := s.readM a.toNat
      let y := s.readM b.toNat
      exec (.mand g m a b) s = .next (s.issueM m.toNat (x &&& y) 1 0) ∧
      exec (.mor g m a b) s = .next (s.issueM m.toNat (x ||| y) 1 0) ∧
      exec (.mxor g m a b) s = .next (s.issueM m.toNat (x ^^^ y) 1 0) ∧
      exec (.mandn g m a b) s = .next (s.issueM m.toNat (x &&& ~~~y) 1 0) ∧
      ∀ c : BitVec 6, exec (.mset g m c) s = .next (s.issueM m.toNat (s.readS c) 1 0)

/-- A vector source port reads a register or its latch; the moves between lanes, masks and scalars write the enabled
lanes alone. -/
def Obligations.VectorMoves : Prop :=
  Claims.SourcePorts ∧ Claims.LaneMoves

/-- R154 to R157, R17, R44, R48: the integer lane operations. Each enabled lane receives the exact result on the signed or
natural readings, wrapped or saturated to the lane; only an enabled lane that saturates sets a flag. A lane whose mask bit
is still undefined is undefined (R182). -/
def Obligations.IntegerLanes : Prop :=
  ∀ (s : State) (g : BitVec 4) (d : BitVec 5) (a b : BitVec 6) (m : BitVec 3) (t : BitVec 2), s.readP g = true →
    let W := 8 * 2 ^ t.toNat
    let n := 512 / W
    let mk := s.readM m.toNat
    let un := s.unsureM m.toNat
    let sat := s.fmt.getLsbD 9
    let sg (x : Nat) : Int := (BitVec.ofNat W x).toInt
    let p := s.ports a b
    let A (k : Nat) : Nat := p.1.toNat / 2 ^ (W * k) % 2 ^ W
    let B (k : Nat) : Nat := p.2.1.toNat / 2 ^ (W * k) % 2 ^ W
    let sums (i : Instr) (L : Nat) (f : Int → Int → Int) : Prop :=
      let x (k : Nat) : Int := f (sg (A k)) (sg (B k))
      ∃ val fl, exec i s = .next (p.2.2.issueV d.toNat val (laneMask W n (mk ||| un)) L fl) ∧
        LanesBut W n val un (fun k => reducedTo sat W (x k)) ∧
        ((∃ k, k < n ∧ mk.getLsbD k = true ∧ sat = true ∧ ¬ (-2 ^ (W - 1) ≤ x k ∧ x k < 2 ^ (W - 1))) →
          fl = flSaturated) ∧
        ((∀ k, k < n → mk.getLsbD k = true → sat = true → -2 ^ (W - 1) ≤ x k ∧ x k < 2 ^ (W - 1)) → fl = 0)
    let plain (i : Instr) (L : Nat) (f : Nat → Nat → Nat) : Prop :=
      ∃ val, exec i s = .next (p.2.2.issueV d.toNat val (laneMask W n (mk ||| un)) L 0) ∧
        LanesBut W n val un (fun k => f (A k) (B k))
    let wrap (x : Int) : Nat := (x % 2 ^ W).toNat
    sums (.vadd g d a b m t) 2 (fun x y => x + y) ∧ sums (.vsub g d a b m t) 2 (fun x y => x - y) ∧
    sums (.vmul g d a b m t) 4 (fun x y => x * y) ∧
    plain (.vmulh g d a b m t) 4 (fun x y => wrap (sg x * sg y / 2 ^ W)) ∧
    plain (.vmin g d a b m t) 2 (fun x y => wrap (min (sg x) (sg y))) ∧
    plain (.vmax g d a b m t) 2 (fun x y => wrap (max (sg x) (sg y))) ∧
    plain (.vminn g d a b m t) 2 (fun x y => min x y) ∧ plain (.vmaxn g d a b m t) 2 (fun x y => max x y) ∧
    plain (.vand g d a b m t) 2 (fun x y => x &&& y) ∧ plain (.vor g d a b m t) 2 (fun x y => x ||| y) ∧
    plain (.vxor g d a b m t) 2 (fun x y => x ^^^ y) ∧
    ∀ i : BitVec 6,
      let q := s.portRead 0 a
      let C (k : Nat) : Nat := q.1.toNat / 2 ^ (W * k) % 2 ^ W
      let shifts (j : Instr) (f : Nat → Nat) : Prop :=
        ∃ val, exec j s = .next (q.2.issueV d.toNat val (laneMask W n (mk ||| un)) 2 0) ∧
          LanesBut W n val un (fun k => f (C k))
      shifts (.vshli g d a i m t) (fun x => x * 2 ^ i.toNat % 2 ^ W) ∧
      shifts (.vshri g d a i m t) (fun x => x / 2 ^ i.toNat) ∧
      shifts (.vsari g d a i m t) (fun x => wrap (sg x / 2 ^ i.toNat))

/-- R165 to R169, R45, R50, R48: the floating lane operations. Each lane is the rounded result of its operands in the
format, under fmt's sat and ftz and the mode named, with its own chunk of randomness where that is stochastic; the
flags are those of the enabled lanes. -/
def Obligations.FloatLanes : Prop :=
  ∀ (s : State) (g : BitVec 4) (d : BitVec 5) (a b : BitVec 6), s.readP g = true →
    let p := s.ports a b
    let result (i : Instr) (u : State) (W : Nat) (m : Nat) (L : Nat) (f : Nat → Nat × Flags) : Prop :=
      ∃ val fl, exec i s = .next (u.issueV d.toNat val (laneMask W (512 / W) (s.readM m ||| s.unsureM m)) L fl) ∧
        LanesBut W (512 / W) val (s.unsureM m) (fun k => (f k).1 % 2 ^ W) ∧
        ∀ j, fl.getLsbD j = true ↔ ∃ k, k < 512 / W ∧ (s.readM m).getLsbD k = true ∧ (f k).2.getLsbD j = true
    (∀ (m : BitVec 2) (r : BitVec 3) (F : Fmt) (add sub mul fma : Instr),
      (F = fmtF64 ∧ add = .vfaddF64 g d a b m r ∧ sub = .vfsubF64 g d a b m r ∧ mul = .vfmulF64 g d a b m r ∧
          fma = .vfmaF64 g d a b m r) ∨
        (F = fmtF32 ∧ add = .vfaddF32 g d a b m r ∧ sub = .vfsubF32 g d a b m r ∧ mul = .vfmulF32 g d a b m r ∧
          fma = .vfmaF32 g d a b m r) ∨
        (F = fmtBf16 ∧ add = .vfaddBf16 g d a b m r ∧ sub = .vfsubBf16 g d a b m r ∧ mul = .vfmulBf16 g d a b m r ∧
          fma = .vfmaBf16 g d a b m r) ∨
        (F = fmtF16 ∧ add = .vfaddF16 g d a b m r ∧ sub = .vfsubF16 g d a b m r ∧ mul = .vfmulF16 g d a b m r ∧
          fma = .vfmaF16 g d a b m r) →
      let W := F.width
      let c := p.2.2.chunks r.toNat (512 / W)
      let z := p.2.2.portReg 2 d.toNat
      let e := z.2.chunks r.toNat (512 / W)
      let md (n : Nat) : Rnd := ⟨n, s.fmt.getLsbD 9, s.fmt.getLsbD 7⟩
      result add c.2.2 W m.toNat 4 (fun k => addF F (md c.1) (c.2.1.getD k 0) (lane W p.1 k) (lane W p.2.1 k)) ∧
      result sub c.2.2 W m.toNat 4 (fun k => subF F (md c.1) (c.2.1.getD k 0) (lane W p.1 k) (lane W p.2.1 k)) ∧
      result mul c.2.2 W m.toNat 4 (fun k => mulF F (md c.1) (c.2.1.getD k 0) (lane W p.1 k) (lane W p.2.1 k)) ∧
      result fma e.2.2 W m.toNat 5 (fun k =>
        fmaF F (md e.1) (e.2.1.getD k 0) (lane W p.1 k) (lane W p.2.1 k) (lane W z.1 k))) ∧
    ∀ (m : BitVec 3) (t : BitVec 2),
      let F := laneFmt t.toNat
      let W := F.width
      let z := s.fmt.getLsbD 7
      let q := s.portRead 0 a
      result (.vfmin g d a b m t) p.2.2 W m.toNat 2 (fun k => minmaxF F z false (lane W p.1 k) (lane W p.2.1 k)) ∧
      result (.vfmax g d a b m t) p.2.2 W m.toNat 2 (fun k => minmaxF F z true (lane W p.1 k) (lane W p.2.1 k)) ∧
      result (.vrcps g d a b m t) p.2.2 W m.toNat 5 (fun k => refineF F z false (lane W p.1 k) (lane W p.2.1 k)) ∧
      result (.vrsqs g d a b m t) p.2.2 W m.toNat 5 (fun k => refineF F z true (lane W p.1 k) (lane W p.2.1 k)) ∧
      result (.vrcpe g d a m t) q.2 W m.toNat 4 (fun k => rcpEst F z (lane W q.1 k)) ∧
      result (.vrsqe g d a m t) q.2 W m.toNat 4 (fun k => rsqEst F z (lane W q.1 k)) ∧
      result (.vexp2 g d a m t) q.2 W m.toNat 12 (fun k => exp2F F z (lane W q.1 k)) ∧
      result (.vlog2 g d a m t) q.2 W m.toNat 12 (fun k => log2F F z (lane W q.1 k))

/-- R48, R49, R51, R52: Round. A magnitude a, in the binade of exponent E, is rounded under the mode to a whole number of units in the
last place of its binade, clamped to the subnormal range; what exceeds the largest finite magnitude gives the overflow's result; a
subnormal result is flushed under ftz; else the pattern delivered stands for the rounded magnitude, with inexact where that differs
from a, and with underflow where, besides, a rounded with an unbounded exponent lies below the smallest normal. -/
def Claims.Rounding : Prop :=
  ∀ (F : Fmt) (m rb num den : Nat) (sat ftz neg : Bool) (E : Int),
    F ∈ [fmtF64, fmtF32, fmtF16, fmtBf16, fmtE4M3, fmtE5M2, fmtQ128] → m < 6 → rb < 2 ^ 32 → 0 < den →
    let a : ℚ := (num : ℚ) / den
    let s := if neg then 2 ^ (F.eb + F.fb) else 0
    let r := roundF F m sat ftz neg num den rb
    (num = 0 → r = (s, 0)) ∧
    ((2 : ℚ) ^ E ≤ a → a < (2 : ℚ) ^ (E + 1) →
      let emin : Int := 1 - F.bias
      let near (t : ℚ) : Int :=
        let n := ⌊t⌋
        let f := t - n
        if m = 0 then (if 1 / 2 < f ∨ (f = 1 / 2 ∧ n % 2 = 1) then n + 1 else n)
        else if m = 1 then n
        else if m = 2 then (if 0 < f ∧ neg = false then n + 1 else n)
        else if m = 3 then (if 0 < f ∧ neg = true then n + 1 else n)
        else if m = 4 then (if 1 / 2 ≤ f then n + 1 else n)
        else ⌊((⌊t * 2 ^ 32⌋ + rb : Int) : ℚ) / 2 ^ 32⌋
      let rounded (e : Int) : ℚ := near (a / (2 : ℚ) ^ (e - F.fb)) * (2 : ℚ) ^ (e - F.fb)
      let y := rounded (max E emin)
      let value (x : Nat) : ℚ :=
        let e := x / 2 ^ F.fb % 2 ^ F.eb
        let f := x % 2 ^ F.fb
        if e = 0 then (f : ℚ) * (2 : ℚ) ^ (emin - F.fb) else ((2 ^ F.fb + f : Nat) : ℚ) * (2 : ℚ) ^ ((e : Int) - F.bias - F.fb)
      let inexact : Flags := if y = a then 0 else 0x10
      let underflow : Flags := if rounded E < (2 : ℚ) ^ emin ∧ y ≠ a then 0x08 else 0
      (value F.maxMag < y → r =
        if F.small = true ∧ sat = true then (s + F.maxMag, 0x30)
        else if m = 1 ∨ (m = 2 ∧ neg = true) ∨ (m = 3 ∧ neg = false) then (s + F.maxMag, 0x14)
        else if F.noInf = true then (F.canon, 0x14)
        else (s + (2 ^ F.eb - 1) * 2 ^ F.fb, 0x14)) ∧
      (y ≤ value F.maxMag → ftz = true → 0 < y → y < (2 : ℚ) ^ emin → r = (s, 0x58)) ∧
      (y ≤ value F.maxMag → ¬ (ftz = true ∧ 0 < y ∧ y < (2 : ℚ) ^ emin) →
        s ≤ r.1 ∧ r.1 < s + 2 ^ (F.eb + F.fb) ∧ value r.1 = y ∧ r.2 = inexact ||| underflow))

/-- R45 to R47, R49: the operands and special results of the floating sums and products in the four lane formats. A NaN operand
gives the canonical NaN, with invalid where one signals; ∞ − ∞ and 0 × ∞ give it with invalid; other infinities stay, exactly; an exact
sum that is zero has the sign + but under rdn, and two zeros of one sign keep it; everything else is the exact result rounded once.
Subnormal operands read as zeros, with flushed, under ftz. -/
def Claims.FloatSpecials : Prop :=
  ∀ (F : Fmt) (r : Rnd) (rb a b c : Nat), F ∈ [fmtF64, fmtF32, fmtF16, fmtBf16] →
    a < 2 ^ F.width → b < 2 ^ F.width → c < 2 ^ F.width →
    let top := 2 ^ (F.eb + F.fb)
    let ex (x : Nat) : Nat := x / 2 ^ F.fb % 2 ^ F.eb
    let fr (x : Nat) : Nat := x % 2 ^ F.fb
    let neg (x : Nat) : Bool := decide (top ≤ x)
    let nan (x : Nat) : Prop := ex x = 2 ^ F.eb - 1 ∧ fr x ≠ 0
    let signals (x : Nat) : Prop := nan x ∧ fr x < 2 ^ (F.fb - 1)
    let inf (x : Nat) : Prop := ex x = 2 ^ F.eb - 1 ∧ fr x = 0
    let fin (x : Nat) : Prop := ex x < 2 ^ F.eb - 1
    let flushes (x : Nat) : Prop := r.ftz = true ∧ ex x = 0 ∧ fr x ≠ 0
    let val (x : Nat) : ℚ := (if neg x then -1 else 1) *
      (if ex x = 0 then (if r.ftz then 0 else (fr x : ℚ) * (2 : ℚ) ^ (1 - F.bias - F.fb : Int))
       else ((2 ^ F.fb + fr x : Nat) : ℚ) * (2 : ℚ) ^ ((ex x : Int) - F.bias - F.fb))
    let signed (n : Bool) (x : Nat) : Nat := if n then top + x else x
    let infinity (n : Bool) : Nat := signed n ((2 ^ F.eb - 1) * 2 ^ F.fb)
    let invalid (f : Flags) : Bool := f.getLsbD 0
    let flushed (l : List Nat) (f : Flags) : Prop := (∃ x ∈ l, flushes x) → f.getLsbD 6 = true
    let isNaN (q : Nat × Flags) (l : List Nat) : Prop := q.1 = F.canon ∧ (invalid q.2 = true ↔ ∃ x ∈ l, signals x)
    let once (q : Nat × Flags) (l : List Nat) (x : ℚ) : Prop := ∃ num den : Nat, 0 < den ∧ (num : ℚ) / den = |x| ∧
      let y := roundF F r.mode r.sat r.ftz (decide (x < 0)) num den rb
      q.1 = y.1 ∧ invalid q.2 = false ∧ flushed l q.2 ∧ ∀ j, j < 6 → q.2.getLsbD j = y.2.getLsbD j
    let sum (q : Nat × Flags) (x y : Nat) (nx ny : Bool) (A B : ℚ) : Prop :=
      (nan x ∨ nan y → isNaN q [x, y]) ∧
      (inf x → inf y → nx ≠ ny → q = (F.canon, 0x01)) ∧ (inf x → inf y → nx = ny → q = (infinity nx, 0)) ∧
      (inf x → fin y → q.1 = infinity nx ∧ invalid q.2 = false ∧ flushed [y] q.2) ∧
      (fin x → inf y → q.1 = infinity ny ∧ invalid q.2 = false ∧ flushed [x] q.2) ∧
      (fin x → fin y → A + B ≠ 0 → once q [x, y] (A + B)) ∧
      (fin x → fin y → A + B = 0 → flushed [x, y] q.2 ∧ invalid q.2 = false ∧
        q.1 = signed (if A = 0 ∧ nx = ny then nx else decide (r.mode = 3)) 0)
    let P := mulF F r rb a b
    let S := fmaF F r rb a b c
    let n := neg a != neg b
    sum (addF F r rb a b) a b (neg a) (neg b) (val a) (val b) ∧
    sum (subF F r rb a b) a b (neg a) (!neg b) (val a) (-val b) ∧
    (nan a ∨ nan b → isNaN P [a, b]) ∧
    ((inf a ∧ fin b ∧ val b = 0) ∨ (fin a ∧ val a = 0 ∧ inf b) → P.1 = F.canon ∧ invalid P.2 = true) ∧
    ((inf a ∧ inf b) ∨ (inf a ∧ fin b ∧ val b ≠ 0) ∨ (fin a ∧ val a ≠ 0 ∧ inf b) → P = (infinity n, 0)) ∧
    (fin a → fin b → val a * val b ≠ 0 → once P [a, b] (val a * val b)) ∧
    (fin a → fin b → val a * val b = 0 → P.1 = signed n 0 ∧ invalid P.2 = false ∧ flushed [a, b] P.2) ∧
    (nan a ∨ nan b → S.1 = F.canon ∧ ((∃ x ∈ [a, b, c], signals x) → invalid S.2 = true)) ∧
    (fin a → fin b → fin c → val a * val b + val c ≠ 0 → once S [a, b, c] (val a * val b + val c)) ∧
    (fin a → fin b → fin c → val a * val b + val c = 0 → invalid S.2 = false ∧ S.1 =
      signed (if val c = 0 ∧ n = neg c then n else decide (r.mode = 3)) 0)

/-- R44, R46, R49, R52: a value converted from one floating format to another, or to an integer. A NaN gives the canonical NaN, or the
integer 0 with invalid; an infinity stays, or becomes what R52 gives for E4M3 and under sat (no inexact beside saturated there, log
126), or the nearest integer with invalid; a finite value is rounded once. -/
def Claims.ConversionSpecials : Prop :=
  ∀ (S T : Fmt) (r : Rnd) (rb x w : Nat) (sg : Bool),
    S ∈ [fmtF64, fmtF32, fmtF16, fmtBf16, fmtE4M3, fmtE5M2] → T ∈ [fmtF64, fmtF32, fmtF16, fmtBf16, fmtE4M3, fmtE5M2] →
    x < 2 ^ S.width → w ∈ [8, 16, 32, 64] → r.mode < 6 → rb < 2 ^ 32 →
    let e := x / 2 ^ S.fb % 2 ^ S.eb
    let f := x % 2 ^ S.fb
    let neg := decide (2 ^ (S.eb + S.fb) ≤ x)
    let nan : Prop := e = 2 ^ S.eb - 1 ∧ if S.noInf then f = 2 ^ S.fb - 1 else f ≠ 0
    let inf : Prop := S.noInf = false ∧ e = 2 ^ S.eb - 1 ∧ f = 0
    let val : ℚ := (if neg then -1 else 1) *
      (if e = 0 then (if r.ftz then 0 else (f : ℚ) * (2 : ℚ) ^ (1 - S.bias - S.fb : Int))
       else ((2 ^ S.fb + f : Nat) : ℚ) * (2 : ℚ) ^ ((e : Int) - S.bias - S.fb))
    let flush : Flags := if r.ftz = true ∧ e = 0 ∧ f ≠ 0 then 0x40 else 0
    let s := if neg then 2 ^ (T.eb + T.fb) else 0
    let q := convert (.flt S) (.flt T) false r rb x
    let z := convert (.flt S) (.int sg w) false r rb x
    let lo : Int := if sg then -2 ^ (w - 1) else 0
    let hi : Int := if sg then 2 ^ (w - 1) - 1 else 2 ^ w - 1
    let word (i : Int) : Nat := (i % 2 ^ w).toNat
    let n := ⌊|val|⌋
    let d := |val| - n
    let up : Prop := (r.mode = 0 ∧ (1 / 2 < d ∨ (d = 1 / 2 ∧ n % 2 = 1))) ∨ (r.mode = 2 ∧ 0 < d ∧ neg = false) ∨
      (r.mode = 3 ∧ 0 < d ∧ neg = true) ∨ (r.mode = 4 ∧ 1 / 2 ≤ d)
    (nan → q.1 = T.canon ∧ (q.2 = 0x01 ∨ q.2 = 0) ∧ (q.2 = 0x01 ↔ S.noInf = false ∧ f < 2 ^ (S.fb - 1)) ∧ z = (0, 0x01)) ∧
    (inf → q = (if T.small = true ∧ r.sat = true then (s + T.maxMag, 0x20) else if T.noInf = true then (T.canon, 0)
        else (s + (2 ^ T.eb - 1) * 2 ^ T.fb, 0)) ∧ z = (word (if neg then lo else hi), 0x01)) ∧
    (¬ nan → ¬ inf →
      (val = 0 → q = (s, flush)) ∧
      (val ≠ 0 → ∃ num den : Nat, 0 < den ∧ (num : ℚ) / den = |val| ∧
        q.1 = (roundF T r.mode r.sat r.ftz neg num den rb).1 ∧ q.2 = flush ||| (roundF T r.mode r.sat r.ftz neg num den rb).2) ∧
      (r.mode < 5 → ∀ m i : Int, (up → m = n + 1) → (¬ up → m = n) → i = (if neg then -m else m) →
        (i < lo → z = (word lo, flush ||| 0x01)) ∧ (hi < i → z = (word hi, flush ||| 0x01)) ∧
        (lo ≤ i → i ≤ hi → z = (word i, flush ||| if d = 0 then 0 else 0x10))))

/-- What the shared operations of floating arithmetic give: one rounding of the exact value in every mode, overflow
and saturation, subnormals, NaN and infinities, signed zeros, and the flags of each; and what a conversion between
formats or to an integer gives. -/
def Obligations.FloatingResults : Prop :=
  Claims.Rounding ∧ Claims.FloatSpecials ∧ Claims.ConversionSpecials

/-- R163, R170 to R172, R178, R179: floating compares, conversions, reductions to one lane, and the block forms. A lane whose mask
bit is still undefined enters a reduction as an undefined value (R182). A block whose scale is 255 sets invalid alone (log 127). -/
def Claims.Conversions : Prop :=
  ∀ (s : State) (g : BitVec 4) (d : BitVec 5) (a : BitVec 6), s.readP g = true →
    let q := s.portRead 0 a
    (∀ (m c : BitVec 3) (b : BitVec 6) (t : BitVec 2),
      let F := laneFmt t.toNat
      let W := F.width
      let p := s.ports a b
      ∃ (v : Word) (fl : Flags), exec (.vfcmp g m a b c t) s = .next (p.2.2.issueM m.toNat v 2 fl) ∧
        (∀ k, 512 / W ≤ k → v.getLsbD k = false) ∧
        ∀ k, k < 512 / W →
          v.getLsbD k = (compareF F (s.fmt.getLsbD 7) c.toNat (lane W p.1 k) (lane W p.2.1 k)).1) ∧
    (∀ (f t : BitVec 4) (r : BitVec 3),
      let src := elemOf f.toNat
      let dst := elemOf t.toNat
      let n := 512 / max src.width dst.width
      let e := q.2.chunks r.toNat n
      let y (k : Nat) : Nat × Flags := convert src dst (f == t) (s.rnd e.1) (e.2.1.getD k 0) (lane src.width q.1 k)
      ∃ val fl, exec (.vcvt g d a f t r) s = .next (e.2.2.issueRow d.toNat val 4 fl) ∧
        LanesAre dst.width n val (fun k => (y k).1 % 2 ^ dst.width) ∧ val.toNat < 2 ^ (dst.width * n) ∧
        ∀ j, fl.getLsbD j = true ↔ ∃ k, k < n ∧ (y k).2.getLsbD j = true) ∧
    (∀ (o m : BitVec 3) (t : BitVec 2),
      let W := 8 * 2 ^ t.toNat
      let on := (List.range (512 / W)).filter fun k => (s.readM m.toNat).getLsbD k
      ∃ (x : Row) (v : Nat) (fl : Flags), let sg (k : Nat) : Int := (BitVec.ofNat W (lane W x k)).toInt
        exec (.vredi g d a o m t) s = .next (q.2.issueRow d.toNat (BitVec.ofNat 512 v) 6 fl) ∧ v < 2 ^ W ∧
        LanesBut W (512 / W) x (s.unsureM m.toNat) (lane W q.1) ∧
        (o = 0 → v = reducedTo (s.fmt.getLsbD 9) W (on.map sg).sum) ∧
        (o = 1 → (∀ k ∈ on, (BitVec.ofNat W v).toInt ≤ sg k) ∧ (on = [] → v = 2 ^ (W - 1) - 1)) ∧
        (o = 2 → (∀ k ∈ on, sg k ≤ (BitVec.ofNat W v).toInt) ∧ (on = [] → v = 2 ^ (W - 1))) ∧
        (o = 3 → (∀ k ∈ on, v ≤ lane W x k) ∧ (on = [] → v = 2 ^ W - 1)) ∧
        (o = 4 → (∀ k ∈ on, lane W x k ≤ v) ∧ (on = [] → v = 0)) ∧
        (o ≠ 0 → o.toNat < 5 → on ≠ [] → ∃ k ∈ on, v = lane W x k)) ∧
    (∀ (o m : BitVec 3) (t : BitVec 2),
      let F := laneFmt t.toNat
      let on := (List.range (512 / F.width)).filter fun k => (s.readM m.toNat).getLsbD k
      let z := s.fmt.getLsbD 7
      ∃ (row : Row) (v : Nat) (fl : Flags),
        let inputs := (List.range (512 / F.width)).map fun k =>
          if (s.readM m.toNat).getLsbD k = true then some (redInput F z (lane F.width row k)) else none
        let tree := redTree (redOp F z o.toNat) 5 (inputs.map fun x => x.map fun y => y.1)
        LanesBut F.width (512 / F.width) row (s.unsureM m.toNat) (lane F.width q.1) ∧ exec (.vredf g d a o m t) s = .next (q.2.issueRow d.toNat (BitVec.ofNat 512 v) 10 fl) ∧
        (∀ x, tree.1 = some x → v = x) ∧
        (∀ j, fl.getLsbD j = true ↔ tree.2.getLsbD j = true ∨ ∃ y, some y ∈ inputs ∧ y.2.getLsbD j = true) ∧
        (on = [] → fl = 0 ∧
          v = if o = 0 then 0 else F.infMag + if o = 2 then 2 ^ (F.eb + F.fb) else 0)) ∧
    ∀ (f t : BitVec 4) (r : BitVec 3), let e := q.2.chunks r.toNat 32
      let ftz := s.fmt.getLsbD 7
      (∃ val fl, exec (.vbq g d a f t r) s = .next (e.2.2.issueRow d.toNat val 6 fl) ∧
        (f = 9 → (val, fl) = quantise fmtF32 t.toNat e.1 ftz e.2.1 ((List.range 32).map fun k =>
          if k < 16 then lane 32 q.1 k else lane 32 (s.readV (a.toNat + 1)) (k - 16))) ∧
        (f = 10 ∨ f = 11 → (val, fl) = quantise (if f = 11 then fmtF16 else fmtBf16) t.toNat e.1 ftz e.2.1
          ((List.range 32).map fun k => lane 16 q.1 k)) ∧
        (f = 10 ∨ f = 11 → (∃ k, k < 32 ∧ ∀ neg num den,
            (flushIn (if f = 11 then fmtF16 else fmtBf16) (s.fmt.getLsbD 7) (lane 16 q.1 k)).1 ≠ .fin neg num den) →
          val.toNat = 255 * 2 ^ 256)) ∧
      ∃ lo hi fl, exec (.vbdq g d a f t r) s = .next (if t = 9
          then (e.2.2.issueRow d.toNat lo 6 fl).issueRow (d.toNat + 1) hi 6 fl
          else e.2.2.issueRow d.toNat lo 6 fl) ∧
        (t = 9 ∨ t = 10 ∨ t = 11 →
          let T := if t = 9 then fmtF32 else if t = 10 then fmtBf16 else fmtF16
          let sc := lane 8 q.1 32
          let y (k : Nat) : Nat × Flags := if sc = 255 then (T.canon, flInvalid)
            else expandOne T f.toNat (s.rnd e.1) sc (e.2.1.getD k 0) (lane 8 q.1 k)
          (t = 9 → LanesAre 32 16 lo (fun k => (y k).1 % 2 ^ 32) ∧ LanesAre 32 16 hi (fun k => (y (16 + k)).1 % 2 ^ 32)) ∧
          (t ≠ 9 → LanesAre 16 32 lo (fun k => (y k).1 % 2 ^ 16)) ∧
          ∀ j, fl.getLsbD j = true ↔ ∃ k, k < 32 ∧ (y k).2.getLsbD j = true) ∧
        (lane 8 q.1 32 = 255 → t = 10 → fl = flInvalid ∧ LanesAre 16 32 lo (fun _ => fmtBf16.canon))

/-- R53, R55, R173 to R177, R180, R181: the random fill, the histogram counts, and the rearrangements of bytes and
bits. -/
def Claims.Rearrangements : Prop :=
  ∀ (s : State) (g : BitVec 4) (d : BitVec 5) (a b : BitVec 6), s.readP g = true →
    let p := s.ports a b
    let q := s.portRead 0 a
    let byte (r : Row) (k : Nat) : Nat := r.toNat / 2 ^ (8 * k) % 2 ^ 8
    let merged (n : Nat) (k : Nat) : Nat := if k + n < 64 then byte p.1 (k + n) else byte p.2.1 (k + n - 64)
    (∀ n : BitVec 5,
      (∃ val, exec (.vrmg031 g d a b n) s = .next (p.2.2.issueRow d.toNat val 2 0) ∧
        LanesAre 8 64 val (merged n.toNat)) ∧
      ∃ val, exec (.vrmg3263 g d a b n) s = .next (p.2.2.issueRow d.toNat val 2 0) ∧
        LanesAre 8 64 val (merged (32 + n.toNat))) ∧
    (∀ t : BitVec 2, ∃ val, exec (.vbpt g d a t) s = .next (q.2.issueRow d.toNat val 3 0) ∧
      ∀ i j, i < 64 → j < 8 →
        (t ≠ 1 → val.getLsbD (64 * j + i) = q.1.getLsbD (8 * i + (7 - j))) ∧
        (t = 1 → val.getLsbD (8 * i + (7 - j)) = q.1.getLsbD (64 * j + i))) ∧
    (∀ (w : BitVec 2) (v o : BitVec 1),
      let W := 8 * 2 ^ w.toNat
      let n := 512 / W
      let slot (i : Nat) : Nat := if v = 1 then n - 1 - i else i
      let element (j : Nat) : Int :=
        (BitVec.ofNat 8 (if j < 64 then byte p.1 j else byte p.2.1 (j - 64))).toInt
      (∃ val, exec (.vpack g d a b w v o) s = .next (p.2.2.issueRow d.toNat val 3 0) ∧
        ∀ i, i < n → lane W val (slot i) = (element (if o = 1 then 2 * i else i) % 2 ^ W).toNat) ∧
      (∃ val fl, exec (.vunpk g d a w v o) s = .next (q.2.issueRow d.toNat val 3 fl) ∧
        (¬ (w = 0 ∧ o = 1) → ∀ i, i < n → byte val (if o = 1 then 2 * i else i) =
          reducedTo (s.fmt.getLsbD 9) 8 (BitVec.ofNat W (lane W q.1 (slot i))).toInt)) ∧
      ∃ val, exec (.vdig g d a b w v o) s = .next (p.2.2.issueRow d.toNat val 6 0) ∧
        ∀ i, i < n → lane W val (slot i) = ((extractDigits W (2 * n) (p.2.1 ++ p.1).toInt).getD
          (if o = 1 then n + i else i) 0 % 2 ^ W).toNat) ∧
    (∀ (m : BitVec 3) (t : BitVec 2),
      let W := 8 * 2 ^ t.toNat
      let key := if s.fmt.getLsbD 8 then s.px.rkey1 else s.px.rkey0
      let cnt := if s.fmt.getLsbD 8 then s.px.rcnt1 + BitVec.ofNat 64 s.iss.drawn1
        else s.px.rcnt0 + BitVec.ofNat 64 s.iss.drawn0
      let un := s.unsureM m.toNat
      ∃ (val row : Row) (u : State), exec (.vrfill g d m t) s =
          .next (u.issueV d.toNat val (laneMask W (512 / W) (s.readM m.toNat ||| un)) 2 0) ∧
        LanesBut W (512 / W) val un (fun k => lane W row k) ∧
        u = { s with iss := u.iss } ∧
        (s.fmt.getLsbD 8 = true → u.iss = { s.iss with drawn1 := s.iss.drawn1 + 8 }) ∧
        (s.fmt.getLsbD 8 = false → u.iss = { s.iss with drawn0 := s.iss.drawn0 + 8 }) ∧
        ∀ k, k < 8 → row.extractLsb' (64 * k) 64 =
          let x0 := key ^^^ ((cnt + BitVec.ofNat 64 k) * 0x6a09e667f3bcc909#64)
          let x1 := (x0 ^^^ (x0 >>> 30)) * 0x8f3c5a1ed97b2c65#64
          let x2 := (x1 ^^^ (x1 >>> 27)) * 0xc2b741f90e6da537#64
          x2 ^^^ (x2 >>> 31)) ∧
    ∀ (f : BitVec 4) (m : BitVec 3),
      let W := (elemOf f.toNat).width
      ∃ (row : Row) (u : State),
        let hits (k : Nat) : List Nat := (List.range (512 / W)).filter fun i =>
          (s.readM m.toNat).getLsbD i && histBin f.toNat (lane W row i) == k
        LanesBut W (512 / W) row (s.unsureM m.toNat) (lane W q.1) ∧ exec (.vhist g a f m) s = .next u ∧ u.ctx = s.ctx ∧ u.sp = s.sp ∧ u.mem = s.mem ∧
        ∀ k, (Tab.get 0 u.px.hist k).toNat = min (2 ^ 32 - 1) ((Tab.get 0 s.px.hist k).toNat + (hits k).length)

/-- Floating compares and conversions act lane by lane, reductions fold a row, the block forms quantise and expand;
the random fill, the histogram and the rearrangements of bytes, bits and digits do what their rules give. -/
def Obligations.VectorConversions : Prop :=
  Claims.Conversions ∧ Claims.Rearrangements

/-- R186, R187, R191, R195, R394: the reads of one ring by push.b, sld.a and sld.b. An empty ring, a head tile that is not
ready and one with too few rows trap with the tile and the ring; the first poisoned row traps with its offset (unless the bundle has
already changed something at another module, log 44). Else the
rows enter the unit, the cursor moves past them, and a head that is retired or read through is emptied. -/
def Claims.RingReads : Prop :=
  ∀ (s : State) (g : BitVec 4) (q : BitVec 3) (r : BitVec 1), s.readP g = true →
    let R := s.px.ring q.toNat
    let h : Nat := Tab.get 0 R.pos R.hd
    let e := s.px.tile h
    let row (j : Nat) : Nat := e.first + R.rcur + j
    let reads (i : Instr) (k : Nat) (retire : Bool) (loaded : State → Prop) : Prop :=
      (R.nt = 0 → exec i s = .next (s.trapped (s.trapOf 0x07 (256 * q.toNat) 0) [])) ∧
      (R.nt ≠ 0 → e.st ≠ .ready ∨ ¬ (e.rows ≠ 0 ∧ 64 * (e.first + e.rows) ≤ s.sp.part) ∨ e.vr < R.rcur + k →
        exec i s = .next (s.trapped (s.trapOf 0x07 (h + 256 * q.toNat) 0) [])) ∧
      (R.nt ≠ 0 → e.st = .ready → e.rows ≠ 0 → 64 * (e.first + e.rows) ≤ s.sp.part → R.rcur + k ≤ e.vr →
        (∀ j, j < k → row j ∈ s.sp.bad → (∀ l, l < j → row l ∉ s.sp.bad) → s.ctx.acted = false →
          exec i s = .next (s.trapped (s.trapOf 0x09 0 (BitVec.ofNat 64 (64 * row j))) [])) ∧
        ((∀ j, j < k → row j ∉ s.sp.bad) → ∃ u, exec i s = .next u ∧ loaded u ∧ OnlyMatrix s u ∧ u.me.lim = s.me.lim ∧
          (retire = true ∨ R.rcur + k = e.vr → u.px.ring q.toNat = { R with rcur := 0, hd := (R.hd + 1) % R.nt } ∧
            u.px.tile h = { e with st := .empty, vr := 0 }) ∧
          (retire = false → R.rcur + k ≠ e.vr → u.px.ring q.toNat = { R with rcur := R.rcur + k } ∧
            u.px.tiles = s.px.tiles)))
    reads (.push g q r) 16 (r == 1) (fun u => u.mx = { s.mx with eb := u.mx.eb } ∧
      ∀ j, j < 16 → Tab.get 0 u.mx.eb j = s.sp.row (row j)) ∧
    reads (.sldA g q) 1 false (fun u => u.mx = { s.mx with sa := u.mx.sa } ∧
      ∀ j, j < 8 → Tab.get 0x7F u.mx.sa j = (s.sp.row (row 0)).extractLsb' (8 * j) 8) ∧
    reads (.sldB g q) 1 false (fun u => u.mx = { s.mx with sb := u.mx.sb } ∧
      ∀ j, j < 16 → Tab.get 0x7F u.mx.sb j = (s.sp.row (row 0)).extractLsb' (8 * j) 8)

/-- R192 to R194, R201: the shift of the stationary words, the clears of accumulators and of store rows, and the quarter
moves between the store and vector registers. -/
def Claims.MatrixMoves : Prop :=
  ∀ (s : State) (g : BitVec 4), s.readP g = true →
    let word (t : State) (r c : Nat) : Row := Tab.get 0 t.mx.ob (16 * r + c)
    let only (u : State) : Prop := OnlyCore s.iss.core s u ∧ u.me = { s.me with px := { s.px with mx := u.mx } }
    (∃ u, exec (.shift g) s = .next u ∧ only u ∧ u.mx = { s.mx with ob := u.mx.ob, d0 := 0, d1 := 0 } ∧
      ∀ c, c < 16 → word u 0 c = Tab.get 0 s.mx.eb c ∧ ∀ r, r < 7 → word u (r + 1) c = word s r c) ∧
    (∀ x : BitVec 2, ∃ u, exec (.mclr g x) s = .next u ∧ only u ∧ ∀ y r c, y < 2 → r < 8 → c < 16 →
      (x.getLsbD y = true → u.mx.pacc y r c = 0 ∧ u.mx.bound y r c = 0 ∧ u.mx.diag y = (0, 0) ∧
        ∀ k, k < 8 → Tab.get 0 u.mx.sticky (stickyNo y (8 * r + k) c) = 0) ∧
      (x.getLsbD y = false → u.mx.pacc y r c = s.mx.pacc y r c ∧ u.mx.bound y r c = s.mx.bound y r c ∧
        u.mx.diag y = s.mx.diag y)) ∧
    (∀ a n : BitVec 8, ∃ u, exec (.aclr g a n) s = .next u ∧ only u ∧ u.mx = { s.mx with acc := u.mx.acc } ∧
      ∀ r c, r < 256 → c < 16 → u.mx.entry r c =
        if a.toNat ≤ r ∧ r ≤ a.toNat + n.toNat then 0 else s.mx.entry r c) ∧
    ∀ (a : BitVec 8) (q : BitVec 2),
      (∀ d : BitVec 5, ∃ val, exec (.a2v g d a q) s = .next (s.issueRow d.toNat val 4 0) ∧
        ∀ i, i < 4 → val.extractLsb' (128 * i) 128 = s.mx.entry a.toNat (4 * q.toNat + i)) ∧
      ∀ v : BitVec 6, let p := s.portRead 0 v
        ∃ u, exec (.v2a g a q v) s = .next u ∧ u = p.2.setMx u.mx ∧ ∀ r c, r < 256 → c < 16 → u.mx.entry r c =
          if r = a.toNat ∧ c / 4 = q.toNat then p.1.extractLsb' (128 * (c % 4)) 128 else s.mx.entry r c

/-- push and the slides read their ring at its cursor; shift, the clears and the moves between accumulators and
vectors change only what they name. -/
def Obligations.MatrixMoves : Prop :=
  Claims.RingReads ∧ Claims.MatrixMoves

/-- R188, R189, R63: the integer beat. A reserved format is illegal with reason 3. With the 24 rows read, the first cell in
row-major order whose bound would reach 2^(w−1) traps, naming the cell and the accumulator; else every cell adds the
exact product of its packed words, and its bound grows. -/
def Claims.IntegerBeat : Prop :=
  ∀ (s : State) (g : BitVec 4) (x : BitVec 1) (a b : BitVec 3) (r : BitVec 2), s.readP g = true →
    let f := s.fmt
    let i : Instr := .acc g x a b r
    let efa := bitsOf f.toNat 28 4
    let efb := bitsOf f.toNat 24 4
    let sw := bitsOf f.toNat 16 2
    let reserved := f.getLsbD 13 = true ∨ efa = 3 ∨ efa = 4 ∨ efb = 3 ∨ efb = 4 ∨
      ((efa = 9 ∨ efa = 10 ∨ efb = 9 ∨ efb = 10) ∧ sw ≠ 0) ∨ (bitsOf f.toNat 14 2 = 2 ∧ sw = 0)
    let w := 8 * 2 ^ sw
    (reserved → exec i s = .next (s.trapped (s.trapOf 0x01 3 0) [])) ∧
    ∀ rows, ¬ reserved → (a = b → s.RingHas a.toNat rows ∧ rows.length = 24) →
      (a ≠ b → s.RingHas a.toNat (rows.take 8) ∧ s.RingHas b.toNat (rows.drop 8) ∧ rows.length = 24) →
      let A (j : Nat) : List Int := coeffs efa (bitsOf f.toNat 21 3 + 1) (f.getLsbD 6) w (rows.getD j 0)
      let B (j : Nat) : List Int := coeffs efb (bitsOf f.toNat 18 3 + 1) (f.getLsbD 6) w (rows.getD (8 + j) 0)
      let most (l : List Int) : Nat := (l.map Int.natAbs).foldl max 0
      let sum (l : List Int) : Int := ((l.zipIdx).map fun e => e.1 * 2 ^ (w * e.2)).sum
      let grown (j c : Nat) : Nat := s.mx.bound x.toNat j c + 512 / w * most (A j) * most (B c)
      (∀ j c, j < 8 → c < 16 → 2 ^ (w - 1) ≤ grown j c →
        (∀ j' c', j' < 8 → c' < 16 → 16 * j' + c' < 16 * j + c → grown j' c' < 2 ^ (w - 1)) →
        exec i s = .next (s.trapped (s.trapOf 0x08 (16 * j + c + 256 * x.toNat) 0) [])) ∧
      ((∀ j c, j < 8 → c < 16 → grown j c < 2 ^ (w - 1)) → ∃ u, exec i s = .next u ∧
        (∀ j c, j < 8 → c < 16 → u.mx.bound x.toNat j c = grown j c ∧
          u.mx.pacc x.toNat j c = s.mx.pacc x.toNat j c + BitVec.ofInt 1024 (sum (A j) * sum (B c))) ∧
        (∀ j c, j < 8 → c < 16 → u.mx.pacc (1 - x.toNat) j c = s.mx.pacc (1 - x.toNat) j c) ∧
        u.mx.acc = s.mx.acc ∧ OnlyMatrix s u ∧ u.me.lim = { s.me.lim with beats := s.me.lim.beats + 1 })

/-- R190: the diagonal beat. Out of product mode, or with formats that differ or are not binary64 or binary32, it is
illegal with reason 3; else the slot that the counter names takes 32 more exact products in every column, and the
counter and the high-water mark move. -/
def Claims.DiagonalBeat : Prop :=
  ∀ (s : State) (g : BitVec 4) (x : BitVec 1) (a : BitVec 3) (r : BitVec 1), s.readP g = true →
    let f := s.fmt
    let efa := bitsOf f.toNat 28 4
    let efb := bitsOf f.toNat 24 4
    let fits := f.getLsbD 13 = true ∧ efa = efb ∧ (efa = 3 ∨ efa = 4)
    let F := if efa = 3 then fmtF64 else fmtF32
    (¬ fits → exec (.dacc g x a r) s = .next (s.trapped (s.trapOf 0x01 3 0) [])) ∧
    ∀ rows, fits → s.RingHas a.toNat rows → rows.length = 8 →
      let d := (s.mx.diag x.toNat).1
      let h := (s.mx.diag x.toNat).2
      ∃ u, exec (.dacc g x a r) s = .next u ∧ u.mx.diag x.toNat = ((d + 1) % 64, max h (d + 1)) ∧
        u.mx.diag (1 - x.toNat) = s.mx.diag (1 - x.toNat) ∧
        (∀ c, c < 16 → (u.mx.slot x.toNat d c) = (diagBeat (s.mx.slot x.toNat d c)
          ((List.range 8).map fun j => (List.range 4).map fun l =>
            mulQ F (lane F.width (rows.getD j 0) l) (lane F.width (Tab.get 0 s.mx.ob (16 * j + c)) l))).1 % 2 ^ 128) ∧
        (∀ y n c, y < 2 → n < 64 → c < 16 → ¬ (y = x.toNat ∧ n = d) → d < 64 →
          u.mx.slot y n c = s.mx.slot y n c) ∧
        u.mx.acc = s.mx.acc ∧ OnlyMatrix s u ∧ u.me.lim = { s.me.lim with beats := s.me.lim.beats + 1 }

/-- An integer beat adds the exact products of the rows that its rings hold to every cell of its accumulator, and a
diagonal beat adds to the slot that its counter names. -/
def Obligations.MatrixBeats : Prop :=
  Claims.IntegerBeat ∧ Claims.DiagonalBeat

/-- R64, R193, R197 to R200: the drains. A dot drain adds each cell's middle digit to its entry, as an integer, or scaled
in Q128; in product mode it adds the diagonal slots below the high-water mark. A convolution drain writes every digit,
and is illegal with reason 3 in product mode and with scaling. cl clears the accumulator after. The flags of a drd are on
their way, and an integer drd sets none. -/
def Claims.Drains : Prop :=
  ∀ (s : State) (g : BitVec 4) (x : BitVec 1) (a : BitVec 8) (c : BitVec 1), s.readP g = true →
    let f := s.fmt
    let pam := f.getLsbD 13
    let scm := bitsOf f.toNat 14 2
    let w := 8 * 2 ^ bitsOf f.toNat 16 2
    let n := 512 / w
    let digits (r k : Nat) : List Int := extractDigits w (2 * n - 1) (s.mx.pacc x.toNat r k).toInt
    let cleared (u : State) : Prop := c = 1 → u.mx.diag x.toNat = (0, 0) ∧
      ∀ r k, r < 8 → k < 16 → u.mx.pacc x.toNat r k = 0 ∧ u.mx.bound x.toNat r k = 0
    let kept (u : State) : Prop := c = 0 → u.mx = { s.mx with acc := u.mx.acc }
    let row (r : Nat) : Nat := (a.toNat + r) % 256
    (∃ u, exec (.drd g x a c) s = .next u ∧ cleared u ∧ kept u ∧ OnlyCore s.iss.core s u ∧ u.sp = s.sp ∧ u.px = { s.px with mx := u.mx } ∧
      (∃ e, u.ctx = { s.ctx with pend := insertPend s.ctx.pend e } ∧ e.dest = .none ∧ e.due = s.me.cycle + 1 ∧
        (pam = false → scm = 0 → e.flags = 0)) ∧
      (pam = false → ∀ r k, r < 8 → k < 16 →
        let e := s.mx.entry (row r) k
        let dd := (digits r k).getD (n - 1) 0
        (scm = 0 → u.mx.entry (row r) k = e + BitVec.ofInt 128 dd) ∧
        (scm ≠ 0 → u.mx.entry (row r) k = BitVec.ofNat 128 (addQ e.toNat
          (scaledTerm f (Tab.get 0x7F s.mx.sa r).toNat (Tab.get 0x7F s.mx.sb k).toNat dd).1).1)) ∧
      (pam = false → ∀ r k, 8 ≤ r → r < 256 → k < 16 → u.mx.entry (row r) k = s.mx.entry (row r) k) ∧
      (pam = true → (s.mx.diag x.toNat).2 ≤ 64 → ∀ r k, r < 256 → k < 16 → u.mx.entry (row r) k =
        if r < (s.mx.diag x.toNat).2 then
          BitVec.ofNat 128 (addQ (s.mx.entry (row r) k).toNat (s.mx.slot x.toNat r k)).1
        else s.mx.entry (row r) k)) ∧
    (pam = true ∨ scm ≠ 0 → exec (.drc g x a c) s = .next (s.trapped (s.trapOf 0x01 3 0) [])) ∧
    (pam = false → scm = 0 → ∃ u, exec (.drc g x a c) s = .next u ∧ cleared u ∧ kept u ∧ OnlyCore s.iss.core s u ∧
      u.me = { s.me with px := { s.px with mx := u.mx } } ∧
      ∀ r e k, r < 8 → e < 8 → k < 16 → ∃ W : BitVec 1024,
        (∀ d, d < 2 * n - 1 → W.toNat / 2 ^ (w * d) % 2 ^ w = ((digits r k).getD d 0 % 2 ^ w).toNat) ∧
        W.toNat < 2 ^ (w * (2 * n - 1)) ∧
        u.mx.entry (row (8 * r + e)) k = W.extractLsb' (128 * e) 128)

/-- R76, R196, R202, R203, R394: a2s converts the 16 entries of a store row, as integers, or as Q128 in product mode or with
scaling, and its elements are on their way to one aligned group of a scratchpad row, or to two whole rows. A row out
of the partition traps, the second row of two with the operand's low bits kept in faddr (log 128), and so does a poisoned one that
would be written in part (unless the bundle has already changed something at another module, log 44). -/
def Claims.StoreConversion : Prop :=
  ∀ (s : State) (g : BitVec 4) (a : BitVec 8) (t : BitVec 4) (r : BitVec 3) (n : BitVec 4), s.readP g = true →
    (s.iss.fw = true → s.me.repart = none) →
    let dst := elemOf t.toNat
    let w := dst.width
    let off := (Tab.get {} s.ctx.ags n.toNat : AddrGen).cur
    let i := off.toNat / 64
    let B := 2 * w
    let ch := s.chunks r.toNat 16
    let element (k : Nat) : Nat × Flags := drainElem s.fmt dst ch.1 (ch.2.1.getD k 0) (s.mx.entry a.toNat k)
    let ins : Instr := .a2s g a t r n
    (s.sp.part ≤ 64 * i → exec ins s = .next (s.trapped (s.trapOf 0x06 0 off) [])) ∧
    (64 * i < s.sp.part → B < 64 → i ∈ s.sp.bad → s.ctx.acted = false → exec ins s = .next (s.trapped (s.trapOf 0x09 0 off) [])) ∧
    (64 * i < s.sp.part → B ≤ 64 → (B < 64 → i ∉ s.sp.bad) → ∃ e u, exec ins s = .next u ∧ u.sp = s.sp ∧
      u.ctx.pend = insertPend s.ctx.pend e ∧ e.dest = .row i ∧ e.due = s.me.cycle + 8 ∧
      let o := 8 * (off.toNat % 64 / B * B)
      (∀ k, k < 16 → e.val.toNat / 2 ^ (o + w * k) % 2 ^ w = (element k).1 % 2 ^ w) ∧
      ∀ b, b < 512 → (e.mask.getLsbD b = true ↔ o ≤ b ∧ b < o + 16 * w)) ∧
    (64 * i < s.sp.part → B = 128 → ((off + 64).toNat / 64 * 64 < s.sp.part → ∃ e e' u, exec ins s = .next u ∧
      u.ctx.pend = insertPend (insertPend s.ctx.pend e) e' ∧ e.dest = .row i ∧
      e'.dest = .row ((off + 64).toNat / 64) ∧ e.mask = ~~~0 ∧ e'.mask = ~~~0 ∧
      ∀ k, k < 8 → e.val.extractLsb' (64 * k) 64 = BitVec.ofNat 64 (element k).1 ∧
        e'.val.extractLsb' (64 * k) 64 = BitVec.ofNat 64 (element (8 + k)).1) ∧
      (s.sp.part ≤ (off + 64).toNat / 64 * 64 →
        exec ins s = .next (s.trapped (s.trapOf 0x06 0 (off + 64)) [])))

/-- The drains add the digits of an accumulator to the store or write them there, and a2s converts a row of the store
into scratchpad elements. -/
def Obligations.MatrixStores : Prop :=
  Claims.Drains ∧ Claims.StoreConversion

/-! ## Events of the cores and engines -/

/-- R27, R33, R40, R41, R105, R310: events at a core. A stalled bundle stalls no more once all that it waits for has come,
and ends before anything stops it; the oldest pending event enters the firmware handler (log 18, DEDUCED), and neither
inside a handler nor before a stalled bundle has ended; the alarm is event 0x24; a pre-emption request at a boundary stops
the program context, whose epc then names the bundle that it abandoned, or the first bundle of the loop that it was about
to run again (log 50, DEDUCED), and is event 0x20; otherwise it waits. -/
def Obligations.CoreEvents : Prop :=
  ∀ (s : State) (c : Nat),
    let k := s.core c
    (∀ fw, (k.ctx fw).waits.all (fun w => s.waitOver c fw w) = true →
      ∃ u, exec (.interlockedBundleEffect c fw) s = .next u ∧ OnlyCore c s u ∧
        (u.core c).ctx fw = { k.ctx fw with waits := [], ended := (k.ctx fw).waits != [] || (k.ctx fw).ended } ∧
        (u.core c).ctx (!fw) = k.ctx (!fw)) ∧
    (∀ fw, (k.ctx fw).waits.any (fun w => !s.waitOver c fw w) = true →
      exec (.interlockedBundleEffect c fw) s = .next s) ∧
    (k.fw.inh = true ∨ k.fw.waits ≠ [] ∨ k.fw.ended = true → exec (.asyncEventTaken c) s = .next s) ∧
    (∀ e rest, k.fx.events = e :: rest → k.fw.waits = [] → k.fw.ended = false →
      (k.fw.inh = false → k.fw.run = .running ∨ k.fw.run = .sleeping →
        ∃ u, exec (.asyncEventTaken c) s = .next u ∧ OnlyCore c s u ∧
          let f := (u.core c).fw
          bitsOf f.cause.toNat 0 6 = e.code.toNat ∧
          bitsOf f.cause.toNat 32 32 = (if e.code = 0x25 then bitsOf (Tab.get 0 s.hub.freq c).toNat 0 32
            else e.info.toNat) ∧
          f.faddr = e.faddr ∧ f.epc = k.fw.pc ∧ f.inh = true ∧ f.pc = (k.landAll true).fw.tvec ∧ f.run = .running ∧
          (u.core c).fx.events = rest)) ∧
    (k.fw.run ≠ .off → ∃ u, exec (.globalTimeAlarm c) s = .next u ∧ OnlyCore c s u ∧
      (u.core c).fx.events = k.fx.events ++ [⟨0x24, 0, 0⟩]) ∧
    (k.prog.run = .running ∨ k.prog.run = .sleeping →
      (k.prog.stoppable = false → ∃ u, exec (.preemptionRequest c) s = .next u ∧ OnlyCore c s u ∧
        u.core c = { k with preempt := true }) ∧
      (k.prog.stoppable = true → k.kill = false → k.faulty = none →
        ∃ u, exec (.preemptionRequest c) s = .next u ∧ (∀ d, d ≠ c → u.core d = s.core d) ∧ u.disp = (s.leaveGrel c).disp ∧
          (u.core c).prog.run = .stopped ∧ (u.core c).prog.pc = k.prog.pc ∧ (u.core c).pre = true ∧
          (u.core c).prog.epc = (if k.prog.waits = [] ∧ k.prog.looped = false then k.prog.epc else k.prog.pc) ∧
          (u.core c).fx.fwev.getLsbD 1 = true ∧ (u.core c).fx.events = k.fx.events ++ [⟨0x20, 0, 0⟩]))

/-- R34, R390 to R393: machine checks. A report goes to the core that R391 names as event 0x22 with the vrank, unit and
source in info and the address in faddr. An error in the state of the firmware context stops the core until the module
is reset; one in the program context's stops that context; one of a scratchpad row poisons the row, one of a dirty
cached line poisons its row of memory and one of a clean line leaves nothing. Which core hears of a report, its rank and
when such an error comes are logs 28, 57 and 134 (DEDUCED). -/
def Obligations.MachineChecks : Prop :=
  ∀ (s : State),
    (∀ m0 : McReport, 1 ≤ m0.src.toNat → m0.src.toNat ≤ 0x15 → let m := s.fillRank m0
      ∃ u, exec (.machineCheck m0) s = .next u ∧ ∀ c, s.checkTarget m = some c →
        (∀ d, d ≠ c → u.core d = s.core d) ∧
        ∃ e, (u.core c).fx.events = (s.core c).fx.events ++ [e] ∧ e.code = 0x22 ∧ e.faddr = m.addr ∧
          bitsOf e.info.toNat 0 8 = m.src.toNat ∧ bitsOf e.info.toNat 8 8 = m.unit.toNat ∧
          bitsOf e.info.toNat 16 16 = m.vrank.toNat) ∧
    (∀ c det, ∃ u, exec (.coreStateError c true det) s = .next u ∧ (u.core c).dead = true ∧
      (u.core c).prog.run = .stopped ∧ (u.core c).fw.run = .stopped) ∧
    (∀ c row, row < 5120 → row ∈ ((s.damaged (.pad c row)).core c).sp.bad ∧
      ((s.damaged (.pad c row)).core c).sp.rows = (s.core c).sp.rows) ∧
    (∀ row, (∀ w ∈ s.mem.recs row, w.dirty = false) → s.damaged (.line row) = s) ∧
    (∀ row, (∃ w ∈ s.mem.recs row, w.dirty = true) → row ∈ (s.damaged (.line row)).mem.bad ∧
      (s.damaged (.line row)).cores = s.cores) ∧
    ∀ c det, (s.core c).prog.run = .running → (s.core c).prog.stoppable = true → (s.core c).kill = false →
      ∃ u, exec (.coreStateError c false det) s = .next u ∧ (u.core c).prog.run = .stopped ∧
        (u.core c).fx.fwev.getLsbD 0 = true ∧ (u.core c).dead = (s.core c).dead

/-- R210, R215, R218: what a transfer moves in one event, where it is not held. An event takes one row of the destination
with every piece of the transfer that is still to come and lies there (log 29, DESIGN CHOICE), and of a gather or scatter one
element. From scratchpad, tile or histogram to scratchpad or tile, each byte of the destination gets the byte of the
source that the traversal writes there last, and no other byte and no memory changes; from device memory the bytes are
those that the engine's load of the source gives; to device memory the row is stored once, its other bytes as they
were. -/
def Claims.EngineRows : Prop :=
  ∀ (s : State) (c : Nat) (fw : Bool) (chan ident : Nat) (x : Xfer), s.findXfer c fw chan ident = some x →
    s.held c x = false → x.kind = .copy ∨ x.kind = .gath ∨ x.kind = .scat ∨ x.kind = .hist → x.pos < x.total →
    dHasHist x.desc = false →
    let src := dSrc x.desc
    let dst := dDst x.desc
    let n := s.batchOf c x
    let y : Xfer := { x with pos := n.2, wrote := true, answers := [], asked := [] }
    let A (e : Nat × Piece) := s.sideByte c src e.2.src
    let D (e : Nat × Piece) := s.sideByte c dst e.2.dst
    let covers (e : Nat × Piece) (r i : Nat) : Bool :=
      r == D e / 64 && decide (D e % 64 ≤ i) && decide (i < D e % 64 + e.2.len)
    (x.kind = .copy ∨ x.kind = .hist → ∀ e ∈ n.1, ∀ f ∈ s.piecesFrom c x x.total 0, x.pos ≤ f.1 → D f / 64 = D e / 64 →
      f ∈ n.1) ∧
    (x.kind = .gath ∨ x.kind = .scat → n.2 = (x.pos / dLen x.desc + 1) * dLen x.desc ∧
      ∀ e ∈ n.1, e.1 / dLen x.desc = x.pos / dLen x.desc) ∧
    (src.kind ≠ 0 ∨ x.kind = .hist → dst.kind ≠ 0 →
      (∀ e ∈ n.1, A e / 64 ∉ (s.core c).sp.bad ∧ (A e + e.2.len - 1) / 64 ∉ (s.core c).sp.bad) →
      ∃ u, exec (.engineRowWrite c fw chan ident) s = .next u ∧ u.mem = s.mem ∧
        u.findXfer c fw chan ident = some y ∧
        ∀ r i, i < 64 → rowByte ((u.core c).sp.row r) i =
          match n.1.reverse.find? fun e => covers e r i with
          | some e =>
            let j := i - D e % 64
            if x.kind = .hist then rowByte (x.data.getD ((e.1 + j) / 64) 0) ((e.1 + j) % 64)
            else rowByte ((s.core c).sp.row ((A e + j) / 64)) ((A e + j) % 64)
          | none => rowByte ((s.core c).sp.row r) i) ∧
    (x.kind ≠ .hist → ∀ e b s1, n.1 = [e] → s.sideRead c x src (A e) e.2.len = some (b, none, s1) →
      (dst.kind ≠ 0 → ∃ u, exec (.engineRowWrite c fw chan ident) s = .next u ∧ u.mem = s1.mem ∧
        (u.core c).xfers = ((s1.setXfer c y).core c).xfers ∧
        ∀ r i, i < 64 → rowByte ((u.core c).sp.row r) i =
          if covers e r i then b.getD (i - D e % 64) 0 else rowByte ((s1.core c).sp.row r) i) ∧
      (dst.kind = 0 → ∀ acc, x.acc (D e / 64 * 64) = some acc → s.isRemote acc = false → s1.isRemote acc = false →
        s1.mem.stalls acc.pa = false → acc.row ∉ s1.mem.bad → isHubRow acc.row = false →
        ∃ u v, exec (.engineRowWrite c fw chan ident) s = .next u ∧ u.mem = (s1.store (x.agent c) acc v).mem ∧
          (u.core c).sp = (s1.core c).sp ∧ (u.core c).xfers = ((s1.setXfer c y).core c).xfers ∧
          ∀ i, i < 64 → rowByte v i =
            if covers e (D e / 64) i then b.getD (i - D e % 64) 0 else rowByte (s1.peek acc) i)) ∧
    ∀ a len acc s1, src.kind = 0 → 0 < len → a % 64 + len ≤ 64 → x.acc a = some acc → s.isRemote acc = false →
      s.engReady c x acc = some s1 →
      let l := s1.load (x.agent c) acc s1.iss.pick
      ∃ b, s.sideRead c x src a len = some (b, if l.2.1 then some (acc.row * 64) else none, l.2.2) ∧ b.length = len ∧
        ∀ j, j < len → b.getD j 0 = rowByte l.1 (a % 64 + j)

/-- R215, R218: where the pieces of a transfer lie. The runs of a copy go through the five levels, level 1 fastest; a
gather reads element i where its index points, the low bits dropped, and packs it at i, and a scatter does the
opposite. -/
def Claims.EngineTraversal : Prop :=
  (∀ (d : List Word) (f : Nat → Int) (a b c e g : Nat), a < dCnt d 1 → b < dCnt d 2 → c < dCnt d 3 → e < dCnt d 4 →
    g < dCnt d 5 →
    runOffset d f (a + dCnt d 1 * (b + dCnt d 2 * (c + dCnt d 3 * (e + dCnt d 4 * g)))) =
      a * f 1 + b * f 2 + c * f 3 + e * f 4 + g * f 5) ∧
  ∀ (s : State) (core : Nat) (x : Xfer) (i : Nat), 0 < dLen x.desc →
    let p := s.pieceAt core x (i * dLen x.desc)
    let es := dLen x.desc
    (x.kind = .copy → p.src = runOffset x.desc (dSs x.desc) i ∧ p.dst = runOffset x.desc (dDs x.desc) i) ∧
    (x.kind = .gath → p.dst = (i * es : Nat) ∧
      (dSrc x.desc).base + p.src = alignInt ((dSrc x.desc).base + x.index.getD i 0 * dSs x.desc 1) es) ∧
    (x.kind = .scat → p.src = (i * es : Nat) ∧
      (dDst x.desc).base + p.dst = alignInt ((dDst x.desc).base + x.index.getD i 0 * dDs x.desc 1) es) ∧
    1 ≤ p.len ∧ p.len ≤ es

/-- R210, R221: a transfer that is held, or that has moved everything, moves nothing. One that has landed completes: it is
outstanding no more, the watermark takes its identifier in where it is the next one, and a trigger whose threshold the
watermark then reaches has its command begin in the same event. -/
def Claims.EngineMoves : Prop :=
  ∀ (s : State) (c : Nat) (fw : Bool) (chan ident : Nat) (x : Xfer), s.findXfer c fw chan ident = some x →
    let ch (t : State) : Chan := Tab.get {} ((t.core c).ctx fw).chans chan
    (s.held c x = true → exec (.engineRowWrite c fw chan ident) s = .next s) ∧
    (s.held c x = false → x.kind = .copy → x.total ≤ x.pos → exec (.engineRowWrite c fw chan ident) s = .next s) ∧
    (x.landed = false → exec (.transferComplete c fw chan ident) s = .next s) ∧
    (x.landed = true → x.kind = .copy → x.rl = false → dHasArrival x.desc = false →
      (dSrc x.desc).kind ≠ 2 → (dDst x.desc).kind ≠ 2 → x.fw = fw ∧ x.chan = chan ∧ x.ident = ident →
      (∀ e ∈ ((s.core c).ctx fw).chans, e.1 ≠ chan → e.2.trigs = []) →
      ((ch s).trigs = [] →
        ∃ u, exec (.transferComplete c fw chan ident) s = .next u ∧ u.findXfer c fw chan ident = none ∧
          ((ch s).done = [] → ident = ((ch s).tw + 1).toNat → (ch u).tw = (ch s).tw + 1 ∧ (ch u).done = []) ∧
          ((ch s).done = [] → ident ≠ ((ch s).tw + 1).toNat → (ch u).tw = (ch s).tw ∧ (ch u).done = [ident])) ∧
      ∀ t, (ch s).trigs = [t] → t.x.fw = fw → t.x.kind = .copy → t.x.aq = false → s.quiescing t.x.asid = false →
        (dSrc t.x.desc).kind ≠ 2 → (dDst t.x.desc).kind ≠ 2 → (ch s).done = [] → ident = ((ch s).tw + 1).toNat →
        t.thr.toNat ≤ ((ch s).tw + 1).toNat →
        ∃ u, exec (.transferComplete c fw chan ident) s = .next u ∧ (ch u).trigs = [] ∧
          t.x ∈ (u.core c).xfers ∧ (ch u).tw = (ch s).tw + 1)

/-- R221, R265: a channel's first trigger fires once the watermark has reached its threshold, and its command begins;
triggers of one channel fire by rising threshold (log 34, DEDUCED). A weight stream takes the tail tile of its ring when it
is empty, and makes it ready when it is full or the stream ends; one of an ASID that is quiesced which holds no tile is
cancelled. -/
def Claims.TriggersAndTiles : Prop :=
  ∀ (s : State) (c : Nat) (fw : Bool) (chan ident : Nat),
    let ch (t : State) : Chan := Tab.get {} ((t.core c).ctx fw).chans chan
    (∀ t rest, (ch s).trigs = t :: rest →
      ((ch s).tw.toNat < t.thr.toNat → exec (.triggerFire c fw chan) s = .next s) ∧
      (t.thr.toNat ≤ (ch s).tw.toNat → s.quiescing t.x.asid = false →
        ({ s with iss := { s.iss with core := c, fw := t.x.fw } } : State).tileBad t.x.kind true t.x.desc = none →
        ∃ u, exec (.triggerFire c fw chan) s = .next u ∧ (u.core c).xfers = (s.core c).xfers ++ [t.x] ∧
          (ch u).trigs = rest ∧ (ch u).tw = (ch s).tw)) ∧
    ∀ x, s.findXfer c fw chan ident = some x → x.kind = .wstr → x.fw = fw ∧ x.chan = chan ∧ x.ident = ident →
      (let t := s.tailTile c x
       (s.held c x = false → (s.core c).saving = false → x.tiles = [] → s.quiescing x.asid = true →
         exec (.wstrTileStart c fw chan ident) s = .next ((s.dropXfer c x).completeId c x.fw x.chan x.ident)) ∧
       (s.held c x = false → (s.core c).saving = false → x.tiles = [] → s.quiescing x.asid = false → x.pos < x.total →
        ((s.core c).px.tile t).st = .empty → s.streamFirst c x = true →
        ∃ u, exec (.wstrTileStart c fw chan ident) s = .next u ∧ OnlyCore c s u ∧
          ((u.core c).px.tile t).st = .filling ∧ ((u.core c).px.tile t).vr = 0 ∧
          u.findXfer c fw chan ident = some { x with tiles := [t] })) ∧
      ∀ t rest, x.tiles = t :: rest → x.total ≤ x.pos → ((s.core c).px.tile t).bnd = false →
        ∃ u, exec (.wstrTileReady c fw chan ident) s = .next u ∧ OnlyCore c s u ∧
          ((u.core c).px.tile t).st = .ready ∧ ((u.core c).px.tile t).vr = ((s.core c).px.tile t).vr ∧
          u.findXfer c fw chan ident = some { x with tiles := [] }

/-- R219, R265, R267: the rows of a weight stream. An event writes one row at the tile's next row: at the start of a
block the first row of the block that it reads, then the rows that follow, and zero once a block was in error. Row r of a
block holds its elements in slots of w bits, in reverse order where wv says so, each sign-extended from the 8 bits that the
planes give. -/
def Claims.WeightStream : Prop :=
  (∀ (s : State) (c : Nat) (fw : Bool) (chan ident : Nat) (x : Xfer) (t : Nat) (rest : List Nat),
    s.findXfer c fw chan ident = some x → x.kind = .wstr → x.tiles = t :: rest → s.held c x = false → x.pos < x.total →
    dHasHist x.desc = false →
    let w := wsBits x.desc
    let e := (s.core c).px.tile t
    (e.rows / w * w ≤ e.vr → exec (.engineRowWrite c fw chan ident) s = .next s) ∧
    (e.vr < e.rows / w * w → x.pos % w ≠ 0 ∨ x.bad = true →
      ∃ u, exec (.engineRowWrite c fw chan ident) s = .next u ∧ OnlyCore c s u ∧
        (u.core c).sp.row (e.first + e.vr) = (if x.bad then 0 else x.data.getD (x.pos % w) 0) ∧
        (∀ r, r ≠ e.first + e.vr → (u.core c).sp.row r = (s.core c).sp.row r) ∧
        ((u.core c).px.tile t).vr = e.vr + 1 ∧
        u.findXfer c fw chan ident = some { x with pos := x.pos + 1, wrote := true }) ∧
    (e.vr < e.rows / w * w → x.pos % w = 0 → x.bad = false →
      (s.nextBlock c x = none → exec (.engineRowWrite c fw chan ident) s = .next (s.askBlock c x)) ∧
      ∀ b s1, s.nextBlock c x = some (b, s1) → b.bad = false →
        let e1 := (s1.core c).px.tile t
        ∃ u, exec (.engineRowWrite c fw chan ident) s = .next u ∧ u.mem = s1.mem ∧
          (u.core c).sp.row (e.first + e.vr) = b.rows.getD 0 0 ∧
          (∀ r, r ≠ e.first + e.vr → (u.core c).sp.row r = (s1.core c).sp.row r) ∧
          ((u.core c).px.tile t).vr = min e1.rows (e1.vr + 1))) ∧
  (∀ (d : List Word) (planes : List (List Nat)) (r i : Nat),
    let w := wsBits d
    let n := 512 / w
    r < w → i < n → lane w ((slotRows d planes).getD r 0) i =
      wrapNat w (signNat (planeElem d planes (if d3 d 43 1 = 1 then r * n + (n - 1 - i) else r * n + i)) 8)) ∧
  ∀ (d : List Word) (planes : List (List Nat)) (i j : Nat), d3 d 49 4 ≤ 7 → j < 8 →
    let p := d3 d 49 4 + 1
    (planeElem d planes i).testBit (7 - j) =
      (decide (j < p ∨ (d3 d 42 1 = 1 ∧ j = p)) && ((planes.getD j []).getD (i / 8) 0).testBit (i % 8))

/-- A transfer moves a destination row, or one element of a gather or scatter, at a time, between scratchpad, tiles
and device memory, and completes into the watermark, which fires the triggers that it reaches; a weight stream takes
tiles, writes its rows in slot form and readies them. -/
def Obligations.EngineProgress : Prop :=
  Claims.EngineRows ∧ Claims.EngineTraversal ∧ Claims.EngineMoves ∧ Claims.TriggersAndTiles ∧ Claims.WeightStream

/-- R350, R353, R355 to R357: a tile that has fired is read row by row and its member's leaf enters the tree; a node
combines its two operands, and a poisoned row of the input is noticed; a member whose result is here writes its rows to the
tile, then the status word, and ends its binding with its tile ready. -/
def Claims.CollectiveProgress : Prop :=
  (∀ (s : State) (core tile : Nat) (b : Binding) (V : Nat),
    s.binds.find? (fun b => b.core == core && b.tile == tile && b.fired.isSome && !b.sent && !b.cut && !s.bindHeld b) = some b →
    b.fired = some V → b.image = none → b.rl = false → s.fab.lost = [] →
    (b.input.length < b.reads V →
      let i := (s.bindTile b).first + b.input.length
      (i ∉ (s.core b.core).sp.bad → exec (.collectiveFire core tile) s =
        .next (s.setBind { b with input := b.input ++ [(s.core b.core).sp.row i] })) ∧
      (i ∈ (s.core b.core).sp.bad → exec (.collectiveFire core tile) s =
        .next (s.setBind { b with input := b.input ++ [0], inBad := true }))) ∧
    (b.reads V ≤ b.input.length → b.desc.kind ≠ 2 → 2 ≤ b.members.length →
      ∀ k, parentOf b.members.length b.pos 1 = some (b.pos, k) → (s.collOf b.key).val b.pos 1 false = none →
      ∃ u, exec (.collectiveFire core tile) s = .next u ∧ u.binds = (s.setBind { b with sent := true }).binds ∧
        b.value V (s.bindTile b).rows ∈ (u.collOf b.key).vals)) ∧
  (∀ (s : State) (b : Binding) (lo k : Nat) (l r : NodeVal) (p : Nat × Nat), s.anyBind b.key = some b →
    let c := s.collOf b.key
    let h := half k
    c.val lo h false = some l → c.val (lo + h) (k - h) false = some r → 2 ≤ k →
    parentOf b.members.length lo k = some p → p.1 = lo → ¬ (lo = 0 ∧ k = b.members.length) →
    c.ended = false → c.val lo k false = none → s.siteHere b.key (b.members.getD lo 0) = true →
    ∃ u, exec (.collectiveNodeCombine b.key lo k) s = .next u ∧
      (u.collOf b.key).vals = (c.vals.filter fun v => !(v == l) && !(v == r)) ++ [joinVals b.desc k l r]) ∧
  ∀ (s : State) (core tile : Nat) (b : Binding) (v : NodeVal),
    s.binds.find? (fun b => b.core == core && b.tile == tile && !b.fin && !s.bindHeld b &&
      (b.cut || (b.fired.isSome && ((s.collOf b.key).val b.pos 1 true).any fun v => v.err != 0 || b.sent))) = some b →
    b.cut = false → (s.collOf b.key).val b.pos 1 true = some v → b.image = none → b.dva = 0 →
    let rows := b.result v
    (b.step < rows.length → ∃ u, exec (.collectiveComplete core tile) s = .next u ∧ u.mem = s.mem ∧
      (u.core b.core).sp.row ((s.bindTile b).first + b.step) = rows.getD b.step 0 ∧
      u.binds = (s.setBind { b with step := b.step + 1 }).binds) ∧
    (rows.length ≤ b.step → b.posted ≠ 0 → exec (.collectiveComplete core tile) s = .next s) ∧
    (rows.length ≤ b.step → b.posted = 0 → (∀ e ∈ ((s.core b.core).ctx b.fw).chans, e.2.trigs = []) →
      ∃ u, exec (.collectiveComplete core tile) s = .next u ∧
        (∀ x ∈ u.binds, ¬ (x.key = b.key ∧ x.vrank = b.vrank)) ∧
        ((u.core b.core).px.tile b.tile).st = .ready ∧ ((u.core b.core).px.tile b.tile).bnd = false ∧
        (b.sw / 64 ∉ (s.core b.core).sp.bad → b.rl = false → (u.core b.core).sp.row (b.sw / 64) =
          setRowWord ((s.core b.core).sp.row (b.sw / 64)) (b.sw / 8 % 8)
            (statusWord (b.status v).1 (b.status v).2 v.flags)))

/-- R350, R351, R354, R363: the value of a node. Element by element a sum, a minimum or a maximum of the two operands, as
integers or as floating values, with the flags of every element; the values of an all-gather one after the other; the
chunks of a sparse all-reduce merged index by index, dense once more than thr 256ths of the span are held. Operands whose
fields differ give code 3; one that is in error gives its error, and of two of one code the lower position. -/
def Claims.CollectiveCombine : Prop :=
  (∀ (el op w : Nat) (signed sat : Bool) (x y : Row), elemOf el = .int signed w →
    let le (a b : Nat) : Bool := if signed then decide (signNat a w ≤ signNat b w) else decide (a ≤ b)
    let z := (combineRow el op sat x y).1
    (op = 0 → sat = false → LanesAre w (512 / w) z fun i => (lane w x i + lane w y i) % 2 ^ w) ∧
    (op = 0 → sat = true → LanesAre w (512 / w) z fun i =>
      if signed then reducedTo true w (signNat (lane w x i) w + signNat (lane w y i) w)
      else min (lane w x i + lane w y i) (2 ^ w - 1)) ∧
    (op = 1 → LanesAre w (512 / w) z fun i => if le (lane w x i) (lane w y i) then lane w x i else lane w y i) ∧
    (2 ≤ op → LanesAre w (512 / w) z fun i => if le (lane w x i) (lane w y i) then lane w y i else lane w x i)) ∧
  (∀ (el op : Nat) (sat : Bool) (F : Fmt) (x y : Row), elemOf el = .flt F →
    let w := (elemOf el).width
    let f (i : Nat) : Nat × Flags :=
      if op = 0 then addF F ⟨0, false, false⟩ 0 (lane w x i) (lane w y i)
      else minmaxF F false (op == 2) (lane w x i) (lane w y i)
    LanesAre w (512 / w) (combineRow el op sat x y).1 (fun i => (f i).1) ∧
    ∀ b, (combineRow el op sat x y).2.getLsbD b = (List.range (512 / w)).any fun i => (f i).2.getLsbD b) ∧
  (∀ (d : CollDesc) (l r : Chunk) (j : Nat),
    (l.pairs.map fun p => p.1).Pairwise (· < ·) → (r.pairs.map fun p => p.1).Pairwise (· < ·) →
    (∀ p ∈ l.pairs ++ r.pairs, p.1 < d.span) → j < d.span →
    let m := (mergeChunk d l r).1
    let held := (List.range d.span).filter fun i => (l.pairs ++ r.pairs).any fun p => p.1 == i
    m.dense = (l.dense || r.dense || decide (d.thr * d.span < held.length * 256)) ∧
    (m.pairs.find? fun p => p.1 == j) =
      match l.pairs.find? fun p => p.1 == j, r.pairs.find? fun p => p.1 == j with
      | some p, some q => some (j, (combineElem d.el 0 true p.2 q.2).1)
      | some p, none => some (j, p.2)
      | none, some q => some (j, q.2)
      | none, none => if m.dense then some (j, 0) else none) ∧
  ∀ (d : CollDesc) (k : Nat) (l r : NodeVal),
    let v := joinVals d k l r
    (l.err = 0 → r.err = 0 → l.desc ≠ r.desc → v.err = 3 ∧ v.errPos = 0 ∧ v.rows = []) ∧
    (l.err ≠ 0 → r.err = 0 → v.err = l.err ∧ v.errPos = l.errPos ∧ v.rows = []) ∧
    (l.err = 0 → r.err ≠ 0 → v.err = r.err ∧ v.errPos = r.errPos ∧ v.rows = []) ∧
    (l.err ≠ 0 → l.err = r.err → v.err = l.err ∧ v.errPos = min l.errPos r.errPos ∧ v.rows = []) ∧
    (l.err = 0 → r.err = 0 → l.desc = r.desc → v.err = 0 ∧ v.flags = l.flags ||| r.flags ||| (joinRows d l.rows r.rows).2 ∧
      (d.kind = 3 → v.rows = l.rows ++ r.rows) ∧
      (d.kind = 0 ∨ d.kind = 1 ∨ d.kind = 4 → l.rows.length = r.rows.length → v.rows.length = l.rows.length ∧
        ∀ i, i < l.rows.length → v.rows.getD i 0 = (combineRow d.el d.op d.sat (l.rows.getD i 0) (r.rows.getD i 0)).1) ∧
      (d.kind = 5 → let a := rowChunks d d.nch l.rows
        let b := rowChunks d d.nch r.rows
        v.rows = (List.range (min a.length b.length)).flatMap fun c =>
          chunkRows d c (mergeChunk d (a.getD c ⟨false, []⟩) (b.getD c ⟨false, []⟩)).1))

/-- R368, R370, R399: a collective flit that is the first of its source to its rank. For a rank that is neither resident nor
arriving it waits, and for one whose block is not yet here it waits until that is; in an ASID that is being quiesced, with
res at 3, it is dropped and counted; for a rank whose binding is not in force it goes to the backlog ring, or waits and is
counted where the ring is full; else the engine takes it and keeps its row. -/
def Claims.CollectiveFlits : Prop :=
  ∀ (s : State) (f : Flit), s.fab.inbox.contains f = true → firstOf s.fab.inbox f = true → f.cls = 0 →
    let v := f.rank
    let l := s.rankRows v
    let s1 := s.rowsRead l
    let frozen : Prop := s1.rankRes v = 3 ∧ s1.quiescing (s1.rankAsid v) = true
    (s.resident v = false → (∀ e ∈ s.car.landing, e.1 ≠ v) → exec (.collectiveFlit f) s = .next s) ∧
    (s.resident v = true → s1.rankHere v = false → exec (.collectiveFlit f) s = .next s1) ∧
    (s.resident v = true → s1.rankHere v = true →
      (frozen → exec (.collectiveFlit f) s = .next (((s1.takeIn f).bumpModule 0 true).dropAnswers l)) ∧
      (¬ frozen → s1.toRing v f.collKey = true → s1.RowsHere (s1.blogRow v) →
        let s2 := s1.rowsRead (s1.blogRow v)
        ∀ q, s2.backlog v = some q →
          (q.full = true → exec (.collectiveFlit f) s =
            .next (((s2.bumpModule 1 true).dropAnswers (s1.blogRow v)).dropAnswers l)) ∧
          (q.full = false → let e := q.entryRows (s2.rankAsid v) q.wi
            s2.RowsHere e → exec (.collectiveFlit f) s =
              .next ((((((s2.rowsRead e).takeIn f).ringWrite (s2.rankAsid v) q q.wi f).dropAnswers e).dropAnswers
                (s1.blogRow v)).dropAnswers l))) ∧
      (¬ frozen → s1.toRing v f.collKey = false → s1.bindOf f.collKey v = none →
        exec (.collectiveFlit f) s = .next ((s1.takeIn f).dropAnswers l)) ∧
      (¬ frozen → s1.toRing v f.collKey = false → ∀ b, s1.bindOf f.collKey v = some b → b.key = f.collKey →
        bitAt f.w3 47 = false → ∃ u, exec (.collectiveFlit f) s = .next u ∧ u.fab.inbox = s1.fab.inbox.erase f ∧
          u.binds = s1.binds ∧ (u.collOf f.collKey).vals = (s1.collOf f.collKey).vals ∧
          (fld f.w3 8 3 = 0 → bitAt f.w3 46 = false → ∃ x ∈ (u.collOf f.collKey).parts,
            x.lo = fld f.w2 16 16 ∧ x.k = fld f.w3 48 16 + 1 ∧ x.down = bitAt f.w3 0 ∧ x.flags = f.w3.extractLsb' 1 7 ∧
            x.rows = (((s1.collOf f.collKey).parts.find? fun y =>
              y.lo == x.lo && y.k == x.k && y.down == x.down).map fun y => y.rows).getD [] ++ [f.payload])))

/-- The tile that fired is read and enters the tree, nodes combine (sums, minima, maxima, floating and sparse values,
and errors), members complete; a flit waits, is dropped, goes to the backlog ring or is taken. -/
def Obligations.Collectives : Prop :=
  Claims.CollectiveProgress ∧ Claims.CollectiveCombine ∧ Claims.CollectiveFlits

/-! ## Fabric and migration -/

/-- R364, R365: a link. A flit with the number expected advances the link and goes on by the port
table towards its node, with the next number and the CRC in its trailer; a bad one, or one ahead of the number, is
answered with the first number missing; one behind it is discarded; one for a lost node is dropped and counted, and one
whose port-table entry cannot be read is held. A negative acknowledgement resends from its number in order, and after the
16th failure in a row, counted as log 73 (DEDUCED) says, the port is down. A link that comes up starts its numbers afresh
(log 109, DESIGN CHOICE), and the first one sets global time. -/
def Claims.Links : Prop :=
  ∀ (s : State) (p : Nat) (n : BitVec 12) (f : Flit), p < 144 →
    let l := s.link p
    (l.up = true →
      (n = l.rxNext → f.dst ≠ s.node → BitVec.ofNat 12 f.dst ∉ s.fab.lost → f.dst ∉ s.fab.badPorts → ∀ q, s.portFor f.dst f.cls f.chunk = some q → q ≠ p →
        ∃ (u : State) (w : Word), exec (.linkFlitReceive p n true f) s = .next u ∧ (u.link p).rxNext = n + 1 ∧
          u.fab.sent = s.fab.sent ++ [(q, w, f)] ∧ (w.setWidth 12 : BitVec 12) = (s.link q).txNext ∧
          w.extractLsb' 32 32 = BitVec.ofNat 32 (crc32 (flitBytes f)) ∧ (u.link q).txNext = (s.link q).txNext + 1) ∧
      (n = l.rxNext → f.dst ≠ s.node → BitVec.ofNat 12 f.dst ∈ s.fab.lost →
        exec (.linkFlitReceive p n true f) s = .next ((s.setLink p { l with rxNext := n + 1 }).bumpModule 2 true)) ∧
      (n = l.rxNext → f.dst ≠ s.node → BitVec.ofNat 12 f.dst ∉ s.fab.lost → f.dst ∈ s.fab.badPorts →
        ∃ u, exec (.linkFlitReceive p n true f) s = .next u ∧ u.fab.transit = s.fab.transit ++ [(f.dst, f)] ∧
          u.fab.sent = s.fab.sent) ∧
      (0 < (n - l.rxNext).toNat → (n - l.rxNext).toNat < 2048 →
        ∃ u, exec (.linkFlitReceive p n true f) s = .next u ∧ u.fab = { s.fab with naks := s.fab.naks ++ [(p, l.rxNext)] }) ∧
      (2048 ≤ (n - l.rxNext).toNat → exec (.linkFlitReceive p n true f) s = .next s) ∧
      (∃ u, exec (.linkFlitReceive p n false f) s = .next u ∧
        u.fab = { s.fab with naks := s.fab.naks ++ [(p, l.rxNext)] }) ∧
      let again := l.from_ n
      let fails := if l.naked = some n then l.fails + 1 else 0
      (fails < 16 → ∃ u, exec (.negativeAcknowledgement p n) s = .next u ∧ u.fab.sent.length =
          s.fab.sent.length + again.length ∧ (∀ i g, again[i]? = some g →
            ∃ w : Word, u.fab.sent[s.fab.sent.length + i]? = some (p, w, g) ∧
              (w.setWidth 12 : BitVec 12) = n + BitVec.ofNat 12 i) ∧ (u.link p).fails = fails) ∧
      (16 ≤ fails → ∃ u, exec (.negativeAcknowledgement p n) s = .next u ∧ (u.link p).up = false)) ∧
    ∀ (r : BitVec 12) (t : Nat), l.up = false → s.hub.started = true →
      ∃ u, exec (.linkUp p r t) s = .next u ∧ u.link p = { up := true } ∧
        u.hub.gtime = (if s.hub.linked ∨ (s.hub.node ≠ 0 ∧ s.hub.refOf r = s.hub.node) then s.hub.gtime else t) ∧ u.hub.linked = true

/-- R364, R367, R404: the routes. A flit for this node that continues its route is delivered once, in order, and one up
to 1,024 numbers ahead is kept; what is not acknowledged within 20 µs is sent again; an acknowledgement frees all up to its number; a flit with a reserved
code is dropped; a node out of reach is recorded as lost. -/
def Claims.Routes : Prop :=
  ∀ (s : State) (f : Flit),
    let src : BitVec 12 := BitVec.ofNat 12 f.src
    (∀ p, p < 144 → (s.link p).up = true → f.dst = s.node → f.cls < 2 → (s.route src f.cls).ahead = [] →
      f.rseq = (s.route src f.cls).rx →
      ∃ u, exec (.linkFlitReceive p (s.link p).rxNext true f) s = .next u ∧ u.fab.inbox = s.fab.inbox ++ [f] ∧
        (u.route src f.cls).rx = f.rseq + 1) ∧
    (∀ p, p < 144 → (s.link p).up = true → f.dst = s.node → f.cls < 2 →
      let r := s.route src f.cls
      0 < (f.rseq - r.rx).toNat → (f.rseq - r.rx).toNat ≤ 1024 →
      ∃ u, exec (.linkFlitReceive p (s.link p).rxNext true f) s = .next u ∧ u.fab.inbox = s.fab.inbox ∧
        (u.route src f.cls).rx = r.rx ∧ (u.route src f.cls).ahead =
          if r.ahead.any fun x => x.rseq = f.rseq then r.ahead else r.ahead ++ [f]) ∧
    (∀ d cls, let r := s.route (BitVec.ofNat 12 d) cls
      ∃ u, exec (.routeResendTimeout d cls) s = .next u ∧
        (u.route (BitVec.ofNat 12 d) cls).unacked = r.unacked.map fun e =>
          if e.2.2.1 + 20000 ≤ s.hub.gtime then (e.1, e.2.1, s.hub.gtime, e.2.2.2 + 1) else e) ∧
    (s.fab.inbox.find? (fun x => x.src == f.src && x.cls == f.cls) = some f → f.cls = 2 → f.memOp = 4 →
      ∃ u, exec (.routeAcknowledgement f) s = .next u ∧ u.fab.inbox = s.fab.inbox.erase f ∧
        ∀ e ∈ (u.route src (fld f.w3 32 4)).unacked, e ∈ (s.route src (fld f.w3 32 4)).unacked ∧
          2 ^ 31 ≤ ((f.w3.setWidth 32 : BitVec 32) - e.1.rseq).toNat) ∧
    (f ∈ s.fab.inbox → f.reserved = true → ∃ u, exec (.reservedCodeFlit f) s = .next u ∧
      u.fab = { s.fab with inbox := s.fab.inbox.erase f } ∧ u.cores = s.cores ∧ u.mem = s.mem) ∧
    ∀ d, d < 4096 → s.fab.lost.contains (BitVec.ofNat 12 d) = false → s.fab.badPorts.contains d = false →
      s.portsGone d = true ∨ s.unanswered d = true →
      ∃ u, exec (.nodeLost d) s = .next u ∧ u.fab.lost = s.fab.lost ++ [BitVec.ofNat 12 d] ∧
        ∀ e ∈ u.fab.transit, e.1 ≠ d

/-- Numbers, resends and failures of a link; delivery once and in order on a route, resends, acknowledgements,
reserved codes and a lost node. -/
def Obligations.FabricLinks : Prop :=
  Claims.Links ∧ Claims.Routes

/-- R142, R144 to R147, R322, R341, R364: a memory request of another module, taken in at the home in its source's order.
While the row's bank is refreshed, or its channel's remap table cannot be read, a request is answered with a retry and its
hint. Else a read of a memory-side row is answered with what the home holds, and of a cached row with the newest write and
its version; a row or word write, whole or under a mask, replaces what it names in coherence order and is acknowledged; a
write made from a version that is no longer the newest is turned away; an atomic acts on the home's row and is answered
with the old value, a posted one with an acknowledgement. Part of a poisoned row is not written. Hub rows are set apart, as
are rows that a region load or a recovery still concerns. The layout of the answers and of versions is logs 77 and 78
(DEDUCED), and that no copy of a row is kept elsewhere is log 44 (DESIGN CHOICE). -/
def Obligations.RequestsServed : Prop :=
  ∀ (s : State) (f : Flit), s.fab.inbox.find? (fun x => x.src == f.src && x.cls == f.cls) = some f → f.cls = 1 →
    isHubRow f.row = false → rowHere f.row = true → s.fab.lost.contains (BitVec.ofNat 12 f.src) = false →
    s.fab.badPorts.contains f.src = false →
    let r := f.row
    let bad := s.mem.bad.contains r
    let answered (u : State) (op code idx : Nat) (v : Row) : Prop := ∃ g : Flit,
      (u.route (BitVec.ofNat 12 f.src) 1).unacked =
        (s.route (BitVec.ofNat 12 f.src) 1).unacked ++ [(g, s.hub.gtime, s.hub.gtime, 0)] ∧
      g.memOp = op ∧ g.row = r ∧ g.tag = f.tag ∧ g.index = idx ∧ g.code = code ∧ g.payload = v
    (∀ h, s.waitHint r = some h → ∀ i : Instr, (i = .readRequest f ∧ f.memOp = 0) ∨ (i = .rowWrite f ∧ f.memOp = 2) ∨
        (i = .wordWrite f ∧ f.memOp = 3) ∨ (i = .atomicRequest f ∧ f.memOp = 4 ∧ f.code < 13) →
      ∃ u, exec i s = .next u ∧ u.mem = s.mem ∧ ∃ g : Flit,
        (u.route (BitVec.ofNat 12 f.src) 1).unacked =
          (s.route (BitVec.ofNat 12 f.src) 1).unacked ++ [(g, s.hub.gtime, s.hub.gtime, 0)] ∧
        g.memOp = 7 ∧ g.row = r ∧ g.tag = f.tag ∧ g.index % 1024 = h % 1024) ∧
    (s.waitHint r = none → s.mem.stalls (64 * r) = false →
    (f.memOp = 0 → f.code ≠ 3 → ∃ u, exec (.readRequest f) s = .next u ∧
      u.fab.inbox = s.fab.inbox.erase f ∧ MemoryKept s u ∧
      (bitAt f.w3 5 = true → answered u 1 (if bad then 2 else 0) f.index (s.mem.home r)) ∧
      (bitAt f.w3 5 = false → answered u 1 (if bad then 2 else 0) (s.mem.version r) (s.mem.latest r))) ∧
    (f.memOp = 2 → f.code = 0 ∨ f.code = 2 ∨ (f.code = 3 ∧ s.mem.version r = f.index ∧ bad = false) →
      ∃ u, exec (.rowWrite f) s = .next u ∧ u.fab.inbox = s.fab.inbox.erase f ∧ u.mem.latest r = f.payload ∧
        u.mem.home r = f.payload ∧ MemoryKeptBut r s u ∧ (f.code = 2 → r ∈ u.mem.bad) ∧ answered u 6 0 f.index 0) ∧
    (f.memOp = 2 → f.code = 3 → s.mem.version r ≠ f.index ∨ bad = true →
      ∃ u, exec (.rowWrite f) s = .next u ∧ u.mem = s.mem ∧ answered u 6 3 f.index 0) ∧
    (f.memOp = 2 → f.code = 4 → bad = false → ∃ u, exec (.rowWrite f) s = .next u ∧
      u.fab.inbox = s.fab.inbox.erase f ∧
      u.mem.latest r = (s.mem.latest r &&& ~~~bitMask f.mask) ||| (f.payload &&& bitMask f.mask) ∧ MemoryKeptBut r s u ∧
      answered u 6 0 f.index 0) ∧
    (f.memOp = 3 → bad = false →
      let m : Word := if f.code = 1 then rowWord f.payload 1 else ~~~0
      let old := rowWord (s.mem.latest r) (f.elem % 8)
      ∃ u, exec (.wordWrite f) s = .next u ∧ u.fab.inbox = s.fab.inbox.erase f ∧
        u.mem.latest r = setRowWord (s.mem.latest r) (f.elem % 8) ((old &&& ~~~m) ||| (rowWord f.payload 0 &&& m)) ∧
        MemoryKeptBut r s u ∧ answered u 6 0 f.index 0) ∧
    ((f.memOp = 2 ∧ f.code = 4) ∨ f.memOp = 3 → bad = true →
      exec (if f.memOp = 2 then .rowWrite f else .wordWrite f) s =
        .next (((((s.takeIn f).actFor f.actsFor).dropReport r f.agent).respond f 6 0 0).actFor s.iss.acting)) ∧
    (f.memOp = 4 → f.code < 13 → bitAt f.w3 13 = false → ∀ op, memOpOf f.code = some op →
      let posted := 512 ≤ f.tag ∧ f.tag < 1024
      let pa := (if f.w32 then 4 else 8) * f.elem
      let old := rowElem f.w32 (s.mem.home r) pa
      let new := atomicOp op (elemBits f.w32) old (rowWord f.payload 0).toNat (rowWord f.payload 1).toNat
      (bad = false → ∃ u, exec (.atomicRequest f) s = .next u ∧
        u.mem.latest r = setRowElem f.w32 (s.mem.home r) pa new ∧ MemoryKeptBut r s u ∧
        (¬ posted → answered u 5 0 f.index (setRowElem f.w32 0 pa old)) ∧ (posted → answered u 6 0 f.index 0)) ∧
      (bad = true → ¬ posted → ∃ u v, exec (.atomicRequest f) s = .next u ∧ u.mem = s.mem ∧ answered u 5 2 f.index v)))

/-- R27, R341, R364, R406: the answers to this module's requests. Each reaches the context whose tag it carries, once, under
the key of its home and row (logs 44, DESIGN CHOICE, and 77, DEDUCED), and is dropped where the bundle that asked for it was
given up; the acknowledgement of a posted operation ends it, and of a write made from an older version has its row read
again; a retry is kept for the time of its hint, or sent again at once; a packet whose mirror is acknowledged, or whose
queue has another mirror now or none, is accepted. -/
def Obligations.AnswersTaken : Prop :=
  ∀ (s : State) (f : Flit) (c : Nat) (fw : Bool),
    s.fab.inbox.find? (fun x => x.src == f.src && x.cls == f.cls) = some f → f.cls = 1 →
    let x := (s.core c).ctx fw
    let taken (u : State) (key dropped : Nat) : Prop :=
      (∀ d, d ≠ c → u.core d = s.core d) ∧ u.mem = s.mem ∧
        (dropped ≠ 1 → Tab.get 0 ((u.core c).ctx fw).answers key = f.payload) ∧
        (dropped = 1 → ((u.core c).ctx fw).answers = x.answers ∧ ((u.core c).ctx fw).asked = Tab.erase x.asked key)
    (f.memOp = 1 → askerOf f.tag = .context c fw → f.code = 0 →
      ∀ e, x.asked.find? (fun e => e.1 = homeKey f.src f.row) = some e →
        ∃ u, exec (.readResponse f) s = .next u ∧ taken u e.1 e.2) ∧
    (f.memOp = 5 → askerOf f.tag = .context c fw → f.code ≠ 2 →
      ∀ e, x.asked.find? (fun e => e.1 = answerKey (homeKey f.src f.row)) = some e →
        ∃ u, exec (.atomicResponse f) s = .next u ∧ taken u e.1 e.2) ∧
    (f.memOp = 6 → askerOf f.tag = .post c fw → ∀ e, s.awaited f 2 = some e →
      (f.code ≠ 3 → ∃ u, exec (.writeAcknowledgement f) s = .next u ∧ u.cores = s.cores ∧
        u.mem = { s.mem with posted := s.mem.posted.eraseIdx e.1 }) ∧
      (f.code = 3 → e.2.out.isSome = true → ∃ u, exec (.writeAcknowledgement f) s = .next u ∧ u.cores = s.cores ∧
        u.mem = { s.mem with posted := s.mem.posted.set e.1 { e.2 with stage := 1 } })) ∧
    (f.memOp = 7 → f.index % 1024 ≠ 0 →
      ∀ e, s.fab.reqs.find? (fun e => e.1 = f.src ∧ e.2.sameRow f = true) = some e →
      ∃ u, exec (.retryWithWaitHint f) s = .next u ∧ u.fab.reqs = s.fab.reqs.erase e ∧
        (s.hub.gtime + 4 * (f.index % 1024), e) ∈ u.fab.later) ∧
    ∀ i (m : Mirror), s.hub.mirrors[i]? = some m →
      (m.acked = true → exec (.mirrorAccept i) s =
        .next { s with hub := { s.hub with mirrors := s.hub.mirrors.eraseIdx i } }) ∧
      (m.acked = false → ∀ acc, s.queueAcc m.asid .read (m.va.setWidth 64) = .ok acc → s.isRemote acc = false →
        let h := (s.queueHdr m.asid m.va acc).1
        h.bad = false → exec (.mirrorAccept i) s =
          .next (if h.mir = true ∧ (m.sent = false ∨ m.bud = h.bud) then s
            else { s with hub := { s.hub with mirrors := s.hub.mirrors.eraseIdx i } }))

/-- R372 to R374: binding updates and the arrival of a rank. An update waits for its time, 64 bits wide, and then changes its
rank's entry in the rank map and sends the old node a marker; a marker, behind its sender's earlier flits as log 133
(DEDUCED) has it, ends the wait for its node. The flits of an arrival are numbered as log 81 (DEDUCED) says: once the rows
that lead to the arriving rank's ring are here, a frame row is stored under its key (where no region load or recovery
concerns it), and the last flit makes the rank resident, between two steps, once the rank table has room. -/
def Claims.RankArrival : Prop :=
  (∀ (s : State) (f : Flit),
    s.fab.inbox.find? (fun x => x.src == f.src && x.cls == f.cls) = some f → f.cls = 2 →
    (f.memOp = 0 → ∃ u, exec (.bindingUpdate f) s = .next u ∧ u.fab.inbox = s.fab.inbox.erase f ∧
      u.fab.maps = s.fab.maps ∧
      u.fab.updates = s.fab.updates ++ [(f.w1.extractLsb' 48 16, f.rank, f.w2.extractLsb' 0 12, f.w3.toNat)]) ∧
    (s.markerDue f = false → exec (.marker f) s = .next s) ∧
    (f.memOp = 1 → s.markerDue f = true → ∀ m, s.car.busy = some m → m.vrank = f.rank → m.job = f.w1.extractLsb' 48 16 →
      ∃ u, exec (.marker f) s = .next u ∧
        u.car.busy = some { m with waiting := m.waiting.filter fun d => d.toNat ≠ f.src })) ∧
  (∀ (s : State) (f : Flit), f.cls = 2 →
    let v := f.rank
    let s1 := s.rowsRead (s.areaRow v)
    let s2 := s1.rowsRead (s1.areaBlock v)
    let s3 := s2.rowsRead (s2.areaRing v)
    s.RowsHere (s.areaRow v) → s1.RowsHere (s1.areaBlock v) → s2.RowsHere (s2.areaRing v) →
    s3.fab.inbox.find? (fun x => x.src == f.src && x.cls == f.cls) = some f →
    (f.memOp = 2 → f.carKind = 2 →
      let r := f.carAddr.toNat / 64
      s3.mem.stalls (64 * r) = false → ∃ u, exec (.caribouData f) s = .next u ∧
        u.mem.latest r = s3.mem.encipher (f.w3.toNat % 32) r f.payload ∧ u.mem.home r = u.mem.latest r ∧
        (32 ≤ f.w3.toNat → r ∈ u.mem.bad) ∧ MemoryKeptBut r s3 u) ∧
    (f.memOp = 3 → s.disp.ranks.length < 128 →
      let s4 := s3.rowsRead (s3.doneRows v)
      s3.RowsHere (s3.doneRows v) → s4.fab.inbox.find? (fun x => x.src == f.src && x.cls == f.cls) = some f →
      ∀ asid block, (s4.takeIn f).landingOf v = some (asid, block) →
        ∃ u, exec (.caribouDone f) s = .next u ∧ (∀ e ∈ u.car.landing, e.1 ≠ v) ∧
          ∃ r ∈ u.disp.ranks, r.vrank = v ∧ r.asid = asid ∧ r.block = block ∧ r.phase = 2 ∧ r.cold = bitAt f.w3 0) ∧
    (128 ≤ s.disp.ranks.length → exec (.caribouDone f) s = .next s)) ∧
  ∀ (s : State) (i : Nat) (job vr : BitVec 16) (node : BitVec 12) (T : Nat), s.fab.updates[i]? = some (job, vr, node, T) →
    (s.hub.gtime < T → exec (.bindingUpdateApply i) s = .next s) ∧
    (T ≤ s.hub.gtime → (∃ m, s.fab.maps.find? (fun m => m.1 = job) = some m) →
      (s.rankNode job vr = none → ∃ u, exec (.bindingUpdateApply i) s = .next u ∧
        u.fab.updates = s.fab.updates.eraseIdx i ∧ u.rankNode job vr = some node.toNat ∧ u.fab.sent = s.fab.sent) ∧
      ∀ d, s.rankNode job vr = some d → d ≠ s.node → s.fab.lost.contains (BitVec.ofNat 12 d) = false →
        s.fab.badPorts.contains d = false →
        ∃ u g, exec (.bindingUpdateApply i) s = .next u ∧ u.fab.updates = s.fab.updates.eraseIdx i ∧
          u.rankNode job vr = some node.toNat ∧ (u.route (BitVec.ofNat 12 d) 2).unacked =
            (s.route (BitVec.ofNat 12 d) 2).unacked ++ [(g, s.hub.gtime, s.hub.gtime, 0)] ∧ g.memOp = 1 ∧ g.rank = vr ∧
          g.w1.extractLsb' 48 16 = job ∧ g.w3.setWidth 32 = (s.route (BitVec.ofNat 12 d) 0).tx)

/-- R330, R331, R366, R371, R373: the migration engine's commands, one at a time, oldest first, once the rows of its queue
and of the command's completion word and tables are here (log 137, DESIGN CHOICE). A command with a reserved field, or
for an address space that is being quiesced (log 83, DEDUCED) is refused, as is one whose table is malformed; a local move and
a migration out wait until their rank is between steps; a migration out begins with the fields of its command; the two
table loads replace the table. -/
def Claims.MigrationCommands : Prop :=
  ∀ (s : State) (slot : Word) (v : Row) (i : Instr) (op : Nat), s.car.busy = none →
    (i = .localMove ∧ op = 0) ∨ (i = .migrateOut ∧ op = 1) ∨ (i = .loadRankMap ∧ op = 2) ∨ (i = .loadPortTable ∧ op = 3) →
    let q : List (BitVec 16 × Word) := [(0, caribouQueue.setWidth 64)]
    let s1 := s.rowsRead q
    let l1 := s1.commandRow
    let s2 := s1.rowsRead l1
    let l2 := cwRow (cmdCw v) :: (if cmdOp v ≠ op ∨ op = 1 then [] else
      if op = 0 then s2.swapRows presetReach (cmdLa v) else tableRows (cmdLa v) (if op = 2 then 2048 else 512))
    let s3 := s2.rowsRead l2
    let done (t : State) : State := ((t.dropAnswers l2).dropAnswers l1).dropAnswers q
    let taken (t : State) : State := (t.take .caribou 0 caribouQueue).2
    let refused := (taken s3).cmdRefuse slot (cmdOp v) (cmdCw v) (cmdCv v)
    s.RowsHere q → s1.RowsHere l1 → s2.command = some (slot, v) → s2.RowsHere l2 → s3.command = some (slot, v) →
    s3.car.busy = none →
    let asid := cmdSpace v
    (cmdOp v ≠ op → ¬ (op = 0 ∧ 3 < cmdOp v) → exec i s = .next (done s3)) ∧
    (cmdBad v = true → cmdOp v = op ∨ (op = 0 ∧ 3 < cmdOp v) → exec i s = .next (done refused)) ∧
    (cmdBad v = false → cmdOp v = op → op < 2 → s3.quiescing asid = true → exec i s = .next (done refused)) ∧
    (cmdBad v = false → cmdOp v = op → op = 3 →
      (((taken s3).imageTable (cmdLa v) 512).bind portsOfImage = none → exec i s = .next (done refused)) ∧
      ∀ t, ((taken s3).imageTable (cmdLa v) 512).bind portsOfImage = some t →
        ∃ u, exec i s = .next u ∧ u.fab.ports = t ∧ u.fab.badPorts = []) ∧
    (cmdBad v = false → cmdOp v = op → op = 2 →
      (((taken s3).imageTable (cmdLa v) 2048).bind mapOfImage = none → exec i s = .next (done refused)) ∧
      ∀ m, ((taken s3).imageTable (cmdLa v) 2048).bind mapOfImage = some m →
        (((taken s3).fab.maps.filter fun e => e.1 != cmdJob v).length < 16 →
          ∃ u, exec i s = .next u ∧ (cmdJob v, m) ∈ u.fab.maps) ∧
        (16 ≤ ((taken s3).fab.maps.filter fun e => e.1 != cmdJob v).length → exec i s = .next (done refused))) ∧
    (cmdBad v = false → cmdOp v = op → op = 0 → s3.quiescing asid = false →
      (s3.disp.ranks.find? (fun r => r.asid = asid) = none → exec i s = .next (done refused)) ∧
      ∀ r, s3.disp.ranks.find? (fun r => r.asid = asid) = some r →
        let l3 := s3.rankRows r.vrank
        let s4 := s3.rowsRead l3
        (s4.rankHere r.vrank = false → exec i s = .next (done s4)) ∧
        (s4.rankHere r.vrank = true → s4.rankRes r.vrank ≠ 2 → exec i s = .next (done (s4.dropAnswers l3))) ∧
        (s4.rankHere r.vrank = true → s4.rankRes r.vrank = 2 →
          ∀ l, (taken s4).swapList presetReach (cmdLa v) = some l → s4.RowsHere (s4.farPages asid l) →
          let s5 := s4.rowsRead (s4.farPages asid l)
          let x := (taken s5).swapPages slot asid.toNat l
          exec i s = .next (done ((((x.1.setCold asid (listCold l)).cmdEnd (cmdCw v) (cmdCv v)
            (if x.2 then 1 else 0)).dropAnswers (s4.farPages asid l)).dropAnswers l3)))) ∧
    (cmdBad v = false → cmdOp v = op → op = 1 → s3.quiescing asid = false →
      (s3.disp.ranks.find? (fun r => r.vrank = cmdVrank v ∧ r.asid = asid) = none → exec i s = .next (done refused)) ∧
      ∀ r, s3.disp.ranks.find? (fun r => r.vrank = cmdVrank v ∧ r.asid = asid) = some r →
        let s4 := s3.rowsRead (s3.rankRows r.vrank)
        (s4.rankHere r.vrank = true → s4.rankRes r.vrank ≠ 2 →
          exec i s = .next (done (s4.dropAnswers (s3.rankRows r.vrank)))) ∧
        (s4.rankHere r.vrank = true → s4.rankRes r.vrank = 2 → ∃ u m, exec i s = .next u ∧ u.car.busy = some m ∧
          m.job = cmdJob v ∧ m.vrank = cmdVrank v ∧ m.asid = asid ∧ m.dn.toNat = bitsOf (rowWord v 1).toNat 52 12 ∧
          m.phase = 0))

/-- Binding updates, markers, arriving rows and the last flit of a migration; and the commands of the migration
engine, refused or begun. -/
def Obligations.Migration : Prop :=
  Claims.RankArrival ∧ Claims.MigrationCommands

/-! ## Dispatchers -/

/-- R289, R297, R299, R301, R302: a take. No core that is not idle takes; a core that a gang waits for is reserved for
it. Once the rows of the work in question are here, an unpinned record without an image starts on the core at its pc with a
fresh context, whose registers but the three arguments are zero (that the histogram store and the live shadow value are
among them is log 117, DESIGN CHOICE, and the tile table log 118, DESIGN CHOICE); a launch packet that fails its check is
rejected with its code, and one that passes makes a gang, of which every idle member core is reserved. -/
def Obligations.Takes : Prop :=
  ∀ (s : State) (c : Nat),
    (s.coreIdle c = false → exec (.dispatchTake c) s = .next s ∧ exec (.launchPacketTake c) s = .next s) ∧
    (∀ g, s.coreIdle c = true → s.gangFor c = some g → exec (.launchPacketTake c) s = .next s ∧
      ((s.core c).open_ = false → exec (.dispatchTake c) s = .next s) ∧
      ((s.core c).open_ = true → ∃ u, exec (.dispatchTake c) s = .next u ∧ OnlyCore c s { u with disp := s.disp } ∧
        (u.core c).held = some g.ident)) ∧
    (s.coreIdle c = true → s.gangFor c = none → s.RowsHere s.workRows →
      let ready := ((s.rowsRead s.workRows).prepare (c / 50)).replayStops (c / 50)
      (∀ g a rec s2 r, ready.choose c = some (g, .record a rec, s2) → (s.core c).strand = none →
        ((s.rowsRead s.workRows).core c).strand = none → ready.RowsHere (ready.imageAt g.asid rec) →
        let t := (s2.rowsRead (ready.imageAt g.asid rec)).reloadSeqs g.vrank
        t.hubRead g.asid rec = some r → fld (rowWord r 4) 62 2 = 0 → (t.core c).strand = none →
        t.disp.images.find? (fun e => e.1 = g.asid ∧ e.2.1 = rec) = none →
        ∃ u x, exec (.dispatchTake c) s = .next u ∧ (u.core c).strand = some x ∧ x.record = rec ∧
          x.vrank = g.vrank ∧ x.asid = g.asid ∧ x.pin = 0 ∧ (u.core c).prog.run = .running ∧
          (u.core c).prog.pc = alignPc ((rowWord r 0).setWidth 48) ∧ (u.core c).prog.asid = g.asid ∧
          (u.core c).prog.vrank = g.vrank ∧
          (u.core c).prog.s = [(1, rowWord r 5), (2, rowWord r 6), (3, rowWord r 7)] ∧ (u.core c).px = {}) ∧
      ∀ g age v s2 e, ready.choose c = some (g, .launch age v, s2) → g.eff = some e →
        let l := ready.launchRows g.asid v
        ready.RowsHere l →
        let t1 := ((s2.rowsRead l).dropLaunch g age).traceTake g 0 0xFFFFFFFF
        (∀ code, t1.launchCheck g e v = .error code → exec (.launchPacketTake c) s =
          .next (((t1.rejectLaunch (c / 50) g code).dropAnswers l).dropAnswers s.workRows)) ∧
        ∀ x, t1.launchCheck g e v = .ok x → (∀ y ∈ t1.disp.gangs, y.ident < t1.disp.nextGang) →
          ∃ u, exec (.launchPacketTake c) s = .next u ∧ u.disp.nextGang = t1.disp.nextGang + 1 ∧
            ∃ y ∈ u.disp.gangs, y.ident = t1.disp.nextGang ∧ y.cores = launchCores v ∧ y.img = rowWord v 0 ∧
              y.asid = g.asid ∧ y.vrank = g.vrank ∧ y.loaded = false ∧ y.released = false)

/-- R252, R299: a gang. Once every member core is reserved it asks for their partitions, and once they have them and the rows
of its image and rank are here it is loaded, and gets a release time that is a multiple of 5 ns (log 60, DESIGN CHOICE); at
that time every loaded member that is still held back begins to run. A partition change waits for the core's transfers and
bindings, keeps rows only of the same address space, and where the partition grows writes home the core's dirty lines that
lie in the rows it gains, in one event (log 49, DESIGN CHOICE). -/
def Obligations.Gangs : Prop :=
  ∀ (s : State) (n : Nat) (g : Gang), s.findGang n = some g →
    (g.loaded = true → exec (.gangReservationComplete n) s = .next s) ∧
    (g.loaded = false → ∀ g1,
      let s1 := g.cores.foldl State.reserve s
      s1.findGang n = some g1 →
      ((∃ c ∈ g1.cores, c ∉ g1.got) → exec (.gangReservationComplete n) s = .next s1) ∧
      ((∀ c ∈ g1.cores, c ∈ g1.got) → g1.asked = false → ∃ u, exec (.gangReservationComplete n) s = .next u ∧
        (∃ y ∈ u.disp.gangs, y.ident = n ∧ y.asked = true) ∧
        ∀ c ∈ g1.cores, (u.core c).sp.part = 8192 * g1.part ∨ (u.core c).repart = some (8192 * g1.part)) ∧
      ((∀ c ∈ g1.cores, c ∈ g1.got) → g1.asked = true → (∃ c ∈ g1.cores, (s1.core c).repart ≠ none) →
        exec (.gangReservationComplete n) s = .next s1) ∧
      ((∀ c ∈ g1.cores, c ∈ g1.got) → g1.asked = true → (∀ c ∈ g1.cores, (s1.core c).repart = none) →
        let t := g1.codeVas.foldl (fun s va => s.touchAs .fetch g1.asid va) s1
        let l := t.rankRows g1.vrank ++ t.regionRows g1.asid g1.vrank g1.rcb
        (∀ va ∈ g1.codeVas, t.rowReadyAs .fetch g1.asid va = true) → t.RowsHere l → (t.rowsRead l).rankHere g1.vrank = true →
        ∃ u, exec (.gangReservationComplete n) s = .next u ∧ ∃ y ∈ u.disp.gangs, y.ident = n ∧ y.loaded = true ∧
          y.relTime % 5 = 0 ∧ s.hub.gtime + 64 ≤ y.relTime)) ∧
    (s.hub.gtime < g.relTime → exec (.gangRelease n) s = .next s) ∧
    (g.loaded = true → g.released = false → g.relTime ≤ s.hub.gtime →
      ∃ u, exec (.gangRelease n) s = .next u ∧ (∀ y ∈ u.disp.gangs, y.ident = n → y.released = true) ∧
        ∀ c, (u.core c).prog = if c ∈ g.cores ∧ (s.core c).prog.run = .idle ∧
            ((s.core c).strand.bind fun t => t.gang) = some n then { (s.core c).prog with run := .running }
          else (s.core c).prog) ∧
    ∀ c P, (s.core c).repart = some P →
      let busy := (s.core c).xfers ≠ [] ∨ ∃ b ∈ s.binds, b.core = c ∧ b.image = none
      (busy → exec (.partitionChange c) s = .next s) ∧
      (¬ busy → ∃ u, exec (.partitionChange c) s = .next u ∧ OnlyCore c { s with mem := u.mem } u ∧
        (u.core c).sp.part = P ∧ (u.core c).repart = none ∧
        u.mem = (if (s.core c).sp.part < P then (s.coreLines c (s.core c).sp.part P).foldl Mem.writeBack s.mem else s.mem) ∧
        ∀ i, (u.core c).sp.row i = if (s.core c).lastAsid = some (s.partAsid (s.core c)) ∧ 64 * i < P
          then (s.core c).sp.row i else 0)

/-- R6, R284, R303, R305, R306, R330, R373, R450: pre-emption for a waiting record, on any die; the stages of a step
boundary, once the rows of the rank's work are here, where only a rank with a move to make waits at res 2, and one that left
pages cold, or finds 32 ranks active, does not open its step; pinned strands go on as log 51 (DEDUCED) says; packets held
for a full queue; and an announced region block, whose effective values and those of the blocks below it are found anew. -/
def Obligations.DispatcherEvents : Prop :=
  ∀ (s : State),
    (∀ die g rest rec a tm r c, let w := s.workRows
      let t := s.rowsRead w
      s.RowsHere w → t.disp.regions = g :: rest → (∀ h ∈ rest, h.ready = []) → t.serves g = true → g.ready = [(rec, a, tm)] →
      tm + 10000 ≤ t.hub.gtime → (∀ c ∈ allCores, t.coreIdle c = false) → t.hubRead g.asid rec = some r →
      fld (rowWord r 4) 62 2 = 0 → t.victim g allCores = some c →
      ((t.core c).strand.bind fun t => t.gang) = none →
      exec (.readyWaitPreemption die) s =
        .next (((t.setCore c { t.core c with preempt := true }).actStops c).dropAnswers w)) ∧
    (∀ r : Rank, s.disp.ranks.find? (fun x => x.vrank = r.vrank) = some r →
      let v := r.vrank
      let w := s.boundaryRows r
      let t := s.rowsRead w
      let ended (t : State) : State :=
        if t.mayActivate r then
          let t1 := ((t.setRes v 0).setRank { r with phase := 0, bound := [] }).openStepRecords r
          (t1.pinnedCores r).foldl State.reissue t1
        else (t.setRes v 1).setRank { r with phase := 3 }
      s.RowsHere w →
      (t.rankHere v = false ∨ t.rankRes v = 3 → exec (.stepBoundary v) s = .next (t.dropAnswers w)) ∧
      (t.rankHere v = true →
        (r.phase = 0 → t.rankRes v ≠ 3 → ¬ (t.rankRes v = 0 ∧ (t.prepare 0).atBoundary r = true) →
          exec (.stepBoundary v) s = .next ((t.prepare 0).dropAnswers w)) ∧
        (r.phase = 0 → t.rankRes v = 0 → (t.prepare 0).atBoundary r = true →
          ∃ u, exec (.stepBoundary v) s = .next u ∧ ∃ y ∈ u.disp.ranks, y.vrank = v ∧ y.phase = 1 ∧ y.stepped = false) ∧
        (r.phase = 1 → t.rankRes v ≠ 3 → (∃ c ∈ allCores, (t.core c).toSave = true ∧ c ∈ t.pinnedCores r) →
          exec (.stepBoundary v) s = .next (t.dropAnswers w)) ∧
        (r.phase = 1 → t.rankRes v ≠ 3 → (∀ c ∈ allCores, (t.core c).toSave = true → c ∉ t.pinnedCores r) →
          let s1 := t.setRankWord v 2 (t.rankWord v 2 + 1)
          let s2 := s1.setRankWord v 3 (BitVec.ofNat 64 (bitsOf (t.rankWord v 3).toNat 0 32))
          exec (.stepBoundary v) s =
            .next ((if t.moving r then (s2.setRes v 2).setRank { r with phase := 2 } else ended s2).dropAnswers w)) ∧
        (r.phase = 2 → t.rankRes v ≠ 3 →
          exec (.stepBoundary v) s = .next ((if t.moving r then t else ended t).dropAnswers w)) ∧
        (2 < r.phase → t.rankRes v ≠ 3 → exec (.stepBoundary v) s =
          .next ((if t.moving r then (t.setRes v 2).setRank { r with phase := 2 }
            else if t.mayActivate r then ended t else t).dropAnswers w)))) ∧
    (∀ h rest, s.disp.holds = h :: rest →
      let va : Addr := (rowWord h.2.2 0).setWidth 48
      let l : List (BitVec 16 × Word) := [(h.1, va.setWidth 64)]
      let t := s.rowsRead l
      let gone (t : State) : State := { t with disp := { t.disp with holds := t.disp.holds.eraseIdx 0 } }
      s.RowsHere l →
      ((∃ r, t.hubRead h.1 va = some r ∧ recSt r = 6) → exec (.readyPacketReclaim 0) s = .next ((gone t).dropAnswers l)) ∧
      ((∀ r, t.hubRead h.1 va = some r → recSt r ≠ 6) → ∀ a u, t.append .queueController h.1 h.2.1 h.2.2 none = (a, u) →
        (∀ i, a = .done i → exec (.readyPacketReclaim 0) s = .next (((gone u).setAge h.1 va i).dropAnswers l)) ∧
        ((∀ i, a ≠ .done i) → exec (.readyPacketReclaim 0) s = .next (u.dropAnswers l)))) ∧
    ∀ v : Word, ∃ u, exec (.regionAnnounce v) s = .next u ∧
      let asid := bitsOf v.toNat 48 16
      let rcb := 128 * bitsOf v.toNat 7 41
      let below (g : Region) : Prop := g.asid.toNat = asid ∧ (g.rcb.toNat = rcb ∨ ∃ e ∈ g.chain, e.1.toNat = rcb)
      u = { s with disp := { s.disp with regions := u.disp.regions } } ∧
      (∀ g ∈ u.disp.regions, below g → g.eff = none ∧ g.err = false ∧ (g.rcb.toNat = rcb → g.again = true)) ∧
      (∀ g ∈ s.disp.regions, ¬ below g → g ∈ u.disp.regions) ∧
      ((∃ r ∈ s.disp.ranks, r.asid.toNat = asid) → ∃ g ∈ u.disp.regions, g.asid.toNat = asid ∧ g.rcb.toNat = rcb)

/-! ## Base dies and registers of the module -/

/-- R141, R145 to R149, R245, R322: posted operations. One that its way holds back waits; one that it does not is performed at
its home: a row or word store replaces it, an atomic combines; one homed on another module is sent there and stays until it
is acknowledged. An ordered add of the open step that is in turn is applied and its sequence moves on, one ahead of its turn
is held without effect, in the rank's spill area where 4,096 are held at its stack, and one out of order marks its sequence, as
does one that finds the area full; one of a closed step is reported with detail 0 (log 35, DEDUCED) and dropped. (Rows that a region load or a recovery still concerns are
set apart.) -/
def Claims.PostedOperations : Prop :=
  ∀ (s : State) (i : Nat),
    (∀ p, s.mem.posted[i]? = some p →
      (s.mem.wayFree p.way = false → exec (.memsideOperation i) s = .next s) ∧
      (∀ o, p.out = some o → s.mem.wayFree p.way = true →
        (p.stage ≠ 0 → exec (.memsideOperation i) s = .next s) ∧
        (p.stage = 0 → ∃ u, exec (.memsideOperation i) s = .next u ∧ MemoryKept s u ∧
          u.mem.posted = s.mem.posted.set i
            { p with stage := if p.op = .store ∧ p.ek ≠ 0 ∧ (p.word ≠ 16 ∨ p.mask ≠ 0) then 1 else 2 })) ∧
      (p.out = none → s.mem.wayFree p.way = true → isHubRow p.row = false → s.mem.bad.contains p.row = false →
        s.mem.stalls (64 * p.row) = false →
        let pa := (if p.w32 then 4 else 8) * p.word
        let old := rowElem p.w32 (s.mem.home p.row) pa
        let new := if p.word = 16 ∧ p.w32 = false then s.mem.encipher p.ek p.row p.rowVal
          else if p.op = .store then
            s.mem.encipher p.ek p.row (setRowWord (s.mem.decipher p.ek p.row (s.mem.home p.row)) (pa / 8 % 8) p.val)
          else setRowElem p.w32 (s.mem.home p.row) pa
            (atomicOp p.op (elemBits p.w32) old p.val.toNat p.rowVal.toNat)
        ∃ u, exec (.memsideOperation i) s = .next u ∧ u.mem.posted = s.mem.posted.eraseIdx i ∧
          u.mem.latest p.row = new ∧ u.mem.home p.row = new ∧ MemoryKeptBut p.row s u)) ∧
    ∀ x, s.mem.adds[i]? = some x →
      (s.mem.wayFree x.way = false → exec (.orderedAddArrival i) s = .next s) ∧
      (s.mem.wayFree x.way = true →
        let l := s.rankRows x.vrank
        let s1 := s.rowsRead l
        let t0 : State := { s1 with mem := { s1.mem with adds := s1.mem.adds.eraseIdx i } }
        let t := if t0.resident x.vrank then t0.reloadSeqs x.vrank else t0
        (s1.rankHere x.vrank = false → exec (.orderedAddArrival i) s = .next s1) ∧
        (s1.rankHere x.vrank = true → x.stepNo ≠ t.openStep x.vrank → exec (.orderedAddArrival i) s =
          .next ((t.raiseMc ⟨0x05, BitVec.ofNat 8 x.stack, x.vrank, x.va.setWidth 64, 0⟩).dropAnswers l)) ∧
        (s1.rankHere x.vrank = true → x.stepNo = t.openStep x.vrank → ∀ q : OrdSeq,
          t.mem.seqs.find? (fun q => q.same x) = some q ∨
            ((∀ q ∈ t.mem.seqs, q.same x = false) ∧ q =
              { stack := x.stack, vrank := x.vrank, va := x.va, pa := x.pa, w := x.w, k := x.k, next := 0, err := false,
                held := [], spilled := [], node := x.node }) →
          (x.q < q.next ∨ q.held.any (fun e => e.1 = x.q) = true →
            ∃ u, exec (.orderedAddArrival i) s = .next u ∧ MemoryKept t u ∧ { q with err := true } ∈ u.mem.seqs) ∧
          (q.next < x.q → q.held.any (fun e => e.1 = x.q) = false → q.held.any (fun e => e.1 = q.next) = false →
            t.mem.heldAdds x.stack < 4096 →
            ∃ u r, exec (.orderedAddArrival i) s = .next u ∧ u.mem.adds = t.mem.adds ∧ MemoryKept t u ∧
              r ∈ u.mem.seqs ∧ r.same x = q.same x ∧ r.next = q.next ∧ r.held = q.held ++ [(x.q, x.op)] ∧ r.err = q.err) ∧
          (q.next < x.q → q.held.any (fun e => e.1 = x.q) = false → 4096 ≤ t.mem.heldAdds x.stack →
            t.resident x.vrank = true →
            (t.spill x.vrank q x.q x.op = none →
              ∃ u, exec (.orderedAddArrival i) s = .next u ∧ MemoryKept t u ∧ { q with err := true } ∈ u.mem.seqs) ∧
            ∀ n t', t.spill x.vrank q x.q x.op = some (n, t') →
              ∃ u r, exec (.orderedAddArrival i) s = .next u ∧ MemoryKept t' u ∧ r ∈ u.mem.seqs ∧ r.next = q.next ∧
                r.held = q.held ++ [(x.q, x.op)] ∧ r.spilled = q.spilled ++ [(x.q, n)]) ∧
          (x.q = q.next → (∀ e ∈ q.held, e.1 ≠ x.q ∧ e.1 ≠ x.q + 1) → (∀ e ∈ q.spilled, e.1 ≠ x.q) →
            isHubRow (q.pa / 64) = false → t.mem.bad.contains (q.pa / 64) = false → t.mem.stalls q.pa = false →
            let old := rowElem q.w (t.mem.home (q.pa / 64)) q.pa
            ∃ u r, exec (.orderedAddArrival i) s = .next u ∧ u.mem.adds = t.mem.adds ∧
              u.mem.latest (q.pa / 64) = setRowElem q.w (t.mem.home (q.pa / 64)) q.pa
                (atomicOp (if q.k then .afadd else .aadd) (elemBits q.w) old x.op.toNat 0) ∧
              MemoryKeptBut (q.pa / 64) t u ∧ r ∈ u.mem.seqs ∧ r.next = q.next + 1 ∧ r.held = q.held)))

/-- R209, R338 to R340: a reduction engine waits for the earlier identifiers of its channel, combines the rows of its oldest
block lane by lane, and at the end the block's identifier is no longer outstanding. -/
def Claims.ReductionRun : Prop :=
  (∀ (s : State) (stack : Nat) (b : RedBlock) (x : Xfer),
    s.mem.red.find? (fun b => b.stack = stack) = some b → s.findXfer b.core b.fw b.chan b.ident = some x →
    (s.held b.core x = true → exec (.reductionBlockRun stack) s = .next s) ∧
    (s.held b.core x = false →
      let n := bitsOf (dw b.words 0).toNat 0 26
      (x.pos < n → exec (.reductionBlockRun stack) s = .next (s.reduceOne b x)) ∧
      (n ≤ x.pos → x.posted ≠ 0 → exec (.reductionBlockRun stack) s = .next s) ∧
      (n ≤ x.pos → x.posted = 0 → x.index = [] → b.rl = false → dw b.words 2 = 0 →
        exec (.reductionBlockRun stack) s = .next (s.setXfer b.core { x with index := [1] })) ∧
      (n ≤ x.pos → x.posted = 0 → x.index ≠ [] → b.rl = false →
        (∀ e ∈ ((s.core b.core).ctx b.fw).chans, e.2.trigs = []) →
        ∃ u, exec (.reductionBlockRun stack) s = .next u ∧ b ∉ u.mem.red ∧
          u.findXfer b.core b.fw b.chan b.ident = none))) ∧
  ∀ (el w : Nat) (signed : Bool) (rows : List Row), elemOf el = .int signed w → 0 < rows.length → rows.length ≤ 8 →
    LanesAre w (512 / w) (reduceRow el 0 rows).1 fun i => (rows.map fun v => lane w v i).sum % 2 ^ w

/-- A posted operation is performed at its home in its way; ordered adds apply in turn; a reduction block advances row
by row and completes. -/
def Obligations.BaseDieOperations : Prop :=
  Claims.PostedOperations ∧ Claims.ReductionRun

/-- R236, R251, R334, R343 to R345, R378, R401: a parity difference reaches its parity row; an uncorrectable row is rebuilt from
its group, or poisoned and reported where it has no group and no copy or another row of the group fails too; a DRAM row's
fourth corrected error enters a remap in all three tables, and a reload copies the authoritative one; a write reaches an
agent, behind every write that it must not overtake (R236), and by log 49 (DESIGN CHOICE) at a time of its own; a dirty
row is written back. -/
def Obligations.BaseDieEvents : Prop :=
  ∀ (s : State) (r : Nat),
    (∀ i p v, s.mem.diffs[i]? = some (p, v) → ∃ u, exec (.parityDifferenceApply i) s = .next u ∧
      u.mem.diffs = s.mem.diffs.eraseIdx i ∧ u.mem.home p = s.mem.home p ^^^ v ∧
      ∀ q, q ≠ p → u.mem.home q = s.mem.home q) ∧
    (s.Reported →
      let failing (i : Nat) : Prop := i ∈ s.mem.bad ∨ i ∈ s.mem.uncorr
      let poisoned : State := ({ s with mem :=
        { s.mem with uncorr := removeNat s.mem.uncorr r, bad := insertNat s.mem.bad r } } : State).raiseMc
          ⟨0x01, BitVec.ofNat 8 (s.mem.stackOf (64 * r)), 0, BitVec.ofNat 64 (64 * r), 0⟩
      (∀ g, s.mem.group r = some g → (∀ d ∈ s.mem.diffs, d.1 ∉ g) →
        let others := g.filter fun i => i ≠ r
        let place := s.mem.dramPlace r
        ((∃ i ∈ others, failing i) → exec (.uncorrectableRead r) s = .next poisoned) ∧
        ((∀ i ∈ others, ¬ failing i) → (Tab.get [] s.mem.remapM (2 * place.1 + place.2.1)).length < 64 →
          ∃ u, exec (.uncorrectableRead r) s = .next u ∧ r ∉ u.mem.bad ∧ r ∉ u.mem.uncorr ∧
            u.mem.home r = others.foldl (fun v i => v ^^^ s.mem.home i) 0)) ∧
      (s.mem.group r = none → ∀ c, s.mem.copyRow r = some c →
        let place := s.mem.dramPlace r
        (failing c → exec (.uncorrectableRead r) s = .next poisoned) ∧
        (¬ failing c → (Tab.get [] s.mem.remapM (2 * place.1 + place.2.1)).length < 64 →
          ∃ u, exec (.uncorrectableRead r) s = .next u ∧ r ∉ u.mem.bad ∧ r ∉ u.mem.uncorr ∧ u.mem.home r = s.mem.home c)) ∧
      (s.mem.group r = none → s.mem.copyRow r = none → exec (.uncorrectableRead r) s = .next poisoned)) ∧
    (∀ ch ps bank row, let k := 2 * ch + ps
      let n := (Tab.get [] s.mem.remapM k).length
      let count := Tab.get 0 s.mem.corrected (dramNumber ch ps bank row)
      (count < 4 → exec (.rowRemap ch ps bank row) s = .next s) ∧
      (4 ≤ count → n < 64 → s.Reported → ∃ u, exec (.rowRemap ch ps bank row) s = .next u ∧
        ∀ t ∈ [u.mem.remapA, u.mem.remapB, u.mem.remapM], let e := (Tab.get 0 (Tab.get [] t k) n).toNat
          bitsOf e 31 1 = 1 ∧ bitsOf e 30 1 = 0 ∧ bitsOf e 26 4 = bank % 16 ∧ bitsOf e 10 16 = row % 65536 ∧
          bitsOf e 6 4 = 0 ∧ bitsOf e 0 6 = n)) ∧
    (∀ ch ps, ps < 2 → ∃ u, exec (.remapTableReload ch) s = .next u ∧
      Tab.get [] u.mem.remapA (2 * ch + ps) = Tab.get [] s.mem.remapM (2 * ch + ps) ∧
      Tab.get [] u.mem.remapB (2 * ch + ps) = Tab.get [] s.mem.remapM (2 * ch + ps) ∧
      u.mem.remapM = s.mem.remapM ∧ ∀ e ∈ u.mem.sramBad, e.1 ≠ ch) ∧
    (∀ n a w, s.mem.log.find? (fun w => w.ident = n) = some w →
      (s.mayReach w a = false → exec (.writeReachesAgent n a) s = .next s) ∧
      (s.mayReach w a = true → ∃ u, exec (.writeReachesAgent n a) s = .next u ∧ MemoryKept s u ∧
        (∃ x ∈ u.mem.log, x.ident = n ∧ x.row = w.row ∧ x.val = w.val ∧ ∃ p ∈ x.reached, p.1 = a) ∧
        ∀ y ∈ s.mem.log, s.reaches y a = false → y.known = true →
          ∃ x ∈ u.mem.log, x.ident = y.ident ∧ u.reaches x a = true)) ∧
    (((s.mem.recs r).all fun w => !w.dirty) = true → exec (.cacheLineWriteBack r) s = .next s) ∧
    (∀ w, (s.mem.recs r).find? (fun w => w.dirty) = some w → r ∉ s.mem.uncorr → ∃ u, exec (.cacheLineWriteBack r) s = .next u ∧
      u.mem.home r = w.val ∧ u.mem.latest r = w.val ∧ ∀ a, a / 64 ≠ r → u.mem.byte a = s.mem.byte a) ∧
    ∀ asid, (s.quiescing asid = false → exec (.quiesceRecordUpdate asid) s = .next s) ∧
      ∀ q, s.quiescing asid = true → s.hubRead 0 (quiesceVa asid) = some q →
        (∃ j, ∃ n ∈ (s.quiesceCounts asid)[j]?, n < bitsOf (rowWord q (j + 1)).toNat 0 32 ∧ j < 6) →
        exec (.quiesceRecordUpdate asid) s = .next (s.writeRecord asid (bitsOf (rowWord q 0).toNat 0 32))

/-- R145, R324, R332, R333, R335, R397, R439: writes of registers that reach the whole module. A firmware request is ORed in and is
event 0x25 where the word was zero; the ramp limits are clamped; the last tweak word installs both keys at once; a
region table with an error is not loaded, and a load fills the parity part of a parity region and the rows of a clean copy. -/
def Obligations.ModuleRegisters : Prop :=
  ∀ (s : State) (c : Nat) (v : Word),
    (c < 200 → ∀ cmp, let old := Tab.get 0 s.hub.freq c
      ∃ u, exec (.firmwareRequestWord c .store v cmp) s = .next u ∧ Tab.get 0 u.hub.freq c = old ||| v ∧
        ((u.core c).fx.events = if old = 0 ∧ v ≠ 0 then (s.core c).fx.events ++ [⟨0x25, v.setWidth 32, 0⟩]
          else (s.core c).fx.events)) ∧
    (∃ u, exec (.rampWordWrite v) s = .next u ∧ u.hub.up = max 1 (min 400 (bitsOf v.toNat 0 11)) ∧
      u.hub.dn = max 1 (min 400 (bitsOf v.toNat 32 11)) ∧ (s.hub.gtime / 1000 ≤ s.hub.capAt → u.hub.cap = s.hub.cap) ∧ u.mem = s.mem ∧ u.cores = s.cores) ∧
    (let x := (s.core c).fx
     let w (j : Nat) : Word := Tab.get 0 x.tkeys j
     (x.tkix ≠ 0 → ∃ u, exec (.tkey7Write c v) s = .next u ∧
      Tab.get (0, 0) u.mem.keys x.tkix.toNat = (w 3 ++ w 2 ++ w 1 ++ w 0, v ++ w 6 ++ w 5 ++ w 4) ∧
      ∀ k, k ≠ x.tkix.toNat → Tab.get (0, 0) u.mem.keys k = Tab.get (0, 0) s.mem.keys k) ∧
     (x.tkix = 0 → ∃ u, exec (.tkey7Write c v) s = .next u ∧ u.mem = s.mem ∧ (u.core c).fx.tkeys = [])) ∧
    (let pa := (v &&& 0xFFFFFFFFE00).toNat
     let es := (List.range 32).map fun i => regionOf (s.mem.word (pa + 16 * i)) (s.mem.word (pa + 16 * i + 8))
     let refused := (∃ e ∈ es, e.2 = true) ∨ regionsApart (es.map fun e => e.1) = false
     (refused → ∃ u, exec (.tregWrite c v) s = .next u ∧ u.mem = { s.mem with treg := u.mem.treg, tregErr := true }) ∧
     (¬ refused → ∃ u, exec (.tregWrite c v) s = .next u ∧ u.mem.tregErr = false ∧
      u.mem.regionsIn = some (es.map fun e => e.1) ∧ u.mem.cells = s.mem.cells)) ∧
    (s.mem.regionsIn = none → exec .regionTableLoadComplete s = .next s) ∧
    ∀ l, s.mem.regionsIn = some l → ∃ u, exec .regionTableLoadComplete s = .next u ∧ u.mem.regionsIn = none ∧
      u.mem.regions = l.filter (fun e => e.kind ≠ 0) ∧ u.cores = s.cores ∧
      ∀ e, l = [e] → s.Canonical → let S := e.size * 0x200000
        (e.kind = 1 → (∀ k, k < S → u.mem.byte (e.base + 7 * S + k) =
            (List.range 7).foldl (fun v i => v ^^^ s.mem.byte (e.base + i * S + k)) 0) ∧
          ∀ a, ¬ (e.base + 7 * S ≤ a ∧ a < e.base + 8 * S) → u.mem.byte a = s.mem.byte a) ∧
        (e.kind = 2 → (∀ k, k < S → u.mem.byte (e.base + k) = s.mem.byte (e.copy + k)) ∧
          ∀ a, ¬ (e.base ≤ a ∧ a < e.base + S) → u.mem.byte a = s.mem.byte a)

/-! ## Hub and ports -/

/-- R250, R272, R422, R438 to R442: power. Power-up advances the boot counter once per input cycle; a trip or the loss of the
input turns everything off but the counter in OTP and what was made durable in the capacity tier, and a module that tripped does not start again before its input is
cycled (what the loss leaves is log 13, DESIGN CHOICE, and values at power-up that no rule gives are log 11, DESIGN CHOICE);
the ceiling steps once for each microsecond of global time by the ramp words (log 112, DEDUCED), and before a temperature
changes; a window boundary brings the core to its next window. -/
def Claims.PowerEvents : Prop :=
  ∀ (s : State),
    let kept := s.mem.durable
    let offBut (u : State) (t : Bool) : Prop :=
      u.mem = (let m := State.reset.mem; { m with cells := kept, durable := kept }) ∧ u.cores = [] ∧ u.hub.bst = 0 ∧
      u.hub.started = false ∧ u.hub.otp = s.hub.otp ∧ u.hub.tripped = t
    (s.hub.started = false → s.hub.tripped = false → ∃ u, exec .powerUp s = .next u ∧ u.hub.started = true ∧
      u.hub.bctr = Config.otpCounter + s.hub.otp ∧ u.hub.otp = s.hub.otp + 1 ∧ u.hub.portA.up = true ∧
      u.hub.portB.up = true ∧ u.hub.treeReady = false ∧ u.cores = []) ∧
    (s.hub.started = true ∨ s.hub.tripped = true → exec .powerUp s = .next s) ∧
    (∃ u, exec .inputPowerLoss s = .next u ∧ offBut u false) ∧
    (s.hub.started = true → ∃ u, exec .powerTrip s = .next u ∧ offBut u true) ∧
    (∀ hot air, s.hub.started = true →
      (110 ≤ hot.toNat ∨ 50 < air.toNat → ∃ u, exec (.temperatureUpdate hot air) s = .next u ∧ offBut u true) ∧
      (hot.toNat < 110 → air.toNat ≤ 50 → ∃ u, exec (.temperatureUpdate hot air) s = .next u ∧
        u = { s with hub := { s.hub with tmax := hot, tin := air, cap := u.hub.cap, capAt := u.hub.capAt } } ∧
        (s.hub.gtime / 1000 ≤ s.hub.capAt → u.hub.cap = s.hub.cap))) ∧
    (s.hub.started = false ∨ s.hub.gtime / 1000 ≤ s.hub.capAt → exec .thermalCapAdjust s = .next s) ∧
    (s.hub.started = true → s.hub.capAt < s.hub.gtime / 1000 → ∃ u, exec .thermalCapAdjust s = .next u ∧
      u = { s with hub := { s.hub with cap := u.hub.cap, capAt := s.hub.capAt + 1 } } ∧
      (95 ≤ s.hub.tmax.toNat → u.hub.cap = s.hub.cap - s.hub.dn) ∧
      (s.hub.tmax.toNat ≤ 90 → u.hub.cap = min 1600 (s.hub.cap + s.hub.up)) ∧
      (90 < s.hub.tmax.toNat → s.hub.tmax.toNat < 95 → u.hub.cap = s.hub.cap)) ∧
    ∀ c, (s.core c).fw.run ≠ .off → ∃ u, exec (.limiterWindowBoundary c) s = .next u ∧ OnlyCore c s u ∧
      (u.core c).cycle = ((s.core c).cycle / 1600 + 1) * 1600 ∧ (u.core c).lim.beats = 0 ∧
      (u.core c).prog = (s.core c).prog ∧ (u.core c).fw = (s.core c).fw

/-- R445, R446: global time. A change of reference to a node, the lowest in reach as log 110 (DEDUCED) has it, keeps the
module's time and makes it unsettled where it is more than 50 ns off; a module that is its own reference is off by 0; it is
settled again once within 50 ns, and not before; the identity tree becomes ready once. -/
def Claims.TimeAndIdentity : Prop :=
  ∀ (s : State),
    (∀ r x, s.hub.started = true → s.hub.linked = true → s.hub.ref ≠ r → (s.hub.node = 0 ∨ r.toNat < s.hub.node.toNat →
        exec (.referenceChange r x) s =
          .next { s with hub := { s.hub with ref := r, off := x, uns := decide (50 < x.natAbs) } }) ∧
      (s.hub.node ≠ 0 → r = s.hub.node → exec (.referenceChange r x) s =
        .next { s with hub := { s.hub with ref := r, off := 0, uns := false } }) ∧
      (s.hub.node ≠ 0 → s.hub.node.toNat < r.toNat → exec (.referenceChange r x) s = .next s)) ∧
    (s.hub.uns = false ∨ 50 < s.hub.off.natAbs → exec .timeReferenceSettled s = .next s) ∧
    (s.hub.uns = true → s.hub.off.natAbs ≤ 50 →
      exec .timeReferenceSettled s = .next { s with hub := { s.hub with uns := false } }) ∧
    (s.hub.started = true → s.hub.treeReady = false → ∃ u, exec .identityTreeReady s = .next u ∧
      (s.hub.heldAttests = [] → u.hub = { s.hub with treeReady := true })) ∧
    (s.hub.treeReady = true → exec .identityTreeReady s = .next s)

/-- Power-up, trips and the loss of input power, the thermal ceiling, the limiter window; a reference change and its
settling; the identity tree. -/
def Obligations.PowerAndTime : Prop :=
  Claims.PowerEvents ∧ Claims.TimeAndIdentity

/-- R424 to R426: boot. A commit after the image has been staged verifies it first: a refused image is answered with 8 and
leaves the module waiting for another; a good one is measured and then loaded, and every core's firmware starts at
its entry, with the node number in force. -/
def Claims.Boot : Prop :=
  ∀ (s : State) (m : PortMsg), s.hub.commit = some m → m.arg = 0 →
    let i := imageOf s.hub.stage s.hub.staged
    (s.hub.bst = 2 → imageRefused s.hub.stage i = true →
      ∃ u, exec (.commitBoot m) s = .next u ∧ u.hub.bst = 5 ∧ u.hub.commit = none ∧ u.cores = s.cores ∧ u.mem = s.mem) ∧
    (s.hub.bst = 2 → imageRefused s.hub.stage i = false → exec (.commitBoot m) s = .next { s with hub :=
      { s.hub with bst := 3, curm := Config.sha256 (signedPart s.hub.stage i) } }) ∧
    (s.hub.bst = 3 → ∃ u, exec (.commitBoot m) s = .next u ∧ u.hub.bst = 4 ∧ u.hub.commit = none ∧
      u.hub.tnode = s.hub.node ∧ u.mem.tatb = 0 ∧
      (∀ c, c < 200 → (u.core c).fw.run = .running ∧ (u.core c).fw.pc.toNat = i.entry % 2 ^ 48 ∧
        (u.core c).prog.run = .idle ∧ (u.core c).fw.inh = false) ∧
      ∀ k, k < i.blen → i.blen ≤ 2 ^ 26 → u.mem.byte (0x8000000 + k) = Tab.get 0 s.hub.stage (128 + k))

/-- R427 to R430: live hand-over. A refused image ends it with state 4; a good one is copied to its frames and every live
core hears event 0x23; a core that has handed over is counted once, and the last one makes the new measurement
current; cores that have not by the timeout are switched by the hub. A core that hands over goes to the entry of the image that
is being handed over (log 108, DEDUCED). -/
def Claims.HandOver : Prop :=
  ∀ (s : State) (m : PortMsg),
    let i := imageOf s.hub.stage2 s.hub.staged2
    (s.hub.commit = some m → m.arg = 1 →
      (imageRefused s.hub.stage2 i = true → ∃ u, exec (.commitHandOver m) s = .next u ∧ u.hub.hos = 4 ∧
        u.hub.incm = 0 ∧ u.hub.commit = none ∧ u.mem = s.mem ∧ u.cores = s.cores) ∧
      (imageRefused s.hub.stage2 i = false → inHbm s.hub.hofr.toNat i.blen = true ∨
          inTier s.hub.hofr.toNat i.blen = true → s.liveCores ≠ [] →
        ∃ u, exec (.commitHandOver m) s = .next u ∧ u.hub.hos = 2 ∧ u.hub.hotg = s.liveCores.length ∧ u.hub.hocn = 0 ∧
          u.hub.incm = Config.sha256 (signedPart s.hub.stage2 i) ∧ u.hub.commit = none ∧
          ∀ c ∈ s.liveCores, (u.core c).fx.events = (s.core c).fx.events ++ [⟨0x23, 2, 0⟩])) ∧
    (∀ c v, c < 200 → bitsOf v.toNat 0 8 = c →
      (s.hub.hos = 2 → (s.core c).handed = false → (s.core c).fw.run ≠ .stopped →
        (s.hub.hocn + 1 < s.hub.hotg → ∃ u, exec (.hodone c v) s = .next u ∧ u.hub.hocn = s.hub.hocn + 1 ∧
          u.hub.hos = 2 ∧ OnlyCore c s { u with hub := s.hub } ∧ (u.core c).swap = true ∧
          (u.core c).swapTo.toNat = (s.hub.hova + s.hub.hoEntry).toNat % 2 ^ 48 / 32 * 32) ∧
        (s.hub.hotg ≤ s.hub.hocn + 1 → ∃ u, exec (.hodone c v) s = .next u ∧ u.hub.hos = 3 ∧
          u.hub.curm = s.hub.incm ∧ u.hub.incm = 0)) ∧
      (s.hub.hos ≠ 2 ∨ (s.core c).handed = true → exec (.hodone c v) s = .next s)) ∧
    (∀ c v, 200 ≤ c ∨ bitsOf v.toNat 0 8 ≠ c → exec (.hodone c v) s = .next s) ∧
    (s.hub.hos ≠ 2 ∨ s.hub.gtime < s.hub.hoAt + s.hub.hotmoNow * 1000000 → exec .handoverTimeout s = .next s) ∧
    (s.hub.hos = 2 → s.hub.hocn < s.hub.hotg → s.hub.hoAt + s.hub.hotmoNow * 1000000 ≤ s.hub.gtime →
      exec .handoverTimeout s = .next ((s.liveCores.filter fun c => !(s.core c).handed).foldl
        (fun s c => (s.handOver c true).dueSwitch c) s))

/-- A committed image is verified, measured and loaded, and every firmware context starts; a hand-over counts its
cores and makes the new measurement current. -/
def Obligations.BootAndHandOver : Prop :=
  Claims.Boot ∧ Claims.HandOver

/-- R410, R412, R415, R416: the protocol of a session, for every request. A bad frame is dropped and counted; a request of no
session is answered with 1; one whose number the session has answered gets the same answer again and nothing else
happens, or 10 where the answer is no longer kept; one up to 32 ahead is held, as is the next one while a request is under
way; one further ahead is dropped; before the module runs most are answered with 6. The order of the checks of a frame is
log 89 (DEDUCED). -/
def Obligations.PortSessions : Prop :=
  ∀ (s : State) (m : PortMsg), (s.port m.portB).up = true →
    let ops : List (Instr × Nat) := [(.hostRead m, 1), (.hostWrite m, 2), (.queueAppend m, 3), (.regRead m, 4),
      (.regWrite m, 5), (.semAcquire m, 6), (.semRelease m, 7), (.imageChunk m, 8), (.attest m, 10),
      (.compareManifest m, 11), (.notify m, 14)]
    (m.good = false → ∃ u, exec (.badControlFrame m) s = .next u ∧ u = { s with hub := { s.hub with count := u.hub.count } } ∧
      ∀ e ∈ ops, exec e.1 s = .next s) ∧
    ∀ e ∈ ops, m.good = true → m.op.toNat = e.2 →
      (s.session m.portB m.sess.toNat = none → exec e.1 s = .next (s.reply m 1 none [])) ∧
      ∀ x, s.session m.portB m.sess.toNat = some x → x.busy ≠ some m → m.seq ≠ 0 →
        (∀ r, m.seq.toNat < x.next.toNat → x.replies.find? (fun r => r.seq = m.seq) = some r →
          exec e.1 s = .next (s.portOut m.portB r)) ∧
        (m.seq.toNat < x.next.toNat → x.replies.find? (fun r => r.seq = m.seq) = none → (∀ y, x.busy = some y → y.seq ≠ m.seq) →
          exec e.1 s = .next (s.portOut m.portB (s.replyOf m 10 none []))) ∧
        ((∀ y ∈ x.held, y.seq ≠ m.seq) →
          (m.seq = x.next → x.busy ≠ none ∨ s.portsBusy = true →
            exec e.1 s = .next (s.setSession m.portB m.sess.toNat { x with held := x.held ++ [m] })) ∧
          (x.next.toNat < m.seq.toNat → m.seq.toNat - x.next.toNat ≤ 32 →
            exec e.1 s = .next (s.setSession m.portB m.sess.toNat { x with held := x.held ++ [m] })) ∧
          (x.next.toNat + 32 < m.seq.toNat → exec e.1 s = .next s) ∧
          (m.seq = x.next → x.busy = none → s.portsBusy = false → m.status = 0 → s.hub.bst ≠ 4 → m.early = false →
            ∃ u, exec e.1 s = .next u ∧ u.mem = s.mem ∧ u.cores = s.cores ∧
              (u.port m.portB).out = (s.port m.portB).out ++ [s.replyOf m 6 none []]))

/-- R413, R414, R417, R419 to R421, R424, R432: what each request does once it is its session's next and the module runs: `begun` is
the state in which it is under way. A header's address is rounded down to its row (log 96, DEDUCED), and semaphore words
are free where bit 63 is 0 (log 97, DEDUCED). -/
def Claims.PortRequests : Prop :=
  ∀ (s : State) (m : PortMsg) (x : Session), (s.port m.portB).up = true → m.good = true →
    s.session m.portB m.sess.toNat = some x → x.busy = none → m.seq = x.next → m.seq ≠ 0 →
    (∀ y ∈ x.held, y.seq ≠ m.seq) → s.hub.bst = 4 → s.portsBusy = false → m.status = 0 →
    let begun := s.setSession m.portB m.sess.toNat
      { x with next := x.next + 1, busy := some m, held := x.held.filter (fun y => y != m), pos := 0, asked := [],
               answers := [], posted := 0, late := s.quiescing m.asid }
    let answers (i : Instr) (t : State) (status : Nat) (value : Option Nat) (body : List Byte) : Prop :=
      exec i s = .next (t.reply m status value body)
    let sem := Tab.get 0 s.hub.sems m.arg.toNat
    let mine := semWord m.portB m.sess.toNat
    (m.op = 1 → 1 ≤ m.arg.toNat → m.arg.toNat ≤ 8192 → m.body = [] → ∀ st v b t,
      (begun.hostView m.portB).portRows m (slices m.addr.toNat m.arg.toNat) [] = .done st v b t →
      answers (.hostRead m) t st v b) ∧
    (m.op = 2 → m.arg = 0 → m.body ≠ [] → ∀ st v b t,
      begun.portWrite m (slices m.addr.toNat m.body.length) = .done st v b t → answers (.hostWrite m) t st v b) ∧
    (m.op = 3 → m.body.length = 64 → m.arg = 0 → ∀ acc, begun.portAcc m.asid .atomic (m.addr &&& ~~~63#48).toNat = .ok acc →
      begun.isRemote acc = false → ∀ st v b t, begun.portAppend m m.asid (m.addr &&& ~~~63#48) acc = .done st v b t →
      answers (.queueAppend m) t st v b) ∧
    (m.op = 4 → m.window = true → m.body = [] → answers (.regRead m) begun 0 none
      ((List.range m.arg.toNat).flatMap fun i => wordBytes (s.hubWord (m.addr.toNat + 8 * i)))) ∧
    (m.op = 5 → m.window = true → m.body.length = 8 * m.arg.toNat → let r := begun.regPut m.addr.toNat (wordsOf m.body)
      answers (.regWrite m) r.2 r.1 none []) ∧
    (m.op = 6 → m.plain 64 0 = true →
      (bitAt sem 63 = false → ∃ u, exec (.semAcquire m) s = .next u ∧ Tab.get 0 u.hub.sems m.arg.toNat = mine ∧
        u.mem = s.mem ∧ u.cores = s.cores) ∧
      (sem = mine → answers (.semAcquire m) begun 0 none []) ∧
      (bitAt sem 63 = true → sem ≠ mine → answers (.semAcquire m) begun 7
        (some (bitsOf sem.toNat 61 2 * 65536 + bitsOf sem.toNat 0 16)) [])) ∧
    (m.op = 7 → m.plain 64 0 = true →
      (sem = mine → ∃ u, exec (.semRelease m) s = .next u ∧ Tab.get 0 u.hub.sems m.arg.toNat = 0 ∧ u.mem = s.mem) ∧
      (sem ≠ mine → answers (.semRelease m) begun 7
        (some (bitsOf sem.toNat 61 2 * 65536 + bitsOf sem.toNat 0 16)) [])) ∧
    (m.op = 10 → m.plain 1 32 = true → s.hub.treeReady = true → s.hub.bctr.toNat < 32768 → s.hub.leaf < 2 ^ 20 →
      ∃ u r, exec (.attest m) s = .next u ∧ u.hub.leaf = s.hub.leaf + 1 ∧
        (u.port m.portB).out = (s.port m.portB).out ++ [r] ∧ r.status = 0 ∧ r.body = begun.report m.body) ∧
    (m.op = 11 → m.body = [] → m.addr.toNat % 64 = 0 → m.arg.toNat < 65536 →
      (s.resident (m.arg.setWidth 16) = false → answers (.compareManifest m) begun 12 none []) ∧
      ∀ n t, s.resident (m.arg.setWidth 16) = true →
        (begun.hostView m.portB).compare m (m.arg.setWidth 16) = .ok (some n, t) →
        answers (.compareManifest m) t 0 (some n) []) ∧
    (m.op = 14 → m.plain 1 64 = true → ∀ acc v b t, begun.portAcc 0 .atomic mailboxVa.toNat = .ok acc →
      begun.portAppend m 0 mailboxVa acc = .done 0 v b t →
      answers (.notify m) (t.raiseAsync 0 ⟨0x23, if m.portB then 1 else 0, 0⟩) 0 none [])

/-- R415, R417, R424, R427: opening and closing sessions, staging an image, and asking for a commit. An open takes the lowest free
number; the end of a session frees its semaphores; an image byte is staged while its image may still change (log 104,
DEDUCED); a commit begins verification. -/
def Claims.PortLifecycle : Prop :=
  ∀ (s : State) (m : PortMsg), (s.port m.portB).up = true → m.good = true → m.status = 0 →
    (m.op = 0x0C → m.sess = 0 → m.seq = 1 → m.plain 1 0 = true →
      (∀ n, ((List.range 16).map fun i => i + 1).find? (fun n => !(s.port m.portB).sessions.any fun e => e.1 == n) = some n →
        ∃ u y, exec (.openSession m) s = .next u ∧ u.session m.portB n = some y ∧ y.next = 2 ∧ y.busy = none ∧
          (u.port m.portB).last = some n ∧ ∀ k, k ≠ n → u.session m.portB k = s.session m.portB k) ∧
      ((∀ n, 1 ≤ n → n ≤ 16 → ∃ e ∈ (s.port m.portB).sessions, e.1 = n) →
        exec (.openSession m) s = .next (s.portOut m.portB (s.replyOf m 9 none [])))) ∧
    exec (.sessionLinkTimeout m.portB) s = .next s ∧
    (∀ d, d + 1000000 * s.hub.lto ≤ s.hub.gtime →
      ∃ u, exec (.sessionLinkTimeout m.portB) (s.setPort m.portB { s.port m.portB with up := false, downAt := d }) = .next u ∧
        (u.port m.portB).sessions = [] ∧ u.mem = s.mem ∧ u.cores = s.cores) ∧
    ∀ x, s.session m.portB m.sess.toNat = some x → x.busy = none → s.portsBusy = false → m.seq = x.next → m.seq ≠ 0 →
      (∀ y ∈ x.held, y.seq ≠ m.seq) →
      (m.op = 0x0D → m.plain 1 0 = true → ∃ u, exec (.closeSession m) s = .next u ∧
        u.session m.portB m.sess.toNat = none ∧
        ∀ e ∈ u.hub.sems, bitAt e.2 63 = true → bitsOf e.2.toNat 61 2 = (if m.portB then 2 else 1) →
          bitsOf e.2.toNat 0 16 ≠ m.sess.toNat) ∧
      (m.op = 8 → m.arg = 0 → m.addr.toNat + m.body.length ≤ stageSize →
        (s.hub.bst = 0 ∨ s.hub.bst = 1 ∨ s.hub.bst = 5 → ∃ u, exec (.imageChunk m) s = .next u ∧ u.hub.bst = 1 ∧
          u.mem = s.mem ∧ ∀ k b, m.body[k]? = some b → Tab.get 0 u.hub.stage (m.addr.toNat + k) = b) ∧
        (s.hub.bst = 4 → s.hub.hos ≠ 1 → ∃ u, exec (.imageChunk m) s = .next u ∧ u.hub.bst = 4 ∧
          u.hub.stage = s.hub.stage ∧ ∀ k b, m.body[k]? = some b → Tab.get 0 u.hub.stage2 (m.addr.toNat + k) = b) ∧
        (s.hub.bst = 2 ∨ s.hub.bst = 3 ∨ (s.hub.bst = 4 ∧ s.hub.hos = 1) →
          ∃ u, exec (.imageChunk m) s = .next u ∧ u.hub.stage = s.hub.stage ∧ u.hub.stage2 = s.hub.stage2)) ∧
      (m.op = 9 → m.arg = 0 → m.plain 1 0 = true → s.hub.bst = 1 → s.hub.node ≠ 0 → s.hub.commit = none →
        ∃ u, exec (.commitBoot m) s = .next u ∧ u.hub.bst = 2 ∧ u.hub.commit = some m ∧ u.mem = s.mem) ∧
      (m.op = 9 → m.arg = 1 → m.plain 2 0 = true → s.hub.bst = 4 → s.hub.hofr ≠ 0 → s.hub.hova ≠ 0 →
        s.hub.hos ≠ 1 → s.hub.hos ≠ 2 → s.hub.commit = none →
        ∃ u, exec (.commitHandOver m) s = .next u ∧ u.hub.hos = 1 ∧ u.hub.commit = some m ∧ u.mem = s.mem)

/-- Once a request is next in its session it reads, writes, appends, acquires, attests or compares and is answered
with its status; sessions open and close; images are staged and committed. -/
def Obligations.PortRequests : Prop :=
  Claims.PortRequests ∧ Claims.PortLifecycle

/-! ## Decoding and the step -/

/-- R70, R75: the fate of a syllable, first condition first: a slot that the context does not have, a code that the slot's map does
not have, a privileged code in the program context, a port field above 32, an operand rule broken. -/
def Obligations.DecodeFates : Prop :=
  ∀ (fw : Bool) (nchan k : Nat) (w : Syl), k < 8 → w ≠ 0 →
    let op := bitsOf w.toNat 22 6
    let fate := decodeSyl fw nchan k w
    (fw = true → 5 ≤ k → fate = .error 1) ∧
    (¬ (fw = true ∧ 5 ≤ k) → op = 0 → fate = if bitsOf w.toNat 0 22 = 0 then .ok (.nop (w.extractLsb' 28 4)) else .error 3) ∧
    (¬ (fw = true ∧ 5 ≤ k) → op ≠ 0 →
      (raw fw k w = none → fate = .error 0) ∧
      ∀ i, raw fw k w = some i →
        (k = 0 → fw = false → 48 ≤ op → fate = .error 2) ∧
        (¬ (k = 0 ∧ fw = false ∧ 48 ≤ op) →
          (portsOk k w = false → fate = .error 5) ∧
          (portsOk k w = true → fate = if encode i = some w ∧ i.wf = true ∧ i.contextOk fw nchan = true then .ok i
            else .error 3)))

/-- The words of the example after R126, and a few more, decode to what they stand for. -/
def Obligations.ExampleWords : Prop :=
  decodeScalars false 16 0x0A410000 0x0AC00000 = [(1, .ok (.li 0 1 0))] ∧
  decodeSyl false 16 0 0x01C00402 = .ok (.loopi 0 0 2 2) ∧
  decodeSyl false 16 0 0x01C80601 = .ok (.loopi 0 1 3 1) ∧
  decodeSyl false 16 0 0x40400001 = .ok (.br 4 1) ∧
  decodeSyl false 16 1 0x08810401 = .ok (.addi 0 1 1 1) ∧
  decodeSyl false 16 2 0x07900403 = .ok (.cmpi 0 2 0 1 3) ∧
  decodeSyl false 16 0 0x04410000 = .ok (.exitS 0 1) ∧
  decodeSyl false 16 0 0x0C000000 = .error 2 ∧
  decodeSyl true 4 5 0x00400000 = .error 1

/-- Decoding gives back what was encoded, for every well-formed syllable in each context that has it, and for a long
immediate in its pair; a port operand is at most 32. -/
def Obligations.RoundTrip : Prop :=
  ∀ (i : Instr) (fw : Bool) (nchan : Nat),
    (∀ k w, i.slot = some k → encode i = some w → i.wf = true → i.contextOk fw nchan = true →
      i.present fw = true → portsOk k w = true → decodeSyl fw nchan k w = .ok i) ∧
    ∀ x y, encodePair i = some (x, y) → decodeScalars fw nchan x y = [(1, .ok i)]

/-- R13, R27, R28, R68, R321: a core's turn runs the bundle at its pc, and at the end of every turn what the hub and the base
dies have met is reported (nothing, where nothing waits). With one instruction in the bundle and no-ops elsewhere, the step
is that instruction's meaning followed by the end of the bundle, counted in the firmware's share where it issued while the
program could; a fault leaves nothing of the bundle but its trap, and an instruction that must wait leaves nothing but its
waits. An event's turn is the event's meaning. -/
def Obligations.StepRunsDecoded : Prop :=
  (∀ (s : State) (c pick hold : Nat) (fw : Bool) (b : BitVec 256) (u : State) (k : Nat) (i : Instr),
    s.nextTurn = .core c pick hold →
    let s0 := { s with turns := s.turns.tail, fresh := s.fresh + 1 }
    let s1 := (((s0.openTurn c hold).dueSwitch c).takeAsync c).actStops c
    s1.chooseCtx c = some fw →
    let t := s1.frame c fw pick
    let counted (u : State) : State := if fw then s1.countShare c u else u
    t.fetchBundle = .ok (b, u) →
    (k, .ok i) ∈ decodeBundle u.iss.fw (u.me.channels u.iss.fw) b →
    (∀ e ∈ decodeBundle u.iss.fw (u.me.channels u.iss.fw) b, e = (k, .ok i) ∨ ∃ g, e.2 = .ok (.nop g)) →
    u.beat (u.fates b).1 = false →
    ∀ v, exec i { u with iss := { u.iss with slot := k, trap := none, errs := [] } } = .next v →
      (∀ x, v.iss.trap = some x → step s = .next (counted (t.trapEnd (x, v.iss.errs))).reportPending) ∧
      (v.iss.trap = none → v.iss.waits ≠ [] → step s =
        .next (counted (t.stall (some b) (u.fates b).1 v.iss.waits)).reportPending) ∧
      (v.iss.trap = none → v.iss.waits = [] → ∃ n l,
        step s =
          .next (counted (State.commit { v with iss := { v.iss with slot := n, trap := none, errs := l } })).reportPending)) ∧
  (∀ (s u : State) (i : Instr), s.nextTurn = .occur i → i.scheduled = true →
    exec i { s with turns := s.turns.tail, fresh := s.fresh + 1 } = .next u → step s = .next u.reportPending) ∧
  (∀ s : State, s.Reported → s.reportPending = s) ∧
  ∀ (s : State) (n : Nat), s.nextTurn = .time n → s.Reported → ∃ u, step s = .next u ∧ u.hub.gtime = s.hub.gtime + n ∧
    u.cores = s.cores ∧ u.mem = s.mem

/-- R15, R23, R183, R419: the values at reset that the spec gives, in every core's two contexts and in the hub's words. That the
scratchpad with its marks and the histogram store are zero is log 117 (DESIGN CHOICE), and that the tables software loads
(the region and remap tables) start empty log 12 (DESIGN CHOICE). -/
def Claims.ResetValues : Prop :=
  let s := State.reset
  (∀ c fw i, let x := (s.core c).ctx fw
    x.s = [] ∧ x.p = [] ∧ x.loops = [] ∧ x.ags = [] ∧ x.chans = [] ∧ x.inh = false ∧ x.run = .off ∧
    Tab.get 0 x.s i = 0 ∧ Tab.get false x.p i = false) ∧
  (∀ c, let k := s.core c
    k.px.fmt = 0x11FE0000 ∧ k.px.shCnt = 0 ∧ k.px.fpstat = 0 ∧ k.px.v = [] ∧ k.px.m = [] ∧ k.px.latch = [] ∧
    k.px.rings = [] ∧ k.px.tiles = [] ∧ k.px.mx = {} ∧ k.fx.fwshare = 4 ∧ k.fx.tdeleg = 0 ∧ k.sp = {} ∧ k.xfers = []) ∧
  s.hub.bst = 0 ∧ s.hub.node = 0 ∧ s.hub.hofr = 0 ∧ s.hub.hova = 0 ∧ s.hub.lto = 100 ∧ s.hub.hotmo = 1000 ∧
  s.hub.up = 200 ∧ s.hub.dn = 200 ∧ s.hub.incm = 0 ∧ s.hub.hos = 0 ∧ s.hub.sems = [] ∧ s.hub.freq = [] ∧
  s.hub.count = [] ∧ s.mem.treg = 0 ∧ s.mem.remapM = [] ∧ s.disp.gangs = [] ∧ s.binds = []

/-- Memory at reset lists nothing, so it is in canonical form and every byte reads zero. -/
def Claims.ResetMemory : Prop :=
  State.reset.Canonical ∧ State.reset.mem.cells = [] ∧ ∀ a, State.reset.mem.byte a = 0 ∧ State.reset.mem.newest a = 0

/-- The values at reset that the spec gives; memory lists nothing and is in canonical form (that an unlisted byte
reads zero is the choice of the model, log entry 10). -/
def Obligations.ResetState : Prop :=
  Claims.ResetValues ∧ Claims.ResetMemory

/-- Memory stays in canonical form in every step. -/
def Obligations.StepKeepsMemoryCanonical : Prop :=
  ∀ s t : State, s.Canonical → step s = .next t → t.Canonical
end

