-- ==== Sys2Proof/Laws/Exec.lean ====
section
/-! SUPPORT. Each constructor's meaning, so that no proof unfolds the dispatch. -/

namespace Sys2Proof.Machine

@[simp] theorem exec_nop (g : BitVec 4) (s : State) :
    exec (.nop g) s = execNop g s := rfl
@[simp] theorem exec_br (g : BitVec 4) (d : BitVec 22) (s : State) :
    exec (.br g d) s = execBr g d s := rfl
@[simp] theorem exec_brl (g : BitVec 4) (l : BitVec 6) (d : BitVec 16) (s : State) :
    exec (.brl g l d) s = execBrl g l d s := rfl
@[simp] theorem exec_jr (g : BitVec 4) (a : BitVec 6) (s : State) :
    exec (.jr g a) s = execJr g a s := rfl
@[simp] theorem exec_jrl (g : BitVec 4) (d : BitVec 6) (a : BitVec 6) (s : State) :
    exec (.jrl g d a) s = execJrl g d a s := rfl
@[simp] theorem exec_jt (g : BitVec 4) (a : BitVec 6) (i : BitVec 6) (l : BitVec 6) (p : BitVec 4) (s : State) :
    exec (.jt g a i l p) s = execJt g a i l p s := rfl
@[simp] theorem exec_loop (g : BitVec 4) (k : BitVec 3) (a : BitVec 6) (e : BitVec 13) (s : State) :
    exec (.loop g k a e) s = execLoop g k a e s := rfl
@[simp] theorem exec_loopi (g : BitVec 4) (k : BitVec 3) (n : BitVec 10) (e : BitVec 9) (s : State) :
    exec (.loopi g k n e) s = execLoopi g k n e s := rfl
@[simp] theorem exec_lbrk (g : BitVec 4) (k : BitVec 3) (s : State) :
    exec (.lbrk g k) s = execLbrk g k s := rfl
@[simp] theorem exec_wfmt (g : BitVec 4) (a : BitVec 6) (s : State) :
    exec (.wfmt g a) s = execWfmt g a s := rfl
@[simp] theorem exec_mfs (g : BitVec 4) (a : BitVec 6) (n : BitVec 8) (s : State) :
    exec (.mfs g a n) s = execMfs g a n s := rfl
@[simp] theorem exec_mts (g : BitVec 4) (a : BitVec 6) (n : BitVec 8) (s : State) :
    exec (.mts g a n) s = execMts g a n s := rfl
@[simp] theorem exec_trap (g : BitVec 4) (i : BitVec 16) (s : State) :
    exec (.trap g i) s = execTrap g i s := rfl
@[simp] theorem exec_bkpt (g : BitVec 4) (i : BitVec 16) (s : State) :
    exec (.bkpt g i) s = execBkpt g i s := rfl
@[simp] theorem exec_tret (g : BitVec 4) (s : State) :
    exec (.tret g) s = execTret g s := rfl
@[simp] theorem exec_susp (g : BitVec 4) (s : State) :
    exec (.susp g) s = execSusp g s := rfl
@[simp] theorem exec_yield (g : BitVec 4) (s : State) :
    exec (.yield g) s = execYield g s := rfl
@[simp] theorem exec_exitS (g : BitVec 4) (a : BitVec 6) (s : State) :
    exec (.exitS g a) s = execExitS g a s := rfl
@[simp] theorem exec_chk (g : BitVec 4) (c : BitVec 1) (r : BitVec 6) (d : BitVec 15) (s : State) :
    exec (.chk g c r d) s = execChk g c r d s := rfl
@[simp] theorem exec_stepB (g : BitVec 4) (s : State) :
    exec (.stepB g) s = execStepB g s := rfl
@[simp] theorem exec_grel (g : BitVec 4) (s : State) :
    exec (.grel g) s = execGrel g s := rfl
@[simp] theorem exec_tlbiPage (g : BitVec 4) (a : BitVec 6) (b : BitVec 6) (s : State) :
    exec (.tlbiPage g a b) s = execTlbiPage g a b s := rfl
@[simp] theorem exec_tlbiAsid (g : BitVec 4) (a : BitVec 6) (b : BitVec 6) (s : State) :
    exec (.tlbiAsid g a b) s = execTlbiAsid g a b s := rfl
@[simp] theorem exec_tlbiAll (g : BitVec 4) (a : BitVec 6) (b : BitVec 6) (s : State) :
    exec (.tlbiAll g a b) s = execTlbiAll g a b s := rfl
@[simp] theorem exec_asw (g : BitVec 4) (a : BitVec 6) (s : State) :
    exec (.asw g a) s = execAsw g a s := rfl
@[simp] theorem exec_ctxs (g : BitVec 4) (a : BitVec 6) (s : State) :
    exec (.ctxs g a) s = execCtxs g a s := rfl
@[simp] theorem exec_ctxr (g : BitVec 4) (a : BitVec 6) (s : State) :
    exec (.ctxr g a) s = execCtxr g a s := rfl
@[simp] theorem exec_fwsh (g : BitVec 4) (i : BitVec 7) (s : State) :
    exec (.fwsh g i) s = execFwsh g i s := rfl
@[simp] theorem exec_qscQuiesce (g : BitVec 4) (a : BitVec 6) (s : State) :
    exec (.qscQuiesce g a) s = execQscQuiesce g a s := rfl
@[simp] theorem exec_qscEndQuiesce (g : BitVec 4) (a : BitVec 6) (s : State) :
    exec (.qscEndQuiesce g a) s = execQscEndQuiesce g a s := rfl
@[simp] theorem exec_qscQueueInvalidate (g : BitVec 4) (a : BitVec 6) (s : State) :
    exec (.qscQueueInvalidate g a) s = execQscQueueInvalidate g a s := rfl
@[simp] theorem exec_cres (g : BitVec 4) (s : State) :
    exec (.cres g) s = execCres g s := rfl
@[simp] theorem exec_ckill (g : BitVec 4) (s : State) :
    exec (.ckill g) s = execCkill g s := rfl
@[simp] theorem exec_add (g : BitVec 4) (d : BitVec 6) (a : BitVec 6) (b : BitVec 6) (s : State) :
    exec (.add g d a b) s = execAdd g d a b s := rfl
@[simp] theorem exec_sub (g : BitVec 4) (d : BitVec 6) (a : BitVec 6) (b : BitVec 6) (s : State) :
    exec (.sub g d a b) s = execSub g d a b s := rfl
@[simp] theorem exec_sAnd (g : BitVec 4) (d : BitVec 6) (a : BitVec 6) (b : BitVec 6) (s : State) :
    exec (.sAnd g d a b) s = execSAnd g d a b s := rfl
@[simp] theorem exec_sOr (g : BitVec 4) (d : BitVec 6) (a : BitVec 6) (b : BitVec 6) (s : State) :
    exec (.sOr g d a b) s = execSOr g d a b s := rfl
@[simp] theorem exec_sXor (g : BitVec 4) (d : BitVec 6) (a : BitVec 6) (b : BitVec 6) (s : State) :
    exec (.sXor g d a b) s = execSXor g d a b s := rfl
@[simp] theorem exec_andn (g : BitVec 4) (d : BitVec 6) (a : BitVec 6) (b : BitVec 6) (s : State) :
    exec (.andn g d a b) s = execAndn g d a b s := rfl
@[simp] theorem exec_shl (g : BitVec 4) (d : BitVec 6) (a : BitVec 6) (b : BitVec 6) (s : State) :
    exec (.shl g d a b) s = execShl g d a b s := rfl
@[simp] theorem exec_shr (g : BitVec 4) (d : BitVec 6) (a : BitVec 6) (b : BitVec 6) (s : State) :
    exec (.shr g d a b) s = execShr g d a b s := rfl
@[simp] theorem exec_sar (g : BitVec 4) (d : BitVec 6) (a : BitVec 6) (b : BitVec 6) (s : State) :
    exec (.sar g d a b) s = execSar g d a b s := rfl
@[simp] theorem exec_ror (g : BitVec 4) (d : BitVec 6) (a : BitVec 6) (b : BitVec 6) (s : State) :
    exec (.ror g d a b) s = execRor g d a b s := rfl
@[simp] theorem exec_mul (g : BitVec 4) (d : BitVec 6) (a : BitVec 6) (b : BitVec 6) (s : State) :
    exec (.mul g d a b) s = execMul g d a b s := rfl
@[simp] theorem exec_mulh (g : BitVec 4) (d : BitVec 6) (a : BitVec 6) (b : BitVec 6) (s : State) :
    exec (.mulh g d a b) s = execMulh g d a b s := rfl
@[simp] theorem exec_mulhn (g : BitVec 4) (d : BitVec 6) (a : BitVec 6) (b : BitVec 6) (s : State) :
    exec (.mulhn g d a b) s = execMulhn g d a b s := rfl
@[simp] theorem exec_div (g : BitVec 4) (d : BitVec 6) (a : BitVec 6) (b : BitVec 6) (s : State) :
    exec (.div g d a b) s = execDiv g d a b s := rfl
@[simp] theorem exec_divn (g : BitVec 4) (d : BitVec 6) (a : BitVec 6) (b : BitVec 6) (s : State) :
    exec (.divn g d a b) s = execDivn g d a b s := rfl
@[simp] theorem exec_rem (g : BitVec 4) (d : BitVec 6) (a : BitVec 6) (b : BitVec 6) (s : State) :
    exec (.rem g d a b) s = execRem g d a b s := rfl
@[simp] theorem exec_remn (g : BitVec 4) (d : BitVec 6) (a : BitVec 6) (b : BitVec 6) (s : State) :
    exec (.remn g d a b) s = execRemn g d a b s := rfl
@[simp] theorem exec_sMin (g : BitVec 4) (d : BitVec 6) (a : BitVec 6) (b : BitVec 6) (s : State) :
    exec (.sMin g d a b) s = execSMin g d a b s := rfl
@[simp] theorem exec_sMax (g : BitVec 4) (d : BitVec 6) (a : BitVec 6) (b : BitVec 6) (s : State) :
    exec (.sMax g d a b) s = execSMax g d a b s := rfl
@[simp] theorem exec_minn (g : BitVec 4) (d : BitVec 6) (a : BitVec 6) (b : BitVec 6) (s : State) :
    exec (.minn g d a b) s = execMinn g d a b s := rfl
@[simp] theorem exec_maxn (g : BitVec 4) (d : BitVec 6) (a : BitVec 6) (b : BitVec 6) (s : State) :
    exec (.maxn g d a b) s = execMaxn g d a b s := rfl
@[simp] theorem exec_ext (g : BitVec 4) (d : BitVec 6) (a : BitVec 6) (b : BitVec 6) (s : State) :
    exec (.ext g d a b) s = execExt g d a b s := rfl
@[simp] theorem exec_extn (g : BitVec 4) (d : BitVec 6) (a : BitVec 6) (b : BitVec 6) (s : State) :
    exec (.extn g d a b) s = execExtn g d a b s := rfl
@[simp] theorem exec_ins (g : BitVec 4) (d : BitVec 6) (a : BitVec 6) (b : BitVec 6) (s : State) :
    exec (.ins g d a b) s = execIns g d a b s := rfl
@[simp] theorem exec_clz (g : BitVec 4) (d : BitVec 6) (a : BitVec 6) (s : State) :
    exec (.clz g d a) s = execClz g d a s := rfl
@[simp] theorem exec_ctz (g : BitVec 4) (d : BitVec 6) (a : BitVec 6) (s : State) :
    exec (.ctz g d a) s = execCtz g d a s := rfl
@[simp] theorem exec_pcnt (g : BitVec 4) (d : BitVec 6) (a : BitVec 6) (s : State) :
    exec (.pcnt g d a) s = execPcnt g d a s := rfl
@[simp] theorem exec_sel (g : BitVec 4) (d : BitVec 6) (a : BitVec 6) (b : BitVec 6) (f : BitVec 4) (s : State) :
    exec (.sel g d a b f) s = execSel g d a b f s := rfl
@[simp] theorem exec_cmp (g : BitVec 4) (j : BitVec 3) (c : BitVec 3) (a : BitVec 6) (b : BitVec 6) (s : State) :
    exec (.cmp g j c a b) s = execCmp g j c a b s := rfl
@[simp] theorem exec_cmpi (g : BitVec 4) (j : BitVec 3) (c : BitVec 3) (a : BitVec 6) (i : BitVec 10) (s : State) :
    exec (.cmpi g j c a i) s = execCmpi g j c a i s := rfl
@[simp] theorem exec_pand (g : BitVec 4) (d : BitVec 4) (a : BitVec 4) (b : BitVec 4) (n : BitVec 1) (m : BitVec 1) (s : State) :
    exec (.pand g d a b n m) s = execPand g d a b n m s := rfl
@[simp] theorem exec_por (g : BitVec 4) (d : BitVec 4) (a : BitVec 4) (b : BitVec 4) (n : BitVec 1) (m : BitVec 1) (s : State) :
    exec (.por g d a b n m) s = execPor g d a b n m s := rfl
@[simp] theorem exec_pxor (g : BitVec 4) (d : BitVec 4) (a : BitVec 4) (b : BitVec 4) (n : BitVec 1) (m : BitVec 1) (s : State) :
    exec (.pxor g d a b n m) s = execPxor g d a b n m s := rfl
@[simp] theorem exec_addi (g : BitVec 4) (d : BitVec 6) (a : BitVec 6) (i : BitVec 10) (s : State) :
    exec (.addi g d a i) s = execAddi g d a i s := rfl
@[simp] theorem exec_andi (g : BitVec 4) (d : BitVec 6) (a : BitVec 6) (i : BitVec 10) (s : State) :
    exec (.andi g d a i) s = execAndi g d a i s := rfl
@[simp] theorem exec_ori (g : BitVec 4) (d : BitVec 6) (a : BitVec 6) (i : BitVec 10) (s : State) :
    exec (.ori g d a i) s = execOri g d a i s := rfl
@[simp] theorem exec_xori (g : BitVec 4) (d : BitVec 6) (a : BitVec 6) (i : BitVec 10) (s : State) :
    exec (.xori g d a i) s = execXori g d a i s := rfl
@[simp] theorem exec_shli (g : BitVec 4) (d : BitVec 6) (a : BitVec 6) (fs : BitVec 6) (s : State) :
    exec (.shli g d a fs) s = execShli g d a fs s := rfl
@[simp] theorem exec_shri (g : BitVec 4) (d : BitVec 6) (a : BitVec 6) (fs : BitVec 6) (s : State) :
    exec (.shri g d a fs) s = execShri g d a fs s := rfl
@[simp] theorem exec_sari (g : BitVec 4) (d : BitVec 6) (a : BitVec 6) (fs : BitVec 6) (s : State) :
    exec (.sari g d a fs) s = execSari g d a fs s := rfl
@[simp] theorem exec_li (g : BitVec 4) (d : BitVec 6) (imm : BitVec 38) (s : State) :
    exec (.li g d imm) s = execLi g d imm s := rfl
@[simp] theorem exec_lih (g : BitVec 4) (d : BitVec 6) (imm : BitVec 38) (s : State) :
    exec (.lih g d imm) s = execLih g d imm s := rfl
@[simp] theorem exec_agb (g : BitVec 4) (n : BitVec 4) (a : BitVec 6) (s : State) :
    exec (.agb g n a) s = execAgb g n a s := rfl
@[simp] theorem exec_ags (g : BitVec 4) (n : BitVec 4) (k : BitVec 3) (a : BitVec 6) (s : State) :
    exec (.ags g n k a) s = execAgs g n k a s := rfl
@[simp] theorem exec_agr (g : BitVec 4) (d : BitVec 6) (n : BitVec 4) (s : State) :
    exec (.agr g d n) s = execAgr g d n s := rfl
@[simp] theorem exec_ldw (g : BitVec 4) (t : BitVec 6) (a : BitVec 16) (s : State) :
    exec (.ldw g t a) s = execLdw g t a s := rfl
@[simp] theorem exec_stw (g : BitVec 4) (t : BitVec 6) (a : BitVec 16) (s : State) :
    exec (.stw g t a) s = execStw g t a s := rfl
@[simp] theorem exec_ldr (g : BitVec 4) (t : BitVec 6) (a : BitVec 16) (s : State) :
    exec (.ldr g t a) s = execLdr g t a s := rfl
@[simp] theorem exec_str (g : BitVec 4) (t : BitVec 6) (a : BitVec 16) (s : State) :
    exec (.str g t a) s = execStr g t a s := rfl
@[simp] theorem exec_ldsy (g : BitVec 4) (t : BitVec 6) (a : BitVec 16) (s : State) :
    exec (.ldsy g t a) s = execLdsy g t a s := rfl
@[simp] theorem exec_stsy (g : BitVec 4) (t : BitVec 6) (a : BitVec 16) (s : State) :
    exec (.stsy g t a) s = execStsy g t a s := rfl
@[simp] theorem exec_feq (g : BitVec 4) (j : BitVec 3) (a : BitVec 16) (s : State) :
    exec (.feq g j a) s = execFeq g j a s := rfl
@[simp] theorem exec_fes (g : BitVec 4) (v : BitVec 1) (a : BitVec 16) (s : State) :
    exec (.fes g v a) s = execFes g v a s := rfl
@[simp] theorem exec_tlr (g : BitVec 4) (d : BitVec 6) (t : BitVec 6) (s : State) :
    exec (.tlr g d t) s = execTlr g d t s := rfl
@[simp] theorem exec_tls (g : BitVec 4) (t : BitVec 6) (fs : BitVec 2) (s : State) :
    exec (.tls g t fs) s = execTls g t fs s := rfl
@[simp] theorem exec_barv (g : BitVec 4) (t : BitVec 6) (a : BitVec 16) (s : State) :
    exec (.barv g t a) s = execBarv g t a s := rfl
@[simp] theorem exec_barw (g : BitVec 4) (t : BitVec 6) (a : BitVec 16) (s : State) :
    exec (.barw g t a) s = execBarw g t a s := rfl
@[simp] theorem exec_gldw (g : BitVec 4) (t : BitVec 6) (b : BitVec 6) (d : BitVec 10) (s : State) :
    exec (.gldw g t b d) s = execGldw g t b d s := rfl
@[simp] theorem exec_gstw (g : BitVec 4) (t : BitVec 6) (b : BitVec 6) (d : BitVec 10) (s : State) :
    exec (.gstw g t b d) s = execGstw g t b d s := rfl
@[simp] theorem exec_gldr (g : BitVec 4) (t : BitVec 6) (b : BitVec 6) (d : BitVec 10) (s : State) :
    exec (.gldr g t b d) s = execGldr g t b d s := rfl
@[simp] theorem exec_gstr (g : BitVec 4) (t : BitVec 6) (b : BitVec 6) (d : BitVec 10) (s : State) :
    exec (.gstr g t b d) s = execGstr g t b d s := rfl
@[simp] theorem exec_gldws (g : BitVec 4) (t : BitVec 6) (b : BitVec 6) (d : BitVec 10) (s : State) :
    exec (.gldws g t b d) s = execGldws g t b d s := rfl
@[simp] theorem exec_gldrs (g : BitVec 4) (t : BitVec 6) (b : BitVec 6) (d : BitVec 10) (s : State) :
    exec (.gldrs g t b d) s = execGldrs g t b d s := rfl
@[simp] theorem exec_aadd (g : BitVec 4) (d : BitVec 6) (a : BitVec 6) (v : BitVec 6) (w : BitVec 1) (q : BitVec 1) (r : BitVec 1) (s : State) :
    exec (.aadd g d a v w q r) s = execAadd g d a v w q r s := rfl
@[simp] theorem exec_amin (g : BitVec 4) (d : BitVec 6) (a : BitVec 6) (v : BitVec 6) (w : BitVec 1) (k : BitVec 1) (q : BitVec 1) (r : BitVec 1) (s : State) :
    exec (.amin g d a v w k q r) s = execAmin g d a v w k q r s := rfl
@[simp] theorem exec_amax (g : BitVec 4) (d : BitVec 6) (a : BitVec 6) (v : BitVec 6) (w : BitVec 1) (k : BitVec 1) (q : BitVec 1) (r : BitVec 1) (s : State) :
    exec (.amax g d a v w k q r) s = execAmax g d a v w k q r s := rfl
@[simp] theorem exec_aand (g : BitVec 4) (d : BitVec 6) (a : BitVec 6) (v : BitVec 6) (w : BitVec 1) (q : BitVec 1) (r : BitVec 1) (s : State) :
    exec (.aand g d a v w q r) s = execAand g d a v w q r s := rfl
@[simp] theorem exec_aor (g : BitVec 4) (d : BitVec 6) (a : BitVec 6) (v : BitVec 6) (w : BitVec 1) (q : BitVec 1) (r : BitVec 1) (s : State) :
    exec (.aor g d a v w q r) s = execAor g d a v w q r s := rfl
@[simp] theorem exec_axor (g : BitVec 4) (d : BitVec 6) (a : BitVec 6) (v : BitVec 6) (w : BitVec 1) (q : BitVec 1) (r : BitVec 1) (s : State) :
    exec (.axor g d a v w q r) s = execAxor g d a v w q r s := rfl
@[simp] theorem exec_aswp (g : BitVec 4) (d : BitVec 6) (a : BitVec 6) (v : BitVec 6) (w : BitVec 1) (q : BitVec 1) (r : BitVec 1) (s : State) :
    exec (.aswp g d a v w q r) s = execAswp g d a v w q r s := rfl
@[simp] theorem exec_acas (g : BitVec 4) (d : BitVec 6) (a : BitVec 6) (v : BitVec 6) (w : BitVec 1) (q : BitVec 1) (r : BitVec 1) (s : State) :
    exec (.acas g d a v w q r) s = execAcas g d a v w q r s := rfl
@[simp] theorem exec_afadd (g : BitVec 4) (d : BitVec 6) (a : BitVec 6) (v : BitVec 6) (w : BitVec 1) (q : BitVec 1) (r : BitVec 1) (s : State) :
    exec (.afadd g d a v w q r) s = execAfadd g d a v w q r s := rfl
@[simp] theorem exec_aoadd (g : BitVec 4) (d : BitVec 6) (a : BitVec 6) (v : BitVec 6) (w : BitVec 1) (k : BitVec 1) (r : BitVec 1) (s : State) :
    exec (.aoadd g d a v w k r) s = execAoadd g d a v w k r s := rfl
@[simp] theorem exec_phase (g : BitVec 4) (fs : BitVec 4) (s : State) :
    exec (.phase g fs) s = execPhase g fs s := rfl
@[simp] theorem exec_copy (g : BitVec 4) (c : BitVec 4) (a : BitVec 6) (d : BitVec 6) (q : BitVec 1) (r : BitVec 1) (fs : BitVec 4) (s : State) :
    exec (.copy g c a d q r fs) s = execCopy g c a d q r fs s := rfl
@[simp] theorem exec_gath (g : BitVec 4) (c : BitVec 4) (a : BitVec 6) (d : BitVec 6) (q : BitVec 1) (r : BitVec 1) (fs : BitVec 4) (s : State) :
    exec (.gath g c a d q r fs) s = execGath g c a d q r fs s := rfl
@[simp] theorem exec_scat (g : BitVec 4) (c : BitVec 4) (a : BitVec 6) (d : BitVec 6) (q : BitVec 1) (r : BitVec 1) (fs : BitVec 4) (s : State) :
    exec (.scat g c a d q r fs) s = execScat g c a d q r fs s := rfl
@[simp] theorem exec_wstr (g : BitVec 4) (c : BitVec 4) (a : BitVec 6) (d : BitVec 6) (q : BitVec 1) (fs : BitVec 4) (s : State) :
    exec (.wstr g c a d q fs) s = execWstr g c a d q fs s := rfl
@[simp] theorem exec_cwid (g : BitVec 4) (c : BitVec 4) (a : BitVec 6) (fs : BitVec 1) (s : State) :
    exec (.cwid g c a fs) s = execCwid g c a fs s := rfl
@[simp] theorem exec_cwcnt (g : BitVec 4) (c : BitVec 4) (a : BitVec 6) (fs : BitVec 1) (s : State) :
    exec (.cwcnt g c a fs) s = execCwcnt g c a fs s := rfl
@[simp] theorem exec_trig (g : BitVec 4) (c : BitVec 4) (a : BitVec 6) (b : BitVec 6) (s : State) :
    exec (.trig g c a b) s = execTrig g c a b s := rfl
@[simp] theorem exec_enq (g : BitVec 4) (p : BitVec 4) (a : BitVec 6) (v : BitVec 6) (s : State) :
    exec (.enq g p a v) s = execEnq g p a v s := rfl
@[simp] theorem exec_deq (g : BitVec 4) (v : BitVec 6) (a : BitVec 6) (fs : BitVec 1) (s : State) :
    exec (.deq g v a fs) s = execDeq g v a fs s := rfl
@[simp] theorem exec_cbind (g : BitVec 4) (c : BitVec 4) (a : BitVec 6) (d : BitVec 6) (q : BitVec 1) (r : BitVec 1) (fs : BitVec 4) (s : State) :
    exec (.cbind g c a d q r fs) s = execCbind g c a d q r fs s := rfl
@[simp] theorem exec_bred (g : BitVec 4) (c : BitVec 4) (a : BitVec 6) (d : BitVec 6) (q : BitVec 1) (r : BitVec 1) (fs : BitVec 4) (s : State) :
    exec (.bred g c a d q r fs) s = execBred g c a d q r fs s := rfl
@[simp] theorem exec_hist (g : BitVec 4) (c : BitVec 4) (a : BitVec 6) (d : BitVec 6) (r : BitVec 1) (fs : BitVec 4) (s : State) :
    exec (.hist g c a d r fs) s = execHist g c a d r fs s := rfl
@[simp] theorem exec_sarv (g : BitVec 4) (s : State) :
    exec (.sarv g) s = execSarv g s := rfl
@[simp] theorem exec_vadd (g : BitVec 4) (d : BitVec 5) (a : BitVec 6) (b : BitVec 6) (m : BitVec 3) (t : BitVec 2) (s : State) :
    exec (.vadd g d a b m t) s = execVadd g d a b m t s := rfl
@[simp] theorem exec_vsub (g : BitVec 4) (d : BitVec 5) (a : BitVec 6) (b : BitVec 6) (m : BitVec 3) (t : BitVec 2) (s : State) :
    exec (.vsub g d a b m t) s = execVsub g d a b m t s := rfl
@[simp] theorem exec_vmul (g : BitVec 4) (d : BitVec 5) (a : BitVec 6) (b : BitVec 6) (m : BitVec 3) (t : BitVec 2) (s : State) :
    exec (.vmul g d a b m t) s = execVmul g d a b m t s := rfl
@[simp] theorem exec_vmulh (g : BitVec 4) (d : BitVec 5) (a : BitVec 6) (b : BitVec 6) (m : BitVec 3) (t : BitVec 2) (s : State) :
    exec (.vmulh g d a b m t) s = execVmulh g d a b m t s := rfl
@[simp] theorem exec_vmin (g : BitVec 4) (d : BitVec 5) (a : BitVec 6) (b : BitVec 6) (m : BitVec 3) (t : BitVec 2) (s : State) :
    exec (.vmin g d a b m t) s = execVmin g d a b m t s := rfl
@[simp] theorem exec_vmax (g : BitVec 4) (d : BitVec 5) (a : BitVec 6) (b : BitVec 6) (m : BitVec 3) (t : BitVec 2) (s : State) :
    exec (.vmax g d a b m t) s = execVmax g d a b m t s := rfl
@[simp] theorem exec_vminn (g : BitVec 4) (d : BitVec 5) (a : BitVec 6) (b : BitVec 6) (m : BitVec 3) (t : BitVec 2) (s : State) :
    exec (.vminn g d a b m t) s = execVminn g d a b m t s := rfl
@[simp] theorem exec_vmaxn (g : BitVec 4) (d : BitVec 5) (a : BitVec 6) (b : BitVec 6) (m : BitVec 3) (t : BitVec 2) (s : State) :
    exec (.vmaxn g d a b m t) s = execVmaxn g d a b m t s := rfl
@[simp] theorem exec_vand (g : BitVec 4) (d : BitVec 5) (a : BitVec 6) (b : BitVec 6) (m : BitVec 3) (t : BitVec 2) (s : State) :
    exec (.vand g d a b m t) s = execVand g d a b m t s := rfl
@[simp] theorem exec_vor (g : BitVec 4) (d : BitVec 5) (a : BitVec 6) (b : BitVec 6) (m : BitVec 3) (t : BitVec 2) (s : State) :
    exec (.vor g d a b m t) s = execVor g d a b m t s := rfl
@[simp] theorem exec_vxor (g : BitVec 4) (d : BitVec 5) (a : BitVec 6) (b : BitVec 6) (m : BitVec 3) (t : BitVec 2) (s : State) :
    exec (.vxor g d a b m t) s = execVxor g d a b m t s := rfl
@[simp] theorem exec_vsel (g : BitVec 4) (d : BitVec 5) (a : BitVec 6) (b : BitVec 6) (m : BitVec 3) (t : BitVec 2) (s : State) :
    exec (.vsel g d a b m t) s = execVsel g d a b m t s := rfl
@[simp] theorem exec_vshli (g : BitVec 4) (d : BitVec 5) (a : BitVec 6) (i : BitVec 6) (m : BitVec 3) (t : BitVec 2) (s : State) :
    exec (.vshli g d a i m t) s = execVshli g d a i m t s := rfl
@[simp] theorem exec_vshri (g : BitVec 4) (d : BitVec 5) (a : BitVec 6) (i : BitVec 6) (m : BitVec 3) (t : BitVec 2) (s : State) :
    exec (.vshri g d a i m t) s = execVshri g d a i m t s := rfl
@[simp] theorem exec_vsari (g : BitVec 4) (d : BitVec 5) (a : BitVec 6) (i : BitVec 6) (m : BitVec 3) (t : BitVec 2) (s : State) :
    exec (.vsari g d a i m t) s = execVsari g d a i m t s := rfl
@[simp] theorem exec_vperm (g : BitVec 4) (d : BitVec 5) (a : BitVec 6) (b : BitVec 6) (m : BitVec 3) (t : BitVec 2) (s : State) :
    exec (.vperm g d a b m t) s = execVperm g d a b m t s := rfl
@[simp] theorem exec_vbc (g : BitVec 4) (d : BitVec 5) (fs : BitVec 6) (m : BitVec 3) (t : BitVec 2) (s : State) :
    exec (.vbc g d fs m t) s = execVbc g d fs m t s := rfl
@[simp] theorem exec_vins (g : BitVec 4) (d : BitVec 5) (fs : BitVec 6) (l : BitVec 6) (m : BitVec 3) (t : BitVec 2) (s : State) :
    exec (.vins g d fs l m t) s = execVins g d fs l m t s := rfl
@[simp] theorem exec_vext (g : BitVec 4) (d : BitVec 6) (a : BitVec 6) (l : BitVec 6) (t : BitVec 2) (s : State) :
    exec (.vext g d a l t) s = execVext g d a l t s := rfl
@[simp] theorem exec_vcmp (g : BitVec 4) (m : BitVec 3) (a : BitVec 6) (b : BitVec 6) (c : BitVec 3) (t : BitVec 2) (s : State) :
    exec (.vcmp g m a b c t) s = execVcmp g m a b c t s := rfl
@[simp] theorem exec_mand (g : BitVec 4) (d : BitVec 3) (a : BitVec 3) (b : BitVec 3) (s : State) :
    exec (.mand g d a b) s = execMand g d a b s := rfl
@[simp] theorem exec_mor (g : BitVec 4) (d : BitVec 3) (a : BitVec 3) (b : BitVec 3) (s : State) :
    exec (.mor g d a b) s = execMor g d a b s := rfl
@[simp] theorem exec_mxor (g : BitVec 4) (d : BitVec 3) (a : BitVec 3) (b : BitVec 3) (s : State) :
    exec (.mxor g d a b) s = execMxor g d a b s := rfl
@[simp] theorem exec_mandn (g : BitVec 4) (d : BitVec 3) (a : BitVec 3) (b : BitVec 3) (s : State) :
    exec (.mandn g d a b) s = execMandn g d a b s := rfl
@[simp] theorem exec_mset (g : BitVec 4) (d : BitVec 3) (a : BitVec 6) (s : State) :
    exec (.mset g d a) s = execMset g d a s := rfl
@[simp] theorem exec_vfaddF64 (g : BitVec 4) (d : BitVec 5) (a : BitVec 6) (b : BitVec 6) (m : BitVec 2) (r : BitVec 3) (s : State) :
    exec (.vfaddF64 g d a b m r) s = execVfaddF64 g d a b m r s := rfl
@[simp] theorem exec_vfaddF32 (g : BitVec 4) (d : BitVec 5) (a : BitVec 6) (b : BitVec 6) (m : BitVec 2) (r : BitVec 3) (s : State) :
    exec (.vfaddF32 g d a b m r) s = execVfaddF32 g d a b m r s := rfl
@[simp] theorem exec_vfaddBf16 (g : BitVec 4) (d : BitVec 5) (a : BitVec 6) (b : BitVec 6) (m : BitVec 2) (r : BitVec 3) (s : State) :
    exec (.vfaddBf16 g d a b m r) s = execVfaddBf16 g d a b m r s := rfl
@[simp] theorem exec_vfaddF16 (g : BitVec 4) (d : BitVec 5) (a : BitVec 6) (b : BitVec 6) (m : BitVec 2) (r : BitVec 3) (s : State) :
    exec (.vfaddF16 g d a b m r) s = execVfaddF16 g d a b m r s := rfl
@[simp] theorem exec_vfsubF64 (g : BitVec 4) (d : BitVec 5) (a : BitVec 6) (b : BitVec 6) (m : BitVec 2) (r : BitVec 3) (s : State) :
    exec (.vfsubF64 g d a b m r) s = execVfsubF64 g d a b m r s := rfl
@[simp] theorem exec_vfsubF32 (g : BitVec 4) (d : BitVec 5) (a : BitVec 6) (b : BitVec 6) (m : BitVec 2) (r : BitVec 3) (s : State) :
    exec (.vfsubF32 g d a b m r) s = execVfsubF32 g d a b m r s := rfl
@[simp] theorem exec_vfsubBf16 (g : BitVec 4) (d : BitVec 5) (a : BitVec 6) (b : BitVec 6) (m : BitVec 2) (r : BitVec 3) (s : State) :
    exec (.vfsubBf16 g d a b m r) s = execVfsubBf16 g d a b m r s := rfl
@[simp] theorem exec_vfsubF16 (g : BitVec 4) (d : BitVec 5) (a : BitVec 6) (b : BitVec 6) (m : BitVec 2) (r : BitVec 3) (s : State) :
    exec (.vfsubF16 g d a b m r) s = execVfsubF16 g d a b m r s := rfl
@[simp] theorem exec_vfmulF64 (g : BitVec 4) (d : BitVec 5) (a : BitVec 6) (b : BitVec 6) (m : BitVec 2) (r : BitVec 3) (s : State) :
    exec (.vfmulF64 g d a b m r) s = execVfmulF64 g d a b m r s := rfl
@[simp] theorem exec_vfmulF32 (g : BitVec 4) (d : BitVec 5) (a : BitVec 6) (b : BitVec 6) (m : BitVec 2) (r : BitVec 3) (s : State) :
    exec (.vfmulF32 g d a b m r) s = execVfmulF32 g d a b m r s := rfl
@[simp] theorem exec_vfmulBf16 (g : BitVec 4) (d : BitVec 5) (a : BitVec 6) (b : BitVec 6) (m : BitVec 2) (r : BitVec 3) (s : State) :
    exec (.vfmulBf16 g d a b m r) s = execVfmulBf16 g d a b m r s := rfl
@[simp] theorem exec_vfmulF16 (g : BitVec 4) (d : BitVec 5) (a : BitVec 6) (b : BitVec 6) (m : BitVec 2) (r : BitVec 3) (s : State) :
    exec (.vfmulF16 g d a b m r) s = execVfmulF16 g d a b m r s := rfl
@[simp] theorem exec_vfmaF64 (g : BitVec 4) (d : BitVec 5) (a : BitVec 6) (b : BitVec 6) (m : BitVec 2) (r : BitVec 3) (s : State) :
    exec (.vfmaF64 g d a b m r) s = execVfmaF64 g d a b m r s := rfl
@[simp] theorem exec_vfmaF32 (g : BitVec 4) (d : BitVec 5) (a : BitVec 6) (b : BitVec 6) (m : BitVec 2) (r : BitVec 3) (s : State) :
    exec (.vfmaF32 g d a b m r) s = execVfmaF32 g d a b m r s := rfl
@[simp] theorem exec_vfmaBf16 (g : BitVec 4) (d : BitVec 5) (a : BitVec 6) (b : BitVec 6) (m : BitVec 2) (r : BitVec 3) (s : State) :
    exec (.vfmaBf16 g d a b m r) s = execVfmaBf16 g d a b m r s := rfl
@[simp] theorem exec_vfmaF16 (g : BitVec 4) (d : BitVec 5) (a : BitVec 6) (b : BitVec 6) (m : BitVec 2) (r : BitVec 3) (s : State) :
    exec (.vfmaF16 g d a b m r) s = execVfmaF16 g d a b m r s := rfl
@[simp] theorem exec_vfmin (g : BitVec 4) (d : BitVec 5) (a : BitVec 6) (b : BitVec 6) (m : BitVec 3) (t : BitVec 2) (s : State) :
    exec (.vfmin g d a b m t) s = execVfmin g d a b m t s := rfl
@[simp] theorem exec_vfmax (g : BitVec 4) (d : BitVec 5) (a : BitVec 6) (b : BitVec 6) (m : BitVec 3) (t : BitVec 2) (s : State) :
    exec (.vfmax g d a b m t) s = execVfmax g d a b m t s := rfl
@[simp] theorem exec_vfcmp (g : BitVec 4) (m : BitVec 3) (a : BitVec 6) (b : BitVec 6) (c : BitVec 3) (t : BitVec 2) (s : State) :
    exec (.vfcmp g m a b c t) s = execVfcmp g m a b c t s := rfl
@[simp] theorem exec_vcvt (g : BitVec 4) (d : BitVec 5) (a : BitVec 6) (f : BitVec 4) (t : BitVec 4) (r : BitVec 3) (s : State) :
    exec (.vcvt g d a f t r) s = execVcvt g d a f t r s := rfl
@[simp] theorem exec_vrcpe (g : BitVec 4) (d : BitVec 5) (a : BitVec 6) (m : BitVec 3) (t : BitVec 2) (s : State) :
    exec (.vrcpe g d a m t) s = execVrcpe g d a m t s := rfl
@[simp] theorem exec_vrsqe (g : BitVec 4) (d : BitVec 5) (a : BitVec 6) (m : BitVec 3) (t : BitVec 2) (s : State) :
    exec (.vrsqe g d a m t) s = execVrsqe g d a m t s := rfl
@[simp] theorem exec_vrcps (g : BitVec 4) (d : BitVec 5) (a : BitVec 6) (b : BitVec 6) (m : BitVec 3) (t : BitVec 2) (s : State) :
    exec (.vrcps g d a b m t) s = execVrcps g d a b m t s := rfl
@[simp] theorem exec_vrsqs (g : BitVec 4) (d : BitVec 5) (a : BitVec 6) (b : BitVec 6) (m : BitVec 3) (t : BitVec 2) (s : State) :
    exec (.vrsqs g d a b m t) s = execVrsqs g d a b m t s := rfl
@[simp] theorem exec_vexp2 (g : BitVec 4) (d : BitVec 5) (a : BitVec 6) (m : BitVec 3) (t : BitVec 2) (s : State) :
    exec (.vexp2 g d a m t) s = execVexp2 g d a m t s := rfl
@[simp] theorem exec_vlog2 (g : BitVec 4) (d : BitVec 5) (a : BitVec 6) (m : BitVec 3) (t : BitVec 2) (s : State) :
    exec (.vlog2 g d a m t) s = execVlog2 g d a m t s := rfl
@[simp] theorem exec_vredi (g : BitVec 4) (d : BitVec 5) (a : BitVec 6) (o : BitVec 3) (m : BitVec 3) (t : BitVec 2) (s : State) :
    exec (.vredi g d a o m t) s = execVredi g d a o m t s := rfl
@[simp] theorem exec_vredf (g : BitVec 4) (d : BitVec 5) (a : BitVec 6) (o : BitVec 3) (m : BitVec 3) (t : BitVec 2) (s : State) :
    exec (.vredf g d a o m t) s = execVredf g d a o m t s := rfl
@[simp] theorem exec_vrfill (g : BitVec 4) (d : BitVec 5) (m : BitVec 3) (t : BitVec 2) (s : State) :
    exec (.vrfill g d m t) s = execVrfill g d m t s := rfl
@[simp] theorem exec_vhist (g : BitVec 4) (a : BitVec 6) (f : BitVec 4) (m : BitVec 3) (s : State) :
    exec (.vhist g a f m) s = execVhist g a f m s := rfl
@[simp] theorem exec_vrmg031 (g : BitVec 4) (d : BitVec 5) (a : BitVec 6) (b : BitVec 6) (fs : BitVec 5) (s : State) :
    exec (.vrmg031 g d a b fs) s = execVrmg031 g d a b fs s := rfl
@[simp] theorem exec_vrmg3263 (g : BitVec 4) (d : BitVec 5) (a : BitVec 6) (b : BitVec 6) (fs : BitVec 5) (s : State) :
    exec (.vrmg3263 g d a b fs) s = execVrmg3263 g d a b fs s := rfl
@[simp] theorem exec_vbpt (g : BitVec 4) (d : BitVec 5) (a : BitVec 6) (t : BitVec 2) (s : State) :
    exec (.vbpt g d a t) s = execVbpt g d a t s := rfl
@[simp] theorem exec_vpack (g : BitVec 4) (d : BitVec 5) (a : BitVec 6) (b : BitVec 6) (w : BitVec 2) (v : BitVec 1) (o : BitVec 1) (s : State) :
    exec (.vpack g d a b w v o) s = execVpack g d a b w v o s := rfl
@[simp] theorem exec_vunpk (g : BitVec 4) (d : BitVec 5) (a : BitVec 6) (w : BitVec 2) (v : BitVec 1) (o : BitVec 1) (s : State) :
    exec (.vunpk g d a w v o) s = execVunpk g d a w v o s := rfl
@[simp] theorem exec_vdig (g : BitVec 4) (d : BitVec 5) (a : BitVec 6) (b : BitVec 6) (w : BitVec 2) (v : BitVec 1) (o : BitVec 1) (s : State) :
    exec (.vdig g d a b w v o) s = execVdig g d a b w v o s := rfl
@[simp] theorem exec_vbq (g : BitVec 4) (d : BitVec 5) (a : BitVec 6) (f : BitVec 4) (t : BitVec 4) (r : BitVec 3) (s : State) :
    exec (.vbq g d a f t r) s = execVbq g d a f t r s := rfl
@[simp] theorem exec_vbdq (g : BitVec 4) (d : BitVec 5) (a : BitVec 6) (f : BitVec 4) (t : BitVec 4) (r : BitVec 3) (s : State) :
    exec (.vbdq g d a f t r) s = execVbdq g d a f t r s := rfl
@[simp] theorem exec_push (g : BitVec 4) (q : BitVec 3) (r : BitVec 1) (s : State) :
    exec (.push g q r) s = execPush g q r s := rfl
@[simp] theorem exec_shift (g : BitVec 4) (s : State) :
    exec (.shift g) s = execShift g s := rfl
@[simp] theorem exec_acc (g : BitVec 4) (x : BitVec 1) (a : BitVec 3) (b : BitVec 3) (r : BitVec 2) (s : State) :
    exec (.acc g x a b r) s = execAcc g x a b r s := rfl
@[simp] theorem exec_dacc (g : BitVec 4) (x : BitVec 1) (a : BitVec 3) (r : BitVec 1) (s : State) :
    exec (.dacc g x a r) s = execDacc g x a r s := rfl
@[simp] theorem exec_drd (g : BitVec 4) (x : BitVec 1) (a : BitVec 8) (c : BitVec 1) (s : State) :
    exec (.drd g x a c) s = execDrd g x a c s := rfl
@[simp] theorem exec_drc (g : BitVec 4) (x : BitVec 1) (a : BitVec 8) (c : BitVec 1) (s : State) :
    exec (.drc g x a c) s = execDrc g x a c s := rfl
@[simp] theorem exec_mclr (g : BitVec 4) (x : BitVec 2) (s : State) :
    exec (.mclr g x) s = execMclr g x s := rfl
@[simp] theorem exec_sldA (g : BitVec 4) (q : BitVec 3) (s : State) :
    exec (.sldA g q) s = execSldA g q s := rfl
@[simp] theorem exec_sldB (g : BitVec 4) (q : BitVec 3) (s : State) :
    exec (.sldB g q) s = execSldB g q s := rfl
@[simp] theorem exec_a2v (g : BitVec 4) (d : BitVec 5) (a : BitVec 8) (q : BitVec 2) (s : State) :
    exec (.a2v g d a q) s = execA2v g d a q s := rfl
@[simp] theorem exec_v2a (g : BitVec 4) (a : BitVec 8) (q : BitVec 2) (v : BitVec 6) (s : State) :
    exec (.v2a g a q v) s = execV2a g a q v s := rfl
@[simp] theorem exec_a2s (g : BitVec 4) (a : BitVec 8) (t : BitVec 4) (r : BitVec 3) (n : BitVec 4) (s : State) :
    exec (.a2s g a t r n) s = execA2s g a t r n s := rfl
@[simp] theorem exec_aclr (g : BitVec 4) (a : BitVec 8) (n : BitVec 8) (s : State) :
    exec (.aclr g a n) s = execAclr g a n s := rfl
@[simp] theorem exec_resultLanding (core : Nat) (fw : Bool) (ser : Nat) (s : State) :
    exec (.resultLanding core fw ser) s = execResultLanding core fw ser s := rfl
@[simp] theorem exec_interlockedBundleEffect (core : Nat) (fw : Bool) (s : State) :
    exec (.interlockedBundleEffect core fw) s = execInterlockedBundleEffect core fw s := rfl
@[simp] theorem exec_loopBoundary (core : Nat) (fw : Bool) (s : State) :
    exec (.loopBoundary core fw) s = execLoopBoundary core fw s := rfl
@[simp] theorem exec_delegatedTrapEntry (core : Nat) (t : Trap) (s : State) :
    exec (.delegatedTrapEntry core t) s = execDelegatedTrapEntry core t s := rfl
@[simp] theorem exec_programContextStop (core : Nat) (t : Trap) (s : State) :
    exec (.programContextStop core t) s = execProgramContextStop core t s := rfl
@[simp] theorem exec_coreMachineCheck (core : Nat) (t : Trap) (s : State) :
    exec (.coreMachineCheck core t) s = execCoreMachineCheck core t s := rfl
@[simp] theorem exec_asyncEventTaken (core : Nat) (s : State) :
    exec (.asyncEventTaken core) s = execAsyncEventTaken core s := rfl
@[simp] theorem exec_globalTimeAlarm (core : Nat) (s : State) :
    exec (.globalTimeAlarm core) s = execGlobalTimeAlarm core s := rfl
@[simp] theorem exec_preemptionRequest (core : Nat) (s : State) :
    exec (.preemptionRequest core) s = execPreemptionRequest core s := rfl
@[simp] theorem exec_machineCheck (m : McReport) (s : State) :
    exec (.machineCheck m) s = execMachineCheck m s := rfl
@[simp] theorem exec_engineRowWrite (core : Nat) (fw : Bool) (chan : Nat) (ident : Nat) (s : State) :
    exec (.engineRowWrite core fw chan ident) s = execEngineRowWrite core fw chan ident s := rfl
@[simp] theorem exec_transferComplete (core : Nat) (fw : Bool) (chan : Nat) (ident : Nat) (s : State) :
    exec (.transferComplete core fw chan ident) s = execTransferComplete core fw chan ident s := rfl
@[simp] theorem exec_triggerFire (core : Nat) (fw : Bool) (chan : Nat) (s : State) :
    exec (.triggerFire core fw chan) s = execTriggerFire core fw chan s := rfl
@[simp] theorem exec_wstrTileStart (core : Nat) (fw : Bool) (chan : Nat) (ident : Nat) (s : State) :
    exec (.wstrTileStart core fw chan ident) s = execWstrTileStart core fw chan ident s := rfl
@[simp] theorem exec_wstrTileReady (core : Nat) (fw : Bool) (chan : Nat) (ident : Nat) (s : State) :
    exec (.wstrTileReady core fw chan ident) s = execWstrTileReady core fw chan ident s := rfl
@[simp] theorem exec_grelRelease (gang : Nat) (s : State) :
    exec (.grelRelease gang) s = execGrelRelease gang s := rfl
@[simp] theorem exec_collectiveFire (core : Nat) (tile : Nat) (s : State) :
    exec (.collectiveFire core tile) s = execCollectiveFire core tile s := rfl
@[simp] theorem exec_collectiveNodeCombine (key : CollKey) (lo : Nat) (k : Nat) (s : State) :
    exec (.collectiveNodeCombine key lo k) s = execCollectiveNodeCombine key lo k s := rfl
@[simp] theorem exec_collectiveComplete (core : Nat) (tile : Nat) (s : State) :
    exec (.collectiveComplete core tile) s = execCollectiveComplete core tile s := rfl
@[simp] theorem exec_linkFlitReceive (port : Nat) (lseq : BitVec 12) (crcOk : Bool) (f : Flit) (s : State) :
    exec (.linkFlitReceive port lseq crcOk f) s = execLinkFlitReceive port lseq crcOk f s := rfl
@[simp] theorem exec_negativeAcknowledgement (port : Nat) (lseq : BitVec 12) (s : State) :
    exec (.negativeAcknowledgement port lseq) s = execNegativeAcknowledgement port lseq s := rfl
@[simp] theorem exec_routeResendTimeout (dst : Nat) (cls : Nat) (s : State) :
    exec (.routeResendTimeout dst cls) s = execRouteResendTimeout dst cls s := rfl
@[simp] theorem exec_nodeLost (node : Nat) (s : State) :
    exec (.nodeLost node) s = execNodeLost node s := rfl
@[simp] theorem exec_collectiveFlit (f : Flit) (s : State) :
    exec (.collectiveFlit f) s = execCollectiveFlit f s := rfl
@[simp] theorem exec_readRequest (f : Flit) (s : State) :
    exec (.readRequest f) s = execReadRequest f s := rfl
@[simp] theorem exec_readResponse (f : Flit) (s : State) :
    exec (.readResponse f) s = execReadResponse f s := rfl
@[simp] theorem exec_rowWrite (f : Flit) (s : State) :
    exec (.rowWrite f) s = execRowWrite f s := rfl
@[simp] theorem exec_wordWrite (f : Flit) (s : State) :
    exec (.wordWrite f) s = execWordWrite f s := rfl
@[simp] theorem exec_atomicRequest (f : Flit) (s : State) :
    exec (.atomicRequest f) s = execAtomicRequest f s := rfl
@[simp] theorem exec_atomicResponse (f : Flit) (s : State) :
    exec (.atomicResponse f) s = execAtomicResponse f s := rfl
@[simp] theorem exec_writeAcknowledgement (f : Flit) (s : State) :
    exec (.writeAcknowledgement f) s = execWriteAcknowledgement f s := rfl
@[simp] theorem exec_retryWithWaitHint (f : Flit) (s : State) :
    exec (.retryWithWaitHint f) s = execRetryWithWaitHint f s := rfl
@[simp] theorem exec_bindingUpdate (f : Flit) (s : State) :
    exec (.bindingUpdate f) s = execBindingUpdate f s := rfl
@[simp] theorem exec_bindingUpdateApply (idx : Nat) (s : State) :
    exec (.bindingUpdateApply idx) s = execBindingUpdateApply idx s := rfl
@[simp] theorem exec_marker (f : Flit) (s : State) :
    exec (.marker f) s = execMarker f s := rfl
@[simp] theorem exec_caribouData (f : Flit) (s : State) :
    exec (.caribouData f) s = execCaribouData f s := rfl
@[simp] theorem exec_caribouDone (f : Flit) (s : State) :
    exec (.caribouDone f) s = execCaribouDone f s := rfl
@[simp] theorem exec_routeAcknowledgement (f : Flit) (s : State) :
    exec (.routeAcknowledgement f) s = execRouteAcknowledgement f s := rfl
@[simp] theorem exec_localMove (s : State) :
    exec (.localMove) s = execLocalMove s := rfl
@[simp] theorem exec_migrateOut (s : State) :
    exec (.migrateOut) s = execMigrateOut s := rfl
@[simp] theorem exec_loadRankMap (s : State) :
    exec (.loadRankMap) s = execLoadRankMap s := rfl
@[simp] theorem exec_loadPortTable (s : State) :
    exec (.loadPortTable) s = execLoadPortTable s := rfl
@[simp] theorem exec_dispatchTake (core : Nat) (s : State) :
    exec (.dispatchTake core) s = execDispatchTake core s := rfl
@[simp] theorem exec_launchPacketTake (core : Nat) (s : State) :
    exec (.launchPacketTake core) s = execLaunchPacketTake core s := rfl
@[simp] theorem exec_gangReservationComplete (gang : Nat) (s : State) :
    exec (.gangReservationComplete gang) s = execGangReservationComplete gang s := rfl
@[simp] theorem exec_partitionChange (core : Nat) (s : State) :
    exec (.partitionChange core) s = execPartitionChange core s := rfl
@[simp] theorem exec_gangRelease (gang : Nat) (s : State) :
    exec (.gangRelease gang) s = execGangRelease gang s := rfl
@[simp] theorem exec_readyWaitPreemption (die : Nat) (s : State) :
    exec (.readyWaitPreemption die) s = execReadyWaitPreemption die s := rfl
@[simp] theorem exec_stepBoundary (vrank : BitVec 16) (s : State) :
    exec (.stepBoundary vrank) s = execStepBoundary vrank s := rfl
@[simp] theorem exec_readyPacketReclaim (idx : Nat) (s : State) :
    exec (.readyPacketReclaim idx) s = execReadyPacketReclaim idx s := rfl
@[simp] theorem exec_memsideOperation (idx : Nat) (s : State) :
    exec (.memsideOperation idx) s = execMemsideOperation idx s := rfl
@[simp] theorem exec_orderedAddArrival (idx : Nat) (s : State) :
    exec (.orderedAddArrival idx) s = execOrderedAddArrival idx s := rfl
@[simp] theorem exec_reductionBlockRun (stack : Nat) (s : State) :
    exec (.reductionBlockRun stack) s = execReductionBlockRun stack s := rfl
@[simp] theorem exec_parityDifferenceApply (idx : Nat) (s : State) :
    exec (.parityDifferenceApply idx) s = execParityDifferenceApply idx s := rfl
@[simp] theorem exec_uncorrectableRead (row : Nat) (s : State) :
    exec (.uncorrectableRead row) s = execUncorrectableRead row s := rfl
@[simp] theorem exec_rowRemap (channel : Nat) (pseudo : Nat) (bank : Nat) (dramRow : Nat) (s : State) :
    exec (.rowRemap channel pseudo bank dramRow) s = execRowRemap channel pseudo bank dramRow s := rfl
@[simp] theorem exec_remapTableReload (channel : Nat) (s : State) :
    exec (.remapTableReload channel) s = execRemapTableReload channel s := rfl
@[simp] theorem exec_writeReachesAgent (write : Nat) (a : Agent) (s : State) :
    exec (.writeReachesAgent write a) s = execWriteReachesAgent write a s := rfl
@[simp] theorem exec_tlbiComplete (core : Nat) (s : State) :
    exec (.tlbiComplete core) s = execTlbiComplete core s := rfl
@[simp] theorem exec_coreStateError (core : Nat) (fw : Bool) (det : Nat) (s : State) :
    exec (.coreStateError core fw det) s = execCoreStateError core fw det s := rfl
@[simp] theorem exec_quiesceRecordUpdate (asid : BitVec 16) (s : State) :
    exec (.quiesceRecordUpdate asid) s = execQuiesceRecordUpdate asid s := rfl
@[simp] theorem exec_mirrorAccept (idx : Nat) (s : State) :
    exec (.mirrorAccept idx) s = execMirrorAccept idx s := rfl
@[simp] theorem exec_limiterWindowBoundary (core : Nat) (s : State) :
    exec (.limiterWindowBoundary core) s = execLimiterWindowBoundary core s := rfl
@[simp] theorem exec_thermalCapAdjust (s : State) :
    exec (.thermalCapAdjust) s = execThermalCapAdjust s := rfl
@[simp] theorem exec_temperatureUpdate (tmax : BitVec 8) (tin : BitVec 8) (s : State) :
    exec (.temperatureUpdate tmax tin) s = execTemperatureUpdate tmax tin s := rfl
@[simp] theorem exec_powerTrip (s : State) :
    exec (.powerTrip) s = execPowerTrip s := rfl
@[simp] theorem exec_powerUp (s : State) :
    exec (.powerUp) s = execPowerUp s := rfl
@[simp] theorem exec_identityTreeReady (s : State) :
    exec (.identityTreeReady) s = execIdentityTreeReady s := rfl
@[simp] theorem exec_linkUp (port : Nat) (refNode : BitVec 12) (refTime : Nat) (s : State) :
    exec (.linkUp port refNode refTime) s = execLinkUp port refNode refTime s := rfl
@[simp] theorem exec_referenceChange (refNode : BitVec 12) (off : Int) (s : State) :
    exec (.referenceChange refNode off) s = execReferenceChange refNode off s := rfl
@[simp] theorem exec_sessionLinkTimeout (port : Bool) (s : State) :
    exec (.sessionLinkTimeout port) s = execSessionLinkTimeout port s := rfl
@[simp] theorem exec_hostRead (m : PortMsg) (s : State) :
    exec (.hostRead m) s = execHostRead m s := rfl
@[simp] theorem exec_hostWrite (m : PortMsg) (s : State) :
    exec (.hostWrite m) s = execHostWrite m s := rfl
@[simp] theorem exec_queueAppend (m : PortMsg) (s : State) :
    exec (.queueAppend m) s = execQueueAppend m s := rfl
@[simp] theorem exec_regRead (m : PortMsg) (s : State) :
    exec (.regRead m) s = execRegRead m s := rfl
@[simp] theorem exec_regWrite (m : PortMsg) (s : State) :
    exec (.regWrite m) s = execRegWrite m s := rfl
@[simp] theorem exec_semAcquire (m : PortMsg) (s : State) :
    exec (.semAcquire m) s = execSemAcquire m s := rfl
@[simp] theorem exec_semRelease (m : PortMsg) (s : State) :
    exec (.semRelease m) s = execSemRelease m s := rfl
@[simp] theorem exec_imageChunk (m : PortMsg) (s : State) :
    exec (.imageChunk m) s = execImageChunk m s := rfl
@[simp] theorem exec_commitBoot (m : PortMsg) (s : State) :
    exec (.commitBoot m) s = execCommitBoot m s := rfl
@[simp] theorem exec_commitHandOver (m : PortMsg) (s : State) :
    exec (.commitHandOver m) s = execCommitHandOver m s := rfl
@[simp] theorem exec_attest (m : PortMsg) (s : State) :
    exec (.attest m) s = execAttest m s := rfl
@[simp] theorem exec_compareManifest (m : PortMsg) (s : State) :
    exec (.compareManifest m) s = execCompareManifest m s := rfl
@[simp] theorem exec_openSession (m : PortMsg) (s : State) :
    exec (.openSession m) s = execOpenSession m s := rfl
@[simp] theorem exec_closeSession (m : PortMsg) (s : State) :
    exec (.closeSession m) s = execCloseSession m s := rfl
@[simp] theorem exec_notify (m : PortMsg) (s : State) :
    exec (.notify m) s = execNotify m s := rfl
@[simp] theorem exec_hodone (core : Nat) (v : Word) (s : State) :
    exec (.hodone core v) s = execHodone core v s := rfl
@[simp] theorem exec_handoverTimeout (s : State) :
    exec (.handoverTimeout) s = execHandoverTimeout s := rfl
@[simp] theorem exec_firmwareRequestWord (core : Nat) (op : MemOp) (v : Word) (cmp : Word) (s : State) :
    exec (.firmwareRequestWord core op v cmp) s = execFirmwareRequestWord core op v cmp s := rfl
@[simp] theorem exec_regionAnnounce (v : Word) (s : State) :
    exec (.regionAnnounce v) s = execRegionAnnounce v s := rfl
@[simp] theorem exec_rampWordWrite (v : Word) (s : State) :
    exec (.rampWordWrite v) s = execRampWordWrite v s := rfl
@[simp] theorem exec_tkey7Write (core : Nat) (v : Word) (s : State) :
    exec (.tkey7Write core v) s = execTkey7Write core v s := rfl
@[simp] theorem exec_tregWrite (core : Nat) (v : Word) (s : State) :
    exec (.tregWrite core v) s = execTregWrite core v s := rfl
@[simp] theorem exec_cacheLineWriteBack (row : Nat) (s : State) :
    exec (.cacheLineWriteBack row) s = execCacheLineWriteBack row s := rfl
@[simp] theorem exec_inputPowerLoss (s : State) :
    exec (.inputPowerLoss) s = execInputPowerLoss s := rfl
@[simp] theorem exec_timeReferenceSettled (s : State) :
    exec (.timeReferenceSettled) s = execTimeReferenceSettled s := rfl
@[simp] theorem exec_regionTableLoadComplete (s : State) :
    exec (.regionTableLoadComplete) s = execRegionTableLoadComplete s := rfl
@[simp] theorem exec_badControlFrame (m : PortMsg) (s : State) :
    exec (.badControlFrame m) s = execBadControlFrame m s := rfl
@[simp] theorem exec_reservedCodeFlit (f : Flit) (s : State) :
    exec (.reservedCodeFlit f) s = execReservedCodeFlit f s := rfl

end Sys2Proof.Machine
end

