-- ==== Sys2Proof/Laws/State.lean ====
section
/-! SUPPORT. What each named update of the state leaves in each field, and what reading after it gives. -/

namespace Sys2Proof.Machine

/-! ## Tables -/

theorem Tab.get_insert_erase_self {α : Type} (d : α) (t : Tab α) (i : Nat) (v : α) :
    Tab.get d (Tab.insert (Tab.erase t i) i v) i = v := by
  induction t with
  | nil => simp [Tab.erase, Tab.insert, Tab.get]
  | cons e t ih =>
    obtain ⟨k, w⟩ := e
    by_cases h : i = k
    · simpa [Tab.erase, h] using (by simpa [h] using ih)
    · by_cases g : i < k <;> simp [Tab.erase, Tab.insert, Tab.get, h, g, ih]

@[simp] theorem Tab.get_put_self {α : Type} (d : α) (t : Tab α) (i : Nat) (v : α) :
    Tab.get d (Tab.put t i v) i = v := Tab.get_insert_erase_self d t i v

theorem Tab.get_insert_ne {α : Type} (d : α) (t : Tab α) (i j : Nat) (v : α) (h : j ≠ i) :
    Tab.get d (Tab.insert t i v) j = Tab.get d t j := by
  induction t with
  | nil => simp [Tab.insert, Tab.get, h]
  | cons e t ih =>
    obtain ⟨k, w⟩ := e
    by_cases g : i < k <;> simp [Tab.insert, Tab.get, h, g, ih]

theorem Tab.get_erase_ne {α : Type} (d : α) (t : Tab α) (i j : Nat) (h : j ≠ i) :
    Tab.get d (Tab.erase t i) j = Tab.get d t j := by
  induction t with
  | nil => rfl
  | cons e t ih =>
    obtain ⟨k, w⟩ := e
    by_cases g : i = k
    · subst g; simp [Tab.erase, Tab.get, h, ih]
    · simp [Tab.erase, Tab.get, g, ih]

/-- Read after write elsewhere. -/
@[simp] theorem Tab.get_put_ne {α : Type} (d : α) (t : Tab α) (i j : Nat) (v : α) (h : j ≠ i) :
    Tab.get d (Tab.put t i v) j = Tab.get d t j := by
  rw [Tab.put, Tab.get_insert_ne d _ i j v h, Tab.get_erase_ne d t i j h]

/-! ## One core replaced -/

@[simp] theorem State.core_setCore (s : State) (c : Nat) (k : Core) : (s.setCore c k).core c = k := by
  simp [State.setCore, State.core]

@[simp] theorem State.core_setCore_ne (s : State) (c d : Nat) (k : Core) (h : d ≠ c) :
    (s.setCore c k).core d = s.core d := by
  simp [State.setCore, State.core, h]

@[simp] theorem State.me_setMe (s : State) (k : Core) : (s.setMe k).me = k := by
  simp [State.setMe, State.me, State.setCore, State.core]

@[simp] theorem State.core_setMe_ne (s : State) (c : Nat) (k : Core) (h : c ≠ s.iss.core) :
    (s.setMe k).core c = s.core c := by
  simp [State.setMe, h]

@[simp] theorem Core.ctx_setCtx (k : Core) (fw : Bool) (x : Ctx) : (k.setCtx fw x).ctx fw = x := by
  cases fw <;> rfl

@[simp] theorem Core.ctx_setCtx_not (k : Core) (fw : Bool) (x : Ctx) :
    (k.setCtx fw x).ctx (!fw) = k.ctx (!fw) := by
  cases fw <;> rfl

@[simp] theorem State.setCore_mem (s : State) (c : Nat) (k : Core) : (s.setCore c k).mem = s.mem := rfl
@[simp] theorem State.setCore_disp (s : State) (c : Nat) (k : Core) : (s.setCore c k).disp = s.disp := rfl
@[simp] theorem State.setCore_binds (s : State) (c : Nat) (k : Core) : (s.setCore c k).binds = s.binds := rfl
@[simp] theorem State.setCore_colls (s : State) (c : Nat) (k : Core) : (s.setCore c k).colls = s.colls := rfl
@[simp] theorem State.setCore_fab (s : State) (c : Nat) (k : Core) : (s.setCore c k).fab = s.fab := rfl
@[simp] theorem State.setCore_car (s : State) (c : Nat) (k : Core) : (s.setCore c k).car = s.car := rfl
@[simp] theorem State.setCore_hub (s : State) (c : Nat) (k : Core) : (s.setCore c k).hub = s.hub := rfl
@[simp] theorem State.setCore_iss (s : State) (c : Nat) (k : Core) : (s.setCore c k).iss = s.iss := rfl
@[simp] theorem State.setCore_turns (s : State) (c : Nat) (k : Core) : (s.setCore c k).turns = s.turns := rfl
@[simp] theorem State.setCore_fresh (s : State) (c : Nat) (k : Core) : (s.setCore c k).fresh = s.fresh := rfl

@[simp] theorem State.setMe_mem (s : State) (k : Core) : (s.setMe k).mem = s.mem := rfl
@[simp] theorem State.setMe_disp (s : State) (k : Core) : (s.setMe k).disp = s.disp := rfl
@[simp] theorem State.setMe_binds (s : State) (k : Core) : (s.setMe k).binds = s.binds := rfl
@[simp] theorem State.setMe_colls (s : State) (k : Core) : (s.setMe k).colls = s.colls := rfl
@[simp] theorem State.setMe_fab (s : State) (k : Core) : (s.setMe k).fab = s.fab := rfl
@[simp] theorem State.setMe_car (s : State) (k : Core) : (s.setMe k).car = s.car := rfl
@[simp] theorem State.setMe_hub (s : State) (k : Core) : (s.setMe k).hub = s.hub := rfl
@[simp] theorem State.setMe_iss (s : State) (k : Core) : (s.setMe k).iss = s.iss := rfl
@[simp] theorem State.setMe_turns (s : State) (k : Core) : (s.setMe k).turns = s.turns := rfl
@[simp] theorem State.setMe_fresh (s : State) (k : Core) : (s.setMe k).fresh = s.fresh := rfl

@[simp] theorem State.setCtx_mem (s : State) (x : Ctx) : (s.setCtx x).mem = s.mem := rfl
@[simp] theorem State.setCtx_disp (s : State) (x : Ctx) : (s.setCtx x).disp = s.disp := rfl
@[simp] theorem State.setCtx_binds (s : State) (x : Ctx) : (s.setCtx x).binds = s.binds := rfl
@[simp] theorem State.setCtx_colls (s : State) (x : Ctx) : (s.setCtx x).colls = s.colls := rfl
@[simp] theorem State.setCtx_fab (s : State) (x : Ctx) : (s.setCtx x).fab = s.fab := rfl
@[simp] theorem State.setCtx_car (s : State) (x : Ctx) : (s.setCtx x).car = s.car := rfl
@[simp] theorem State.setCtx_hub (s : State) (x : Ctx) : (s.setCtx x).hub = s.hub := rfl
@[simp] theorem State.setCtx_iss (s : State) (x : Ctx) : (s.setCtx x).iss = s.iss := rfl
@[simp] theorem State.setCtx_turns (s : State) (x : Ctx) : (s.setCtx x).turns = s.turns := rfl
@[simp] theorem State.setCtx_fresh (s : State) (x : Ctx) : (s.setCtx x).fresh = s.fresh := rfl

@[simp] theorem State.setPx_mem (s : State) (x : ProgX) : (s.setPx x).mem = s.mem := rfl
@[simp] theorem State.setPx_disp (s : State) (x : ProgX) : (s.setPx x).disp = s.disp := rfl
@[simp] theorem State.setPx_binds (s : State) (x : ProgX) : (s.setPx x).binds = s.binds := rfl
@[simp] theorem State.setPx_colls (s : State) (x : ProgX) : (s.setPx x).colls = s.colls := rfl
@[simp] theorem State.setPx_fab (s : State) (x : ProgX) : (s.setPx x).fab = s.fab := rfl
@[simp] theorem State.setPx_car (s : State) (x : ProgX) : (s.setPx x).car = s.car := rfl
@[simp] theorem State.setPx_hub (s : State) (x : ProgX) : (s.setPx x).hub = s.hub := rfl
@[simp] theorem State.setPx_iss (s : State) (x : ProgX) : (s.setPx x).iss = s.iss := rfl
@[simp] theorem State.setPx_turns (s : State) (x : ProgX) : (s.setPx x).turns = s.turns := rfl
@[simp] theorem State.setPx_fresh (s : State) (x : ProgX) : (s.setPx x).fresh = s.fresh := rfl

@[simp] theorem State.setFx_mem (s : State) (x : FwX) : (s.setFx x).mem = s.mem := rfl
@[simp] theorem State.setFx_disp (s : State) (x : FwX) : (s.setFx x).disp = s.disp := rfl
@[simp] theorem State.setFx_binds (s : State) (x : FwX) : (s.setFx x).binds = s.binds := rfl
@[simp] theorem State.setFx_colls (s : State) (x : FwX) : (s.setFx x).colls = s.colls := rfl
@[simp] theorem State.setFx_fab (s : State) (x : FwX) : (s.setFx x).fab = s.fab := rfl
@[simp] theorem State.setFx_car (s : State) (x : FwX) : (s.setFx x).car = s.car := rfl
@[simp] theorem State.setFx_hub (s : State) (x : FwX) : (s.setFx x).hub = s.hub := rfl
@[simp] theorem State.setFx_iss (s : State) (x : FwX) : (s.setFx x).iss = s.iss := rfl
@[simp] theorem State.setFx_turns (s : State) (x : FwX) : (s.setFx x).turns = s.turns := rfl
@[simp] theorem State.setFx_fresh (s : State) (x : FwX) : (s.setFx x).fresh = s.fresh := rfl

@[simp] theorem State.setSp_mem (s : State) (x : Scratch) : (s.setSp x).mem = s.mem := rfl
@[simp] theorem State.setSp_disp (s : State) (x : Scratch) : (s.setSp x).disp = s.disp := rfl
@[simp] theorem State.setSp_binds (s : State) (x : Scratch) : (s.setSp x).binds = s.binds := rfl
@[simp] theorem State.setSp_colls (s : State) (x : Scratch) : (s.setSp x).colls = s.colls := rfl
@[simp] theorem State.setSp_fab (s : State) (x : Scratch) : (s.setSp x).fab = s.fab := rfl
@[simp] theorem State.setSp_car (s : State) (x : Scratch) : (s.setSp x).car = s.car := rfl
@[simp] theorem State.setSp_hub (s : State) (x : Scratch) : (s.setSp x).hub = s.hub := rfl
@[simp] theorem State.setSp_iss (s : State) (x : Scratch) : (s.setSp x).iss = s.iss := rfl
@[simp] theorem State.setSp_turns (s : State) (x : Scratch) : (s.setSp x).turns = s.turns := rfl
@[simp] theorem State.setSp_fresh (s : State) (x : Scratch) : (s.setSp x).fresh = s.fresh := rfl

@[simp] theorem State.issueBits_mem (s : State) (d : Dest) (v m : Row) (b : Nat) (f : BitVec 7) (q : Bool) : (s.issueBits d v m b f q).mem = s.mem := rfl
@[simp] theorem State.issueBits_disp (s : State) (d : Dest) (v m : Row) (b : Nat) (f : BitVec 7) (q : Bool) : (s.issueBits d v m b f q).disp = s.disp := rfl
@[simp] theorem State.issueBits_binds (s : State) (d : Dest) (v m : Row) (b : Nat) (f : BitVec 7) (q : Bool) : (s.issueBits d v m b f q).binds = s.binds := rfl
@[simp] theorem State.issueBits_colls (s : State) (d : Dest) (v m : Row) (b : Nat) (f : BitVec 7) (q : Bool) : (s.issueBits d v m b f q).colls = s.colls := rfl
@[simp] theorem State.issueBits_fab (s : State) (d : Dest) (v m : Row) (b : Nat) (f : BitVec 7) (q : Bool) : (s.issueBits d v m b f q).fab = s.fab := rfl
@[simp] theorem State.issueBits_car (s : State) (d : Dest) (v m : Row) (b : Nat) (f : BitVec 7) (q : Bool) : (s.issueBits d v m b f q).car = s.car := rfl
@[simp] theorem State.issueBits_hub (s : State) (d : Dest) (v m : Row) (b : Nat) (f : BitVec 7) (q : Bool) : (s.issueBits d v m b f q).hub = s.hub := rfl
@[simp] theorem State.issueBits_iss (s : State) (d : Dest) (v m : Row) (b : Nat) (f : BitVec 7) (q : Bool) : (s.issueBits d v m b f q).iss = s.iss := rfl
@[simp] theorem State.issueBits_turns (s : State) (d : Dest) (v m : Row) (b : Nat) (f : BitVec 7) (q : Bool) : (s.issueBits d v m b f q).turns = s.turns := rfl
@[simp] theorem State.issueBits_fresh (s : State) (d : Dest) (v m : Row) (b : Nat) (f : BitVec 7) (q : Bool) : (s.issueBits d v m b f q).fresh = s.fresh := rfl

@[simp] theorem Core.setCtx_px (k : Core) (fw : Bool) (x : Ctx) : (k.setCtx fw x).px = k.px := by cases fw <;> rfl
@[simp] theorem Core.setCtx_fx (k : Core) (fw : Bool) (x : Ctx) : (k.setCtx fw x).fx = k.fx := by cases fw <;> rfl
@[simp] theorem Core.setCtx_sp (k : Core) (fw : Bool) (x : Ctx) : (k.setCtx fw x).sp = k.sp := by cases fw <;> rfl
@[simp] theorem Core.setCtx_lim (k : Core) (fw : Bool) (x : Ctx) : (k.setCtx fw x).lim = k.lim := by cases fw <;> rfl
@[simp] theorem Core.setCtx_xfers (k : Core) (fw : Bool) (x : Ctx) : (k.setCtx fw x).xfers = k.xfers := by cases fw <;> rfl
@[simp] theorem Core.setCtx_strand (k : Core) (fw : Bool) (x : Ctx) : (k.setCtx fw x).strand = k.strand := by cases fw <;> rfl
@[simp] theorem Core.setCtx_cycle (k : Core) (fw : Bool) (x : Ctx) : (k.setCtx fw x).cycle = k.cycle := by cases fw <;> rfl
@[simp] theorem Core.setCtx_ser (k : Core) (fw : Bool) (x : Ctx) : (k.setCtx fw x).ser = k.ser := by cases fw <;> rfl
@[simp] theorem Core.setCtx_held (k : Core) (fw : Bool) (x : Ctx) : (k.setCtx fw x).held = k.held := by cases fw <;> rfl
@[simp] theorem Core.setCtx_repart (k : Core) (fw : Bool) (x : Ctx) : (k.setCtx fw x).repart = k.repart := by cases fw <;> rfl
@[simp] theorem Core.setCtx_lastAsid (k : Core) (fw : Bool) (x : Ctx) : (k.setCtx fw x).lastAsid = k.lastAsid := by cases fw <;> rfl
@[simp] theorem Core.setCtx_dead (k : Core) (fw : Bool) (x : Ctx) : (k.setCtx fw x).dead = k.dead := by cases fw <;> rfl
@[simp] theorem Core.setCtx_handed (k : Core) (fw : Bool) (x : Ctx) : (k.setCtx fw x).handed = k.handed := by cases fw <;> rfl
@[simp] theorem Core.setCtx_swap (k : Core) (fw : Bool) (x : Ctx) : (k.setCtx fw x).swap = k.swap := by cases fw <;> rfl
@[simp] theorem Core.setCtx_swapTo (k : Core) (fw : Bool) (x : Ctx) : (k.setCtx fw x).swapTo = k.swapTo := by cases fw <;> rfl
@[simp] theorem Core.setCtx_forced (k : Core) (fw : Bool) (x : Ctx) : (k.setCtx fw x).forced = k.forced := by cases fw <;> rfl
@[simp] theorem Core.setCtx_preempt (k : Core) (fw : Bool) (x : Ctx) : (k.setCtx fw x).preempt = k.preempt := by cases fw <;> rfl
@[simp] theorem Core.setCtx_kill (k : Core) (fw : Bool) (x : Ctx) : (k.setCtx fw x).kill = k.kill := by cases fw <;> rfl
@[simp] theorem Core.setCtx_pre (k : Core) (fw : Bool) (x : Ctx) : (k.setCtx fw x).pre = k.pre := by cases fw <;> rfl
@[simp] theorem Core.setCtx_parked (k : Core) (fw : Bool) (x : Ctx) : (k.setCtx fw x).parked = k.parked := by cases fw <;> rfl
@[simp] theorem Core.setCtx_toSave (k : Core) (fw : Bool) (x : Ctx) : (k.setCtx fw x).toSave = k.toSave := by cases fw <;> rfl
@[simp] theorem Core.setCtx_code (k : Core) (fw : Bool) (x : Ctx) : (k.setCtx fw x).code = k.code := by cases fw <;> rfl
@[simp] theorem Core.setCtx_faulty (k : Core) (fw : Bool) (x : Ctx) : (k.setCtx fw x).faulty = k.faulty := by cases fw <;> rfl

@[simp] theorem State.ctx_setCtx (s : State) (x : Ctx) : (s.setCtx x).ctx = x := by
  simp [State.ctx, State.setCtx]

@[simp] theorem State.px_setPx (s : State) (x : ProgX) : (s.setPx x).px = x := by
  simp [State.px, State.setPx]

@[simp] theorem State.fx_setFx (s : State) (x : FwX) : (s.setFx x).fx = x := by
  simp [State.fx, State.setFx]

@[simp] theorem State.sp_setSp (s : State) (x : Scratch) : (s.setSp x).sp = x := by
  simp [State.sp, State.setSp]

@[simp] theorem State.px_setCtx (s : State) (x : Ctx) : (s.setCtx x).px = s.px := by
  simp [State.px, State.setCtx]

@[simp] theorem State.sp_setCtx (s : State) (x : Ctx) : (s.setCtx x).sp = s.sp := by
  simp [State.sp, State.setCtx]

@[simp] theorem State.fx_setCtx (s : State) (x : Ctx) : (s.setCtx x).fx = s.fx := by
  simp [State.fx, State.setCtx]

@[simp] theorem State.ctx_setPx (s : State) (x : ProgX) : (s.setPx x).ctx = s.ctx := by
  simp [State.ctx, State.setPx, Core.ctx]

@[simp] theorem State.ctx_setFx (s : State) (x : FwX) : (s.setFx x).ctx = s.ctx := by
  simp [State.ctx, State.setFx, Core.ctx]

@[simp] theorem State.ctx_setSp (s : State) (x : Scratch) : (s.setSp x).ctx = s.ctx := by
  simp [State.ctx, State.setSp, Core.ctx]

@[simp] theorem State.sp_setPx (s : State) (x : ProgX) : (s.setPx x).sp = s.sp := by
  simp [State.sp, State.setPx]

@[simp] theorem State.px_setSp (s : State) (x : Scratch) : (s.setSp x).px = s.px := by
  simp [State.px, State.setSp]

@[simp] theorem State.fx_setPx (s : State) (x : ProgX) : (s.setPx x).fx = s.fx := by
  simp [State.fx, State.setPx]

/-! ## An issue -/

/-- The three ends of an issue under a true guard, and its end under a false one (R16). -/
@[simp] theorem issue_ok (g : BitVec 4) (s t : State) (h : s.readP g = true) : issue g s (.ok t) = .next t := by
  simp [issue, h]

@[simp] theorem issue_trap (g : BitVec 4) (s : State) (t : Trap) (l : List Nat) (h : s.readP g = true) :
    issue g s (.trap t l) = .next (s.trapped t l) := by
  simp [issue, h]

@[simp] theorem issue_wait (g : BitVec 4) (s : State) (w : Wait) (h : s.readP g = true) :
    issue g s (.wait w) = .next (s.waiting w) := by
  simp [issue, h]

theorem issue_false (g : BitVec 4) (s : State) (r : Res) (h : s.readP g = false) : issue g s r = .next s := by
  simp [issue, h]

/-- An issue ends in a next state unless its result is a stop; it never refuses. -/
theorem issue_ne_refused (g : BitVec 4) (s : State) (r : Res) (x : Refusal) : issue g s r ≠ .refused x := by
  unfold issue; split
  · split <;> simp
  · simp

@[simp] theorem Res.andThen_ok {α : Type} (a : α) (f : α → Res) : Res.andThen (.ok a) f = f a := rfl

@[simp] theorem Res.andThen_error {α : Type} (r : Res) (f : α → Res) : Res.andThen (.error r) f = r := rfl

/-- The whole of what an issued result changes: one entry of the issuing context's list, and the core's counter. -/
theorem State.issueBits_me (s : State) (d : Dest) (v m : Row) (b : Nat) (f : BitVec 7) (q : Bool) :
    (s.issueBits d v m b f q).me = ({ s.me with ser := s.me.ser + 1 } : Core).setCtx s.iss.fw
      { s.ctx with pend := insertPend s.ctx.pend (Pend.mk d v m m s.me.cycle (s.me.cycle + b) s.iss.slot s.me.ser f q false) } := by
  simp [State.issueBits]

theorem mem_insertPend (l : List Pend) (e x : Pend) : x ∈ insertPend l e ↔ x = e ∨ x ∈ l := by
  induction l with
  | nil => simp [insertPend]
  | cons y t ih =>
    unfold insertPend
    split
    · simp
    · simp [ih, or_left_comm]

end Sys2Proof.Machine
end

