-- ==== Sys2Proof/Laws/Memory.lean ====
section
/-! SUPPORT. The laws of tables and of memory: reading back what was written, and that every operation over memory keeps
the list of bytes in its one canonical form. -/

namespace Sys2Proof.Machine

/-! ## Tables -/

theorem Tab.get_erase {α : Type} (d : α) (t : Tab α) (i j : Nat) :
    Tab.get d (Tab.erase t i) j = if j = i then d else Tab.get d t j := by
  induction t with
  | nil => simp [Tab.erase, Tab.get]
  | cons e t ih =>
    obtain ⟨k, v⟩ := e
    simp only [Tab.erase]
    split
    · subst_vars; rw [ih]; by_cases h : j = k <;> simp [Tab.get, h]
    · simp only [Tab.get, ih]
      by_cases h : j = k <;> simp [h]
      grind

theorem Tab.erase_no_key {α : Type} (t : Tab α) (i : Nat) : ∀ e ∈ Tab.erase t i, e.1 ≠ i := by
  induction t with
  | nil => simp [Tab.erase]
  | cons e t ih =>
    obtain ⟨k, v⟩ := e
    simp only [Tab.erase]
    split
    · exact ih
    · intro e he; rcases List.mem_cons.1 he with rfl | he
      · simpa using fun h => ‹¬ i = k› h.symm
      · exact ih e he

theorem Tab.erase_sub {α : Type} (t : Tab α) (i : Nat) : ∀ e ∈ Tab.erase t i, e ∈ t := by
  induction t with
  | nil => simp [Tab.erase]
  | cons e t ih =>
    obtain ⟨k, v⟩ := e
    simp only [Tab.erase]
    split
    · intro e he; exact List.mem_cons_of_mem _ (ih e he)
    · intro e he; rcases List.mem_cons.1 he with rfl | he
      · simp
      · exact List.mem_cons_of_mem _ (ih e he)

/-- A read of the key just written, or of another. -/
theorem Tab.get_put {α : Type} (d : α) (t : Tab α) (i : Nat) (v : α) (j : Nat) :
    Tab.get d (Tab.put t i v) j = if j = i then v else Tab.get d t j := by
  split
  · subst_vars; exact Tab.get_put_self d t j v
  · exact Tab.get_put_ne d t i j v ‹_›

@[simp] theorem Tab.get_set {α : Type} [DecidableEq α] (d : α) (t : Tab α) (i : Nat) (v : α) (j : Nat) :
    Tab.get d (Tab.set d t i v) j = if j = i then v else Tab.get d t j := by
  unfold Tab.set
  split
  · subst_vars; exact Tab.get_erase v t i j
  · exact Tab.get_put d t i v j

theorem Tab.rising_cons {α : Type} (e : Nat × α) (t : Tab α) :
    Tab.rising (e :: t) = true ↔ (∀ x ∈ t, e.1 < x.1) ∧ Tab.rising t = true := by
  induction t generalizing e with
  | nil => simp [Tab.rising]
  | cons x t ih =>
    obtain ⟨k, v⟩ := e
    obtain ⟨k', v'⟩ := x
    have := ih (k', v')
    simp only [Tab.rising, Bool.and_eq_true, decide_eq_true_eq, List.mem_cons, forall_eq_or_imp] at *
    constructor
    · rintro ⟨h, h'⟩
      exact ⟨⟨h, fun x hx => Nat.lt_trans h ((this.1 h').1 x hx)⟩, h'⟩
    · rintro ⟨⟨h, _⟩, h'⟩; exact ⟨h, h'⟩

theorem Tab.rising_erase {α : Type} (t : Tab α) (i : Nat) (h : Tab.rising t = true) :
    Tab.rising (Tab.erase t i) = true := by
  induction t with
  | nil => simp [Tab.erase, Tab.rising]
  | cons e t ih =>
    obtain ⟨k, v⟩ := e
    obtain ⟨h1, h2⟩ := (Tab.rising_cons _ _).1 h
    simp only [Tab.erase]
    split
    · exact ih h2
    · exact (Tab.rising_cons _ _).2 ⟨fun x hx => h1 x (Tab.erase_sub t i x hx), ih h2⟩

theorem Tab.mem_insert {α : Type} (t : Tab α) (i : Nat) (v : α) (x : Nat × α) :
    x ∈ Tab.insert t i v ↔ x = (i, v) ∨ x ∈ t := by
  induction t with
  | nil => simp [Tab.insert]
  | cons e t ih =>
    obtain ⟨k, w⟩ := e
    simp only [Tab.insert]
    split
    · simp
    · simp only [List.mem_cons, ih]; tauto

theorem Tab.rising_insert {α : Type} (t : Tab α) (i : Nat) (v : α) (h : Tab.rising t = true)
    (hn : ∀ e ∈ t, e.1 ≠ i) : Tab.rising (Tab.insert t i v) = true := by
  induction t with
  | nil => simp [Tab.insert, Tab.rising]
  | cons e t ih =>
    obtain ⟨k, w⟩ := e
    obtain ⟨h1, h2⟩ := (Tab.rising_cons _ _).1 h
    have hk : k ≠ i := hn (k, w) (by simp)
    simp only [Tab.insert]
    split
    · refine (Tab.rising_cons _ _).2 ⟨?_, h⟩
      intro x hx; rcases List.mem_cons.1 hx with rfl | hx
      · assumption
      · exact Nat.lt_trans ‹i < k› (h1 x hx)
    · refine (Tab.rising_cons _ _).2 ⟨?_, ih h2 fun e he => hn e (by simp [he])⟩
      intro x hx; rcases (Tab.mem_insert _ _ _ _).1 hx with rfl | hx
      · show k < i; omega
      · exact h1 x hx

theorem Tab.rising_put {α : Type} (t : Tab α) (i : Nat) (v : α) (h : Tab.rising t = true) :
    Tab.rising (Tab.put t i v) = true :=
  Tab.rising_insert _ _ _ (Tab.rising_erase t i h) (Tab.erase_no_key t i)

theorem Tab.canonical_iff {α : Type} [DecidableEq α] (d : α) (t : Tab α) :
    Tab.canonical d t = true ↔ Tab.rising t = true ∧ ∀ e ∈ t, e.2 ≠ d := by
  simp [Tab.canonical]

theorem Tab.canonical_erase {α : Type} [DecidableEq α] (d : α) (t : Tab α) (i : Nat)
    (h : Tab.canonical d t = true) : Tab.canonical d (Tab.erase t i) = true := by
  rw [Tab.canonical_iff] at *
  exact ⟨Tab.rising_erase t i h.1, fun e he => h.2 e (Tab.erase_sub t i e he)⟩

/-- A write keeps a table in canonical form. -/
theorem Tab.canonical_set {α : Type} [DecidableEq α] (d : α) (t : Tab α) (i : Nat) (v : α)
    (h : Tab.canonical d t = true) : Tab.canonical d (Tab.set d t i v) = true := by
  unfold Tab.set
  split
  · exact Tab.canonical_erase d t i h
  · rw [Tab.canonical_iff] at *
    refine ⟨Tab.rising_put t i v h.1, fun e he => ?_⟩
    rcases (Tab.mem_insert _ _ _ _).1 he with rfl | he
    · assumption
    · exact h.2 e (Tab.erase_sub t i e he)

theorem Tab.rising_filter {α : Type} (t : Tab α) (p : Nat × α → Bool) (h : Tab.rising t = true) :
    Tab.rising (t.filter p) = true := by
  induction t with
  | nil => rfl
  | cons e t ih =>
    obtain ⟨h1, h2⟩ := (Tab.rising_cons _ _).1 h
    rw [List.filter_cons]
    split
    · exact (Tab.rising_cons _ _).2 ⟨fun x hx => h1 x (List.mem_of_mem_filter hx), ih h2⟩
    · exact ih h2

theorem Tab.canonical_filter {α : Type} [DecidableEq α] (d : α) (t : Tab α) (p : Nat × α → Bool)
    (h : Tab.canonical d t = true) : Tab.canonical d (t.filter p) = true := by
  rw [Tab.canonical_iff] at *
  exact ⟨Tab.rising_filter t p h.1, fun e he => h.2 e (List.mem_of_mem_filter he)⟩

/-! ## Bytes -/

theorem putBytes_canonical (c : List Host.Cell) (pa : Nat) (l : List Byte)
    (h : Tab.canonical (0 : Byte) c = true) : Tab.canonical (0 : Byte) (putBytes c pa l) = true := by
  induction l generalizing c pa with
  | nil => exact h
  | cons b t ih => exact ih _ _ (Tab.canonical_set 0 c pa b h)

/-- Bytes written one after another: byte `a` afterwards. -/
theorem get_putBytes (c : List Host.Cell) (pa : Nat) (l : List Byte) (a : Nat) :
    Tab.get 0 (putBytes c pa l) a =
      if h : pa ≤ a ∧ a < pa + l.length then l[a - pa]'(by omega) else Tab.get 0 c a := by
  induction l generalizing c pa with
  | nil => simp [putBytes]
  | cons b t ih =>
    simp only [putBytes, ih, Tab.get_set, List.length_cons]
    by_cases h1 : pa + 1 ≤ a ∧ a < pa + 1 + t.length
    · have h2 : pa ≤ a ∧ a < pa + (t.length + 1) := by omega
      have h3 : a - pa = (a - (pa + 1)) + 1 := by omega
      simp [h1, h2, h3]
    · by_cases h4 : a = pa
      · subst h4; simp
      · have h2 : ¬ (pa ≤ a ∧ a < pa + (t.length + 1)) := by omega
        have h5 : ¬ (pa < a ∧ a < pa + 1 + t.length) := by omega
        simp [h2, h4, Nat.lt_iff_add_one_le.symm, h5]

@[simp] theorem rowByteList_length (v : Row) : (rowByteList v).length = 64 := by simp [rowByteList]

/-- A row's bytes after the row at its home is replaced; every other byte is as before. -/
theorem Mem.byte_setHome (m : Mem) (r : Nat) (v : Row) (a : Nat) :
    (m.setHome r v).byte a = if a / 64 = r then v.extractLsb' (8 * (a % 64)) 8 else m.byte a := by
  simp only [Mem.byte, Mem.setHome, get_putBytes, rowByteList_length]
  by_cases h : a / 64 = r
  · have h2 : 64 * r ≤ a ∧ a < 64 * r + 64 := by omega
    have h3 : a - 64 * r = a % 64 := by omega
    simp [h, h2, rowByteList, h3]
  · have h2 : ¬ (64 * r ≤ a ∧ a < 64 * r + 64) := by omega
    simp [h, h2]

/-! ## Canonical form -/

theorem Mem.wf_iff (m : Mem) :
    m.wf = true ↔ Tab.canonical (0 : Byte) m.cells = true ∧ Tab.canonical (0 : Byte) m.durable = true := by
  simp [Mem.wf]

/-- The form depends on the two lists alone. -/
theorem Mem.wf_of_eq {m n : Mem} (h : m.wf = true) (hc : n.cells = m.cells) (hd : n.durable = m.durable) :
    n.wf = true := by
  rw [Mem.wf_iff] at *
  rwa [hc, hd]

theorem Mem.foldl_wf {α : Type} (f : Mem → α → Mem) (hf : ∀ m x, m.wf = true → (f m x).wf = true) (l : List α)
    (m : Mem) (h : m.wf = true) : (l.foldl f m).wf = true := by
  induction l generalizing m with
  | nil => exact h
  | cons x t ih => exact ih _ (hf m x h)

theorem foldl_canonical {α : Type} (f : List Host.Cell → α → List Host.Cell)
    (hf : ∀ c x, Tab.canonical (0 : Byte) c = true → Tab.canonical (0 : Byte) (f c x) = true) (l : List α)
    (c : List Host.Cell) (h : Tab.canonical (0 : Byte) c = true) : Tab.canonical (0 : Byte) (l.foldl f c) = true := by
  induction l generalizing c with
  | nil => exact h
  | cons x t ih => exact ih _ (hf c x h)

theorem Mem.setHome_wf (m : Mem) (r : Nat) (v : Row) (h : m.wf = true) : (m.setHome r v).wf = true := by
  rw [Mem.wf_iff] at *
  exact ⟨putBytes_canonical _ _ _ h.1, h.2⟩

theorem Mem.harden_wf (m : Mem) (r : Nat) (h : m.wf = true) : (m.harden r).wf = true := by
  rw [Mem.wf_iff] at *
  exact ⟨h.1, putBytes_canonical _ _ _ h.2⟩

theorem Mem.remap_wf (m : Mem) (c p b d : Nat) (h : m.wf = true) : (m.remap c p b d).wf = true := by
  unfold Mem.remap
  dsimp only
  split <;> exact h

theorem Mem.settleGroup_wf (m : Mem) (g : List Nat) (h : m.wf = true) : (m.settleGroup g).wf = true :=
  Mem.foldl_wf _ (fun m _ hm => Mem.setHome_wf m _ _ hm) _ _ (Mem.wf_of_eq h rfl rfl)

theorem Mem.recovered_wf (m : Mem) (r : Nat) (v : Row) (h : m.wf = true) : (m.recovered r v).wf = true :=
  Mem.remap_wf _ _ _ _ _ (Mem.wf_of_eq (Mem.setHome_wf m r v h) rfl rfl)

/-- R343: a recovery keeps memory in canonical form. -/
theorem Mem.recover_wf (m : Mem) (r : Nat) (h : m.wf = true) : (m.recover r).wf = true := by
  have h0 : ({ m with uncorr := removeNat m.uncorr r } : Mem).wf = true := Mem.wf_of_eq h rfl rfl
  have hp (n : Mem) (hn : n.wf = true) : (n.poison r).wf = true := Mem.wf_of_eq hn rfl rfl
  unfold Mem.recover
  dsimp only
  split
  · split
    · exact hp _ (Mem.settleGroup_wf _ _ h0)
    · exact Mem.recovered_wf _ _ _ (Mem.settleGroup_wf _ _ h0)
  · split
    · split
      · exact hp _ h0
      · exact Mem.recovered_wf _ _ _ h0
    · exact hp _ h0

theorem Mem.perform_wf (m : Mem) (r : Nat) (v : Row) (h : m.wf = true) : (m.perform r v).wf = true := by
  unfold Mem.perform
  split
  · dsimp only
    split
    · exact Mem.wf_of_eq (Mem.setHome_wf _ r v (Mem.recover_wf m r h)) rfl rfl
    · exact Mem.wf_of_eq (Mem.setHome_wf _ r v h) rfl rfl
  · exact Mem.wf_of_eq (Mem.setHome_wf _ r v h) rfl rfl

@[simp] theorem Mem.see_cells (m : Mem) (a : Agent) (r i : Nat) : (m.see a r i).cells = m.cells := by
  unfold Mem.see; split <;> rfl

@[simp] theorem Mem.see_durable (m : Mem) (a : Agent) (r i : Nat) : (m.see a r i).durable = m.durable := by
  unfold Mem.see; split <;> rfl

@[simp] theorem Mem.storeCached_cells (m : Mem) (a : Agent) (k : Option (BitVec 16)) (l : Option (Nat × Nat)) (r : Nat) (v : Row) :
    (m.storeCached a k l r v).cells = m.cells := rfl

theorem Mem.storeHome_wf (m : Mem) (a : Agent) (k : Option (BitVec 16)) (c : Bool) (r : Nat) (v : Row)
    (h : m.wf = true) : (m.storeHome a k c r v).wf = true :=
  Mem.wf_of_eq (Mem.perform_wf m r v h) rfl rfl

theorem Mem.writeBack_wf (m : Mem) (r : Nat) (h : m.wf = true) : (m.writeBack r).wf = true := by
  unfold Mem.writeBack
  split
  · exact h
  · exact Mem.wf_of_eq (Mem.perform_wf m r _ h) rfl rfl

theorem Mem.publish_wf (m : Mem) (a : Agent) (sc : Scope) (h : m.wf = true) : (m.publish a sc).wf = true := by
  unfold Mem.publish
  dsimp only
  split <;> split
  · exact Mem.foldl_wf _ Mem.harden_wf _ _ (Mem.foldl_wf _ Mem.writeBack_wf _ _ (Mem.wf_of_eq h rfl rfl))
  · exact Mem.foldl_wf _ Mem.harden_wf _ _ (Mem.wf_of_eq h rfl rfl)
  · exact Mem.foldl_wf _ Mem.writeBack_wf _ _ (Mem.wf_of_eq h rfl rfl)
  · exact Mem.wf_of_eq h rfl rfl

/-- R15: memory at reset lists nothing. -/
theorem reset_mem_wf : State.reset.mem.wf = true := rfl

theorem moveCells_canonical (c : List Host.Cell) (a b n : Nat) (h : Tab.canonical (0 : Byte) c = true) :
    Tab.canonical (0 : Byte) (moveCells c a b n) = true :=
  foldl_canonical _ (fun _ _ hc => Tab.canonical_set _ _ _ _ hc) _ _ (Tab.canonical_filter _ _ _ h)

theorem setParity_canonical (c : List Host.Cell) (base S : Nat) (h : Tab.canonical (0 : Byte) c = true) :
    Tab.canonical (0 : Byte) (setParity c base S) = true :=
  foldl_canonical _ (fun _ _ hc => Tab.canonical_set _ _ _ _ hc) _ _ (Tab.canonical_filter _ _ _ h)

theorem Mem.fillRegion_wf (m : Mem) (e : RegionEnt) (h : m.wf = true) : (m.fillRegion e).wf = true := by
  have h0 := Mem.foldl_wf Mem.poison (fun m r hm => Mem.wf_of_eq (n := m.poison r) hm rfl rfl)
    (m.uncorr.filter fun r => (e.spoils r).isSome) m h
  unfold Mem.fillRegion
  dsimp only
  generalize (m.uncorr.filter fun r => (e.spoils r).isSome).foldl Mem.poison m = n at *
  rw [Mem.wf_iff] at *
  refine ⟨?_, h0.2⟩
  dsimp only
  split
  · exact setParity_canonical _ _ _ h0.1
  · split
    · exact moveCells_canonical _ _ _ _ h0.1
    · exact h0.1

/-- R332, R333, R335: loading the region table keeps memory in canonical form. -/
theorem Mem.loadRegions_wf (m : Mem) (h : m.wf = true) : m.loadRegions.wf = true := by
  unfold Mem.loadRegions
  split
  · exact h
  · exact Mem.wf_of_eq (Mem.foldl_wf _ Mem.fillRegion_wf _ _ h) rfl rfl

theorem State.tregDone_wf (s : State) (h : s.mem.wf = true) : s.tregDone.mem.wf = true := Mem.loadRegions_wf _ h

/-- R332, R343, R345: what an access waits for keeps memory in canonical form. -/
theorem Mem.opened_wf (m : Mem) (pa : Nat) (h : m.wf = true) : (m.opened pa).wf = true := by
  have h1 : (if m.loading pa then m.loadRegions else m).wf = true := by
    split
    · exact Mem.loadRegions_wf m h
    · exact h
  unfold Mem.opened
  dsimp only
  generalize hn : (if m.loading pa then m.loadRegions else m) = n at *
  have h2 : (if n.blocked (pa / 64) then n.reloadRemap (n.dramPlace (pa / 64)).1 else n).wf = true := by
    split
    · exact Mem.wf_of_eq h1 rfl rfl
    · exact h1
  generalize (if n.blocked (pa / 64) then n.reloadRemap (n.dramPlace (pa / 64)).1 else n) = k at *
  split
  · exact Mem.recover_wf _ _ h2
  · exact h2

theorem State.opened_wf (s : State) (pa : Nat) (h : s.mem.wf = true) : (s.opened pa).mem.wf = true :=
  Mem.opened_wf _ _ h

/-- R425: so does the boot sequencer. -/
theorem Mem.boot_wf (m : Mem) (node : BitVec 12) (body : List Byte) (h : m.wf = true) :
    (m.boot node body).wf = true := by
  rw [Mem.wf_iff] at *
  exact ⟨putBytes_canonical _ _ _ (putBytes_canonical _ _ _ (putBytes_canonical _ _ _ (putBytes_canonical _ _ _
    (Tab.canonical_filter _ _ _ h.1)))), h.2⟩

end Sys2Proof.Machine
end

