-- ==== Sys2Proof/Laws/Ops.lean ====
section
/-! SUPPORT. What each shared operation can do, said once: how an issue ends, taking a trap and returning from one,
results, transfers, accesses, tiles, publication and stores. Proofs about instructions cite these and need not unfold the
operations. -/

namespace Sys2Proof.Machine

/-! ## How an issue ends -/

/-- R16, R71: every end that an issue can have. -/
theorem issue_cases (g : BitVec 4) (s : State) (r : Res) :
    (s.readP g = false ∧ issue g s r = .next s) ∨
    (s.readP g = true ∧
      ((∃ t, r = .ok t ∧ issue g s r = .next t) ∨
       (∃ t l, r = .trap t l ∧ issue g s r = .next (s.trapped t l)) ∨
       (∃ w, r = .wait w ∧ issue g s r = .next (s.waiting w)) ∨
       (∃ f, r = .stop f ∧ issue g s r = .fault f))) := by
  cases h : s.readP g
  · exact .inl ⟨rfl, issue_false g s r h⟩
  · refine .inr ⟨rfl, ?_⟩
    cases r with
    | ok t => exact .inl ⟨t, rfl, issue_ok g s t h⟩
    | trap t l => exact .inr (.inl ⟨t, l, rfl, issue_trap g s t l h⟩)
    | wait w => exact .inr (.inr (.inl ⟨w, rfl, issue_wait g s w h⟩))
    | stop f => exact .inr (.inr (.inr ⟨f, rfl, by simp [issue, h]⟩))

/-- An issue that gives a next state keeps what its effect, a trap and a wait all keep. -/
theorem issue_next {g : BitVec 4} {s u : State} {r : Res} (P : State → Prop) (h : issue g s r = .next u) (h0 : P s)
    (hok : ∀ t, r = .ok t → P t) (htrap : ∀ t l, r = .trap t l → P (s.trapped t l))
    (hwait : ∀ w, r = .wait w → P (s.waiting w)) : P u := by
  rcases issue_cases g s r with ⟨_, e⟩ | ⟨_, ⟨t, hr, e⟩ | ⟨t, l, hr, e⟩ | ⟨w, hr, e⟩ | ⟨f, hr, e⟩⟩ <;> rw [e] at h <;>
    cases h
  exacts [h0, hok _ hr, htrap _ _ hr, hwait _ hr]

@[simp] theorem State.waiting_mem (s : State) (w : Wait) : (s.waiting w).mem = s.mem := rfl
@[simp] theorem State.waiting_cores (s : State) (w : Wait) : (s.waiting w).cores = s.cores := rfl

theorem Res.andThen_eq_ok {α : Type} {x : Except Res α} {f : α → Res} {t : State} (h : Res.andThen x f = .ok t) :
    (∃ a, x = .ok a ∧ f a = .ok t) ∨ x = .error (.ok t) := by
  cases x with
  | ok a => exact .inl ⟨a, rfl, h⟩
  | error r => exact .inr (by rw [Res.andThen] at h; rw [h])

/-! ## Traps -/

/-- R36, R39, R40: the four ways that a trap of the issuing context is taken. -/
theorem State.takeTrap_cases (s : State) (t : Trap) :
    (s.iss.fw = true ∧ (s.core s.iss.core).fw.inh = true ∧ s.takeTrap t = s.coreCheck s.iss.core t) ∨
    (s.iss.fw = true ∧ (s.core s.iss.core).fw.inh = false ∧ s.takeTrap t = s.firmwareEntry s.iss.core t) ∨
    (s.iss.fw = false ∧ delegable t.code = true ∧ bitAt (s.core s.iss.core).fx.tdeleg t.code.toNat = true ∧
      (s.core s.iss.core).prog.inh = false ∧ s.takeTrap t = s.delegatedEntry s.iss.core t) ∨
    (s.iss.fw = false ∧
      ¬ (delegable t.code = true ∧ bitAt (s.core s.iss.core).fx.tdeleg t.code.toNat = true ∧
        (s.core s.iss.core).prog.inh = false) ∧ s.takeTrap t = s.programStop s.iss.core t) := by
  unfold State.takeTrap
  cases hf : s.iss.fw
  · by_cases h : delegable t.code = true ∧ bitAt (s.core s.iss.core).fx.tdeleg t.code.toNat = true ∧
        (s.core s.iss.core).prog.inh = false
    · refine .inr (.inr (.inl ⟨rfl, h.1, h.2.1, h.2.2, ?_⟩)); simp [h.1, h.2.1, h.2.2]
    · refine .inr (.inr (.inr ⟨rfl, h, ?_⟩))
      have : (delegable t.code && bitAt (s.core s.iss.core).fx.tdeleg t.code.toNat &&
        !(s.core s.iss.core).prog.inh) = false := by
        simp only [Bool.and_eq_false_iff, Bool.not_eq_false']
        simp only [not_and, Bool.not_eq_false] at h
        by_cases h1 : delegable t.code = true <;>
          by_cases h2 : bitAt (s.core s.iss.core).fx.tdeleg t.code.toNat = true <;> simp_all
      simp [this]
  · cases hi : (s.core s.iss.core).fw.inh
    · exact .inr (.inl ⟨rfl, rfl, by simp [hi]⟩)
    · exact .inl ⟨rfl, rfl, by simp [hi]⟩

/-- R37: an entry leaves memory and all that stands outside the core as it is. -/
@[simp] theorem State.delegatedEntry_mem (s : State) (c : Nat) (t : Trap) : (s.delegatedEntry c t).mem = s.mem := rfl
@[simp] theorem State.delegatedEntry_hub (s : State) (c : Nat) (t : Trap) : (s.delegatedEntry c t).hub = s.hub := rfl
@[simp] theorem State.delegatedEntry_disp (s : State) (c : Nat) (t : Trap) : (s.delegatedEntry c t).disp = s.disp := rfl
@[simp] theorem State.programStop_mem (s : State) (c : Nat) (t : Trap) : (s.programStop c t).mem = s.mem := rfl
@[simp] theorem State.programStop_hub (s : State) (c : Nat) (t : Trap) : (s.programStop c t).hub = s.hub := rfl
@[simp] theorem State.programStop_disp (s : State) (c : Nat) (t : Trap) : (s.programStop c t).disp = s.disp := rfl
@[simp] theorem State.firmwareEntry_mem (s : State) (c : Nat) (t : Trap) : (s.firmwareEntry c t).mem = s.mem := rfl
@[simp] theorem State.firmwareEntry_hub (s : State) (c : Nat) (t : Trap) : (s.firmwareEntry c t).hub = s.hub := rfl
@[simp] theorem State.firmwareEntry_disp (s : State) (c : Nat) (t : Trap) : (s.firmwareEntry c t).disp = s.disp := rfl

/-- Every entry concerns its core alone. -/
theorem State.delegatedEntry_core_ne (s : State) (c d : Nat) (t : Trap) (h : d ≠ c) :
    (s.delegatedEntry c t).core d = s.core d := by simp [State.delegatedEntry, h]
theorem State.firmwareEntry_core_ne (s : State) (c d : Nat) (t : Trap) (h : d ≠ c) :
    (s.firmwareEntry c t).core d = s.core d := by simp [State.firmwareEntry, h]
theorem State.programStop_core_ne (s : State) (c d : Nat) (t : Trap) (h : d ≠ c) :
    (s.programStop c t).core d = s.core d := by simp [State.programStop, State.raiseAsync, h]

/-- R39: a context that stops is stopped, and its firmware has cause 0x21 pending behind what was pending. -/
theorem State.programStop_core (s : State) (c : Nat) (t : Trap) :
    ((s.programStop c t).core c).prog.run = .stopped ∧
    ((s.programStop c t).core c).fx.events = ((s.core c).landEarlier false).fx.events ++ [⟨0x21, 0, 0⟩] ∧
    ((s.programStop c t).core c).prog.inh = ((s.core c).landEarlier false).prog.inh := by
  simp [State.programStop, State.raiseAsync, Ctx.settle]

/-- R34: the pc that a trap saves names a bundle. -/
theorem alignPc_low (x : Addr) : (alignPc x).toNat % 32 = 0 := by
  have h : (alignPc x).setWidth 5 = 0#5 := by
    apply BitVec.eq_of_getLsbD_eq; intro i hi
    have : i = 0 ∨ i = 1 ∨ i = 2 ∨ i = 3 ∨ i = 4 := by omega
    rcases this with rfl | rfl | rfl | rfl | rfl <;> simp [alignPc]
  have := congrArg BitVec.toNat h
  simpa [BitVec.toNat_setWidth] using this

@[simp] theorem alignPc_alignPc (x : Addr) : alignPc (alignPc x) = alignPc x := by
  simp only [alignPc, BitVec.and_assoc, BitVec.and_self]

/-! ## Results -/

/-- R15: a result for s0 or p0 is discarded. -/
@[simp] theorem State.issueS_zero (s : State) (v : Word) (L : Nat) : s.issueS 0 v L = s := rfl
@[simp] theorem State.issueP_zero (s : State) (b : Bool) (L : Nat) : s.issueP 0 b L = s := rfl

@[simp] theorem State.issueS_mem (s : State) (d : BitVec 6) (v : Word) (L : Nat) : (s.issueS d v L).mem = s.mem := by
  unfold State.issueS; split <;> rfl
@[simp] theorem State.issueS_iss (s : State) (d : BitVec 6) (v : Word) (L : Nat) : (s.issueS d v L).iss = s.iss := by
  unfold State.issueS; split <;> rfl
@[simp] theorem State.issueP_mem (s : State) (d : Nat) (b : Bool) (L : Nat) : (s.issueP d b L).mem = s.mem := by
  unfold State.issueP; split <;> rfl
@[simp] theorem State.issueP_iss (s : State) (d : Nat) (b : Bool) (L : Nat) : (s.issueP d b L).iss = s.iss := by
  unfold State.issueP; split <;> rfl

/-- R25: a result on its way changes no register of its context; only the list of results on their way grows. -/
theorem State.issueBits_ctx (s : State) (d : Dest) (v m : Row) (L : Nat) (f : BitVec 7) (q : Bool) :
    ∃ e, (s.issueBits d v m L f q).ctx = { s.ctx with pend := insertPend s.ctx.pend e } := by
  refine ⟨?_, ?_⟩
  · exact { dest := d, val := v, mask := m, live := m, issued := s.me.cycle, due := s.me.cycle + L,
            slot := s.iss.slot, ser := s.me.ser, flags := f, defer := q }
  · simp [State.ctx, State.issueBits_me]

/-! ## Transfers -/

/-- R97: a taken transfer goes to its target, a bundle address. -/
@[simp] theorem State.transfer_pc (s : State) (a : Addr) : (s.transfer a).ctx.pc = alignPc a := by
  simp [State.transfer, State.ctx, State.me, State.setCtx, State.setMe, State.setCore, State.core]

@[simp] theorem State.transfer_xfer (s : State) (a : Addr) : (s.transfer a).iss.xfer = true := rfl
@[simp] theorem State.transfer_mem (s : State) (a : Addr) : (s.transfer a).mem = s.mem := rfl
@[simp] theorem State.transfer_hub (s : State) (a : Addr) : (s.transfer a).hub = s.hub := rfl
@[simp] theorem State.transfer_core_ne (s : State) (a : Addr) (c : Nat) (h : c ≠ s.iss.core) :
    (s.transfer a).core c = s.core c := by
  simp [State.transfer, State.setCtx, State.setMe, State.setCore, State.core, h]

/-- R102: with no level that ends here, the next bundle in sequence follows and no level changes. -/
theorem loopScan_none (b : Addr) (l : List Nat) (c : Ctx)
    (h : ∀ k ∈ l, ¬ ((Tab.get {} c.loops k : LoopLevel).act = true ∧ (Tab.get {} c.loops k : LoopLevel).fin = b)) :
    loopScan b l c = (c, false) := by
  induction l with
  | nil => rfl
  | cons k t ih =>
    have h1 := h k (by simp)
    simp only [loopScan, if_neg h1]
    exact ih fun j hj => h j (by simp [hj])

theorem Ctx.boundaryAt_plain (c : Ctx) (b : Addr)
    (h : ∀ k < 6, ¬ ((Tab.get {} c.loops k : LoopLevel).act = true ∧ (Tab.get {} c.loops k : LoopLevel).fin = b)) :
    c.boundaryAt b = { c with pc := b + 32, jumped := false, looped := false } := by
  have := loopScan_none b [5, 4, 3, 2, 1, 0] c fun k hk => h k (by simp at hk; omega)
  simp [Ctx.boundaryAt, this]

/-! ## Accesses -/

/-- R142: what an access of the issuing context can meet. -/
theorem State.dataAcc_cases (s : State) (k : AccKind) (va : Word) (info : Nat) :
    (∃ a, s.xlate k va = .ok a ∧ (s.mem.stalls a.pa && !s.isRemote a) = false ∧ s.dataAcc k va info = .ok a) ∨
    (∃ a, s.xlate k va = .ok a ∧ (s.mem.stalls a.pa && !s.isRemote a) = true ∧
      s.dataAcc k va info = .error (.wait (.region a.pa))) ∨
    (s.xlate k va = .denied ∧ s.dataAcc k va info = .error (s.fault 0x05 info va)) ∨
    (s.xlate k va = .none none ∧ s.dataAcc k va info = .error (s.fault 0x04 info va)) ∨
    (∃ pa, s.xlate k va = .none (some pa) ∧
      s.dataAcc k va info = .error (.trap (s.trapOf 0x04 info va) [pa])) ∨
    (∃ pa, s.xlate k va = .noMemory pa ∧ s.dataAcc k va info = .error (.stop (.noMemory pa))) ∨
    (∃ pa, s.xlate k va = .stall pa ∧ s.dataAcc k va info = .error (.wait (.region pa))) := by
  unfold State.dataAcc State.dataAccAs State.xlate
  cases h : s.xlateAs s.ctxAsid k va with
  | ok a => cases h1 : s.mem.stalls a.pa <;> cases h2 : s.isRemote a <;> simp [h1, h2]
  | denied => simp
  | none p => cases p <;> simp
  | noMemory p => simp
  | stall p => simp

/-- R140: an access whose translation is found, on memory that answers at once, is that translation. -/
theorem State.dataAcc_ok (s : State) (k : AccKind) (va : Word) (info : Nat) (acc : Acc) (h : s.xlate k va = .ok acc)
    (hs : s.mem.stalls acc.pa = false) : s.dataAcc k va info = .ok acc := by
  unfold State.xlate at h
  simp [State.dataAcc, State.dataAccAs, h, hs]

/-- R76, R127: an offset names its row, or faults. -/
theorem State.spRange_eq (s : State) (off : Word) :
    s.spRange off = if s.sp.has (fld off 6 58) then .ok (fld off 6 58) else .error (s.fault 0x06 0 off) := rfl

/-- R380, R394: with no change of the partition under way and no poison, a row of the partition is reached. -/
theorem State.spClean_ok (s : State) (off : Word) (h : s.sp.has (fld off 6 58) = true)
    (hp : (s.iss.fw && s.me.repart.isSome) = false) (hb : s.sp.bad.contains (fld off 6 58) = false) :
    s.spClean off = .ok (fld off 6 58) := by
  unfold State.spClean State.spRow State.spRange
  simp only [hp, Bool.false_eq_true, if_false, h, if_true]
  rw [hb]; rfl

/-! ## Operations on their way -/

/-- R245: an agent with no operation of its own on its way has nothing to wait for. -/
theorem State.drain_none (s : State) (a : Agent) (hit : Way → Bool) (write : Bool)
    (hp : ∀ p ∈ s.mem.posted, p.by_ ≠ a) (hx : ∀ x ∈ s.mem.adds, x.by_ ≠ a) : s.drain a hit write = some s := by
  have hn (p : Way) (h : p.by_ ≠ a) : s.mem.needed a hit write p = false := by simp [Mem.needed, h]
  have h1 : ∀ p ∈ s.mem.posted, s.mem.needed a hit write p.way = false := fun p h => hn _ (hp p h)
  have h2 : ∀ p ∈ s.mem.adds, s.mem.needed a hit write p.way = false := fun p h => hn _ (hx p h)
  have e : (s.mem.posted.any fun p => s.mem.needed a hit write p.way && p.out.isSome) = false := by
    rw [List.any_eq_false]
    intro p h
    simp [h1 p h]
  have f1 : s.mem.posted.filter (fun p => s.mem.needed a hit write p.way) = [] := by
    rw [List.filter_eq_nil_iff]
    intro p h
    simp [h1 p h]
  have f2 : s.mem.adds.filter (fun p => s.mem.needed a hit write p.way) = [] := by
    rw [List.filter_eq_nil_iff]
    intro p h
    simp [h2 p h]
  have f3 : s.mem.posted.filter (fun p => !s.mem.needed a hit write p.way) = s.mem.posted := by
    rw [List.filter_eq_self]
    intro p h
    simp [h1 p h]
  have f4 : s.mem.adds.filter (fun p => !s.mem.needed a hit write p.way) = s.mem.adds := by
    rw [List.filter_eq_self]
    intro p h
    simp [h2 p h]
  have e2 : ∀ x ∈ s.mem.adds, s.mem.needed a hit write x.way = true → s.rankHere x.vrank = true :=
    fun x hx h => absurd h (by simp [h2 x hx])
  simp [State.drain, e, State.performAll, f1, f2, f3, f4, mergeWays]
  exact e2

/-- R321, R401: with nothing met and not yet reported, a turn reports nothing. -/
theorem State.reportPending_self (s : State) (hw : s.mem.walkErrs = []) (hr : s.mem.reports = [])
    (hn : s.mem.recoveries = 0) : s.reportPending = s := by
  obtain ⟨cores, mem, disp, binds, colls, fab, car, hub, iss, turns, fresh⟩ := s
  obtain ⟨⟩ := mem
  simp only at hw hr hn
  subst hw hr hn
  rfl

/-! ## The scratchpad -/

@[simp] theorem Scratch.row_setRow (p : Scratch) (i : Nat) (v : Row) : (p.setRow i v).row i = v := by
  simp [Scratch.row, Scratch.setRow]

theorem Scratch.row_setRow_ne (p : Scratch) (i j : Nat) (v : Row) (h : j ≠ i) : (p.setRow i v).row j = p.row j := by
  simp [Scratch.row, Scratch.setRow, h]

@[simp] theorem Scratch.isFull_setFull (p : Scratch) (i : Nat) (b : Bool) : (p.setFull i b).isFull i = b := by
  simp [Scratch.isFull, Scratch.setFull]

theorem Scratch.isFull_setFull_ne (p : Scratch) (i j : Nat) (b : Bool) (h : j ≠ i) :
    (p.setFull i b).isFull j = p.isFull j := by
  simp [Scratch.isFull, Scratch.setFull, h]

@[simp] theorem Scratch.row_setFull (p : Scratch) (i j : Nat) (b : Bool) : (p.setFull i b).row j = p.row j := rfl
@[simp] theorem Scratch.isFull_setRow (p : Scratch) (i j : Nat) (v : Row) : (p.setRow i v).isFull j = p.isFull j := rfl

/-! ## Tiles -/

/-- R264: moving a tail changes no tile. -/
@[simp] theorem ProgX.tile_tailMove (x : ProgX) (t u : Nat) : (x.tailMove t).tile u = x.tile u := by
  rfl

/-- R261: a tile's new state and valid rows. -/
theorem ProgX.tile_setTile (x : ProgX) (t : Nat) (st : TileState) (vr : Nat) :
    (x.setTile t st vr).tile t = { x.tile t with st := st, vr := vr } := by
  simp [ProgX.setTile, ProgX.tile]

theorem ProgX.tile_setTile_ne (x : ProgX) (t u : Nat) (st : TileState) (vr : Nat) (h : u ≠ t) :
    (x.setTile t st vr).tile u = x.tile u := by
  have : (x.setTile t st vr).tile u = (if (x.tile t).st = .empty ∧ st = .filling then x.tailMove t else x).tile u := by
    simp [ProgX.setTile, ProgX.tile, h]
  rw [this]; split <;> simp

/-! ## Views, stores and loads -/

@[simp] theorem State.mapLog_cells (s : State) (f : WriteRec → WriteRec) : (s.mapLog f).mem.cells = s.mem.cells := rfl
@[simp] theorem State.snapshot_cells (s : State) (a x : Agent) (sc : Nat) :
    (s.snapshot a x sc).mem.cells = s.mem.cells := rfl
@[simp] theorem State.shareView_cells (s : State) (a b : Agent) : (s.shareView a b).mem.cells = s.mem.cells := rfl
@[simp] theorem State.observe_cells (s : State) (a b : Agent) : (s.observe a b).mem.cells = s.mem.cells := rfl

theorem State.publish_wf (s : State) (a b : Agent) (sc : Nat) (h : s.mem.wf = true) :
    (s.publish a b sc).mem.wf = true := Mem.publish_wf s.mem a _ h

@[simp] theorem Mem.seeHome_cells (m : Mem) (a : Agent) (r : Nat) : (m.seeHome a r).cells = m.cells := by
  unfold Mem.seeHome; split
  · simp
  · rfl

/-- A load leaves every byte at its home. -/
@[simp] theorem State.load_cells (s : State) (a : Agent) (acc : Acc) (n : Nat) :
    (s.load a acc n).2.2.mem.cells = s.mem.cells := by
  unfold State.load; dsimp only; split
  · rfl
  · split <;> simp

/-- R419: a word of the hub page written changes no memory. -/
@[simp] theorem State.setFreq_mem (s : State) (c : Nat) (v : Word) : (s.setFreq c v).mem = s.mem := by
  unfold State.setFreq; dsimp only; split <;> rfl

@[simp] theorem State.handoverEnd_mem (s : State) : s.handoverEnd.mem = s.mem := by
  unfold State.handoverEnd; split <;> rfl

@[simp] theorem State.handOver_mem (s : State) (c : Nat) (f : Bool) : (s.handOver c f).mem = s.mem := by
  unfold State.handOver; dsimp only; split
  · simp
  · rfl

@[simp] theorem State.hubStore_mem (s : State) (c o : Nat) (v : Word) : (s.hubStore c o v).mem = s.mem := by
  simp only [State.hubStore, apply_ite State.mem, State.handOver_mem, State.setRamp, State.announce, ite_self]

@[simp] theorem State.hubPut_mem (s : State) (a : Agent) (o : Nat) (v : Word) : (s.hubPut a o v).mem = s.mem := by
  simp only [State.hubPut, apply_ite State.mem, State.setFreq_mem, State.hubStore_mem, ite_self]

theorem State.foldl_mem {α : Type} (f : State → α → State) (hf : ∀ s x, (f s x).mem = s.mem) (l : List α) (s : State) :
    (l.foldl f s).mem = s.mem := by
  induction l generalizing s with
  | nil => rfl
  | cons x t ih => exact (ih (f s x)).trans (hf s x)

/-- A row of the hub page stored changes no memory. -/
theorem State.store_hub_mem (s : State) (a : Agent) (acc : Acc) (v : Row) (h : isHubRow acc.row = true) :
    (s.store a acc v).mem = s.mem := by
  have e : s.store a acc v = _ := if_pos h
  rw [e]
  exact State.foldl_mem _ (fun t j => State.hubPut_mem t _ _ _) _ s

/-- R236: what an agent has published reaching its scopes changes nothing at a home. -/
theorem State.flushPubs_wf (s : State) (a : Agent) (h : s.mem.wf = true) : (s.flushPubs a).mem.wf = true := h

/-- A row performed at its home keeps memory in canonical form. -/
theorem State.writeHome_wf (s : State) (a : Agent) (c : Bool) (r : Nat) (v : Row) (h : s.mem.wf = true) :
    (s.writeHome a c r v).mem.wf = true := Mem.storeHome_wf _ _ _ _ _ _ (State.flushPubs_wf s a h)

/-- R244: a row stored through a memory-side or uncached mapping is performed at its home. -/
theorem State.store_home (s : State) (a : Agent) (acc : Acc) (v : Row) (h : isHubRow acc.row = false)
    (hm : (acc.leaf.ms || !acc.leaf.c) = true) :
    s.store a acc v = s.writeHome a false acc.row (s.mem.encipher acc.leaf.ek acc.row v) := by
  have e : s.store a acc v = _ := if_neg (by rw [h]; exact Bool.false_ne_true)
  rw [e]; exact if_pos hm

/-- R238: a row stored through a cached mapping is last in its row's coherence order, and dirty. -/
theorem State.store_cached (s : State) (a : Agent) (acc : Acc) (v : Row) (h : isHubRow acc.row = false)
    (hm : (acc.leaf.ms || !acc.leaf.c) = false) :
    s.store a acc v =
      { s with
        mem := (s.mem.evict (s.lineFor a acc.row) acc.row).storeCached a (s.rankOf a) (s.lineFor a acc.row) acc.row
          (s.mem.encipher acc.leaf.ek acc.row v) } := by
  have e : s.store a acc v = _ := if_neg (by rw [h]; exact Bool.false_ne_true)
  rw [e]; exact if_neg (by rw [hm]; exact Bool.false_ne_true)

/-- R378: a line that gives way is written back, which keeps memory in canonical form. -/
theorem Mem.evict_wf (m : Mem) (l : Option (Nat × Nat)) (r : Nat) (h : m.wf = true) : (m.evict l r).wf = true := by
  unfold Mem.evict; split
  · exact h
  · exact Mem.foldl_wf _ Mem.writeBack_wf _ _ h

/-- A row stored by an agent keeps memory in canonical form. -/
theorem State.store_wf (s : State) (a : Agent) (acc : Acc) (v : Row) (h : s.mem.wf = true) :
    (s.store a acc v).mem.wf = true := by
  cases h1 : isHubRow acc.row
  · cases h2 : (acc.leaf.ms || !acc.leaf.c)
    · rw [State.store_cached s a acc v h1 h2]; exact Mem.wf_of_eq (Mem.evict_wf s.mem _ _ h) rfl rfl
    · rw [State.store_home s a acc v h1 h2]; exact State.writeHome_wf _ _ _ _ _ h
  · rw [State.store_hub_mem s a acc v h1]; exact h

theorem State.put_wf (s : State) (a : Agent) (acc : Acc) (v : Row) (h : s.mem.wf = true) :
    (s.put a acc v).mem.wf = true := by
  unfold State.put; split
  · exact h
  · exact State.writeHome_wf _ _ _ _ _ h

/-! ## The translation caches -/

@[simp] theorem Mem.cacheWalk_cells (m : Mem) (a v : Nat) : (m.cacheWalk a v).cells = m.cells := rfl
@[simp] theorem Mem.useCached_cells (m : Mem) (l : List Nat) : (m.useCached l).cells = m.cells := rfl
@[simp] theorem Mem.invalidate_cells (m : Mem) (md : Nat) (a : BitVec 16) (v : Addr) :
    (m.invalidate md a v).cells = m.cells := rfl

/-- What a walk finds is not in use. -/
theorem Mem.found_live (m : Mem) (asid va : Nat) : ∀ e ∈ m.found asid va, e.live = false := by
  intro e he
  unfold Mem.found Mem.fill0 Mem.fill1 Mem.fill2 Mem.fill3 at he
  simp only at he
  repeat' split at he
  all_goals simp_all
  all_goals aesop

/-- Translation depends on the caches only through the entry it starts from. -/
theorem Mem.translate_tlb (m : Mem) (l : List TlbEnt) (node asid : Nat) (k : AccKind) (va : Word)
    (h : ({ m with tlb := l } : Mem).cachedEntry asid va.toNat = m.cachedEntry asid va.toNat) :
    ({ m with tlb := l } : Mem).translate node asid k va = m.translate node asid k va := by
  unfold Mem.translate
  rw [h]
  rfl

/-- A walk puts no entry in use. -/
theorem Mem.cachedEntry_cacheWalk (m : Mem) (a v asid va : Nat) :
    (m.cacheWalk a v).cachedEntry asid va = m.cachedEntry asid va := by
  have h : ∀ n, ((m.found a v).filter fun e => !m.tlb.contains e).find?
      (fun e => e.live && e.level == n && e.covers asid va) = none := by
    intro n
    rw [List.find?_eq_none]
    intro e he
    simp [Mem.found_live m a v e (List.mem_filter.mp he).1]
  simp only [Mem.cachedEntry, Mem.cacheWalk, List.find?_append, h, Option.or_none]

/-- No entry that a tlbi names is left. -/
theorem Mem.cachedEntry_invalidate (m : Mem) (md : Nat) (a : BitVec 16) (v : Addr) (asid va : Nat)
    (h : md = 2 ∨ (md = 1 ∧ asid = a.toNat) ∨ (md = 0 ∧ asid = a.toNat ∧ va / 65536 = v.toNat / 65536)) :
    (m.invalidate md a v).cachedEntry asid va = none := by
  have key : ∀ e ∈ (m.invalidate md a v).tlb, e.covers asid va = false := by
    intro e he
    have hf := (List.mem_filter.mp he).2
    simp only [TlbEnt.named, TlbEnt.covers, Bool.not_eq_true', Bool.or_eq_false_iff] at hf ⊢
    obtain h | ⟨h1, h2⟩ | ⟨h1, h2, h3⟩ := h
    · simp [h] at hf
    · simp_all
    · have e1 : va / 2 ^ 39 = v.toNat / 2 ^ 39 := by omega
      have e2 : va / 2 ^ 27 = v.toNat / 2 ^ 27 := by omega
      have e3 : va / 2 ^ 16 = v.toNat / 2 ^ 16 := by omega
      rw [e1, e2, e3, h2]
      simp [h1] at hf ⊢
      simpa using hf
  have : ∀ n, (m.invalidate md a v).tlb.find? (fun e => e.live && e.level == n && e.covers asid va) = none := by
    intro n
    rw [List.find?_eq_none]
    intro e he
    simp [key e he]
  simp [Mem.cachedEntry, this]

end Sys2Proof.Machine
end

