-- ==== Sys2Proof/Laws/Words.lean ====
section
/-! SUPPORT. The words of the syllables: what each field of a word reads, by the widths of its fields; and that the
decoder accepts what the encoder writes. -/

namespace Sys2Proof

/-- A syllable that its slot's map reads as `i`, and that keeps every rule of R75, decodes to `i`. -/
theorem decodeSyl_eq (fw : Bool) (nchan k : Nat) (w : Syl) (i : Instr) (n : Nat) (h5 : (fw && decide (5 ≤ k)) = false)
    (hop : opcode w = n) (hn : n ≠ 0) (hr : raw fw k w = some i)
    (hp : (k == 0 && !fw && decide (48 ≤ n)) = false) (hq : portsOk k w = true) (he : encode i = some w)
    (hw : i.wf = true) (hc : i.contextOk fw nchan = true) : decodeSyl fw nchan k w = .ok i := by
  subst hop
  simp [decodeSyl, h5, hn, hr, hp, hq, he, hw, hc]

theorem whole_field {n : Nat} (x : BitVec n) : x.extractLsb' 0 n = x := BitVec.extractLsb'_eq_self

/-- The lowest field of a word. -/
theorem low_field {v n : Nat} (x : BitVec v) (y : BitVec n) : (x ++ y).extractLsb' 0 n = y := by
  rw [BitVec.extractLsb'_append_eq_of_add_le (by omega), whole_field]

/-- A field above the lowest one. -/
theorem skip_field {v n l : Nat} (p : Nat) (x : BitVec v) (y : BitVec n) :
    (x ++ y).extractLsb' (p + n) l = x.extractLsb' p l := by
  rw [BitVec.extractLsb'_append_eq_of_le (by omega), Nat.add_sub_cancel]

theorem Word.lay_4_6_15_7 (x0 : BitVec 4) (x1 : BitVec 6) (x2 : BitVec 15) (x3 : BitVec 7) (w : Syl)
    (h : w = x0 ++ x1 ++ x2 ++ x3) :
    w.extractLsb' 28 4 = x0 ∧
      w.extractLsb' 22 6 = x1 ∧
      w.extractLsb' 7 15 = x2 ∧
      w.extractLsb' 0 7 = x3 := by
  subst h
  refine ⟨?_, ?_, ?_, ?_⟩
  · exact (skip_field 21 _ _).trans ((skip_field 6 _ _).trans ((skip_field 0 _ _).trans (whole_field _)))
  · exact (skip_field 15 _ _).trans ((skip_field 0 _ _).trans (low_field _ _))
  · exact (skip_field 0 _ _).trans (low_field _ _)
  · exact low_field _ _

theorem Word.lay_4_6_1_3_18 (x0 : BitVec 4) (x1 : BitVec 6) (x2 : BitVec 1) (x3 : BitVec 3) (x4 : BitVec 18) (w : Syl)
    (h : w = x0 ++ x1 ++ x2 ++ x3 ++ x4) :
    w.extractLsb' 28 4 = x0 ∧
      w.extractLsb' 22 6 = x1 ∧
      w.extractLsb' 21 1 = x2 ∧
      w.extractLsb' 18 3 = x3 ∧
      w.extractLsb' 0 18 = x4 := by
  subst h
  refine ⟨?_, ?_, ?_, ?_, ?_⟩
  · exact (skip_field 10 _ _).trans ((skip_field 7 _ _).trans ((skip_field 6 _ _).trans ((skip_field 0 _ _).trans
      (whole_field _))))
  · exact (skip_field 4 _ _).trans ((skip_field 1 _ _).trans ((skip_field 0 _ _).trans (low_field _ _)))
  · exact (skip_field 3 _ _).trans ((skip_field 0 _ _).trans (low_field _ _))
  · exact (skip_field 0 _ _).trans (low_field _ _)
  · exact low_field _ _

theorem Word.lay_4_6_1_3_3_1_14 (x0 : BitVec 4) (x1 : BitVec 6) (x2 : BitVec 1) (x3 : BitVec 3) (x4 : BitVec 3) (x5 :
    BitVec 1) (x6 : BitVec 14) (w : Syl)
    (h : w = x0 ++ x1 ++ x2 ++ x3 ++ x4 ++ x5 ++ x6) :
    w.extractLsb' 28 4 = x0 ∧
      w.extractLsb' 22 6 = x1 ∧
      w.extractLsb' 21 1 = x2 ∧
      w.extractLsb' 18 3 = x3 ∧
      w.extractLsb' 15 3 = x4 ∧
      w.extractLsb' 14 1 = x5 ∧
      w.extractLsb' 0 14 = x6 := by
  subst h
  refine ⟨?_, ?_, ?_, ?_, ?_, ?_, ?_⟩
  · exact (skip_field 14 _ _).trans ((skip_field 13 _ _).trans ((skip_field 10 _ _).trans ((skip_field 7 _ _).trans
      ((skip_field 6 _ _).trans ((skip_field 0 _ _).trans (whole_field _))))))
  · exact (skip_field 8 _ _).trans ((skip_field 7 _ _).trans ((skip_field 4 _ _).trans ((skip_field 1 _ _).trans
      ((skip_field 0 _ _).trans (low_field _ _)))))
  · exact (skip_field 7 _ _).trans ((skip_field 6 _ _).trans ((skip_field 3 _ _).trans ((skip_field 0 _ _).trans
      (low_field _ _))))
  · exact (skip_field 4 _ _).trans ((skip_field 3 _ _).trans ((skip_field 0 _ _).trans (low_field _ _)))
  · exact (skip_field 1 _ _).trans ((skip_field 0 _ _).trans (low_field _ _))
  · exact (skip_field 0 _ _).trans (low_field _ _)
  · exact low_field _ _

theorem Word.lay_4_6_1_3_3_2_13 (x0 : BitVec 4) (x1 : BitVec 6) (x2 : BitVec 1) (x3 : BitVec 3) (x4 : BitVec 3) (x5 :
    BitVec 2) (x6 : BitVec 13) (w : Syl)
    (h : w = x0 ++ x1 ++ x2 ++ x3 ++ x4 ++ x5 ++ x6) :
    w.extractLsb' 28 4 = x0 ∧
      w.extractLsb' 22 6 = x1 ∧
      w.extractLsb' 21 1 = x2 ∧
      w.extractLsb' 18 3 = x3 ∧
      w.extractLsb' 15 3 = x4 ∧
      w.extractLsb' 13 2 = x5 ∧
      w.extractLsb' 0 13 = x6 := by
  subst h
  refine ⟨?_, ?_, ?_, ?_, ?_, ?_, ?_⟩
  · exact (skip_field 15 _ _).trans ((skip_field 13 _ _).trans ((skip_field 10 _ _).trans ((skip_field 7 _ _).trans
      ((skip_field 6 _ _).trans ((skip_field 0 _ _).trans (whole_field _))))))
  · exact (skip_field 9 _ _).trans ((skip_field 7 _ _).trans ((skip_field 4 _ _).trans ((skip_field 1 _ _).trans
      ((skip_field 0 _ _).trans (low_field _ _)))))
  · exact (skip_field 8 _ _).trans ((skip_field 6 _ _).trans ((skip_field 3 _ _).trans ((skip_field 0 _ _).trans
      (low_field _ _))))
  · exact (skip_field 5 _ _).trans ((skip_field 3 _ _).trans ((skip_field 0 _ _).trans (low_field _ _)))
  · exact (skip_field 2 _ _).trans ((skip_field 0 _ _).trans (low_field _ _))
  · exact (skip_field 0 _ _).trans (low_field _ _)
  · exact low_field _ _

theorem Word.lay_4_6_1_5_16 (x0 : BitVec 4) (x1 : BitVec 6) (x2 : BitVec 1) (x3 : BitVec 5) (x4 : BitVec 16) (w : Syl)
    (h : w = x0 ++ x1 ++ x2 ++ x3 ++ x4) :
    w.extractLsb' 28 4 = x0 ∧
      w.extractLsb' 22 6 = x1 ∧
      w.extractLsb' 21 1 = x2 ∧
      w.extractLsb' 16 5 = x3 ∧
      w.extractLsb' 0 16 = x4 := by
  subst h
  refine ⟨?_, ?_, ?_, ?_, ?_⟩
  · exact (skip_field 12 _ _).trans ((skip_field 7 _ _).trans ((skip_field 6 _ _).trans ((skip_field 0 _ _).trans
      (whole_field _))))
  · exact (skip_field 6 _ _).trans ((skip_field 1 _ _).trans ((skip_field 0 _ _).trans (low_field _ _)))
  · exact (skip_field 5 _ _).trans ((skip_field 0 _ _).trans (low_field _ _))
  · exact (skip_field 0 _ _).trans (low_field _ _)
  · exact low_field _ _

theorem Word.lay_4_6_1_6_15 (x0 : BitVec 4) (x1 : BitVec 6) (x2 : BitVec 1) (x3 : BitVec 6) (x4 : BitVec 15) (w : Syl)
    (h : w = x0 ++ x1 ++ x2 ++ x3 ++ x4) :
    w.extractLsb' 28 4 = x0 ∧
      w.extractLsb' 22 6 = x1 ∧
      w.extractLsb' 21 1 = x2 ∧
      w.extractLsb' 15 6 = x3 ∧
      w.extractLsb' 0 15 = x4 := by
  subst h
  refine ⟨?_, ?_, ?_, ?_, ?_⟩
  · exact (skip_field 13 _ _).trans ((skip_field 7 _ _).trans ((skip_field 6 _ _).trans ((skip_field 0 _ _).trans
      (whole_field _))))
  · exact (skip_field 7 _ _).trans ((skip_field 1 _ _).trans ((skip_field 0 _ _).trans (low_field _ _)))
  · exact (skip_field 6 _ _).trans ((skip_field 0 _ _).trans (low_field _ _))
  · exact (skip_field 0 _ _).trans (low_field _ _)
  · exact low_field _ _

theorem Word.lay_4_6_1_8_3_1_9 (x0 : BitVec 4) (x1 : BitVec 6) (x2 : BitVec 1) (x3 : BitVec 8) (x4 : BitVec 3) (x5 :
    BitVec 1) (x6 : BitVec 9) (w : Syl)
    (h : w = x0 ++ x1 ++ x2 ++ x3 ++ x4 ++ x5 ++ x6) :
    w.extractLsb' 28 4 = x0 ∧
      w.extractLsb' 22 6 = x1 ∧
      w.extractLsb' 21 1 = x2 ∧
      w.extractLsb' 13 8 = x3 ∧
      w.extractLsb' 10 3 = x4 ∧
      w.extractLsb' 9 1 = x5 ∧
      w.extractLsb' 0 9 = x6 := by
  subst h
  refine ⟨?_, ?_, ?_, ?_, ?_, ?_, ?_⟩
  · exact (skip_field 19 _ _).trans ((skip_field 18 _ _).trans ((skip_field 15 _ _).trans ((skip_field 7 _ _).trans
      ((skip_field 6 _ _).trans ((skip_field 0 _ _).trans (whole_field _))))))
  · exact (skip_field 13 _ _).trans ((skip_field 12 _ _).trans ((skip_field 9 _ _).trans ((skip_field 1 _ _).trans
      ((skip_field 0 _ _).trans (low_field _ _)))))
  · exact (skip_field 12 _ _).trans ((skip_field 11 _ _).trans ((skip_field 8 _ _).trans ((skip_field 0 _ _).trans
      (low_field _ _))))
  · exact (skip_field 4 _ _).trans ((skip_field 3 _ _).trans ((skip_field 0 _ _).trans (low_field _ _)))
  · exact (skip_field 1 _ _).trans ((skip_field 0 _ _).trans (low_field _ _))
  · exact (skip_field 0 _ _).trans (low_field _ _)
  · exact low_field _ _

theorem Word.lay_4_6_22 (x0 : BitVec 4) (x1 : BitVec 6) (x2 : BitVec 22) (w : Syl)
    (h : w = x0 ++ x1 ++ x2) :
    w.extractLsb' 28 4 = x0 ∧
      w.extractLsb' 22 6 = x1 ∧
      w.extractLsb' 0 22 = x2 := by
  subst h
  refine ⟨?_, ?_, ?_⟩
  · exact (skip_field 6 _ _).trans ((skip_field 0 _ _).trans (whole_field _))
  · exact (skip_field 0 _ _).trans (low_field _ _)
  · exact low_field _ _

theorem Word.lay_4_6_2_20 (x0 : BitVec 4) (x1 : BitVec 6) (x2 : BitVec 2) (x3 : BitVec 20) (w : Syl)
    (h : w = x0 ++ x1 ++ x2 ++ x3) :
    w.extractLsb' 28 4 = x0 ∧
      w.extractLsb' 22 6 = x1 ∧
      w.extractLsb' 20 2 = x2 ∧
      w.extractLsb' 0 20 = x3 := by
  subst h
  refine ⟨?_, ?_, ?_, ?_⟩
  · exact (skip_field 8 _ _).trans ((skip_field 6 _ _).trans ((skip_field 0 _ _).trans (whole_field _)))
  · exact (skip_field 2 _ _).trans ((skip_field 0 _ _).trans (low_field _ _))
  · exact (skip_field 0 _ _).trans (low_field _ _)
  · exact low_field _ _

theorem Word.lay_4_6_3_10_9 (x0 : BitVec 4) (x1 : BitVec 6) (x2 : BitVec 3) (x3 : BitVec 10) (x4 : BitVec 9) (w : Syl)
    (h : w = x0 ++ x1 ++ x2 ++ x3 ++ x4) :
    w.extractLsb' 28 4 = x0 ∧
      w.extractLsb' 22 6 = x1 ∧
      w.extractLsb' 19 3 = x2 ∧
      w.extractLsb' 9 10 = x3 ∧
      w.extractLsb' 0 9 = x4 := by
  subst h
  refine ⟨?_, ?_, ?_, ?_, ?_⟩
  · exact (skip_field 19 _ _).trans ((skip_field 9 _ _).trans ((skip_field 6 _ _).trans ((skip_field 0 _ _).trans
      (whole_field _))))
  · exact (skip_field 13 _ _).trans ((skip_field 3 _ _).trans ((skip_field 0 _ _).trans (low_field _ _)))
  · exact (skip_field 10 _ _).trans ((skip_field 0 _ _).trans (low_field _ _))
  · exact (skip_field 0 _ _).trans (low_field _ _)
  · exact low_field _ _

theorem Word.lay_4_6_3_19 (x0 : BitVec 4) (x1 : BitVec 6) (x2 : BitVec 3) (x3 : BitVec 19) (w : Syl)
    (h : w = x0 ++ x1 ++ x2 ++ x3) :
    w.extractLsb' 28 4 = x0 ∧
      w.extractLsb' 22 6 = x1 ∧
      w.extractLsb' 19 3 = x2 ∧
      w.extractLsb' 0 19 = x3 := by
  subst h
  refine ⟨?_, ?_, ?_, ?_⟩
  · exact (skip_field 9 _ _).trans ((skip_field 6 _ _).trans ((skip_field 0 _ _).trans (whole_field _)))
  · exact (skip_field 3 _ _).trans ((skip_field 0 _ _).trans (low_field _ _))
  · exact (skip_field 0 _ _).trans (low_field _ _)
  · exact low_field _ _

theorem Word.lay_4_6_3_1_1_17 (x0 : BitVec 4) (x1 : BitVec 6) (x2 : BitVec 3) (x3 : BitVec 1) (x4 : BitVec 1) (x5 :
    BitVec 17) (w : Syl)
    (h : w = x0 ++ x1 ++ x2 ++ x3 ++ x4 ++ x5) :
    w.extractLsb' 28 4 = x0 ∧
      w.extractLsb' 22 6 = x1 ∧
      w.extractLsb' 19 3 = x2 ∧
      w.extractLsb' 18 1 = x3 ∧
      w.extractLsb' 17 1 = x4 ∧
      w.extractLsb' 0 17 = x5 := by
  subst h
  refine ⟨?_, ?_, ?_, ?_, ?_, ?_⟩
  · exact (skip_field 11 _ _).trans ((skip_field 10 _ _).trans ((skip_field 9 _ _).trans ((skip_field 6 _ _).trans
      ((skip_field 0 _ _).trans (whole_field _)))))
  · exact (skip_field 5 _ _).trans ((skip_field 4 _ _).trans ((skip_field 3 _ _).trans ((skip_field 0 _ _).trans
      (low_field _ _))))
  · exact (skip_field 2 _ _).trans ((skip_field 1 _ _).trans ((skip_field 0 _ _).trans (low_field _ _)))
  · exact (skip_field 1 _ _).trans ((skip_field 0 _ _).trans (low_field _ _))
  · exact (skip_field 0 _ _).trans (low_field _ _)
  · exact low_field _ _

theorem Word.lay_4_6_3_3_16 (x0 : BitVec 4) (x1 : BitVec 6) (x2 : BitVec 3) (x3 : BitVec 3) (x4 : BitVec 16) (w : Syl)
    (h : w = x0 ++ x1 ++ x2 ++ x3 ++ x4) :
    w.extractLsb' 28 4 = x0 ∧
      w.extractLsb' 22 6 = x1 ∧
      w.extractLsb' 19 3 = x2 ∧
      w.extractLsb' 16 3 = x3 ∧
      w.extractLsb' 0 16 = x4 := by
  subst h
  refine ⟨?_, ?_, ?_, ?_, ?_⟩
  · exact (skip_field 12 _ _).trans ((skip_field 9 _ _).trans ((skip_field 6 _ _).trans ((skip_field 0 _ _).trans
      (whole_field _))))
  · exact (skip_field 6 _ _).trans ((skip_field 3 _ _).trans ((skip_field 0 _ _).trans (low_field _ _)))
  · exact (skip_field 3 _ _).trans ((skip_field 0 _ _).trans (low_field _ _))
  · exact (skip_field 0 _ _).trans (low_field _ _)
  · exact low_field _ _

theorem Word.lay_4_6_3_3_3_13 (x0 : BitVec 4) (x1 : BitVec 6) (x2 : BitVec 3) (x3 : BitVec 3) (x4 : BitVec 3) (x5 :
    BitVec 13) (w : Syl)
    (h : w = x0 ++ x1 ++ x2 ++ x3 ++ x4 ++ x5) :
    w.extractLsb' 28 4 = x0 ∧
      w.extractLsb' 22 6 = x1 ∧
      w.extractLsb' 19 3 = x2 ∧
      w.extractLsb' 16 3 = x3 ∧
      w.extractLsb' 13 3 = x4 ∧
      w.extractLsb' 0 13 = x5 := by
  subst h
  refine ⟨?_, ?_, ?_, ?_, ?_, ?_⟩
  · exact (skip_field 15 _ _).trans ((skip_field 12 _ _).trans ((skip_field 9 _ _).trans ((skip_field 6 _ _).trans
      ((skip_field 0 _ _).trans (whole_field _)))))
  · exact (skip_field 9 _ _).trans ((skip_field 6 _ _).trans ((skip_field 3 _ _).trans ((skip_field 0 _ _).trans
      (low_field _ _))))
  · exact (skip_field 6 _ _).trans ((skip_field 3 _ _).trans ((skip_field 0 _ _).trans (low_field _ _)))
  · exact (skip_field 3 _ _).trans ((skip_field 0 _ _).trans (low_field _ _))
  · exact (skip_field 0 _ _).trans (low_field _ _)
  · exact low_field _ _

theorem Word.lay_4_6_3_3_6_10 (x0 : BitVec 4) (x1 : BitVec 6) (x2 : BitVec 3) (x3 : BitVec 3) (x4 : BitVec 6) (x5 :
    BitVec 10) (w : Syl)
    (h : w = x0 ++ x1 ++ x2 ++ x3 ++ x4 ++ x5) :
    w.extractLsb' 28 4 = x0 ∧
      w.extractLsb' 22 6 = x1 ∧
      w.extractLsb' 19 3 = x2 ∧
      w.extractLsb' 16 3 = x3 ∧
      w.extractLsb' 10 6 = x4 ∧
      w.extractLsb' 0 10 = x5 := by
  subst h
  refine ⟨?_, ?_, ?_, ?_, ?_, ?_⟩
  · exact (skip_field 18 _ _).trans ((skip_field 12 _ _).trans ((skip_field 9 _ _).trans ((skip_field 6 _ _).trans
      ((skip_field 0 _ _).trans (whole_field _)))))
  · exact (skip_field 12 _ _).trans ((skip_field 6 _ _).trans ((skip_field 3 _ _).trans ((skip_field 0 _ _).trans
      (low_field _ _))))
  · exact (skip_field 9 _ _).trans ((skip_field 3 _ _).trans ((skip_field 0 _ _).trans (low_field _ _)))
  · exact (skip_field 6 _ _).trans ((skip_field 0 _ _).trans (low_field _ _))
  · exact (skip_field 0 _ _).trans (low_field _ _)
  · exact low_field _ _

theorem Word.lay_4_6_3_3_6_6_4 (x0 : BitVec 4) (x1 : BitVec 6) (x2 : BitVec 3) (x3 : BitVec 3) (x4 : BitVec 6) (x5 :
    BitVec 6) (x6 : BitVec 4) (w : Syl)
    (h : w = x0 ++ x1 ++ x2 ++ x3 ++ x4 ++ x5 ++ x6) :
    w.extractLsb' 28 4 = x0 ∧
      w.extractLsb' 22 6 = x1 ∧
      w.extractLsb' 19 3 = x2 ∧
      w.extractLsb' 16 3 = x3 ∧
      w.extractLsb' 10 6 = x4 ∧
      w.extractLsb' 4 6 = x5 ∧
      w.extractLsb' 0 4 = x6 := by
  subst h
  refine ⟨?_, ?_, ?_, ?_, ?_, ?_, ?_⟩
  · exact (skip_field 24 _ _).trans ((skip_field 18 _ _).trans ((skip_field 12 _ _).trans ((skip_field 9 _ _).trans
      ((skip_field 6 _ _).trans ((skip_field 0 _ _).trans (whole_field _))))))
  · exact (skip_field 18 _ _).trans ((skip_field 12 _ _).trans ((skip_field 6 _ _).trans ((skip_field 3 _ _).trans
      ((skip_field 0 _ _).trans (low_field _ _)))))
  · exact (skip_field 15 _ _).trans ((skip_field 9 _ _).trans ((skip_field 3 _ _).trans ((skip_field 0 _ _).trans
      (low_field _ _))))
  · exact (skip_field 12 _ _).trans ((skip_field 6 _ _).trans ((skip_field 0 _ _).trans (low_field _ _)))
  · exact (skip_field 6 _ _).trans ((skip_field 0 _ _).trans (low_field _ _))
  · exact (skip_field 0 _ _).trans (low_field _ _)
  · exact low_field _ _

theorem Word.lay_4_6_3_6_13 (x0 : BitVec 4) (x1 : BitVec 6) (x2 : BitVec 3) (x3 : BitVec 6) (x4 : BitVec 13) (w : Syl)
    (h : w = x0 ++ x1 ++ x2 ++ x3 ++ x4) :
    w.extractLsb' 28 4 = x0 ∧
      w.extractLsb' 22 6 = x1 ∧
      w.extractLsb' 19 3 = x2 ∧
      w.extractLsb' 13 6 = x3 ∧
      w.extractLsb' 0 13 = x4 := by
  subst h
  refine ⟨?_, ?_, ?_, ?_, ?_⟩
  · exact (skip_field 15 _ _).trans ((skip_field 9 _ _).trans ((skip_field 6 _ _).trans ((skip_field 0 _ _).trans
      (whole_field _))))
  · exact (skip_field 9 _ _).trans ((skip_field 3 _ _).trans ((skip_field 0 _ _).trans (low_field _ _)))
  · exact (skip_field 6 _ _).trans ((skip_field 0 _ _).trans (low_field _ _))
  · exact (skip_field 0 _ _).trans (low_field _ _)
  · exact low_field _ _

theorem Word.lay_4_6_3_6_6_3_2_2 (x0 : BitVec 4) (x1 : BitVec 6) (x2 : BitVec 3) (x3 : BitVec 6) (x4 : BitVec 6) (x5 :
    BitVec 3) (x6 : BitVec 2) (x7 : BitVec 2) (w : Syl)
    (h : w = x0 ++ x1 ++ x2 ++ x3 ++ x4 ++ x5 ++ x6 ++ x7) :
    w.extractLsb' 28 4 = x0 ∧
      w.extractLsb' 22 6 = x1 ∧
      w.extractLsb' 19 3 = x2 ∧
      w.extractLsb' 13 6 = x3 ∧
      w.extractLsb' 7 6 = x4 ∧
      w.extractLsb' 4 3 = x5 ∧
      w.extractLsb' 2 2 = x6 ∧
      w.extractLsb' 0 2 = x7 := by
  subst h
  refine ⟨?_, ?_, ?_, ?_, ?_, ?_, ?_, ?_⟩
  · exact (skip_field 26 _ _).trans ((skip_field 24 _ _).trans ((skip_field 21 _ _).trans ((skip_field 15 _ _).trans
      ((skip_field 9 _ _).trans ((skip_field 6 _ _).trans ((skip_field 0 _ _).trans (whole_field _)))))))
  · exact (skip_field 20 _ _).trans ((skip_field 18 _ _).trans ((skip_field 15 _ _).trans ((skip_field 9 _ _).trans
      ((skip_field 3 _ _).trans ((skip_field 0 _ _).trans (low_field _ _))))))
  · exact (skip_field 17 _ _).trans ((skip_field 15 _ _).trans ((skip_field 12 _ _).trans ((skip_field 6 _ _).trans
      ((skip_field 0 _ _).trans (low_field _ _)))))
  · exact (skip_field 11 _ _).trans ((skip_field 9 _ _).trans ((skip_field 6 _ _).trans ((skip_field 0 _ _).trans
      (low_field _ _))))
  · exact (skip_field 5 _ _).trans ((skip_field 3 _ _).trans ((skip_field 0 _ _).trans (low_field _ _)))
  · exact (skip_field 2 _ _).trans ((skip_field 0 _ _).trans (low_field _ _))
  · exact (skip_field 0 _ _).trans (low_field _ _)
  · exact low_field _ _

theorem Word.lay_4_6_4_18 (x0 : BitVec 4) (x1 : BitVec 6) (x2 : BitVec 4) (x3 : BitVec 18) (w : Syl)
    (h : w = x0 ++ x1 ++ x2 ++ x3) :
    w.extractLsb' 28 4 = x0 ∧
      w.extractLsb' 22 6 = x1 ∧
      w.extractLsb' 18 4 = x2 ∧
      w.extractLsb' 0 18 = x3 := by
  subst h
  refine ⟨?_, ?_, ?_, ?_⟩
  · exact (skip_field 10 _ _).trans ((skip_field 6 _ _).trans ((skip_field 0 _ _).trans (whole_field _)))
  · exact (skip_field 4 _ _).trans ((skip_field 0 _ _).trans (low_field _ _))
  · exact (skip_field 0 _ _).trans (low_field _ _)
  · exact low_field _ _

theorem Word.lay_4_6_4_3_6_9 (x0 : BitVec 4) (x1 : BitVec 6) (x2 : BitVec 4) (x3 : BitVec 3) (x4 : BitVec 6) (x5 :
    BitVec 9) (w : Syl)
    (h : w = x0 ++ x1 ++ x2 ++ x3 ++ x4 ++ x5) :
    w.extractLsb' 28 4 = x0 ∧
      w.extractLsb' 22 6 = x1 ∧
      w.extractLsb' 18 4 = x2 ∧
      w.extractLsb' 15 3 = x3 ∧
      w.extractLsb' 9 6 = x4 ∧
      w.extractLsb' 0 9 = x5 := by
  subst h
  refine ⟨?_, ?_, ?_, ?_, ?_, ?_⟩
  · exact (skip_field 19 _ _).trans ((skip_field 13 _ _).trans ((skip_field 10 _ _).trans ((skip_field 6 _ _).trans
      ((skip_field 0 _ _).trans (whole_field _)))))
  · exact (skip_field 13 _ _).trans ((skip_field 7 _ _).trans ((skip_field 4 _ _).trans ((skip_field 0 _ _).trans
      (low_field _ _))))
  · exact (skip_field 9 _ _).trans ((skip_field 3 _ _).trans ((skip_field 0 _ _).trans (low_field _ _)))
  · exact (skip_field 6 _ _).trans ((skip_field 0 _ _).trans (low_field _ _))
  · exact (skip_field 0 _ _).trans (low_field _ _)
  · exact low_field _ _

theorem Word.lay_4_6_4_4_4_1_1_8 (x0 : BitVec 4) (x1 : BitVec 6) (x2 : BitVec 4) (x3 : BitVec 4) (x4 : BitVec 4) (x5 :
    BitVec 1) (x6 : BitVec 1) (x7 : BitVec 8) (w : Syl)
    (h : w = x0 ++ x1 ++ x2 ++ x3 ++ x4 ++ x5 ++ x6 ++ x7) :
    w.extractLsb' 28 4 = x0 ∧
      w.extractLsb' 22 6 = x1 ∧
      w.extractLsb' 18 4 = x2 ∧
      w.extractLsb' 14 4 = x3 ∧
      w.extractLsb' 10 4 = x4 ∧
      w.extractLsb' 9 1 = x5 ∧
      w.extractLsb' 8 1 = x6 ∧
      w.extractLsb' 0 8 = x7 := by
  subst h
  refine ⟨?_, ?_, ?_, ?_, ?_, ?_, ?_, ?_⟩
  · exact (skip_field 20 _ _).trans ((skip_field 19 _ _).trans ((skip_field 18 _ _).trans ((skip_field 14 _ _).trans
      ((skip_field 10 _ _).trans ((skip_field 6 _ _).trans ((skip_field 0 _ _).trans (whole_field _)))))))
  · exact (skip_field 14 _ _).trans ((skip_field 13 _ _).trans ((skip_field 12 _ _).trans ((skip_field 8 _ _).trans
      ((skip_field 4 _ _).trans ((skip_field 0 _ _).trans (low_field _ _))))))
  · exact (skip_field 10 _ _).trans ((skip_field 9 _ _).trans ((skip_field 8 _ _).trans ((skip_field 4 _ _).trans
      ((skip_field 0 _ _).trans (low_field _ _)))))
  · exact (skip_field 6 _ _).trans ((skip_field 5 _ _).trans ((skip_field 4 _ _).trans ((skip_field 0 _ _).trans
      (low_field _ _))))
  · exact (skip_field 2 _ _).trans ((skip_field 1 _ _).trans ((skip_field 0 _ _).trans (low_field _ _)))
  · exact (skip_field 1 _ _).trans ((skip_field 0 _ _).trans (low_field _ _))
  · exact (skip_field 0 _ _).trans (low_field _ _)
  · exact low_field _ _

theorem Word.lay_4_6_4_6_12 (x0 : BitVec 4) (x1 : BitVec 6) (x2 : BitVec 4) (x3 : BitVec 6) (x4 : BitVec 12) (w : Syl)
    (h : w = x0 ++ x1 ++ x2 ++ x3 ++ x4) :
    w.extractLsb' 28 4 = x0 ∧
      w.extractLsb' 22 6 = x1 ∧
      w.extractLsb' 18 4 = x2 ∧
      w.extractLsb' 12 6 = x3 ∧
      w.extractLsb' 0 12 = x4 := by
  subst h
  refine ⟨?_, ?_, ?_, ?_, ?_⟩
  · exact (skip_field 16 _ _).trans ((skip_field 10 _ _).trans ((skip_field 6 _ _).trans ((skip_field 0 _ _).trans
      (whole_field _))))
  · exact (skip_field 10 _ _).trans ((skip_field 4 _ _).trans ((skip_field 0 _ _).trans (low_field _ _)))
  · exact (skip_field 6 _ _).trans ((skip_field 0 _ _).trans (low_field _ _))
  · exact (skip_field 0 _ _).trans (low_field _ _)
  · exact low_field _ _

theorem Word.lay_4_6_4_6_1_11 (x0 : BitVec 4) (x1 : BitVec 6) (x2 : BitVec 4) (x3 : BitVec 6) (x4 : BitVec 1) (x5 :
    BitVec 11) (w : Syl)
    (h : w = x0 ++ x1 ++ x2 ++ x3 ++ x4 ++ x5) :
    w.extractLsb' 28 4 = x0 ∧
      w.extractLsb' 22 6 = x1 ∧
      w.extractLsb' 18 4 = x2 ∧
      w.extractLsb' 12 6 = x3 ∧
      w.extractLsb' 11 1 = x4 ∧
      w.extractLsb' 0 11 = x5 := by
  subst h
  refine ⟨?_, ?_, ?_, ?_, ?_, ?_⟩
  · exact (skip_field 17 _ _).trans ((skip_field 16 _ _).trans ((skip_field 10 _ _).trans ((skip_field 6 _ _).trans
      ((skip_field 0 _ _).trans (whole_field _)))))
  · exact (skip_field 11 _ _).trans ((skip_field 10 _ _).trans ((skip_field 4 _ _).trans ((skip_field 0 _ _).trans
      (low_field _ _))))
  · exact (skip_field 7 _ _).trans ((skip_field 6 _ _).trans ((skip_field 0 _ _).trans (low_field _ _)))
  · exact (skip_field 1 _ _).trans ((skip_field 0 _ _).trans (low_field _ _))
  · exact (skip_field 0 _ _).trans (low_field _ _)
  · exact low_field _ _

theorem Word.lay_4_6_4_6_6_1_1_4 (x0 : BitVec 4) (x1 : BitVec 6) (x2 : BitVec 4) (x3 : BitVec 6) (x4 : BitVec 6) (x5 :
    BitVec 1) (x6 : BitVec 1) (x7 : BitVec 4) (w : Syl)
    (h : w = x0 ++ x1 ++ x2 ++ x3 ++ x4 ++ x5 ++ x6 ++ x7) :
    w.extractLsb' 28 4 = x0 ∧
      w.extractLsb' 22 6 = x1 ∧
      w.extractLsb' 18 4 = x2 ∧
      w.extractLsb' 12 6 = x3 ∧
      w.extractLsb' 6 6 = x4 ∧
      w.extractLsb' 5 1 = x5 ∧
      w.extractLsb' 4 1 = x6 ∧
      w.extractLsb' 0 4 = x7 := by
  subst h
  refine ⟨?_, ?_, ?_, ?_, ?_, ?_, ?_, ?_⟩
  · exact (skip_field 24 _ _).trans ((skip_field 23 _ _).trans ((skip_field 22 _ _).trans ((skip_field 16 _ _).trans
      ((skip_field 10 _ _).trans ((skip_field 6 _ _).trans ((skip_field 0 _ _).trans (whole_field _)))))))
  · exact (skip_field 18 _ _).trans ((skip_field 17 _ _).trans ((skip_field 16 _ _).trans ((skip_field 10 _ _).trans
      ((skip_field 4 _ _).trans ((skip_field 0 _ _).trans (low_field _ _))))))
  · exact (skip_field 14 _ _).trans ((skip_field 13 _ _).trans ((skip_field 12 _ _).trans ((skip_field 6 _ _).trans
      ((skip_field 0 _ _).trans (low_field _ _)))))
  · exact (skip_field 8 _ _).trans ((skip_field 7 _ _).trans ((skip_field 6 _ _).trans ((skip_field 0 _ _).trans
      (low_field _ _))))
  · exact (skip_field 2 _ _).trans ((skip_field 1 _ _).trans ((skip_field 0 _ _).trans (low_field _ _)))
  · exact (skip_field 1 _ _).trans ((skip_field 0 _ _).trans (low_field _ _))
  · exact (skip_field 0 _ _).trans (low_field _ _)
  · exact low_field _ _

theorem Word.lay_4_6_4_6_6_6 (x0 : BitVec 4) (x1 : BitVec 6) (x2 : BitVec 4) (x3 : BitVec 6) (x4 : BitVec 6) (x5 :
    BitVec 6) (w : Syl)
    (h : w = x0 ++ x1 ++ x2 ++ x3 ++ x4 ++ x5) :
    w.extractLsb' 28 4 = x0 ∧
      w.extractLsb' 22 6 = x1 ∧
      w.extractLsb' 18 4 = x2 ∧
      w.extractLsb' 12 6 = x3 ∧
      w.extractLsb' 6 6 = x4 ∧
      w.extractLsb' 0 6 = x5 := by
  subst h
  refine ⟨?_, ?_, ?_, ?_, ?_, ?_⟩
  · exact (skip_field 22 _ _).trans ((skip_field 16 _ _).trans ((skip_field 10 _ _).trans ((skip_field 6 _ _).trans
      ((skip_field 0 _ _).trans (whole_field _)))))
  · exact (skip_field 16 _ _).trans ((skip_field 10 _ _).trans ((skip_field 4 _ _).trans ((skip_field 0 _ _).trans
      (low_field _ _))))
  · exact (skip_field 12 _ _).trans ((skip_field 6 _ _).trans ((skip_field 0 _ _).trans (low_field _ _)))
  · exact (skip_field 6 _ _).trans ((skip_field 0 _ _).trans (low_field _ _))
  · exact (skip_field 0 _ _).trans (low_field _ _)
  · exact low_field _ _

theorem Word.lay_4_6_5_12_3_2 (x0 : BitVec 4) (x1 : BitVec 6) (x2 : BitVec 5) (x3 : BitVec 12) (x4 : BitVec 3) (x5 :
    BitVec 2) (w : Syl)
    (h : w = x0 ++ x1 ++ x2 ++ x3 ++ x4 ++ x5) :
    w.extractLsb' 28 4 = x0 ∧
      w.extractLsb' 22 6 = x1 ∧
      w.extractLsb' 17 5 = x2 ∧
      w.extractLsb' 5 12 = x3 ∧
      w.extractLsb' 2 3 = x4 ∧
      w.extractLsb' 0 2 = x5 := by
  subst h
  refine ⟨?_, ?_, ?_, ?_, ?_, ?_⟩
  · exact (skip_field 26 _ _).trans ((skip_field 23 _ _).trans ((skip_field 11 _ _).trans ((skip_field 6 _ _).trans
      ((skip_field 0 _ _).trans (whole_field _)))))
  · exact (skip_field 20 _ _).trans ((skip_field 17 _ _).trans ((skip_field 5 _ _).trans ((skip_field 0 _ _).trans
      (low_field _ _))))
  · exact (skip_field 15 _ _).trans ((skip_field 12 _ _).trans ((skip_field 0 _ _).trans (low_field _ _)))
  · exact (skip_field 3 _ _).trans ((skip_field 0 _ _).trans (low_field _ _))
  · exact (skip_field 0 _ _).trans (low_field _ _)
  · exact low_field _ _

theorem Word.lay_4_6_5_6_3_3_3_2 (x0 : BitVec 4) (x1 : BitVec 6) (x2 : BitVec 5) (x3 : BitVec 6) (x4 : BitVec 3) (x5 :
    BitVec 3) (x6 : BitVec 3) (x7 : BitVec 2) (w : Syl)
    (h : w = x0 ++ x1 ++ x2 ++ x3 ++ x4 ++ x5 ++ x6 ++ x7) :
    w.extractLsb' 28 4 = x0 ∧
      w.extractLsb' 22 6 = x1 ∧
      w.extractLsb' 17 5 = x2 ∧
      w.extractLsb' 11 6 = x3 ∧
      w.extractLsb' 8 3 = x4 ∧
      w.extractLsb' 5 3 = x5 ∧
      w.extractLsb' 2 3 = x6 ∧
      w.extractLsb' 0 2 = x7 := by
  subst h
  refine ⟨?_, ?_, ?_, ?_, ?_, ?_, ?_, ?_⟩
  · exact (skip_field 26 _ _).trans ((skip_field 23 _ _).trans ((skip_field 20 _ _).trans ((skip_field 17 _ _).trans
      ((skip_field 11 _ _).trans ((skip_field 6 _ _).trans ((skip_field 0 _ _).trans (whole_field _)))))))
  · exact (skip_field 20 _ _).trans ((skip_field 17 _ _).trans ((skip_field 14 _ _).trans ((skip_field 11 _ _).trans
      ((skip_field 5 _ _).trans ((skip_field 0 _ _).trans (low_field _ _))))))
  · exact (skip_field 15 _ _).trans ((skip_field 12 _ _).trans ((skip_field 9 _ _).trans ((skip_field 6 _ _).trans
      ((skip_field 0 _ _).trans (low_field _ _)))))
  · exact (skip_field 9 _ _).trans ((skip_field 6 _ _).trans ((skip_field 3 _ _).trans ((skip_field 0 _ _).trans
      (low_field _ _))))
  · exact (skip_field 6 _ _).trans ((skip_field 3 _ _).trans ((skip_field 0 _ _).trans (low_field _ _)))
  · exact (skip_field 3 _ _).trans ((skip_field 0 _ _).trans (low_field _ _))
  · exact (skip_field 0 _ _).trans (low_field _ _)
  · exact low_field _ _

theorem Word.lay_4_6_5_6_4_2_3_2 (x0 : BitVec 4) (x1 : BitVec 6) (x2 : BitVec 5) (x3 : BitVec 6) (x4 : BitVec 4) (x5 :
    BitVec 2) (x6 : BitVec 3) (x7 : BitVec 2) (w : Syl)
    (h : w = x0 ++ x1 ++ x2 ++ x3 ++ x4 ++ x5 ++ x6 ++ x7) :
    w.extractLsb' 28 4 = x0 ∧
      w.extractLsb' 22 6 = x1 ∧
      w.extractLsb' 17 5 = x2 ∧
      w.extractLsb' 11 6 = x3 ∧
      w.extractLsb' 7 4 = x4 ∧
      w.extractLsb' 5 2 = x5 ∧
      w.extractLsb' 2 3 = x6 ∧
      w.extractLsb' 0 2 = x7 := by
  subst h
  refine ⟨?_, ?_, ?_, ?_, ?_, ?_, ?_, ?_⟩
  · exact (skip_field 26 _ _).trans ((skip_field 23 _ _).trans ((skip_field 21 _ _).trans ((skip_field 17 _ _).trans
      ((skip_field 11 _ _).trans ((skip_field 6 _ _).trans ((skip_field 0 _ _).trans (whole_field _)))))))
  · exact (skip_field 20 _ _).trans ((skip_field 17 _ _).trans ((skip_field 15 _ _).trans ((skip_field 11 _ _).trans
      ((skip_field 5 _ _).trans ((skip_field 0 _ _).trans (low_field _ _))))))
  · exact (skip_field 15 _ _).trans ((skip_field 12 _ _).trans ((skip_field 10 _ _).trans ((skip_field 6 _ _).trans
      ((skip_field 0 _ _).trans (low_field _ _)))))
  · exact (skip_field 9 _ _).trans ((skip_field 6 _ _).trans ((skip_field 4 _ _).trans ((skip_field 0 _ _).trans
      (low_field _ _))))
  · exact (skip_field 5 _ _).trans ((skip_field 2 _ _).trans ((skip_field 0 _ _).trans (low_field _ _)))
  · exact (skip_field 3 _ _).trans ((skip_field 0 _ _).trans (low_field _ _))
  · exact (skip_field 0 _ _).trans (low_field _ _)
  · exact low_field _ _

theorem Word.lay_4_6_5_6_4_4_3 (x0 : BitVec 4) (x1 : BitVec 6) (x2 : BitVec 5) (x3 : BitVec 6) (x4 : BitVec 4) (x5 :
    BitVec 4) (x6 : BitVec 3) (w : Syl)
    (h : w = x0 ++ x1 ++ x2 ++ x3 ++ x4 ++ x5 ++ x6) :
    w.extractLsb' 28 4 = x0 ∧
      w.extractLsb' 22 6 = x1 ∧
      w.extractLsb' 17 5 = x2 ∧
      w.extractLsb' 11 6 = x3 ∧
      w.extractLsb' 7 4 = x4 ∧
      w.extractLsb' 3 4 = x5 ∧
      w.extractLsb' 0 3 = x6 := by
  subst h
  refine ⟨?_, ?_, ?_, ?_, ?_, ?_, ?_⟩
  · exact (skip_field 25 _ _).trans ((skip_field 21 _ _).trans ((skip_field 17 _ _).trans ((skip_field 11 _ _).trans
      ((skip_field 6 _ _).trans ((skip_field 0 _ _).trans (whole_field _))))))
  · exact (skip_field 19 _ _).trans ((skip_field 15 _ _).trans ((skip_field 11 _ _).trans ((skip_field 5 _ _).trans
      ((skip_field 0 _ _).trans (low_field _ _)))))
  · exact (skip_field 14 _ _).trans ((skip_field 10 _ _).trans ((skip_field 6 _ _).trans ((skip_field 0 _ _).trans
      (low_field _ _))))
  · exact (skip_field 8 _ _).trans ((skip_field 4 _ _).trans ((skip_field 0 _ _).trans (low_field _ _)))
  · exact (skip_field 4 _ _).trans ((skip_field 0 _ _).trans (low_field _ _))
  · exact (skip_field 0 _ _).trans (low_field _ _)
  · exact low_field _ _

theorem Word.lay_4_6_5_6_6_2_1_1_1 (x0 : BitVec 4) (x1 : BitVec 6) (x2 : BitVec 5) (x3 : BitVec 6) (x4 : BitVec 6) (x5
    : BitVec 2) (x6 : BitVec 1) (x7 : BitVec 1) (x8 : BitVec 1) (w : Syl)
    (h : w = x0 ++ x1 ++ x2 ++ x3 ++ x4 ++ x5 ++ x6 ++ x7 ++ x8) :
    w.extractLsb' 28 4 = x0 ∧
      w.extractLsb' 22 6 = x1 ∧
      w.extractLsb' 17 5 = x2 ∧
      w.extractLsb' 11 6 = x3 ∧
      w.extractLsb' 5 6 = x4 ∧
      w.extractLsb' 3 2 = x5 ∧
      w.extractLsb' 2 1 = x6 ∧
      w.extractLsb' 1 1 = x7 ∧
      w.extractLsb' 0 1 = x8 := by
  subst h
  refine ⟨?_, ?_, ?_, ?_, ?_, ?_, ?_, ?_, ?_⟩
  · exact (skip_field 27 _ _).trans ((skip_field 26 _ _).trans ((skip_field 25 _ _).trans ((skip_field 23 _ _).trans
      ((skip_field 17 _ _).trans ((skip_field 11 _ _).trans ((skip_field 6 _ _).trans ((skip_field 0 _ _).trans
      (whole_field _))))))))
  · exact (skip_field 21 _ _).trans ((skip_field 20 _ _).trans ((skip_field 19 _ _).trans ((skip_field 17 _ _).trans
      ((skip_field 11 _ _).trans ((skip_field 5 _ _).trans ((skip_field 0 _ _).trans (low_field _ _)))))))
  · exact (skip_field 16 _ _).trans ((skip_field 15 _ _).trans ((skip_field 14 _ _).trans ((skip_field 12 _ _).trans
      ((skip_field 6 _ _).trans ((skip_field 0 _ _).trans (low_field _ _))))))
  · exact (skip_field 10 _ _).trans ((skip_field 9 _ _).trans ((skip_field 8 _ _).trans ((skip_field 6 _ _).trans
      ((skip_field 0 _ _).trans (low_field _ _)))))
  · exact (skip_field 4 _ _).trans ((skip_field 3 _ _).trans ((skip_field 2 _ _).trans ((skip_field 0 _ _).trans
      (low_field _ _))))
  · exact (skip_field 2 _ _).trans ((skip_field 1 _ _).trans ((skip_field 0 _ _).trans (low_field _ _)))
  · exact (skip_field 1 _ _).trans ((skip_field 0 _ _).trans (low_field _ _))
  · exact (skip_field 0 _ _).trans (low_field _ _)
  · exact low_field _ _

theorem Word.lay_4_6_5_6_6_2_3 (x0 : BitVec 4) (x1 : BitVec 6) (x2 : BitVec 5) (x3 : BitVec 6) (x4 : BitVec 6) (x5 :
    BitVec 2) (x6 : BitVec 3) (w : Syl)
    (h : w = x0 ++ x1 ++ x2 ++ x3 ++ x4 ++ x5 ++ x6) :
    w.extractLsb' 28 4 = x0 ∧
      w.extractLsb' 22 6 = x1 ∧
      w.extractLsb' 17 5 = x2 ∧
      w.extractLsb' 11 6 = x3 ∧
      w.extractLsb' 5 6 = x4 ∧
      w.extractLsb' 3 2 = x5 ∧
      w.extractLsb' 0 3 = x6 := by
  subst h
  refine ⟨?_, ?_, ?_, ?_, ?_, ?_, ?_⟩
  · exact (skip_field 25 _ _).trans ((skip_field 23 _ _).trans ((skip_field 17 _ _).trans ((skip_field 11 _ _).trans
      ((skip_field 6 _ _).trans ((skip_field 0 _ _).trans (whole_field _))))))
  · exact (skip_field 19 _ _).trans ((skip_field 17 _ _).trans ((skip_field 11 _ _).trans ((skip_field 5 _ _).trans
      ((skip_field 0 _ _).trans (low_field _ _)))))
  · exact (skip_field 14 _ _).trans ((skip_field 12 _ _).trans ((skip_field 6 _ _).trans ((skip_field 0 _ _).trans
      (low_field _ _))))
  · exact (skip_field 8 _ _).trans ((skip_field 6 _ _).trans ((skip_field 0 _ _).trans (low_field _ _)))
  · exact (skip_field 2 _ _).trans ((skip_field 0 _ _).trans (low_field _ _))
  · exact (skip_field 0 _ _).trans (low_field _ _)
  · exact low_field _ _

theorem Word.lay_4_6_5_6_6_3_2 (x0 : BitVec 4) (x1 : BitVec 6) (x2 : BitVec 5) (x3 : BitVec 6) (x4 : BitVec 6) (x5 :
    BitVec 3) (x6 : BitVec 2) (w : Syl)
    (h : w = x0 ++ x1 ++ x2 ++ x3 ++ x4 ++ x5 ++ x6) :
    w.extractLsb' 28 4 = x0 ∧
      w.extractLsb' 22 6 = x1 ∧
      w.extractLsb' 17 5 = x2 ∧
      w.extractLsb' 11 6 = x3 ∧
      w.extractLsb' 5 6 = x4 ∧
      w.extractLsb' 2 3 = x5 ∧
      w.extractLsb' 0 2 = x6 := by
  subst h
  refine ⟨?_, ?_, ?_, ?_, ?_, ?_, ?_⟩
  · exact (skip_field 26 _ _).trans ((skip_field 23 _ _).trans ((skip_field 17 _ _).trans ((skip_field 11 _ _).trans
      ((skip_field 6 _ _).trans ((skip_field 0 _ _).trans (whole_field _))))))
  · exact (skip_field 20 _ _).trans ((skip_field 17 _ _).trans ((skip_field 11 _ _).trans ((skip_field 5 _ _).trans
      ((skip_field 0 _ _).trans (low_field _ _)))))
  · exact (skip_field 15 _ _).trans ((skip_field 12 _ _).trans ((skip_field 6 _ _).trans ((skip_field 0 _ _).trans
      (low_field _ _))))
  · exact (skip_field 9 _ _).trans ((skip_field 6 _ _).trans ((skip_field 0 _ _).trans (low_field _ _)))
  · exact (skip_field 3 _ _).trans ((skip_field 0 _ _).trans (low_field _ _))
  · exact (skip_field 0 _ _).trans (low_field _ _)
  · exact low_field _ _

theorem Word.lay_4_6_5_6_6_5 (x0 : BitVec 4) (x1 : BitVec 6) (x2 : BitVec 5) (x3 : BitVec 6) (x4 : BitVec 6) (x5 :
    BitVec 5) (w : Syl)
    (h : w = x0 ++ x1 ++ x2 ++ x3 ++ x4 ++ x5) :
    w.extractLsb' 28 4 = x0 ∧
      w.extractLsb' 22 6 = x1 ∧
      w.extractLsb' 17 5 = x2 ∧
      w.extractLsb' 11 6 = x3 ∧
      w.extractLsb' 5 6 = x4 ∧
      w.extractLsb' 0 5 = x5 := by
  subst h
  refine ⟨?_, ?_, ?_, ?_, ?_, ?_⟩
  · exact (skip_field 23 _ _).trans ((skip_field 17 _ _).trans ((skip_field 11 _ _).trans ((skip_field 6 _ _).trans
      ((skip_field 0 _ _).trans (whole_field _)))))
  · exact (skip_field 17 _ _).trans ((skip_field 11 _ _).trans ((skip_field 5 _ _).trans ((skip_field 0 _ _).trans
      (low_field _ _))))
  · exact (skip_field 12 _ _).trans ((skip_field 6 _ _).trans ((skip_field 0 _ _).trans (low_field _ _)))
  · exact (skip_field 6 _ _).trans ((skip_field 0 _ _).trans (low_field _ _))
  · exact (skip_field 0 _ _).trans (low_field _ _)
  · exact low_field _ _

theorem Word.lay_4_6_5_6_9_2 (x0 : BitVec 4) (x1 : BitVec 6) (x2 : BitVec 5) (x3 : BitVec 6) (x4 : BitVec 9) (x5 :
    BitVec 2) (w : Syl)
    (h : w = x0 ++ x1 ++ x2 ++ x3 ++ x4 ++ x5) :
    w.extractLsb' 28 4 = x0 ∧
      w.extractLsb' 22 6 = x1 ∧
      w.extractLsb' 17 5 = x2 ∧
      w.extractLsb' 11 6 = x3 ∧
      w.extractLsb' 2 9 = x4 ∧
      w.extractLsb' 0 2 = x5 := by
  subst h
  refine ⟨?_, ?_, ?_, ?_, ?_, ?_⟩
  · exact (skip_field 26 _ _).trans ((skip_field 17 _ _).trans ((skip_field 11 _ _).trans ((skip_field 6 _ _).trans
      ((skip_field 0 _ _).trans (whole_field _)))))
  · exact (skip_field 20 _ _).trans ((skip_field 11 _ _).trans ((skip_field 5 _ _).trans ((skip_field 0 _ _).trans
      (low_field _ _))))
  · exact (skip_field 15 _ _).trans ((skip_field 6 _ _).trans ((skip_field 0 _ _).trans (low_field _ _)))
  · exact (skip_field 9 _ _).trans ((skip_field 0 _ _).trans (low_field _ _))
  · exact (skip_field 0 _ _).trans (low_field _ _)
  · exact low_field _ _

theorem Word.lay_4_6_5_8_2_7 (x0 : BitVec 4) (x1 : BitVec 6) (x2 : BitVec 5) (x3 : BitVec 8) (x4 : BitVec 2) (x5 :
    BitVec 7) (w : Syl)
    (h : w = x0 ++ x1 ++ x2 ++ x3 ++ x4 ++ x5) :
    w.extractLsb' 28 4 = x0 ∧
      w.extractLsb' 22 6 = x1 ∧
      w.extractLsb' 17 5 = x2 ∧
      w.extractLsb' 9 8 = x3 ∧
      w.extractLsb' 7 2 = x4 ∧
      w.extractLsb' 0 7 = x5 := by
  subst h
  refine ⟨?_, ?_, ?_, ?_, ?_, ?_⟩
  · exact (skip_field 21 _ _).trans ((skip_field 19 _ _).trans ((skip_field 11 _ _).trans ((skip_field 6 _ _).trans
      ((skip_field 0 _ _).trans (whole_field _)))))
  · exact (skip_field 15 _ _).trans ((skip_field 13 _ _).trans ((skip_field 5 _ _).trans ((skip_field 0 _ _).trans
      (low_field _ _))))
  · exact (skip_field 10 _ _).trans ((skip_field 8 _ _).trans ((skip_field 0 _ _).trans (low_field _ _)))
  · exact (skip_field 2 _ _).trans ((skip_field 0 _ _).trans (low_field _ _))
  · exact (skip_field 0 _ _).trans (low_field _ _)
  · exact low_field _ _

theorem Word.lay_4_6_6_16 (x0 : BitVec 4) (x1 : BitVec 6) (x2 : BitVec 6) (x3 : BitVec 16) (w : Syl)
    (h : w = x0 ++ x1 ++ x2 ++ x3) :
    w.extractLsb' 28 4 = x0 ∧
      w.extractLsb' 22 6 = x1 ∧
      w.extractLsb' 16 6 = x2 ∧
      w.extractLsb' 0 16 = x3 := by
  subst h
  refine ⟨?_, ?_, ?_, ?_⟩
  · exact (skip_field 12 _ _).trans ((skip_field 6 _ _).trans ((skip_field 0 _ _).trans (whole_field _)))
  · exact (skip_field 6 _ _).trans ((skip_field 0 _ _).trans (low_field _ _))
  · exact (skip_field 0 _ _).trans (low_field _ _)
  · exact low_field _ _

theorem Word.lay_4_6_6_4_12 (x0 : BitVec 4) (x1 : BitVec 6) (x2 : BitVec 6) (x3 : BitVec 4) (x4 : BitVec 12) (w : Syl)
    (h : w = x0 ++ x1 ++ x2 ++ x3 ++ x4) :
    w.extractLsb' 28 4 = x0 ∧
      w.extractLsb' 22 6 = x1 ∧
      w.extractLsb' 16 6 = x2 ∧
      w.extractLsb' 12 4 = x3 ∧
      w.extractLsb' 0 12 = x4 := by
  subst h
  refine ⟨?_, ?_, ?_, ?_, ?_⟩
  · exact (skip_field 16 _ _).trans ((skip_field 12 _ _).trans ((skip_field 6 _ _).trans ((skip_field 0 _ _).trans
      (whole_field _))))
  · exact (skip_field 10 _ _).trans ((skip_field 6 _ _).trans ((skip_field 0 _ _).trans (low_field _ _)))
  · exact (skip_field 4 _ _).trans ((skip_field 0 _ _).trans (low_field _ _))
  · exact (skip_field 0 _ _).trans (low_field _ _)
  · exact low_field _ _

theorem Word.lay_4_6_6_6_10 (x0 : BitVec 4) (x1 : BitVec 6) (x2 : BitVec 6) (x3 : BitVec 6) (x4 : BitVec 10) (w : Syl)
    (h : w = x0 ++ x1 ++ x2 ++ x3 ++ x4) :
    w.extractLsb' 28 4 = x0 ∧
      w.extractLsb' 22 6 = x1 ∧
      w.extractLsb' 16 6 = x2 ∧
      w.extractLsb' 10 6 = x3 ∧
      w.extractLsb' 0 10 = x4 := by
  subst h
  refine ⟨?_, ?_, ?_, ?_, ?_⟩
  · exact (skip_field 18 _ _).trans ((skip_field 12 _ _).trans ((skip_field 6 _ _).trans ((skip_field 0 _ _).trans
      (whole_field _))))
  · exact (skip_field 12 _ _).trans ((skip_field 6 _ _).trans ((skip_field 0 _ _).trans (low_field _ _)))
  · exact (skip_field 6 _ _).trans ((skip_field 0 _ _).trans (low_field _ _))
  · exact (skip_field 0 _ _).trans (low_field _ _)
  · exact low_field _ _

theorem Word.lay_4_6_6_6_1_9 (x0 : BitVec 4) (x1 : BitVec 6) (x2 : BitVec 6) (x3 : BitVec 6) (x4 : BitVec 1) (x5 :
    BitVec 9) (w : Syl)
    (h : w = x0 ++ x1 ++ x2 ++ x3 ++ x4 ++ x5) :
    w.extractLsb' 28 4 = x0 ∧
      w.extractLsb' 22 6 = x1 ∧
      w.extractLsb' 16 6 = x2 ∧
      w.extractLsb' 10 6 = x3 ∧
      w.extractLsb' 9 1 = x4 ∧
      w.extractLsb' 0 9 = x5 := by
  subst h
  refine ⟨?_, ?_, ?_, ?_, ?_, ?_⟩
  · exact (skip_field 19 _ _).trans ((skip_field 18 _ _).trans ((skip_field 12 _ _).trans ((skip_field 6 _ _).trans
      ((skip_field 0 _ _).trans (whole_field _)))))
  · exact (skip_field 13 _ _).trans ((skip_field 12 _ _).trans ((skip_field 6 _ _).trans ((skip_field 0 _ _).trans
      (low_field _ _))))
  · exact (skip_field 7 _ _).trans ((skip_field 6 _ _).trans ((skip_field 0 _ _).trans (low_field _ _)))
  · exact (skip_field 1 _ _).trans ((skip_field 0 _ _).trans (low_field _ _))
  · exact (skip_field 0 _ _).trans (low_field _ _)
  · exact low_field _ _

theorem Word.lay_4_6_6_6_2_8 (x0 : BitVec 4) (x1 : BitVec 6) (x2 : BitVec 6) (x3 : BitVec 6) (x4 : BitVec 2) (x5 :
    BitVec 8) (w : Syl)
    (h : w = x0 ++ x1 ++ x2 ++ x3 ++ x4 ++ x5) :
    w.extractLsb' 28 4 = x0 ∧
      w.extractLsb' 22 6 = x1 ∧
      w.extractLsb' 16 6 = x2 ∧
      w.extractLsb' 10 6 = x3 ∧
      w.extractLsb' 8 2 = x4 ∧
      w.extractLsb' 0 8 = x5 := by
  subst h
  refine ⟨?_, ?_, ?_, ?_, ?_, ?_⟩
  · exact (skip_field 20 _ _).trans ((skip_field 18 _ _).trans ((skip_field 12 _ _).trans ((skip_field 6 _ _).trans
      ((skip_field 0 _ _).trans (whole_field _)))))
  · exact (skip_field 14 _ _).trans ((skip_field 12 _ _).trans ((skip_field 6 _ _).trans ((skip_field 0 _ _).trans
      (low_field _ _))))
  · exact (skip_field 8 _ _).trans ((skip_field 6 _ _).trans ((skip_field 0 _ _).trans (low_field _ _)))
  · exact (skip_field 2 _ _).trans ((skip_field 0 _ _).trans (low_field _ _))
  · exact (skip_field 0 _ _).trans (low_field _ _)
  · exact low_field _ _

theorem Word.lay_4_6_6_6_4_6 (x0 : BitVec 4) (x1 : BitVec 6) (x2 : BitVec 6) (x3 : BitVec 6) (x4 : BitVec 4) (x5 :
    BitVec 6) (w : Syl)
    (h : w = x0 ++ x1 ++ x2 ++ x3 ++ x4 ++ x5) :
    w.extractLsb' 28 4 = x0 ∧
      w.extractLsb' 22 6 = x1 ∧
      w.extractLsb' 16 6 = x2 ∧
      w.extractLsb' 10 6 = x3 ∧
      w.extractLsb' 6 4 = x4 ∧
      w.extractLsb' 0 6 = x5 := by
  subst h
  refine ⟨?_, ?_, ?_, ?_, ?_, ?_⟩
  · exact (skip_field 22 _ _).trans ((skip_field 18 _ _).trans ((skip_field 12 _ _).trans ((skip_field 6 _ _).trans
      ((skip_field 0 _ _).trans (whole_field _)))))
  · exact (skip_field 16 _ _).trans ((skip_field 12 _ _).trans ((skip_field 6 _ _).trans ((skip_field 0 _ _).trans
      (low_field _ _))))
  · exact (skip_field 10 _ _).trans ((skip_field 6 _ _).trans ((skip_field 0 _ _).trans (low_field _ _)))
  · exact (skip_field 4 _ _).trans ((skip_field 0 _ _).trans (low_field _ _))
  · exact (skip_field 0 _ _).trans (low_field _ _)
  · exact low_field _ _

theorem Word.lay_4_6_6_6_6_1_1_1_1 (x0 : BitVec 4) (x1 : BitVec 6) (x2 : BitVec 6) (x3 : BitVec 6) (x4 : BitVec 6) (x5
    : BitVec 1) (x6 : BitVec 1) (x7 : BitVec 1) (x8 : BitVec 1) (w : Syl)
    (h : w = x0 ++ x1 ++ x2 ++ x3 ++ x4 ++ x5 ++ x6 ++ x7 ++ x8) :
    w.extractLsb' 28 4 = x0 ∧
      w.extractLsb' 22 6 = x1 ∧
      w.extractLsb' 16 6 = x2 ∧
      w.extractLsb' 10 6 = x3 ∧
      w.extractLsb' 4 6 = x4 ∧
      w.extractLsb' 3 1 = x5 ∧
      w.extractLsb' 2 1 = x6 ∧
      w.extractLsb' 1 1 = x7 ∧
      w.extractLsb' 0 1 = x8 := by
  subst h
  refine ⟨?_, ?_, ?_, ?_, ?_, ?_, ?_, ?_, ?_⟩
  · exact (skip_field 27 _ _).trans ((skip_field 26 _ _).trans ((skip_field 25 _ _).trans ((skip_field 24 _ _).trans
      ((skip_field 18 _ _).trans ((skip_field 12 _ _).trans ((skip_field 6 _ _).trans ((skip_field 0 _ _).trans
      (whole_field _))))))))
  · exact (skip_field 21 _ _).trans ((skip_field 20 _ _).trans ((skip_field 19 _ _).trans ((skip_field 18 _ _).trans
      ((skip_field 12 _ _).trans ((skip_field 6 _ _).trans ((skip_field 0 _ _).trans (low_field _ _)))))))
  · exact (skip_field 15 _ _).trans ((skip_field 14 _ _).trans ((skip_field 13 _ _).trans ((skip_field 12 _ _).trans
      ((skip_field 6 _ _).trans ((skip_field 0 _ _).trans (low_field _ _))))))
  · exact (skip_field 9 _ _).trans ((skip_field 8 _ _).trans ((skip_field 7 _ _).trans ((skip_field 6 _ _).trans
      ((skip_field 0 _ _).trans (low_field _ _)))))
  · exact (skip_field 3 _ _).trans ((skip_field 2 _ _).trans ((skip_field 1 _ _).trans ((skip_field 0 _ _).trans
      (low_field _ _))))
  · exact (skip_field 2 _ _).trans ((skip_field 1 _ _).trans ((skip_field 0 _ _).trans (low_field _ _)))
  · exact (skip_field 1 _ _).trans ((skip_field 0 _ _).trans (low_field _ _))
  · exact (skip_field 0 _ _).trans (low_field _ _)
  · exact low_field _ _

theorem Word.lay_4_6_6_6_6_2_2 (x0 : BitVec 4) (x1 : BitVec 6) (x2 : BitVec 6) (x3 : BitVec 6) (x4 : BitVec 6) (x5 :
    BitVec 2) (x6 : BitVec 2) (w : Syl)
    (h : w = x0 ++ x1 ++ x2 ++ x3 ++ x4 ++ x5 ++ x6) :
    w.extractLsb' 28 4 = x0 ∧
      w.extractLsb' 22 6 = x1 ∧
      w.extractLsb' 16 6 = x2 ∧
      w.extractLsb' 10 6 = x3 ∧
      w.extractLsb' 4 6 = x4 ∧
      w.extractLsb' 2 2 = x5 ∧
      w.extractLsb' 0 2 = x6 := by
  subst h
  refine ⟨?_, ?_, ?_, ?_, ?_, ?_, ?_⟩
  · exact (skip_field 26 _ _).trans ((skip_field 24 _ _).trans ((skip_field 18 _ _).trans ((skip_field 12 _ _).trans
      ((skip_field 6 _ _).trans ((skip_field 0 _ _).trans (whole_field _))))))
  · exact (skip_field 20 _ _).trans ((skip_field 18 _ _).trans ((skip_field 12 _ _).trans ((skip_field 6 _ _).trans
      ((skip_field 0 _ _).trans (low_field _ _)))))
  · exact (skip_field 14 _ _).trans ((skip_field 12 _ _).trans ((skip_field 6 _ _).trans ((skip_field 0 _ _).trans
      (low_field _ _))))
  · exact (skip_field 8 _ _).trans ((skip_field 6 _ _).trans ((skip_field 0 _ _).trans (low_field _ _)))
  · exact (skip_field 2 _ _).trans ((skip_field 0 _ _).trans (low_field _ _))
  · exact (skip_field 0 _ _).trans (low_field _ _)
  · exact low_field _ _

theorem Word.lay_4_6_6_6_6_4 (x0 : BitVec 4) (x1 : BitVec 6) (x2 : BitVec 6) (x3 : BitVec 6) (x4 : BitVec 6) (x5 :
    BitVec 4) (w : Syl)
    (h : w = x0 ++ x1 ++ x2 ++ x3 ++ x4 ++ x5) :
    w.extractLsb' 28 4 = x0 ∧
      w.extractLsb' 22 6 = x1 ∧
      w.extractLsb' 16 6 = x2 ∧
      w.extractLsb' 10 6 = x3 ∧
      w.extractLsb' 4 6 = x4 ∧
      w.extractLsb' 0 4 = x5 := by
  subst h
  refine ⟨?_, ?_, ?_, ?_, ?_, ?_⟩
  · exact (skip_field 24 _ _).trans ((skip_field 18 _ _).trans ((skip_field 12 _ _).trans ((skip_field 6 _ _).trans
      ((skip_field 0 _ _).trans (whole_field _)))))
  · exact (skip_field 18 _ _).trans ((skip_field 12 _ _).trans ((skip_field 6 _ _).trans ((skip_field 0 _ _).trans
      (low_field _ _))))
  · exact (skip_field 12 _ _).trans ((skip_field 6 _ _).trans ((skip_field 0 _ _).trans (low_field _ _)))
  · exact (skip_field 6 _ _).trans ((skip_field 0 _ _).trans (low_field _ _))
  · exact (skip_field 0 _ _).trans (low_field _ _)
  · exact low_field _ _

theorem Word.lay_4_6_6_8_8 (x0 : BitVec 4) (x1 : BitVec 6) (x2 : BitVec 6) (x3 : BitVec 8) (x4 : BitVec 8) (w : Syl)
    (h : w = x0 ++ x1 ++ x2 ++ x3 ++ x4) :
    w.extractLsb' 28 4 = x0 ∧
      w.extractLsb' 22 6 = x1 ∧
      w.extractLsb' 16 6 = x2 ∧
      w.extractLsb' 8 8 = x3 ∧
      w.extractLsb' 0 8 = x4 := by
  subst h
  refine ⟨?_, ?_, ?_, ?_, ?_⟩
  · exact (skip_field 20 _ _).trans ((skip_field 12 _ _).trans ((skip_field 6 _ _).trans ((skip_field 0 _ _).trans
      (whole_field _))))
  · exact (skip_field 14 _ _).trans ((skip_field 6 _ _).trans ((skip_field 0 _ _).trans (low_field _ _)))
  · exact (skip_field 8 _ _).trans ((skip_field 0 _ _).trans (low_field _ _))
  · exact (skip_field 0 _ _).trans (low_field _ _)
  · exact low_field _ _

theorem Word.lay_4_6_8_2_6_6 (x0 : BitVec 4) (x1 : BitVec 6) (x2 : BitVec 8) (x3 : BitVec 2) (x4 : BitVec 6) (x5 :
    BitVec 6) (w : Syl)
    (h : w = x0 ++ x1 ++ x2 ++ x3 ++ x4 ++ x5) :
    w.extractLsb' 28 4 = x0 ∧
      w.extractLsb' 22 6 = x1 ∧
      w.extractLsb' 14 8 = x2 ∧
      w.extractLsb' 12 2 = x3 ∧
      w.extractLsb' 6 6 = x4 ∧
      w.extractLsb' 0 6 = x5 := by
  subst h
  refine ⟨?_, ?_, ?_, ?_, ?_, ?_⟩
  · exact (skip_field 22 _ _).trans ((skip_field 16 _ _).trans ((skip_field 14 _ _).trans ((skip_field 6 _ _).trans
      ((skip_field 0 _ _).trans (whole_field _)))))
  · exact (skip_field 16 _ _).trans ((skip_field 10 _ _).trans ((skip_field 8 _ _).trans ((skip_field 0 _ _).trans
      (low_field _ _))))
  · exact (skip_field 8 _ _).trans ((skip_field 2 _ _).trans ((skip_field 0 _ _).trans (low_field _ _)))
  · exact (skip_field 6 _ _).trans ((skip_field 0 _ _).trans (low_field _ _))
  · exact (skip_field 0 _ _).trans (low_field _ _)
  · exact low_field _ _

theorem Word.lay_4_6_8_4_3_4_3 (x0 : BitVec 4) (x1 : BitVec 6) (x2 : BitVec 8) (x3 : BitVec 4) (x4 : BitVec 3) (x5 :
    BitVec 4) (x6 : BitVec 3) (w : Syl)
    (h : w = x0 ++ x1 ++ x2 ++ x3 ++ x4 ++ x5 ++ x6) :
    w.extractLsb' 28 4 = x0 ∧
      w.extractLsb' 22 6 = x1 ∧
      w.extractLsb' 14 8 = x2 ∧
      w.extractLsb' 10 4 = x3 ∧
      w.extractLsb' 7 3 = x4 ∧
      w.extractLsb' 3 4 = x5 ∧
      w.extractLsb' 0 3 = x6 := by
  subst h
  refine ⟨?_, ?_, ?_, ?_, ?_, ?_, ?_⟩
  · exact (skip_field 25 _ _).trans ((skip_field 21 _ _).trans ((skip_field 18 _ _).trans ((skip_field 14 _ _).trans
      ((skip_field 6 _ _).trans ((skip_field 0 _ _).trans (whole_field _))))))
  · exact (skip_field 19 _ _).trans ((skip_field 15 _ _).trans ((skip_field 12 _ _).trans ((skip_field 8 _ _).trans
      ((skip_field 0 _ _).trans (low_field _ _)))))
  · exact (skip_field 11 _ _).trans ((skip_field 7 _ _).trans ((skip_field 4 _ _).trans ((skip_field 0 _ _).trans
      (low_field _ _))))
  · exact (skip_field 7 _ _).trans ((skip_field 3 _ _).trans ((skip_field 0 _ _).trans (low_field _ _)))
  · exact (skip_field 4 _ _).trans ((skip_field 0 _ _).trans (low_field _ _))
  · exact (skip_field 0 _ _).trans (low_field _ _)
  · exact low_field _ _

theorem Word.lay_4_6_8_8_6 (x0 : BitVec 4) (x1 : BitVec 6) (x2 : BitVec 8) (x3 : BitVec 8) (x4 : BitVec 6) (w : Syl)
    (h : w = x0 ++ x1 ++ x2 ++ x3 ++ x4) :
    w.extractLsb' 28 4 = x0 ∧
      w.extractLsb' 22 6 = x1 ∧
      w.extractLsb' 14 8 = x2 ∧
      w.extractLsb' 6 8 = x3 ∧
      w.extractLsb' 0 6 = x4 := by
  subst h
  refine ⟨?_, ?_, ?_, ?_, ?_⟩
  · exact (skip_field 22 _ _).trans ((skip_field 14 _ _).trans ((skip_field 6 _ _).trans ((skip_field 0 _ _).trans
      (whole_field _))))
  · exact (skip_field 16 _ _).trans ((skip_field 8 _ _).trans ((skip_field 0 _ _).trans (low_field _ _)))
  · exact (skip_field 8 _ _).trans ((skip_field 0 _ _).trans (low_field _ _))
  · exact (skip_field 0 _ _).trans (low_field _ _)
  · exact low_field _ _

end Sys2Proof
end

