-- ==== Sys2Proof/Laws/PerInstr.lean ====
section
/-! SUPPORT. The round trip of decoding, one lemma per constructor. -/

namespace Sys2Proof.Laws.RoundTrip

/-- What the encoder writes for an instruction, the decoder reads as that instruction: a syllable in its slot, in
each context that has it, and a long immediate in its pair. -/
def Statement (i : Instr) : Prop :=
  (∀ (fw : Bool) (nchan k : Nat) (w : Syl), i.slot = some k → encode i = some w → i.wf = true →
    i.contextOk fw nchan = true → i.present fw = true → portsOk k w = true → decodeSyl fw nchan k w = .ok i) ∧
  ∀ (fw : Bool) (nchan : Nat) (x y : Syl), encodePair i = some (x, y) → decodeScalars fw nchan x y = [(1, .ok i)]

theorem nop (g : BitVec 4) : Statement (.nop g) := by
  refine ⟨?_, nofun⟩
  intro fw nchan k w hk he hw hc hp hq
  obtain rfl : 0 = k := Option.some.inj hk
  obtain ⟨f0, f1, f2⟩ := Word.lay_4_6_22 g 0#6 0#22 w (Option.some.inj he).symm
  simp [decodeSyl, opcode, f0, f1, f2]

theorem br (g : BitVec 4) (d : BitVec 22) : Statement (.br g d) := by
  refine ⟨?_, nofun⟩
  intro fw nchan k z hk he hw hc hp hq
  obtain rfl : 0 = k := Option.some.inj hk
  obtain ⟨f0, f1, f2⟩ := Word.lay_4_6_22 g 1#6 d z (Option.some.inj he).symm
  exact decodeSyl_eq fw nchan 0 z _ 1 (by simp) (by simp [opcode, f1]) (by decide) (by simp [raw, rawControl, opcode,
      f0, f1, f2])
    (by simp) hq he hw hc

theorem brl (g : BitVec 4) (l : BitVec 6) (d : BitVec 16) : Statement (.brl g l d) := by
  refine ⟨?_, nofun⟩
  intro fw nchan k z hk he hw hc hp hq
  obtain rfl : 0 = k := Option.some.inj hk
  obtain ⟨f0, f1, f2, f3⟩ := Word.lay_4_6_6_16 g 2#6 l d z (Option.some.inj he).symm
  exact decodeSyl_eq fw nchan 0 z _ 2 (by simp) (by simp [opcode, f1]) (by decide) (by simp [raw, rawControl, opcode,
      f0, f1, f2, f3])
    (by simp) hq he hw hc

theorem jr (g : BitVec 4) (a : BitVec 6) : Statement (.jr g a) := by
  refine ⟨?_, nofun⟩
  intro fw nchan k z hk he hw hc hp hq
  obtain rfl : 0 = k := Option.some.inj hk
  obtain ⟨f0, f1, f2, f3⟩ := Word.lay_4_6_6_16 g 3#6 a 0#16 z (Option.some.inj he).symm
  exact decodeSyl_eq fw nchan 0 z _ 3 (by simp) (by simp [opcode, f1]) (by decide) (by simp [raw, rawControl, opcode,
      f0, f1, f2])
    (by simp) hq he hw hc

theorem jrl (g : BitVec 4) (d : BitVec 6) (a : BitVec 6) : Statement (.jrl g d a) := by
  refine ⟨?_, nofun⟩
  intro fw nchan k z hk he hw hc hp hq
  obtain rfl : 0 = k := Option.some.inj hk
  obtain ⟨f0, f1, f2, f3, f4⟩ := Word.lay_4_6_6_6_10 g 4#6 d a 0#10 z (Option.some.inj he).symm
  exact decodeSyl_eq fw nchan 0 z _ 4 (by simp) (by simp [opcode, f1]) (by decide) (by simp [raw, rawControl, opcode,
      f0, f1, f2, f3])
    (by simp) hq he hw hc

theorem jt (g : BitVec 4) (a : BitVec 6) (i : BitVec 6) (l : BitVec 6) (p : BitVec 4) : Statement (.jt g a i l p) := by
  refine ⟨?_, nofun⟩
  intro fw nchan k z hk he hw hc hp hq
  obtain rfl : 0 = k := Option.some.inj hk
  obtain ⟨f0, f1, f2, f3, f4, f5⟩ := Word.lay_4_6_6_6_6_4 g 5#6 a i l p z (Option.some.inj he).symm
  exact decodeSyl_eq fw nchan 0 z _ 5 (by simp) (by simp [opcode, f1]) (by decide) (by simp [raw, rawControl, opcode,
      f0, f1, f2, f3, f4, f5])
    (by simp) hq he hw hc

theorem loop (g : BitVec 4) (k : BitVec 3) (a : BitVec 6) (e : BitVec 13) : Statement (.loop g k a e) := by
  refine ⟨?_, nofun⟩
  intro fw nchan k z hk he hw hc hp hq
  obtain rfl : 0 = k := Option.some.inj hk
  obtain ⟨f0, f1, f2, f3, f4⟩ := Word.lay_4_6_3_6_13 g 6#6 k a e z (Option.some.inj he).symm
  exact decodeSyl_eq fw nchan 0 z _ 6 (by simp) (by simp [opcode, f1]) (by decide) (by simp [raw, rawControl, opcode,
      f0, f1, f2, f3, f4])
    (by simp) hq he hw hc

theorem loopi (g : BitVec 4) (k : BitVec 3) (n : BitVec 10) (e : BitVec 9) : Statement (.loopi g k n e) := by
  refine ⟨?_, nofun⟩
  intro fw nchan k z hk he hw hc hp hq
  obtain rfl : 0 = k := Option.some.inj hk
  obtain ⟨f0, f1, f2, f3, f4⟩ := Word.lay_4_6_3_10_9 g 7#6 k n e z (Option.some.inj he).symm
  exact decodeSyl_eq fw nchan 0 z _ 7 (by simp) (by simp [opcode, f1]) (by decide) (by simp [raw, rawControl, opcode,
      f0, f1, f2, f3, f4])
    (by simp) hq he hw hc

theorem lbrk (g : BitVec 4) (k : BitVec 3) : Statement (.lbrk g k) := by
  refine ⟨?_, nofun⟩
  intro fw nchan k z hk he hw hc hp hq
  obtain rfl : 0 = k := Option.some.inj hk
  obtain ⟨f0, f1, f2, f3⟩ := Word.lay_4_6_3_19 g 8#6 k 0#19 z (Option.some.inj he).symm
  exact decodeSyl_eq fw nchan 0 z _ 8 (by simp) (by simp [opcode, f1]) (by decide) (by simp [raw, rawControl, opcode,
      f0, f1, f2])
    (by simp) hq he hw hc

theorem wfmt (g : BitVec 4) (a : BitVec 6) : Statement (.wfmt g a) := by
  refine ⟨?_, nofun⟩
  intro fw nchan k z hk he hw hc hp hq
  obtain rfl : 0 = k := Option.some.inj hk
  obtain ⟨f0, f1, f2, f3⟩ := Word.lay_4_6_6_16 g 9#6 a 0#16 z (Option.some.inj he).symm
  exact decodeSyl_eq fw nchan 0 z _ 9 (by simp) (by simp [opcode, f1]) (by decide) (by simp [raw, rawControl, opcode,
      f0, f1, f2])
    (by simp) hq he hw hc

theorem mfs (g : BitVec 4) (a : BitVec 6) (n : BitVec 8) : Statement (.mfs g a n) := by
  refine ⟨?_, nofun⟩
  intro fw nchan k z hk he hw hc hp hq
  obtain rfl : 0 = k := Option.some.inj hk
  obtain ⟨f0, f1, f2, f3, f4⟩ := Word.lay_4_6_6_8_8 g 10#6 a n 0#8 z (Option.some.inj he).symm
  exact decodeSyl_eq fw nchan 0 z _ 10 (by simp) (by simp [opcode, f1]) (by decide) (by simp [raw, rawControl, opcode,
      f0, f1, f2, f3])
    (by simp) hq he hw hc

theorem mts (g : BitVec 4) (a : BitVec 6) (n : BitVec 8) : Statement (.mts g a n) := by
  refine ⟨?_, nofun⟩
  intro fw nchan k z hk he hw hc hp hq
  obtain rfl : 0 = k := Option.some.inj hk
  obtain ⟨f0, f1, f2, f3, f4⟩ := Word.lay_4_6_6_8_8 g 11#6 a n 0#8 z (Option.some.inj he).symm
  exact decodeSyl_eq fw nchan 0 z _ 11 (by simp) (by simp [opcode, f1]) (by decide) (by simp [raw, rawControl, opcode,
      f0, f1, f2, f3])
    (by simp) hq he hw hc

theorem trap (g : BitVec 4) (i : BitVec 16) : Statement (.trap g i) := by
  refine ⟨?_, nofun⟩
  intro fw nchan k z hk he hw hc hp hq
  obtain rfl : 0 = k := Option.some.inj hk
  obtain ⟨f0, f1, f2, f3⟩ := Word.lay_4_6_6_16 g 12#6 0#6 i z (Option.some.inj he).symm
  exact decodeSyl_eq fw nchan 0 z _ 12 (by simp) (by simp [opcode, f1]) (by decide) (by simp [raw, rawControl, opcode,
      f0, f1, f3])
    (by simp) hq he hw hc

theorem bkpt (g : BitVec 4) (i : BitVec 16) : Statement (.bkpt g i) := by
  refine ⟨?_, nofun⟩
  intro fw nchan k z hk he hw hc hp hq
  obtain rfl : 0 = k := Option.some.inj hk
  obtain ⟨f0, f1, f2, f3⟩ := Word.lay_4_6_6_16 g 13#6 0#6 i z (Option.some.inj he).symm
  exact decodeSyl_eq fw nchan 0 z _ 13 (by simp) (by simp [opcode, f1]) (by decide) (by simp [raw, rawControl, opcode,
      f0, f1, f3])
    (by simp) hq he hw hc

theorem tret (g : BitVec 4) : Statement (.tret g) := by
  refine ⟨?_, nofun⟩
  intro fw nchan k z hk he hw hc hp hq
  obtain rfl : 0 = k := Option.some.inj hk
  obtain ⟨f0, f1, f2⟩ := Word.lay_4_6_22 g 14#6 0#22 z (Option.some.inj he).symm
  exact decodeSyl_eq fw nchan 0 z _ 14 (by simp) (by simp [opcode, f1]) (by decide) (by simp [raw, rawControl, opcode,
      f0, f1])
    (by simp) hq he hw hc

theorem susp (g : BitVec 4) : Statement (.susp g) := by
  refine ⟨?_, nofun⟩
  intro fw nchan k z hk he hw hc hp hq
  obtain rfl : 0 = k := Option.some.inj hk
  obtain ⟨f0, f1, f2⟩ := Word.lay_4_6_22 g 15#6 0#22 z (Option.some.inj he).symm
  exact decodeSyl_eq fw nchan 0 z _ 15 (by simp) (by simp [opcode, f1]) (by decide) (by simp [raw, rawControl, opcode,
      f0, f1])
    (by simp) hq he hw hc

theorem yield (g : BitVec 4) : Statement (.yield g) := by
  refine ⟨?_, nofun⟩
  intro fw nchan k z hk he hw hc hp hq
  obtain rfl : 0 = k := Option.some.inj hk
  obtain ⟨f0, f1, f2⟩ := Word.lay_4_6_22 g 16#6 0#22 z (Option.some.inj he).symm
  exact decodeSyl_eq fw nchan 0 z _ 16 (by simp) (by simp [opcode, f1]) (by decide) (by simp [raw, rawControl, opcode,
      f0, f1])
    (by simp) hq he hw hc

theorem exitS (g : BitVec 4) (a : BitVec 6) : Statement (.exitS g a) := by
  refine ⟨?_, nofun⟩
  intro fw nchan k z hk he hw hc hp hq
  obtain rfl : 0 = k := Option.some.inj hk
  obtain ⟨f0, f1, f2, f3⟩ := Word.lay_4_6_6_16 g 17#6 a 0#16 z (Option.some.inj he).symm
  exact decodeSyl_eq fw nchan 0 z _ 17 (by simp) (by simp [opcode, f1]) (by decide) (by simp [raw, rawControl, opcode,
      f0, f1, f2])
    (by simp) hq he hw hc

theorem chk (g : BitVec 4) (c : BitVec 1) (r : BitVec 6) (d : BitVec 15) : Statement (.chk g c r d) := by
  refine ⟨?_, nofun⟩
  intro fw nchan k z hk he hw hc hp hq
  obtain rfl : 0 = k := Option.some.inj hk
  obtain ⟨f0, f1, f2, f3, f4⟩ := Word.lay_4_6_1_6_15 g 18#6 c r d z (Option.some.inj he).symm
  exact decodeSyl_eq fw nchan 0 z _ 18 (by simp) (by simp [opcode, f1]) (by decide) (by simp [raw, rawControl, opcode,
      f0, f1, f2, f3, f4])
    (by simp) hq he hw hc

theorem stepB (g : BitVec 4) : Statement (.stepB g) := by
  refine ⟨?_, nofun⟩
  intro fw nchan k z hk he hw hc hp hq
  obtain rfl : 0 = k := Option.some.inj hk
  obtain ⟨f0, f1, f2⟩ := Word.lay_4_6_22 g 19#6 0#22 z (Option.some.inj he).symm
  exact decodeSyl_eq fw nchan 0 z _ 19 (by simp) (by simp [opcode, f1]) (by decide) (by simp [raw, rawControl, opcode,
      f0, f1])
    (by simp) hq he hw hc

theorem grel (g : BitVec 4) : Statement (.grel g) := by
  refine ⟨?_, nofun⟩
  intro fw nchan k z hk he hw hc hp hq
  obtain rfl : 0 = k := Option.some.inj hk
  obtain ⟨f0, f1, f2⟩ := Word.lay_4_6_22 g 20#6 0#22 z (Option.some.inj he).symm
  exact decodeSyl_eq fw nchan 0 z _ 20 (by simp) (by simp [opcode, f1]) (by decide) (by simp [raw, rawControl, opcode,
      f0, f1])
    (by simp) hq he hw hc

theorem tlbiPage (g : BitVec 4) (a : BitVec 6) (b : BitVec 6) : Statement (.tlbiPage g a b) := by
  refine ⟨?_, nofun⟩
  intro fw nchan k z hk he hw hc hp hq
  obtain rfl : 0 = k := Option.some.inj hk
  obtain ⟨f0, f1, f2, f3, f4⟩ := Word.lay_4_6_6_6_10 g 48#6 a b 0#10 z (Option.some.inj he).symm
  have f4lo : BitVec.extractLsb' 0 2 z = 0#2 := by
    rw [show BitVec.extractLsb' 0 2 z = BitVec.extractLsb' 0 2 (BitVec.extractLsb' 0 10 z) by
      ext i hi; simp, f4]
    rfl
  have hp : fw = true := hp
  exact decodeSyl_eq fw nchan 0 z _ 48 (by simp) (by simp [opcode, f1]) (by decide) (by simp [raw, rawControl, opcode,
      f0, f1, f2, f3, f4lo])
    (by simp [hp]) hq he hw hc

theorem tlbiAsid (g : BitVec 4) (a : BitVec 6) (b : BitVec 6) : Statement (.tlbiAsid g a b) := by
  refine ⟨?_, nofun⟩
  intro fw nchan k z hk he hw hc hp hq
  obtain rfl : 0 = k := Option.some.inj hk
  obtain ⟨f0, f1, f2, f3, f4⟩ := Word.lay_4_6_6_6_10 g 48#6 a b 1#10 z (Option.some.inj he).symm
  have f4lo : BitVec.extractLsb' 0 2 z = 1#2 := by
    rw [show BitVec.extractLsb' 0 2 z = BitVec.extractLsb' 0 2 (BitVec.extractLsb' 0 10 z) by
      ext i hi; simp, f4]
    rfl
  have hp : fw = true := hp
  exact decodeSyl_eq fw nchan 0 z _ 48 (by simp) (by simp [opcode, f1]) (by decide) (by simp [raw, rawControl, opcode,
      f0, f1, f2, f3, f4lo])
    (by simp [hp]) hq he hw hc

theorem tlbiAll (g : BitVec 4) (a : BitVec 6) (b : BitVec 6) : Statement (.tlbiAll g a b) := by
  refine ⟨?_, nofun⟩
  intro fw nchan k z hk he hw hc hp hq
  obtain rfl : 0 = k := Option.some.inj hk
  obtain ⟨f0, f1, f2, f3, f4⟩ := Word.lay_4_6_6_6_10 g 48#6 a b 2#10 z (Option.some.inj he).symm
  have f4lo : BitVec.extractLsb' 0 2 z = 2#2 := by
    rw [show BitVec.extractLsb' 0 2 z = BitVec.extractLsb' 0 2 (BitVec.extractLsb' 0 10 z) by
      ext i hi; simp, f4]
    rfl
  have hp : fw = true := hp
  exact decodeSyl_eq fw nchan 0 z _ 48 (by simp) (by simp [opcode, f1]) (by decide) (by simp [raw, rawControl, opcode,
      f0, f1, f2, f3, f4lo])
    (by simp [hp]) hq he hw hc

theorem asw (g : BitVec 4) (a : BitVec 6) : Statement (.asw g a) := by
  refine ⟨?_, nofun⟩
  intro fw nchan k z hk he hw hc hp hq
  obtain rfl : 0 = k := Option.some.inj hk
  obtain ⟨f0, f1, f2, f3⟩ := Word.lay_4_6_6_16 g 49#6 a 0#16 z (Option.some.inj he).symm
  have hp : fw = true := hp
  exact decodeSyl_eq fw nchan 0 z _ 49 (by simp) (by simp [opcode, f1]) (by decide) (by simp [raw, rawControl, opcode,
      f0, f1, f2])
    (by simp [hp]) hq he hw hc

theorem ctxs (g : BitVec 4) (a : BitVec 6) : Statement (.ctxs g a) := by
  refine ⟨?_, nofun⟩
  intro fw nchan k z hk he hw hc hp hq
  obtain rfl : 0 = k := Option.some.inj hk
  obtain ⟨f0, f1, f2, f3⟩ := Word.lay_4_6_6_16 g 50#6 a 0#16 z (Option.some.inj he).symm
  have hp : fw = true := hp
  exact decodeSyl_eq fw nchan 0 z _ 50 (by simp) (by simp [opcode, f1]) (by decide) (by simp [raw, rawControl, opcode,
      f0, f1, f2])
    (by simp [hp]) hq he hw hc

theorem ctxr (g : BitVec 4) (a : BitVec 6) : Statement (.ctxr g a) := by
  refine ⟨?_, nofun⟩
  intro fw nchan k z hk he hw hc hp hq
  obtain rfl : 0 = k := Option.some.inj hk
  obtain ⟨f0, f1, f2, f3⟩ := Word.lay_4_6_6_16 g 51#6 a 0#16 z (Option.some.inj he).symm
  have hp : fw = true := hp
  exact decodeSyl_eq fw nchan 0 z _ 51 (by simp) (by simp [opcode, f1]) (by decide) (by simp [raw, rawControl, opcode,
      f0, f1, f2])
    (by simp [hp]) hq he hw hc

theorem fwsh (g : BitVec 4) (i : BitVec 7) : Statement (.fwsh g i) := by
  refine ⟨?_, nofun⟩
  intro fw nchan k z hk he hw hc hp hq
  obtain rfl : 0 = k := Option.some.inj hk
  obtain ⟨f0, f1, f2, f3⟩ := Word.lay_4_6_15_7 g 52#6 0#15 i z (Option.some.inj he).symm
  have hp : fw = true := hp
  exact decodeSyl_eq fw nchan 0 z _ 52 (by simp) (by simp [opcode, f1]) (by decide) (by simp [raw, rawControl, opcode,
      f0, f1, f3])
    (by simp [hp]) hq he hw hc

theorem qscQuiesce (g : BitVec 4) (a : BitVec 6) : Statement (.qscQuiesce g a) := by
  refine ⟨?_, nofun⟩
  intro fw nchan k z hk he hw hc hp hq
  obtain rfl : 0 = k := Option.some.inj hk
  obtain ⟨f0, f1, f2, f3⟩ := Word.lay_4_6_6_16 g 53#6 a 0#16 z (Option.some.inj he).symm
  have hp : fw = true := hp
  exact decodeSyl_eq fw nchan 0 z _ 53 (by simp) (by simp [opcode, f1]) (by decide) (by simp [raw, rawControl, opcode,
      f0, f1, f2])
    (by simp [hp]) hq he hw hc

theorem qscEndQuiesce (g : BitVec 4) (a : BitVec 6) : Statement (.qscEndQuiesce g a) := ⟨nofun, nofun⟩

theorem qscQueueInvalidate (g : BitVec 4) (a : BitVec 6) : Statement (.qscQueueInvalidate g a) := ⟨nofun, nofun⟩

theorem cres (g : BitVec 4) : Statement (.cres g) := by
  refine ⟨?_, nofun⟩
  intro fw nchan k z hk he hw hc hp hq
  obtain rfl : 0 = k := Option.some.inj hk
  obtain ⟨f0, f1, f2⟩ := Word.lay_4_6_22 g 54#6 0#22 z (Option.some.inj he).symm
  have hp : fw = true := hp
  exact decodeSyl_eq fw nchan 0 z _ 54 (by simp) (by simp [opcode, f1]) (by decide) (by simp [raw, rawControl, opcode,
      f0, f1])
    (by simp [hp]) hq he hw hc

theorem ckill (g : BitVec 4) : Statement (.ckill g) := by
  refine ⟨?_, nofun⟩
  intro fw nchan k z hk he hw hc hp hq
  obtain rfl : 0 = k := Option.some.inj hk
  obtain ⟨f0, f1, f2⟩ := Word.lay_4_6_22 g 55#6 0#22 z (Option.some.inj he).symm
  have hp : fw = true := hp
  exact decodeSyl_eq fw nchan 0 z _ 55 (by simp) (by simp [opcode, f1]) (by decide) (by simp [raw, rawControl, opcode,
      f0, f1])
    (by simp [hp]) hq he hw hc

theorem add (g : BitVec 4) (d : BitVec 6) (a : BitVec 6) (b : BitVec 6) : Statement (.add g d a b) := by
  refine ⟨?_, nofun⟩
  intro fw nchan k z hk he hw hc hp hq
  obtain rfl : 1 = k := Option.some.inj hk
  obtain ⟨f0, f1, f2, f3, f4, f5⟩ := Word.lay_4_6_6_6_6_4 g 1#6 d a b 0#4 z (Option.some.inj he).symm
  exact decodeSyl_eq fw nchan 1 z _ 1 (by simp) (by simp [opcode, f1]) (by decide) (by simp [raw, rawScalar, opcode,
      f0, f1, f2, f3, f4])
    (by simp) hq he hw hc

theorem sub (g : BitVec 4) (d : BitVec 6) (a : BitVec 6) (b : BitVec 6) : Statement (.sub g d a b) := by
  refine ⟨?_, nofun⟩
  intro fw nchan k z hk he hw hc hp hq
  obtain rfl : 1 = k := Option.some.inj hk
  obtain ⟨f0, f1, f2, f3, f4, f5⟩ := Word.lay_4_6_6_6_6_4 g 2#6 d a b 0#4 z (Option.some.inj he).symm
  exact decodeSyl_eq fw nchan 1 z _ 2 (by simp) (by simp [opcode, f1]) (by decide) (by simp [raw, rawScalar, opcode,
      f0, f1, f2, f3, f4])
    (by simp) hq he hw hc

theorem sAnd (g : BitVec 4) (d : BitVec 6) (a : BitVec 6) (b : BitVec 6) : Statement (.sAnd g d a b) := by
  refine ⟨?_, nofun⟩
  intro fw nchan k z hk he hw hc hp hq
  obtain rfl : 1 = k := Option.some.inj hk
  obtain ⟨f0, f1, f2, f3, f4, f5⟩ := Word.lay_4_6_6_6_6_4 g 3#6 d a b 0#4 z (Option.some.inj he).symm
  exact decodeSyl_eq fw nchan 1 z _ 3 (by simp) (by simp [opcode, f1]) (by decide) (by simp [raw, rawScalar, opcode,
      f0, f1, f2, f3, f4])
    (by simp) hq he hw hc

theorem sOr (g : BitVec 4) (d : BitVec 6) (a : BitVec 6) (b : BitVec 6) : Statement (.sOr g d a b) := by
  refine ⟨?_, nofun⟩
  intro fw nchan k z hk he hw hc hp hq
  obtain rfl : 1 = k := Option.some.inj hk
  obtain ⟨f0, f1, f2, f3, f4, f5⟩ := Word.lay_4_6_6_6_6_4 g 4#6 d a b 0#4 z (Option.some.inj he).symm
  exact decodeSyl_eq fw nchan 1 z _ 4 (by simp) (by simp [opcode, f1]) (by decide) (by simp [raw, rawScalar, opcode,
      f0, f1, f2, f3, f4])
    (by simp) hq he hw hc

theorem sXor (g : BitVec 4) (d : BitVec 6) (a : BitVec 6) (b : BitVec 6) : Statement (.sXor g d a b) := by
  refine ⟨?_, nofun⟩
  intro fw nchan k z hk he hw hc hp hq
  obtain rfl : 1 = k := Option.some.inj hk
  obtain ⟨f0, f1, f2, f3, f4, f5⟩ := Word.lay_4_6_6_6_6_4 g 5#6 d a b 0#4 z (Option.some.inj he).symm
  exact decodeSyl_eq fw nchan 1 z _ 5 (by simp) (by simp [opcode, f1]) (by decide) (by simp [raw, rawScalar, opcode,
      f0, f1, f2, f3, f4])
    (by simp) hq he hw hc

theorem andn (g : BitVec 4) (d : BitVec 6) (a : BitVec 6) (b : BitVec 6) : Statement (.andn g d a b) := by
  refine ⟨?_, nofun⟩
  intro fw nchan k z hk he hw hc hp hq
  obtain rfl : 1 = k := Option.some.inj hk
  obtain ⟨f0, f1, f2, f3, f4, f5⟩ := Word.lay_4_6_6_6_6_4 g 6#6 d a b 0#4 z (Option.some.inj he).symm
  exact decodeSyl_eq fw nchan 1 z _ 6 (by simp) (by simp [opcode, f1]) (by decide) (by simp [raw, rawScalar, opcode,
      f0, f1, f2, f3, f4])
    (by simp) hq he hw hc

theorem shl (g : BitVec 4) (d : BitVec 6) (a : BitVec 6) (b : BitVec 6) : Statement (.shl g d a b) := by
  refine ⟨?_, nofun⟩
  intro fw nchan k z hk he hw hc hp hq
  obtain rfl : 1 = k := Option.some.inj hk
  obtain ⟨f0, f1, f2, f3, f4, f5⟩ := Word.lay_4_6_6_6_6_4 g 7#6 d a b 0#4 z (Option.some.inj he).symm
  exact decodeSyl_eq fw nchan 1 z _ 7 (by simp) (by simp [opcode, f1]) (by decide) (by simp [raw, rawScalar, opcode,
      f0, f1, f2, f3, f4])
    (by simp) hq he hw hc

theorem shr (g : BitVec 4) (d : BitVec 6) (a : BitVec 6) (b : BitVec 6) : Statement (.shr g d a b) := by
  refine ⟨?_, nofun⟩
  intro fw nchan k z hk he hw hc hp hq
  obtain rfl : 1 = k := Option.some.inj hk
  obtain ⟨f0, f1, f2, f3, f4, f5⟩ := Word.lay_4_6_6_6_6_4 g 8#6 d a b 0#4 z (Option.some.inj he).symm
  exact decodeSyl_eq fw nchan 1 z _ 8 (by simp) (by simp [opcode, f1]) (by decide) (by simp [raw, rawScalar, opcode,
      f0, f1, f2, f3, f4])
    (by simp) hq he hw hc

theorem sar (g : BitVec 4) (d : BitVec 6) (a : BitVec 6) (b : BitVec 6) : Statement (.sar g d a b) := by
  refine ⟨?_, nofun⟩
  intro fw nchan k z hk he hw hc hp hq
  obtain rfl : 1 = k := Option.some.inj hk
  obtain ⟨f0, f1, f2, f3, f4, f5⟩ := Word.lay_4_6_6_6_6_4 g 9#6 d a b 0#4 z (Option.some.inj he).symm
  exact decodeSyl_eq fw nchan 1 z _ 9 (by simp) (by simp [opcode, f1]) (by decide) (by simp [raw, rawScalar, opcode,
      f0, f1, f2, f3, f4])
    (by simp) hq he hw hc

theorem ror (g : BitVec 4) (d : BitVec 6) (a : BitVec 6) (b : BitVec 6) : Statement (.ror g d a b) := by
  refine ⟨?_, nofun⟩
  intro fw nchan k z hk he hw hc hp hq
  obtain rfl : 1 = k := Option.some.inj hk
  obtain ⟨f0, f1, f2, f3, f4, f5⟩ := Word.lay_4_6_6_6_6_4 g 10#6 d a b 0#4 z (Option.some.inj he).symm
  exact decodeSyl_eq fw nchan 1 z _ 10 (by simp) (by simp [opcode, f1]) (by decide) (by simp [raw, rawScalar, opcode,
      f0, f1, f2, f3, f4])
    (by simp) hq he hw hc

theorem mul (g : BitVec 4) (d : BitVec 6) (a : BitVec 6) (b : BitVec 6) : Statement (.mul g d a b) := by
  refine ⟨?_, nofun⟩
  intro fw nchan k z hk he hw hc hp hq
  obtain rfl : 1 = k := Option.some.inj hk
  obtain ⟨f0, f1, f2, f3, f4, f5⟩ := Word.lay_4_6_6_6_6_4 g 11#6 d a b 0#4 z (Option.some.inj he).symm
  exact decodeSyl_eq fw nchan 1 z _ 11 (by simp) (by simp [opcode, f1]) (by decide) (by simp [raw, rawScalar, opcode,
      f0, f1, f2, f3, f4])
    (by simp) hq he hw hc

theorem mulh (g : BitVec 4) (d : BitVec 6) (a : BitVec 6) (b : BitVec 6) : Statement (.mulh g d a b) := by
  refine ⟨?_, nofun⟩
  intro fw nchan k z hk he hw hc hp hq
  obtain rfl : 1 = k := Option.some.inj hk
  obtain ⟨f0, f1, f2, f3, f4, f5⟩ := Word.lay_4_6_6_6_6_4 g 12#6 d a b 0#4 z (Option.some.inj he).symm
  exact decodeSyl_eq fw nchan 1 z _ 12 (by simp) (by simp [opcode, f1]) (by decide) (by simp [raw, rawScalar, opcode,
      f0, f1, f2, f3, f4])
    (by simp) hq he hw hc

theorem mulhn (g : BitVec 4) (d : BitVec 6) (a : BitVec 6) (b : BitVec 6) : Statement (.mulhn g d a b) := by
  refine ⟨?_, nofun⟩
  intro fw nchan k z hk he hw hc hp hq
  obtain rfl : 1 = k := Option.some.inj hk
  obtain ⟨f0, f1, f2, f3, f4, f5⟩ := Word.lay_4_6_6_6_6_4 g 13#6 d a b 0#4 z (Option.some.inj he).symm
  exact decodeSyl_eq fw nchan 1 z _ 13 (by simp) (by simp [opcode, f1]) (by decide) (by simp [raw, rawScalar, opcode,
      f0, f1, f2, f3, f4])
    (by simp) hq he hw hc

theorem div (g : BitVec 4) (d : BitVec 6) (a : BitVec 6) (b : BitVec 6) : Statement (.div g d a b) := by
  refine ⟨?_, nofun⟩
  intro fw nchan k z hk he hw hc hp hq
  obtain rfl : 1 = k := Option.some.inj hk
  obtain ⟨f0, f1, f2, f3, f4, f5⟩ := Word.lay_4_6_6_6_6_4 g 14#6 d a b 0#4 z (Option.some.inj he).symm
  exact decodeSyl_eq fw nchan 1 z _ 14 (by simp) (by simp [opcode, f1]) (by decide) (by simp [raw, rawScalar, opcode,
      f0, f1, f2, f3, f4])
    (by simp) hq he hw hc

theorem divn (g : BitVec 4) (d : BitVec 6) (a : BitVec 6) (b : BitVec 6) : Statement (.divn g d a b) := by
  refine ⟨?_, nofun⟩
  intro fw nchan k z hk he hw hc hp hq
  obtain rfl : 1 = k := Option.some.inj hk
  obtain ⟨f0, f1, f2, f3, f4, f5⟩ := Word.lay_4_6_6_6_6_4 g 15#6 d a b 0#4 z (Option.some.inj he).symm
  exact decodeSyl_eq fw nchan 1 z _ 15 (by simp) (by simp [opcode, f1]) (by decide) (by simp [raw, rawScalar, opcode,
      f0, f1, f2, f3, f4])
    (by simp) hq he hw hc

theorem rem (g : BitVec 4) (d : BitVec 6) (a : BitVec 6) (b : BitVec 6) : Statement (.rem g d a b) := by
  refine ⟨?_, nofun⟩
  intro fw nchan k z hk he hw hc hp hq
  obtain rfl : 1 = k := Option.some.inj hk
  obtain ⟨f0, f1, f2, f3, f4, f5⟩ := Word.lay_4_6_6_6_6_4 g 16#6 d a b 0#4 z (Option.some.inj he).symm
  exact decodeSyl_eq fw nchan 1 z _ 16 (by simp) (by simp [opcode, f1]) (by decide) (by simp [raw, rawScalar, opcode,
      f0, f1, f2, f3, f4])
    (by simp) hq he hw hc

theorem remn (g : BitVec 4) (d : BitVec 6) (a : BitVec 6) (b : BitVec 6) : Statement (.remn g d a b) := by
  refine ⟨?_, nofun⟩
  intro fw nchan k z hk he hw hc hp hq
  obtain rfl : 1 = k := Option.some.inj hk
  obtain ⟨f0, f1, f2, f3, f4, f5⟩ := Word.lay_4_6_6_6_6_4 g 17#6 d a b 0#4 z (Option.some.inj he).symm
  exact decodeSyl_eq fw nchan 1 z _ 17 (by simp) (by simp [opcode, f1]) (by decide) (by simp [raw, rawScalar, opcode,
      f0, f1, f2, f3, f4])
    (by simp) hq he hw hc

theorem sMin (g : BitVec 4) (d : BitVec 6) (a : BitVec 6) (b : BitVec 6) : Statement (.sMin g d a b) := by
  refine ⟨?_, nofun⟩
  intro fw nchan k z hk he hw hc hp hq
  obtain rfl : 1 = k := Option.some.inj hk
  obtain ⟨f0, f1, f2, f3, f4, f5⟩ := Word.lay_4_6_6_6_6_4 g 18#6 d a b 0#4 z (Option.some.inj he).symm
  exact decodeSyl_eq fw nchan 1 z _ 18 (by simp) (by simp [opcode, f1]) (by decide) (by simp [raw, rawScalar, opcode,
      f0, f1, f2, f3, f4])
    (by simp) hq he hw hc

theorem sMax (g : BitVec 4) (d : BitVec 6) (a : BitVec 6) (b : BitVec 6) : Statement (.sMax g d a b) := by
  refine ⟨?_, nofun⟩
  intro fw nchan k z hk he hw hc hp hq
  obtain rfl : 1 = k := Option.some.inj hk
  obtain ⟨f0, f1, f2, f3, f4, f5⟩ := Word.lay_4_6_6_6_6_4 g 19#6 d a b 0#4 z (Option.some.inj he).symm
  exact decodeSyl_eq fw nchan 1 z _ 19 (by simp) (by simp [opcode, f1]) (by decide) (by simp [raw, rawScalar, opcode,
      f0, f1, f2, f3, f4])
    (by simp) hq he hw hc

theorem minn (g : BitVec 4) (d : BitVec 6) (a : BitVec 6) (b : BitVec 6) : Statement (.minn g d a b) := by
  refine ⟨?_, nofun⟩
  intro fw nchan k z hk he hw hc hp hq
  obtain rfl : 1 = k := Option.some.inj hk
  obtain ⟨f0, f1, f2, f3, f4, f5⟩ := Word.lay_4_6_6_6_6_4 g 20#6 d a b 0#4 z (Option.some.inj he).symm
  exact decodeSyl_eq fw nchan 1 z _ 20 (by simp) (by simp [opcode, f1]) (by decide) (by simp [raw, rawScalar, opcode,
      f0, f1, f2, f3, f4])
    (by simp) hq he hw hc

theorem maxn (g : BitVec 4) (d : BitVec 6) (a : BitVec 6) (b : BitVec 6) : Statement (.maxn g d a b) := by
  refine ⟨?_, nofun⟩
  intro fw nchan k z hk he hw hc hp hq
  obtain rfl : 1 = k := Option.some.inj hk
  obtain ⟨f0, f1, f2, f3, f4, f5⟩ := Word.lay_4_6_6_6_6_4 g 21#6 d a b 0#4 z (Option.some.inj he).symm
  exact decodeSyl_eq fw nchan 1 z _ 21 (by simp) (by simp [opcode, f1]) (by decide) (by simp [raw, rawScalar, opcode,
      f0, f1, f2, f3, f4])
    (by simp) hq he hw hc

theorem ext (g : BitVec 4) (d : BitVec 6) (a : BitVec 6) (b : BitVec 6) : Statement (.ext g d a b) := by
  refine ⟨?_, nofun⟩
  intro fw nchan k z hk he hw hc hp hq
  obtain rfl : 1 = k := Option.some.inj hk
  obtain ⟨f0, f1, f2, f3, f4, f5⟩ := Word.lay_4_6_6_6_6_4 g 22#6 d a b 0#4 z (Option.some.inj he).symm
  exact decodeSyl_eq fw nchan 1 z _ 22 (by simp) (by simp [opcode, f1]) (by decide) (by simp [raw, rawScalar, opcode,
      f0, f1, f2, f3, f4])
    (by simp) hq he hw hc

theorem extn (g : BitVec 4) (d : BitVec 6) (a : BitVec 6) (b : BitVec 6) : Statement (.extn g d a b) := by
  refine ⟨?_, nofun⟩
  intro fw nchan k z hk he hw hc hp hq
  obtain rfl : 1 = k := Option.some.inj hk
  obtain ⟨f0, f1, f2, f3, f4, f5⟩ := Word.lay_4_6_6_6_6_4 g 23#6 d a b 0#4 z (Option.some.inj he).symm
  exact decodeSyl_eq fw nchan 1 z _ 23 (by simp) (by simp [opcode, f1]) (by decide) (by simp [raw, rawScalar, opcode,
      f0, f1, f2, f3, f4])
    (by simp) hq he hw hc

theorem ins (g : BitVec 4) (d : BitVec 6) (a : BitVec 6) (b : BitVec 6) : Statement (.ins g d a b) := by
  refine ⟨?_, nofun⟩
  intro fw nchan k z hk he hw hc hp hq
  obtain rfl : 1 = k := Option.some.inj hk
  obtain ⟨f0, f1, f2, f3, f4, f5⟩ := Word.lay_4_6_6_6_6_4 g 24#6 d a b 0#4 z (Option.some.inj he).symm
  exact decodeSyl_eq fw nchan 1 z _ 24 (by simp) (by simp [opcode, f1]) (by decide) (by simp [raw, rawScalar, opcode,
      f0, f1, f2, f3, f4])
    (by simp) hq he hw hc

theorem clz (g : BitVec 4) (d : BitVec 6) (a : BitVec 6) : Statement (.clz g d a) := by
  refine ⟨?_, nofun⟩
  intro fw nchan k z hk he hw hc hp hq
  obtain rfl : 1 = k := Option.some.inj hk
  obtain ⟨f0, f1, f2, f3, f4⟩ := Word.lay_4_6_6_6_10 g 25#6 d a 0#10 z (Option.some.inj he).symm
  exact decodeSyl_eq fw nchan 1 z _ 25 (by simp) (by simp [opcode, f1]) (by decide) (by simp [raw, rawScalar, opcode,
      f0, f1, f2, f3])
    (by simp) hq he hw hc

theorem ctz (g : BitVec 4) (d : BitVec 6) (a : BitVec 6) : Statement (.ctz g d a) := by
  refine ⟨?_, nofun⟩
  intro fw nchan k z hk he hw hc hp hq
  obtain rfl : 1 = k := Option.some.inj hk
  obtain ⟨f0, f1, f2, f3, f4⟩ := Word.lay_4_6_6_6_10 g 26#6 d a 0#10 z (Option.some.inj he).symm
  exact decodeSyl_eq fw nchan 1 z _ 26 (by simp) (by simp [opcode, f1]) (by decide) (by simp [raw, rawScalar, opcode,
      f0, f1, f2, f3])
    (by simp) hq he hw hc

theorem pcnt (g : BitVec 4) (d : BitVec 6) (a : BitVec 6) : Statement (.pcnt g d a) := by
  refine ⟨?_, nofun⟩
  intro fw nchan k z hk he hw hc hp hq
  obtain rfl : 1 = k := Option.some.inj hk
  obtain ⟨f0, f1, f2, f3, f4⟩ := Word.lay_4_6_6_6_10 g 27#6 d a 0#10 z (Option.some.inj he).symm
  exact decodeSyl_eq fw nchan 1 z _ 27 (by simp) (by simp [opcode, f1]) (by decide) (by simp [raw, rawScalar, opcode,
      f0, f1, f2, f3])
    (by simp) hq he hw hc

theorem sel (g : BitVec 4) (d : BitVec 6) (a : BitVec 6) (b : BitVec 6) (f : BitVec 4) : Statement (.sel g d a b f) :=
    by
  refine ⟨?_, nofun⟩
  intro fw nchan k z hk he hw hc hp hq
  obtain rfl : 1 = k := Option.some.inj hk
  obtain ⟨f0, f1, f2, f3, f4, f5⟩ := Word.lay_4_6_6_6_6_4 g 28#6 d a b f z (Option.some.inj he).symm
  exact decodeSyl_eq fw nchan 1 z _ 28 (by simp) (by simp [opcode, f1]) (by decide) (by simp [raw, rawScalar, opcode,
      f0, f1, f2, f3, f4, f5])
    (by simp) hq he hw hc

theorem cmp (g : BitVec 4) (j : BitVec 3) (c : BitVec 3) (a : BitVec 6) (b : BitVec 6) : Statement (.cmp g j c a b) :=
    by
  refine ⟨?_, nofun⟩
  intro fw nchan k z hk he hw hc hp hq
  obtain rfl : 1 = k := Option.some.inj hk
  obtain ⟨f0, f1, f2, f3, f4, f5, f6⟩ := Word.lay_4_6_3_3_6_6_4 g 29#6 j c a b 0#4 z (Option.some.inj he).symm
  exact decodeSyl_eq fw nchan 1 z _ 29 (by simp) (by simp [opcode, f1]) (by decide) (by simp [raw, rawScalar, opcode,
      f0, f1, f2, f3, f4, f5])
    (by simp) hq he hw hc

theorem cmpi (g : BitVec 4) (j : BitVec 3) (c : BitVec 3) (a : BitVec 6) (i : BitVec 10) : Statement (.cmpi g j c a i)
    := by
  refine ⟨?_, nofun⟩
  intro fw nchan k z hk he hw hc hp hq
  obtain rfl : 1 = k := Option.some.inj hk
  obtain ⟨f0, f1, f2, f3, f4, f5⟩ := Word.lay_4_6_3_3_6_10 g 30#6 j c a i z (Option.some.inj he).symm
  exact decodeSyl_eq fw nchan 1 z _ 30 (by simp) (by simp [opcode, f1]) (by decide) (by simp [raw, rawScalar, opcode,
      f0, f1, f2, f3, f4, f5])
    (by simp) hq he hw hc

theorem pand (g : BitVec 4) (d : BitVec 4) (a : BitVec 4) (b : BitVec 4) (n : BitVec 1) (m : BitVec 1) : Statement
    (.pand g d a b n m) := by
  refine ⟨?_, nofun⟩
  intro fw nchan k z hk he hw hc hp hq
  obtain rfl : 1 = k := Option.some.inj hk
  obtain ⟨f0, f1, f2, f3, f4, f5, f6, f7⟩ := Word.lay_4_6_4_4_4_1_1_8 g 31#6 d a b n m 0#8 z (Option.some.inj he).symm
  exact decodeSyl_eq fw nchan 1 z _ 31 (by simp) (by simp [opcode, f1]) (by decide) (by simp [raw, rawScalar, opcode,
      f0, f1, f2, f3, f4, f5, f6])
    (by simp) hq he hw hc

theorem por (g : BitVec 4) (d : BitVec 4) (a : BitVec 4) (b : BitVec 4) (n : BitVec 1) (m : BitVec 1) : Statement
    (.por g d a b n m) := by
  refine ⟨?_, nofun⟩
  intro fw nchan k z hk he hw hc hp hq
  obtain rfl : 1 = k := Option.some.inj hk
  obtain ⟨f0, f1, f2, f3, f4, f5, f6, f7⟩ := Word.lay_4_6_4_4_4_1_1_8 g 32#6 d a b n m 0#8 z (Option.some.inj he).symm
  exact decodeSyl_eq fw nchan 1 z _ 32 (by simp) (by simp [opcode, f1]) (by decide) (by simp [raw, rawScalar, opcode,
      f0, f1, f2, f3, f4, f5, f6])
    (by simp) hq he hw hc

theorem pxor (g : BitVec 4) (d : BitVec 4) (a : BitVec 4) (b : BitVec 4) (n : BitVec 1) (m : BitVec 1) : Statement
    (.pxor g d a b n m) := by
  refine ⟨?_, nofun⟩
  intro fw nchan k z hk he hw hc hp hq
  obtain rfl : 1 = k := Option.some.inj hk
  obtain ⟨f0, f1, f2, f3, f4, f5, f6, f7⟩ := Word.lay_4_6_4_4_4_1_1_8 g 33#6 d a b n m 0#8 z (Option.some.inj he).symm
  exact decodeSyl_eq fw nchan 1 z _ 33 (by simp) (by simp [opcode, f1]) (by decide) (by simp [raw, rawScalar, opcode,
      f0, f1, f2, f3, f4, f5, f6])
    (by simp) hq he hw hc

theorem addi (g : BitVec 4) (d : BitVec 6) (a : BitVec 6) (i : BitVec 10) : Statement (.addi g d a i) := by
  refine ⟨?_, nofun⟩
  intro fw nchan k z hk he hw hc hp hq
  obtain rfl : 1 = k := Option.some.inj hk
  obtain ⟨f0, f1, f2, f3, f4⟩ := Word.lay_4_6_6_6_10 g 34#6 d a i z (Option.some.inj he).symm
  exact decodeSyl_eq fw nchan 1 z _ 34 (by simp) (by simp [opcode, f1]) (by decide) (by simp [raw, rawScalar, opcode,
      f0, f1, f2, f3, f4])
    (by simp) hq he hw hc

theorem andi (g : BitVec 4) (d : BitVec 6) (a : BitVec 6) (i : BitVec 10) : Statement (.andi g d a i) := by
  refine ⟨?_, nofun⟩
  intro fw nchan k z hk he hw hc hp hq
  obtain rfl : 1 = k := Option.some.inj hk
  obtain ⟨f0, f1, f2, f3, f4⟩ := Word.lay_4_6_6_6_10 g 35#6 d a i z (Option.some.inj he).symm
  exact decodeSyl_eq fw nchan 1 z _ 35 (by simp) (by simp [opcode, f1]) (by decide) (by simp [raw, rawScalar, opcode,
      f0, f1, f2, f3, f4])
    (by simp) hq he hw hc

theorem ori (g : BitVec 4) (d : BitVec 6) (a : BitVec 6) (i : BitVec 10) : Statement (.ori g d a i) := by
  refine ⟨?_, nofun⟩
  intro fw nchan k z hk he hw hc hp hq
  obtain rfl : 1 = k := Option.some.inj hk
  obtain ⟨f0, f1, f2, f3, f4⟩ := Word.lay_4_6_6_6_10 g 36#6 d a i z (Option.some.inj he).symm
  exact decodeSyl_eq fw nchan 1 z _ 36 (by simp) (by simp [opcode, f1]) (by decide) (by simp [raw, rawScalar, opcode,
      f0, f1, f2, f3, f4])
    (by simp) hq he hw hc

theorem xori (g : BitVec 4) (d : BitVec 6) (a : BitVec 6) (i : BitVec 10) : Statement (.xori g d a i) := by
  refine ⟨?_, nofun⟩
  intro fw nchan k z hk he hw hc hp hq
  obtain rfl : 1 = k := Option.some.inj hk
  obtain ⟨f0, f1, f2, f3, f4⟩ := Word.lay_4_6_6_6_10 g 37#6 d a i z (Option.some.inj he).symm
  exact decodeSyl_eq fw nchan 1 z _ 37 (by simp) (by simp [opcode, f1]) (by decide) (by simp [raw, rawScalar, opcode,
      f0, f1, f2, f3, f4])
    (by simp) hq he hw hc

theorem shli (g : BitVec 4) (d : BitVec 6) (a : BitVec 6) (s : BitVec 6) : Statement (.shli g d a s) := by
  refine ⟨?_, nofun⟩
  intro fw nchan k z hk he hw hc hp hq
  obtain rfl : 1 = k := Option.some.inj hk
  obtain ⟨f0, f1, f2, f3, f4, f5⟩ := Word.lay_4_6_6_6_4_6 g 38#6 d a 0#4 s z (Option.some.inj he).symm
  exact decodeSyl_eq fw nchan 1 z _ 38 (by simp) (by simp [opcode, f1]) (by decide) (by simp [raw, rawScalar, opcode,
      f0, f1, f2, f3, f5])
    (by simp) hq he hw hc

theorem shri (g : BitVec 4) (d : BitVec 6) (a : BitVec 6) (s : BitVec 6) : Statement (.shri g d a s) := by
  refine ⟨?_, nofun⟩
  intro fw nchan k z hk he hw hc hp hq
  obtain rfl : 1 = k := Option.some.inj hk
  obtain ⟨f0, f1, f2, f3, f4, f5⟩ := Word.lay_4_6_6_6_4_6 g 39#6 d a 0#4 s z (Option.some.inj he).symm
  exact decodeSyl_eq fw nchan 1 z _ 39 (by simp) (by simp [opcode, f1]) (by decide) (by simp [raw, rawScalar, opcode,
      f0, f1, f2, f3, f5])
    (by simp) hq he hw hc

theorem sari (g : BitVec 4) (d : BitVec 6) (a : BitVec 6) (s : BitVec 6) : Statement (.sari g d a s) := by
  refine ⟨?_, nofun⟩
  intro fw nchan k z hk he hw hc hp hq
  obtain rfl : 1 = k := Option.some.inj hk
  obtain ⟨f0, f1, f2, f3, f4, f5⟩ := Word.lay_4_6_6_6_4_6 g 40#6 d a 0#4 s z (Option.some.inj he).symm
  exact decodeSyl_eq fw nchan 1 z _ 40 (by simp) (by simp [opcode, f1]) (by decide) (by simp [raw, rawScalar, opcode,
      f0, f1, f2, f3, f5])
    (by simp) hq he hw hc

theorem li (g : BitVec 4) (d : BitVec 6) (imm : BitVec 38) : Statement (.li g d imm) := by
  refine ⟨nofun, ?_⟩
  intro fw nchan x y he
  obtain ⟨hx, hy⟩ := Prod.mk.inj (Option.some.inj he)
  obtain ⟨f0, f1, f2, f3⟩ := Word.lay_4_6_6_16 g 41#6 d (imm.extractLsb' 22 16) x hx.symm
  obtain ⟨h0, h1, h2⟩ := Word.lay_4_6_22 g 43#6 (imm.extractLsb' 0 22) y hy.symm
  have hi : imm.extractLsb' 22 16 ++ imm.extractLsb' 0 22 = imm := by
    ext j hj
    simp only [BitVec.getElem_append, BitVec.getElem_extractLsb']
    split <;> simp_all [BitVec.getLsbD_eq_getElem]
  simp [decodeScalars, opcode, f0, f1, f2, f3, h0, h1, h2, hi]

theorem lih (g : BitVec 4) (d : BitVec 6) (imm : BitVec 38) : Statement (.lih g d imm) := by
  refine ⟨nofun, ?_⟩
  intro fw nchan x y he
  obtain ⟨hx, hy⟩ := Prod.mk.inj (Option.some.inj he)
  obtain ⟨f0, f1, f2, f3⟩ := Word.lay_4_6_6_16 g 42#6 d (imm.extractLsb' 22 16) x hx.symm
  obtain ⟨h0, h1, h2⟩ := Word.lay_4_6_22 g 43#6 (imm.extractLsb' 0 22) y hy.symm
  have hi : imm.extractLsb' 22 16 ++ imm.extractLsb' 0 22 = imm := by
    ext j hj
    simp only [BitVec.getElem_append, BitVec.getElem_extractLsb']
    split <;> simp_all [BitVec.getLsbD_eq_getElem]
  simp [decodeScalars, opcode, f0, f1, f2, f3, h0, h1, h2, hi]

theorem agb (g : BitVec 4) (n : BitVec 4) (a : BitVec 6) : Statement (.agb g n a) := by
  refine ⟨?_, nofun⟩
  intro fw nchan k z hk he hw hc hp hq
  obtain rfl : 2 = k := Option.some.inj hk
  obtain ⟨f0, f1, f2, f3, f4⟩ := Word.lay_4_6_4_6_12 g 44#6 n a 0#12 z (Option.some.inj he).symm
  exact decodeSyl_eq fw nchan 2 z _ 44 (by simp) (by simp [opcode, f1]) (by decide) (by simp [raw, rawScalar, opcode,
      f0, f1, f2, f3])
    (by simp) hq he hw hc

theorem ags (g : BitVec 4) (n : BitVec 4) (k : BitVec 3) (a : BitVec 6) : Statement (.ags g n k a) := by
  refine ⟨?_, nofun⟩
  intro fw nchan k z hk he hw hc hp hq
  obtain rfl : 2 = k := Option.some.inj hk
  obtain ⟨f0, f1, f2, f3, f4, f5⟩ := Word.lay_4_6_4_3_6_9 g 45#6 n k a 0#9 z (Option.some.inj he).symm
  exact decodeSyl_eq fw nchan 2 z _ 45 (by simp) (by simp [opcode, f1]) (by decide) (by simp [raw, rawScalar, opcode,
      f0, f1, f2, f3, f4])
    (by simp) hq he hw hc

theorem agr (g : BitVec 4) (d : BitVec 6) (n : BitVec 4) : Statement (.agr g d n) := by
  refine ⟨?_, nofun⟩
  intro fw nchan k z hk he hw hc hp hq
  obtain rfl : 2 = k := Option.some.inj hk
  obtain ⟨f0, f1, f2, f3, f4⟩ := Word.lay_4_6_6_4_12 g 46#6 d n 0#12 z (Option.some.inj he).symm
  exact decodeSyl_eq fw nchan 2 z _ 46 (by simp) (by simp [opcode, f1]) (by decide) (by simp [raw, rawScalar, opcode,
      f0, f1, f2, f3])
    (by simp) hq he hw hc

theorem ldw (g : BitVec 4) (t : BitVec 6) (a : BitVec 16) : Statement (.ldw g t a) := by
  refine ⟨?_, nofun⟩
  intro fw nchan k z hk he hw hc hp hq
  obtain rfl : 3 = k := Option.some.inj hk
  obtain ⟨f0, f1, f2, f3⟩ := Word.lay_4_6_6_16 g 1#6 t a z (Option.some.inj he).symm
  exact decodeSyl_eq fw nchan 3 z _ 1 (by simp) (by simp [opcode, f1]) (by decide) (by simp [raw, rawLocal, opcode,
      f0, f1, f2, f3])
    (by simp) hq he hw hc

theorem stw (g : BitVec 4) (t : BitVec 6) (a : BitVec 16) : Statement (.stw g t a) := by
  refine ⟨?_, nofun⟩
  intro fw nchan k z hk he hw hc hp hq
  obtain rfl : 3 = k := Option.some.inj hk
  obtain ⟨f0, f1, f2, f3⟩ := Word.lay_4_6_6_16 g 2#6 t a z (Option.some.inj he).symm
  exact decodeSyl_eq fw nchan 3 z _ 2 (by simp) (by simp [opcode, f1]) (by decide) (by simp [raw, rawLocal, opcode,
      f0, f1, f2, f3])
    (by simp) hq he hw hc

theorem ldr (g : BitVec 4) (t : BitVec 6) (a : BitVec 16) : Statement (.ldr g t a) := by
  refine ⟨?_, nofun⟩
  intro fw nchan k z hk he hw hc hp hq
  obtain rfl : 3 = k := Option.some.inj hk
  obtain ⟨f0, f1, f2, f3⟩ := Word.lay_4_6_6_16 g 3#6 t a z (Option.some.inj he).symm
  have hp : (!fw) = true := hp
  simp only [Bool.not_eq_true'] at hp
  exact decodeSyl_eq fw nchan 3 z _ 3 (by simp) (by simp [opcode, f1]) (by decide) (by simp [raw, rawLocal, opcode,
      f0, f1, f2, f3, hp])
    (by simp) hq he hw hc

theorem str (g : BitVec 4) (t : BitVec 6) (a : BitVec 16) : Statement (.str g t a) := by
  refine ⟨?_, nofun⟩
  intro fw nchan k z hk he hw hc hp hq
  obtain rfl : 3 = k := Option.some.inj hk
  obtain ⟨f0, f1, f2, f3⟩ := Word.lay_4_6_6_16 g 4#6 t a z (Option.some.inj he).symm
  have hp : (!fw) = true := hp
  simp only [Bool.not_eq_true'] at hp
  exact decodeSyl_eq fw nchan 3 z _ 4 (by simp) (by simp [opcode, f1]) (by decide) (by simp [raw, rawLocal, opcode,
      f0, f1, f2, f3, hp])
    (by simp) hq he hw hc

theorem ldsy (g : BitVec 4) (t : BitVec 6) (a : BitVec 16) : Statement (.ldsy g t a) := by
  refine ⟨?_, nofun⟩
  intro fw nchan k z hk he hw hc hp hq
  obtain rfl : 3 = k := Option.some.inj hk
  obtain ⟨f0, f1, f2, f3⟩ := Word.lay_4_6_6_16 g 5#6 t a z (Option.some.inj he).symm
  have hp : (!fw) = true := hp
  simp only [Bool.not_eq_true'] at hp
  exact decodeSyl_eq fw nchan 3 z _ 5 (by simp) (by simp [opcode, f1]) (by decide) (by simp [raw, rawLocal, opcode,
      f0, f1, f2, f3, hp])
    (by simp) hq he hw hc

theorem stsy (g : BitVec 4) (t : BitVec 6) (a : BitVec 16) : Statement (.stsy g t a) := by
  refine ⟨?_, nofun⟩
  intro fw nchan k z hk he hw hc hp hq
  obtain rfl : 3 = k := Option.some.inj hk
  obtain ⟨f0, f1, f2, f3⟩ := Word.lay_4_6_6_16 g 6#6 t a z (Option.some.inj he).symm
  have hp : (!fw) = true := hp
  simp only [Bool.not_eq_true'] at hp
  exact decodeSyl_eq fw nchan 3 z _ 6 (by simp) (by simp [opcode, f1]) (by decide) (by simp [raw, rawLocal, opcode,
      f0, f1, f2, f3, hp])
    (by simp) hq he hw hc

theorem feq (g : BitVec 4) (j : BitVec 3) (a : BitVec 16) : Statement (.feq g j a) := by
  refine ⟨?_, nofun⟩
  intro fw nchan k z hk he hw hc hp hq
  obtain rfl : 3 = k := Option.some.inj hk
  obtain ⟨f0, f1, f2, f3, f4⟩ := Word.lay_4_6_3_3_16 g 7#6 j 0#3 a z (Option.some.inj he).symm
  exact decodeSyl_eq fw nchan 3 z _ 7 (by simp) (by simp [opcode, f1]) (by decide) (by simp [raw, rawLocal, opcode,
      f0, f1, f2, f4])
    (by simp) hq he hw hc

theorem fes (g : BitVec 4) (v : BitVec 1) (a : BitVec 16) : Statement (.fes g v a) := by
  refine ⟨?_, nofun⟩
  intro fw nchan k z hk he hw hc hp hq
  obtain rfl : 3 = k := Option.some.inj hk
  obtain ⟨f0, f1, f2, f3, f4⟩ := Word.lay_4_6_1_5_16 g 8#6 v 0#5 a z (Option.some.inj he).symm
  exact decodeSyl_eq fw nchan 3 z _ 8 (by simp) (by simp [opcode, f1]) (by decide) (by simp [raw, rawLocal, opcode,
      f0, f1, f2, f4])
    (by simp) hq he hw hc

theorem tlr (g : BitVec 4) (d : BitVec 6) (t : BitVec 6) : Statement (.tlr g d t) := by
  refine ⟨?_, nofun⟩
  intro fw nchan k z hk he hw hc hp hq
  obtain rfl : 3 = k := Option.some.inj hk
  obtain ⟨f0, f1, f2, f3, f4⟩ := Word.lay_4_6_6_6_10 g 9#6 d t 0#10 z (Option.some.inj he).symm
  have hp : (!fw) = true := hp
  simp only [Bool.not_eq_true'] at hp
  exact decodeSyl_eq fw nchan 3 z _ 9 (by simp) (by simp [opcode, f1]) (by decide) (by simp [raw, rawLocal, opcode,
      f0, f1, f2, f3, hp])
    (by simp) hq he hw hc

theorem tls (g : BitVec 4) (t : BitVec 6) (s : BitVec 2) : Statement (.tls g t s) := by
  refine ⟨?_, nofun⟩
  intro fw nchan k z hk he hw hc hp hq
  obtain rfl : 3 = k := Option.some.inj hk
  obtain ⟨f0, f1, f2, f3, f4, f5⟩ := Word.lay_4_6_6_6_2_8 g 10#6 0#6 t s 0#8 z (Option.some.inj he).symm
  have hp : (!fw) = true := hp
  simp only [Bool.not_eq_true'] at hp
  exact decodeSyl_eq fw nchan 3 z _ 10 (by simp) (by simp [opcode, f1]) (by decide) (by simp [raw, rawLocal, opcode,
      f0, f1, f3, f4, hp])
    (by simp) hq he hw hc

theorem barv (g : BitVec 4) (t : BitVec 6) (a : BitVec 16) : Statement (.barv g t a) := by
  refine ⟨?_, nofun⟩
  intro fw nchan k z hk he hw hc hp hq
  obtain rfl : 3 = k := Option.some.inj hk
  obtain ⟨f0, f1, f2, f3⟩ := Word.lay_4_6_6_16 g 11#6 t a z (Option.some.inj he).symm
  have hp : (!fw) = true := hp
  simp only [Bool.not_eq_true'] at hp
  exact decodeSyl_eq fw nchan 3 z _ 11 (by simp) (by simp [opcode, f1]) (by decide) (by simp [raw, rawLocal, opcode,
      f0, f1, f2, f3, hp])
    (by simp) hq he hw hc

theorem barw (g : BitVec 4) (t : BitVec 6) (a : BitVec 16) : Statement (.barw g t a) := by
  refine ⟨?_, nofun⟩
  intro fw nchan k z hk he hw hc hp hq
  obtain rfl : 3 = k := Option.some.inj hk
  obtain ⟨f0, f1, f2, f3⟩ := Word.lay_4_6_6_16 g 12#6 t a z (Option.some.inj he).symm
  have hp : (!fw) = true := hp
  simp only [Bool.not_eq_true'] at hp
  exact decodeSyl_eq fw nchan 3 z _ 12 (by simp) (by simp [opcode, f1]) (by decide) (by simp [raw, rawLocal, opcode,
      f0, f1, f2, f3, hp])
    (by simp) hq he hw hc

theorem gldw (g : BitVec 4) (t : BitVec 6) (b : BitVec 6) (d : BitVec 10) : Statement (.gldw g t b d) := by
  refine ⟨?_, nofun⟩
  intro fw nchan k z hk he hw hc hp hq
  obtain rfl : 4 = k := Option.some.inj hk
  obtain ⟨f0, f1, f2, f3, f4⟩ := Word.lay_4_6_6_6_10 g 1#6 t b d z (Option.some.inj he).symm
  exact decodeSyl_eq fw nchan 4 z _ 1 (by simp) (by simp [opcode, f1]) (by decide) (by simp [raw, rawGlobal, opcode,
      f0, f1, f2, f3, f4])
    (by simp) hq he hw hc

theorem gstw (g : BitVec 4) (t : BitVec 6) (b : BitVec 6) (d : BitVec 10) : Statement (.gstw g t b d) := by
  refine ⟨?_, nofun⟩
  intro fw nchan k z hk he hw hc hp hq
  obtain rfl : 4 = k := Option.some.inj hk
  obtain ⟨f0, f1, f2, f3, f4⟩ := Word.lay_4_6_6_6_10 g 2#6 t b d z (Option.some.inj he).symm
  exact decodeSyl_eq fw nchan 4 z _ 2 (by simp) (by simp [opcode, f1]) (by decide) (by simp [raw, rawGlobal, opcode,
      f0, f1, f2, f3, f4])
    (by simp) hq he hw hc

theorem gldr (g : BitVec 4) (t : BitVec 6) (b : BitVec 6) (d : BitVec 10) : Statement (.gldr g t b d) := by
  refine ⟨?_, nofun⟩
  intro fw nchan k z hk he hw hc hp hq
  obtain rfl : 4 = k := Option.some.inj hk
  obtain ⟨f0, f1, f2, f3, f4⟩ := Word.lay_4_6_6_6_10 g 3#6 t b d z (Option.some.inj he).symm
  have hp : (!fw) = true := hp
  simp only [Bool.not_eq_true'] at hp
  exact decodeSyl_eq fw nchan 4 z _ 3 (by simp) (by simp [opcode, f1]) (by decide) (by simp [raw, rawGlobal, opcode,
      f0, f1, f2, f3, f4, hp])
    (by simp) hq he hw hc

theorem gstr (g : BitVec 4) (t : BitVec 6) (b : BitVec 6) (d : BitVec 10) : Statement (.gstr g t b d) := by
  refine ⟨?_, nofun⟩
  intro fw nchan k z hk he hw hc hp hq
  obtain rfl : 4 = k := Option.some.inj hk
  obtain ⟨f0, f1, f2, f3, f4⟩ := Word.lay_4_6_6_6_10 g 4#6 t b d z (Option.some.inj he).symm
  have hp : (!fw) = true := hp
  simp only [Bool.not_eq_true'] at hp
  exact decodeSyl_eq fw nchan 4 z _ 4 (by simp) (by simp [opcode, f1]) (by decide) (by simp [raw, rawGlobal, opcode,
      f0, f1, f2, f3, f4, hp])
    (by simp) hq he hw hc

theorem gldws (g : BitVec 4) (t : BitVec 6) (b : BitVec 6) (d : BitVec 10) : Statement (.gldws g t b d) := by
  refine ⟨?_, nofun⟩
  intro fw nchan k z hk he hw hc hp hq
  obtain rfl : 4 = k := Option.some.inj hk
  obtain ⟨f0, f1, f2, f3, f4⟩ := Word.lay_4_6_6_6_10 g 5#6 t b d z (Option.some.inj he).symm
  exact decodeSyl_eq fw nchan 4 z _ 5 (by simp) (by simp [opcode, f1]) (by decide) (by simp [raw, rawGlobal, opcode,
      f0, f1, f2, f3, f4])
    (by simp) hq he hw hc

theorem gldrs (g : BitVec 4) (t : BitVec 6) (b : BitVec 6) (d : BitVec 10) : Statement (.gldrs g t b d) := by
  refine ⟨?_, nofun⟩
  intro fw nchan k z hk he hw hc hp hq
  obtain rfl : 4 = k := Option.some.inj hk
  obtain ⟨f0, f1, f2, f3, f4⟩ := Word.lay_4_6_6_6_10 g 6#6 t b d z (Option.some.inj he).symm
  have hp : (!fw) = true := hp
  simp only [Bool.not_eq_true'] at hp
  exact decodeSyl_eq fw nchan 4 z _ 6 (by simp) (by simp [opcode, f1]) (by decide) (by simp [raw, rawGlobal, opcode,
      f0, f1, f2, f3, f4, hp])
    (by simp) hq he hw hc

theorem aadd (g : BitVec 4) (d : BitVec 6) (a : BitVec 6) (v : BitVec 6) (w : BitVec 1) (q : BitVec 1) (r : BitVec 1)
    : Statement (.aadd g d a v w q r) := by
  refine ⟨?_, nofun⟩
  intro fw nchan k z hk he hw hc hp hq
  obtain rfl : 4 = k := Option.some.inj hk
  obtain ⟨f0, f1, f2, f3, f4, f5, f6, f7, f8⟩ := Word.lay_4_6_6_6_6_1_1_1_1 g 7#6 d a v w 0#1 q r z (Option.some.inj
      he).symm
  exact decodeSyl_eq fw nchan 4 z _ 7 (by simp) (by simp [opcode, f1]) (by decide) (by simp [raw, rawGlobal, opcode,
      f0, f1, f2, f3, f4, f5, f7, f8])
    (by simp) hq he hw hc

theorem amin (g : BitVec 4) (d : BitVec 6) (a : BitVec 6) (v : BitVec 6) (w : BitVec 1) (k : BitVec 1) (q : BitVec 1)
    (r : BitVec 1) : Statement (.amin g d a v w k q r) := by
  refine ⟨?_, nofun⟩
  intro fw nchan k z hk he hw hc hp hq
  obtain rfl : 4 = k := Option.some.inj hk
  obtain ⟨f0, f1, f2, f3, f4, f5, f6, f7, f8⟩ := Word.lay_4_6_6_6_6_1_1_1_1 g 8#6 d a v w k q r z (Option.some.inj
      he).symm
  exact decodeSyl_eq fw nchan 4 z _ 8 (by simp) (by simp [opcode, f1]) (by decide) (by simp [raw, rawGlobal, opcode,
      f0, f1, f2, f3, f4, f5, f6, f7, f8])
    (by simp) hq he hw hc

theorem amax (g : BitVec 4) (d : BitVec 6) (a : BitVec 6) (v : BitVec 6) (w : BitVec 1) (k : BitVec 1) (q : BitVec 1)
    (r : BitVec 1) : Statement (.amax g d a v w k q r) := by
  refine ⟨?_, nofun⟩
  intro fw nchan k z hk he hw hc hp hq
  obtain rfl : 4 = k := Option.some.inj hk
  obtain ⟨f0, f1, f2, f3, f4, f5, f6, f7, f8⟩ := Word.lay_4_6_6_6_6_1_1_1_1 g 9#6 d a v w k q r z (Option.some.inj
      he).symm
  exact decodeSyl_eq fw nchan 4 z _ 9 (by simp) (by simp [opcode, f1]) (by decide) (by simp [raw, rawGlobal, opcode,
      f0, f1, f2, f3, f4, f5, f6, f7, f8])
    (by simp) hq he hw hc

theorem aand (g : BitVec 4) (d : BitVec 6) (a : BitVec 6) (v : BitVec 6) (w : BitVec 1) (q : BitVec 1) (r : BitVec 1)
    : Statement (.aand g d a v w q r) := by
  refine ⟨?_, nofun⟩
  intro fw nchan k z hk he hw hc hp hq
  obtain rfl : 4 = k := Option.some.inj hk
  obtain ⟨f0, f1, f2, f3, f4, f5, f6, f7, f8⟩ := Word.lay_4_6_6_6_6_1_1_1_1 g 10#6 d a v w 0#1 q r z (Option.some.inj
      he).symm
  exact decodeSyl_eq fw nchan 4 z _ 10 (by simp) (by simp [opcode, f1]) (by decide) (by simp [raw, rawGlobal, opcode,
      f0, f1, f2, f3, f4, f5, f7, f8])
    (by simp) hq he hw hc

theorem aor (g : BitVec 4) (d : BitVec 6) (a : BitVec 6) (v : BitVec 6) (w : BitVec 1) (q : BitVec 1) (r : BitVec 1) :
    Statement (.aor g d a v w q r) := by
  refine ⟨?_, nofun⟩
  intro fw nchan k z hk he hw hc hp hq
  obtain rfl : 4 = k := Option.some.inj hk
  obtain ⟨f0, f1, f2, f3, f4, f5, f6, f7, f8⟩ := Word.lay_4_6_6_6_6_1_1_1_1 g 11#6 d a v w 0#1 q r z (Option.some.inj
      he).symm
  exact decodeSyl_eq fw nchan 4 z _ 11 (by simp) (by simp [opcode, f1]) (by decide) (by simp [raw, rawGlobal, opcode,
      f0, f1, f2, f3, f4, f5, f7, f8])
    (by simp) hq he hw hc

theorem axor (g : BitVec 4) (d : BitVec 6) (a : BitVec 6) (v : BitVec 6) (w : BitVec 1) (q : BitVec 1) (r : BitVec 1)
    : Statement (.axor g d a v w q r) := by
  refine ⟨?_, nofun⟩
  intro fw nchan k z hk he hw hc hp hq
  obtain rfl : 4 = k := Option.some.inj hk
  obtain ⟨f0, f1, f2, f3, f4, f5, f6, f7, f8⟩ := Word.lay_4_6_6_6_6_1_1_1_1 g 12#6 d a v w 0#1 q r z (Option.some.inj
      he).symm
  exact decodeSyl_eq fw nchan 4 z _ 12 (by simp) (by simp [opcode, f1]) (by decide) (by simp [raw, rawGlobal, opcode,
      f0, f1, f2, f3, f4, f5, f7, f8])
    (by simp) hq he hw hc

theorem aswp (g : BitVec 4) (d : BitVec 6) (a : BitVec 6) (v : BitVec 6) (w : BitVec 1) (q : BitVec 1) (r : BitVec 1)
    : Statement (.aswp g d a v w q r) := by
  refine ⟨?_, nofun⟩
  intro fw nchan k z hk he hw hc hp hq
  obtain rfl : 4 = k := Option.some.inj hk
  obtain ⟨f0, f1, f2, f3, f4, f5, f6, f7, f8⟩ := Word.lay_4_6_6_6_6_1_1_1_1 g 13#6 d a v w 0#1 q r z (Option.some.inj
      he).symm
  exact decodeSyl_eq fw nchan 4 z _ 13 (by simp) (by simp [opcode, f1]) (by decide) (by simp [raw, rawGlobal, opcode,
      f0, f1, f2, f3, f4, f5, f7, f8])
    (by simp) hq he hw hc

theorem acas (g : BitVec 4) (d : BitVec 6) (a : BitVec 6) (v : BitVec 6) (w : BitVec 1) (q : BitVec 1) (r : BitVec 1)
    : Statement (.acas g d a v w q r) := by
  refine ⟨?_, nofun⟩
  intro fw nchan k z hk he hw hc hp hq
  obtain rfl : 4 = k := Option.some.inj hk
  obtain ⟨f0, f1, f2, f3, f4, f5, f6, f7, f8⟩ := Word.lay_4_6_6_6_6_1_1_1_1 g 14#6 d a v w 0#1 q r z (Option.some.inj
      he).symm
  exact decodeSyl_eq fw nchan 4 z _ 14 (by simp) (by simp [opcode, f1]) (by decide) (by simp [raw, rawGlobal, opcode,
      f0, f1, f2, f3, f4, f5, f7, f8])
    (by simp) hq he hw hc

theorem afadd (g : BitVec 4) (d : BitVec 6) (a : BitVec 6) (v : BitVec 6) (w : BitVec 1) (q : BitVec 1) (r : BitVec 1)
    : Statement (.afadd g d a v w q r) := by
  refine ⟨?_, nofun⟩
  intro fw nchan k z hk he hw hc hp hq
  obtain rfl : 4 = k := Option.some.inj hk
  obtain ⟨f0, f1, f2, f3, f4, f5, f6, f7, f8⟩ := Word.lay_4_6_6_6_6_1_1_1_1 g 15#6 d a v w 0#1 q r z (Option.some.inj
      he).symm
  exact decodeSyl_eq fw nchan 4 z _ 15 (by simp) (by simp [opcode, f1]) (by decide) (by simp [raw, rawGlobal, opcode,
      f0, f1, f2, f3, f4, f5, f7, f8])
    (by simp) hq he hw hc

theorem aoadd (g : BitVec 4) (d : BitVec 6) (a : BitVec 6) (v : BitVec 6) (w : BitVec 1) (k : BitVec 1) (r : BitVec 1)
    : Statement (.aoadd g d a v w k r) := by
  refine ⟨?_, nofun⟩
  intro fw nchan k z hk he hw hc hp hq
  obtain rfl : 4 = k := Option.some.inj hk
  obtain ⟨f0, f1, f2, f3, f4, f5, f6, f7, f8⟩ := Word.lay_4_6_6_6_6_1_1_1_1 g 16#6 d a v w k 0#1 r z (Option.some.inj
      he).symm
  exact decodeSyl_eq fw nchan 4 z _ 16 (by simp) (by simp [opcode, f1]) (by decide) (by simp [raw, rawGlobal, opcode,
      f0, f1, f2, f3, f4, f5, f6, f8])
    (by simp) hq he hw hc

theorem phase (g : BitVec 4) (s : BitVec 4) : Statement (.phase g s) := by
  refine ⟨?_, nofun⟩
  intro fw nchan k z hk he hw hc hp hq
  obtain rfl : 4 = k := Option.some.inj hk
  obtain ⟨f0, f1, f2, f3⟩ := Word.lay_4_6_4_18 g 17#6 s 0#18 z (Option.some.inj he).symm
  exact decodeSyl_eq fw nchan 4 z _ 17 (by simp) (by simp [opcode, f1]) (by decide) (by simp [raw, rawGlobal, opcode,
      f0, f1, f2])
    (by simp) hq he hw hc

theorem copy (g : BitVec 4) (c : BitVec 4) (a : BitVec 6) (d : BitVec 6) (q : BitVec 1) (r : BitVec 1) (s : BitVec 4)
    : Statement (.copy g c a d q r s) := by
  refine ⟨?_, nofun⟩
  intro fw nchan k z hk he hw hc hp hq
  obtain rfl : 4 = k := Option.some.inj hk
  obtain ⟨f0, f1, f2, f3, f4, f5, f6, f7⟩ := Word.lay_4_6_4_6_6_1_1_4 g 18#6 c a d q r s z (Option.some.inj he).symm
  exact decodeSyl_eq fw nchan 4 z _ 18 (by simp) (by simp [opcode, f1]) (by decide) (by simp [raw, rawGlobal, opcode,
      f0, f1, f2, f3, f4, f5, f6, f7])
    (by simp) hq he hw hc

theorem gath (g : BitVec 4) (c : BitVec 4) (a : BitVec 6) (d : BitVec 6) (q : BitVec 1) (r : BitVec 1) (s : BitVec 4)
    : Statement (.gath g c a d q r s) := by
  refine ⟨?_, nofun⟩
  intro fw nchan k z hk he hw hc hp hq
  obtain rfl : 4 = k := Option.some.inj hk
  obtain ⟨f0, f1, f2, f3, f4, f5, f6, f7⟩ := Word.lay_4_6_4_6_6_1_1_4 g 19#6 c a d q r s z (Option.some.inj he).symm
  exact decodeSyl_eq fw nchan 4 z _ 19 (by simp) (by simp [opcode, f1]) (by decide) (by simp [raw, rawGlobal, opcode,
      f0, f1, f2, f3, f4, f5, f6, f7])
    (by simp) hq he hw hc

theorem scat (g : BitVec 4) (c : BitVec 4) (a : BitVec 6) (d : BitVec 6) (q : BitVec 1) (r : BitVec 1) (s : BitVec 4)
    : Statement (.scat g c a d q r s) := by
  refine ⟨?_, nofun⟩
  intro fw nchan k z hk he hw hc hp hq
  obtain rfl : 4 = k := Option.some.inj hk
  obtain ⟨f0, f1, f2, f3, f4, f5, f6, f7⟩ := Word.lay_4_6_4_6_6_1_1_4 g 20#6 c a d q r s z (Option.some.inj he).symm
  exact decodeSyl_eq fw nchan 4 z _ 20 (by simp) (by simp [opcode, f1]) (by decide) (by simp [raw, rawGlobal, opcode,
      f0, f1, f2, f3, f4, f5, f6, f7])
    (by simp) hq he hw hc

theorem wstr (g : BitVec 4) (c : BitVec 4) (a : BitVec 6) (d : BitVec 6) (q : BitVec 1) (s : BitVec 4) : Statement
    (.wstr g c a d q s) := by
  refine ⟨?_, nofun⟩
  intro fw nchan k z hk he hw hc hp hq
  obtain rfl : 4 = k := Option.some.inj hk
  obtain ⟨f0, f1, f2, f3, f4, f5, f6, f7⟩ := Word.lay_4_6_4_6_6_1_1_4 g 21#6 c a d q 0#1 s z (Option.some.inj he).symm
  exact decodeSyl_eq fw nchan 4 z _ 21 (by simp) (by simp [opcode, f1]) (by decide) (by simp [raw, rawGlobal, opcode,
      f0, f1, f2, f3, f4, f5, f7])
    (by simp) hq he hw hc

theorem cwid (g : BitVec 4) (c : BitVec 4) (a : BitVec 6) (s : BitVec 1) : Statement (.cwid g c a s) := by
  refine ⟨?_, nofun⟩
  intro fw nchan k z hk he hw hc hp hq
  obtain rfl : 4 = k := Option.some.inj hk
  obtain ⟨f0, f1, f2, f3, f4, f5⟩ := Word.lay_4_6_4_6_1_11 g 22#6 c a s 0#11 z (Option.some.inj he).symm
  exact decodeSyl_eq fw nchan 4 z _ 22 (by simp) (by simp [opcode, f1]) (by decide) (by simp [raw, rawGlobal, opcode,
      f0, f1, f2, f3, f4])
    (by simp) hq he hw hc

theorem cwcnt (g : BitVec 4) (c : BitVec 4) (a : BitVec 6) (s : BitVec 1) : Statement (.cwcnt g c a s) := by
  refine ⟨?_, nofun⟩
  intro fw nchan k z hk he hw hc hp hq
  obtain rfl : 4 = k := Option.some.inj hk
  obtain ⟨f0, f1, f2, f3, f4, f5⟩ := Word.lay_4_6_4_6_1_11 g 23#6 c a s 0#11 z (Option.some.inj he).symm
  exact decodeSyl_eq fw nchan 4 z _ 23 (by simp) (by simp [opcode, f1]) (by decide) (by simp [raw, rawGlobal, opcode,
      f0, f1, f2, f3, f4])
    (by simp) hq he hw hc

theorem trig (g : BitVec 4) (c : BitVec 4) (a : BitVec 6) (b : BitVec 6) : Statement (.trig g c a b) := by
  refine ⟨?_, nofun⟩
  intro fw nchan k z hk he hw hc hp hq
  obtain rfl : 4 = k := Option.some.inj hk
  obtain ⟨f0, f1, f2, f3, f4, f5⟩ := Word.lay_4_6_4_6_6_6 g 24#6 c a b 0#6 z (Option.some.inj he).symm
  exact decodeSyl_eq fw nchan 4 z _ 24 (by simp) (by simp [opcode, f1]) (by decide) (by simp [raw, rawGlobal, opcode,
      f0, f1, f2, f3, f4])
    (by simp) hq he hw hc

theorem enq (g : BitVec 4) (p : BitVec 4) (a : BitVec 6) (v : BitVec 6) : Statement (.enq g p a v) := by
  refine ⟨?_, nofun⟩
  intro fw nchan k z hk he hw hc hp hq
  obtain rfl : 4 = k := Option.some.inj hk
  obtain ⟨f0, f1, f2, f3, f4, f5⟩ := Word.lay_4_6_4_6_6_6 g 25#6 p a v 0#6 z (Option.some.inj he).symm
  have hp : (!fw) = true := hp
  simp only [Bool.not_eq_true'] at hp
  exact decodeSyl_eq fw nchan 4 z _ 25 (by simp) (by simp [opcode, f1]) (by decide) (by simp [raw, rawGlobal, opcode,
      f0, f1, f2, f3, f4, hp])
    (by simp) hq he hw hc

theorem deq (g : BitVec 4) (v : BitVec 6) (a : BitVec 6) (s : BitVec 1) : Statement (.deq g v a s) := by
  refine ⟨?_, nofun⟩
  intro fw nchan k z hk he hw hc hp hq
  obtain rfl : 4 = k := Option.some.inj hk
  obtain ⟨f0, f1, f2, f3, f4, f5⟩ := Word.lay_4_6_6_6_1_9 g 26#6 v a s 0#9 z (Option.some.inj he).symm
  have hp : (!fw) = true := hp
  simp only [Bool.not_eq_true'] at hp
  exact decodeSyl_eq fw nchan 4 z _ 26 (by simp) (by simp [opcode, f1]) (by decide) (by simp [raw, rawGlobal, opcode,
      f0, f1, f2, f3, f4, hp])
    (by simp) hq he hw hc

theorem cbind (g : BitVec 4) (c : BitVec 4) (a : BitVec 6) (d : BitVec 6) (q : BitVec 1) (r : BitVec 1) (s : BitVec 4)
    : Statement (.cbind g c a d q r s) := by
  refine ⟨?_, nofun⟩
  intro fw nchan k z hk he hw hc hp hq
  obtain rfl : 4 = k := Option.some.inj hk
  obtain ⟨f0, f1, f2, f3, f4, f5, f6, f7⟩ := Word.lay_4_6_4_6_6_1_1_4 g 27#6 c a d q r s z (Option.some.inj he).symm
  exact decodeSyl_eq fw nchan 4 z _ 27 (by simp) (by simp [opcode, f1]) (by decide) (by simp [raw, rawGlobal, opcode,
      f0, f1, f2, f3, f4, f5, f6, f7])
    (by simp) hq he hw hc

theorem bred (g : BitVec 4) (c : BitVec 4) (a : BitVec 6) (d : BitVec 6) (q : BitVec 1) (r : BitVec 1) (s : BitVec 4)
    : Statement (.bred g c a d q r s) := by
  refine ⟨?_, nofun⟩
  intro fw nchan k z hk he hw hc hp hq
  obtain rfl : 4 = k := Option.some.inj hk
  obtain ⟨f0, f1, f2, f3, f4, f5, f6, f7⟩ := Word.lay_4_6_4_6_6_1_1_4 g 28#6 c a d q r s z (Option.some.inj he).symm
  exact decodeSyl_eq fw nchan 4 z _ 28 (by simp) (by simp [opcode, f1]) (by decide) (by simp [raw, rawGlobal, opcode,
      f0, f1, f2, f3, f4, f5, f6, f7])
    (by simp) hq he hw hc

theorem hist (g : BitVec 4) (c : BitVec 4) (a : BitVec 6) (d : BitVec 6) (r : BitVec 1) (s : BitVec 4) : Statement
    (.hist g c a d r s) := by
  refine ⟨?_, nofun⟩
  intro fw nchan k z hk he hw hc hp hq
  obtain rfl : 4 = k := Option.some.inj hk
  obtain ⟨f0, f1, f2, f3, f4, f5, f6, f7⟩ := Word.lay_4_6_4_6_6_1_1_4 g 29#6 c a d 0#1 r s z (Option.some.inj he).symm
  exact decodeSyl_eq fw nchan 4 z _ 29 (by simp) (by simp [opcode, f1]) (by decide) (by simp [raw, rawGlobal, opcode,
      f0, f1, f2, f3, f4, f6, f7])
    (by simp) hq he hw hc

theorem sarv (g : BitVec 4) : Statement (.sarv g) := by
  refine ⟨?_, nofun⟩
  intro fw nchan k z hk he hw hc hp hq
  obtain rfl : 4 = k := Option.some.inj hk
  obtain ⟨f0, f1, f2⟩ := Word.lay_4_6_22 g 30#6 0#22 z (Option.some.inj he).symm
  exact decodeSyl_eq fw nchan 4 z _ 30 (by simp) (by simp [opcode, f1]) (by decide) (by simp [raw, rawGlobal, opcode,
      f0, f1])
    (by simp) hq he hw hc

theorem vadd (g : BitVec 4) (d : BitVec 5) (a : BitVec 6) (b : BitVec 6) (m : BitVec 3) (t : BitVec 2) : Statement
    (.vadd g d a b m t) := by
  refine ⟨?_, nofun⟩
  intro fw nchan k z hk he hw hc hp hq
  obtain rfl : 5 = k := Option.some.inj hk
  obtain ⟨f0, f1, f2, f3, f4, f5, f6⟩ := Word.lay_4_6_5_6_6_3_2 g 1#6 d a b m t z (Option.some.inj he).symm
  have hp : (!fw || false) = true := hp
  simp only [Bool.or_false, Bool.not_eq_true'] at hp
  exact decodeSyl_eq fw nchan 5 z _ 1 (by simp [hp]) (by simp [opcode, f1]) (by decide) (by simp [raw, rawVector,
      opcode, f0, f1, f2, f3, f4, f5, f6])
    (by simp) hq he hw hc

theorem vsub (g : BitVec 4) (d : BitVec 5) (a : BitVec 6) (b : BitVec 6) (m : BitVec 3) (t : BitVec 2) : Statement
    (.vsub g d a b m t) := by
  refine ⟨?_, nofun⟩
  intro fw nchan k z hk he hw hc hp hq
  obtain rfl : 5 = k := Option.some.inj hk
  obtain ⟨f0, f1, f2, f3, f4, f5, f6⟩ := Word.lay_4_6_5_6_6_3_2 g 2#6 d a b m t z (Option.some.inj he).symm
  have hp : (!fw || false) = true := hp
  simp only [Bool.or_false, Bool.not_eq_true'] at hp
  exact decodeSyl_eq fw nchan 5 z _ 2 (by simp [hp]) (by simp [opcode, f1]) (by decide) (by simp [raw, rawVector,
      opcode, f0, f1, f2, f3, f4, f5, f6])
    (by simp) hq he hw hc

theorem vmul (g : BitVec 4) (d : BitVec 5) (a : BitVec 6) (b : BitVec 6) (m : BitVec 3) (t : BitVec 2) : Statement
    (.vmul g d a b m t) := by
  refine ⟨?_, nofun⟩
  intro fw nchan k z hk he hw hc hp hq
  obtain rfl : 5 = k := Option.some.inj hk
  obtain ⟨f0, f1, f2, f3, f4, f5, f6⟩ := Word.lay_4_6_5_6_6_3_2 g 3#6 d a b m t z (Option.some.inj he).symm
  have hp : (!fw || false) = true := hp
  simp only [Bool.or_false, Bool.not_eq_true'] at hp
  exact decodeSyl_eq fw nchan 5 z _ 3 (by simp [hp]) (by simp [opcode, f1]) (by decide) (by simp [raw, rawVector,
      opcode, f0, f1, f2, f3, f4, f5, f6])
    (by simp) hq he hw hc

theorem vmulh (g : BitVec 4) (d : BitVec 5) (a : BitVec 6) (b : BitVec 6) (m : BitVec 3) (t : BitVec 2) : Statement
    (.vmulh g d a b m t) := by
  refine ⟨?_, nofun⟩
  intro fw nchan k z hk he hw hc hp hq
  obtain rfl : 5 = k := Option.some.inj hk
  obtain ⟨f0, f1, f2, f3, f4, f5, f6⟩ := Word.lay_4_6_5_6_6_3_2 g 4#6 d a b m t z (Option.some.inj he).symm
  have hp : (!fw || false) = true := hp
  simp only [Bool.or_false, Bool.not_eq_true'] at hp
  exact decodeSyl_eq fw nchan 5 z _ 4 (by simp [hp]) (by simp [opcode, f1]) (by decide) (by simp [raw, rawVector,
      opcode, f0, f1, f2, f3, f4, f5, f6])
    (by simp) hq he hw hc

theorem vmin (g : BitVec 4) (d : BitVec 5) (a : BitVec 6) (b : BitVec 6) (m : BitVec 3) (t : BitVec 2) : Statement
    (.vmin g d a b m t) := by
  refine ⟨?_, nofun⟩
  intro fw nchan k z hk he hw hc hp hq
  obtain rfl : 5 = k := Option.some.inj hk
  obtain ⟨f0, f1, f2, f3, f4, f5, f6⟩ := Word.lay_4_6_5_6_6_3_2 g 5#6 d a b m t z (Option.some.inj he).symm
  have hp : (!fw || false) = true := hp
  simp only [Bool.or_false, Bool.not_eq_true'] at hp
  exact decodeSyl_eq fw nchan 5 z _ 5 (by simp [hp]) (by simp [opcode, f1]) (by decide) (by simp [raw, rawVector,
      opcode, f0, f1, f2, f3, f4, f5, f6])
    (by simp) hq he hw hc

theorem vmax (g : BitVec 4) (d : BitVec 5) (a : BitVec 6) (b : BitVec 6) (m : BitVec 3) (t : BitVec 2) : Statement
    (.vmax g d a b m t) := by
  refine ⟨?_, nofun⟩
  intro fw nchan k z hk he hw hc hp hq
  obtain rfl : 5 = k := Option.some.inj hk
  obtain ⟨f0, f1, f2, f3, f4, f5, f6⟩ := Word.lay_4_6_5_6_6_3_2 g 6#6 d a b m t z (Option.some.inj he).symm
  have hp : (!fw || false) = true := hp
  simp only [Bool.or_false, Bool.not_eq_true'] at hp
  exact decodeSyl_eq fw nchan 5 z _ 6 (by simp [hp]) (by simp [opcode, f1]) (by decide) (by simp [raw, rawVector,
      opcode, f0, f1, f2, f3, f4, f5, f6])
    (by simp) hq he hw hc

theorem vminn (g : BitVec 4) (d : BitVec 5) (a : BitVec 6) (b : BitVec 6) (m : BitVec 3) (t : BitVec 2) : Statement
    (.vminn g d a b m t) := by
  refine ⟨?_, nofun⟩
  intro fw nchan k z hk he hw hc hp hq
  obtain rfl : 5 = k := Option.some.inj hk
  obtain ⟨f0, f1, f2, f3, f4, f5, f6⟩ := Word.lay_4_6_5_6_6_3_2 g 7#6 d a b m t z (Option.some.inj he).symm
  have hp : (!fw || false) = true := hp
  simp only [Bool.or_false, Bool.not_eq_true'] at hp
  exact decodeSyl_eq fw nchan 5 z _ 7 (by simp [hp]) (by simp [opcode, f1]) (by decide) (by simp [raw, rawVector,
      opcode, f0, f1, f2, f3, f4, f5, f6])
    (by simp) hq he hw hc

theorem vmaxn (g : BitVec 4) (d : BitVec 5) (a : BitVec 6) (b : BitVec 6) (m : BitVec 3) (t : BitVec 2) : Statement
    (.vmaxn g d a b m t) := by
  refine ⟨?_, nofun⟩
  intro fw nchan k z hk he hw hc hp hq
  obtain rfl : 5 = k := Option.some.inj hk
  obtain ⟨f0, f1, f2, f3, f4, f5, f6⟩ := Word.lay_4_6_5_6_6_3_2 g 8#6 d a b m t z (Option.some.inj he).symm
  have hp : (!fw || false) = true := hp
  simp only [Bool.or_false, Bool.not_eq_true'] at hp
  exact decodeSyl_eq fw nchan 5 z _ 8 (by simp [hp]) (by simp [opcode, f1]) (by decide) (by simp [raw, rawVector,
      opcode, f0, f1, f2, f3, f4, f5, f6])
    (by simp) hq he hw hc

theorem vand (g : BitVec 4) (d : BitVec 5) (a : BitVec 6) (b : BitVec 6) (m : BitVec 3) (t : BitVec 2) : Statement
    (.vand g d a b m t) := by
  refine ⟨?_, nofun⟩
  intro fw nchan k z hk he hw hc hp hq
  obtain rfl : 5 = k := Option.some.inj hk
  obtain ⟨f0, f1, f2, f3, f4, f5, f6⟩ := Word.lay_4_6_5_6_6_3_2 g 9#6 d a b m t z (Option.some.inj he).symm
  have hp : (!fw || false) = true := hp
  simp only [Bool.or_false, Bool.not_eq_true'] at hp
  exact decodeSyl_eq fw nchan 5 z _ 9 (by simp [hp]) (by simp [opcode, f1]) (by decide) (by simp [raw, rawVector,
      opcode, f0, f1, f2, f3, f4, f5, f6])
    (by simp) hq he hw hc

theorem vor (g : BitVec 4) (d : BitVec 5) (a : BitVec 6) (b : BitVec 6) (m : BitVec 3) (t : BitVec 2) : Statement
    (.vor g d a b m t) := by
  refine ⟨?_, nofun⟩
  intro fw nchan k z hk he hw hc hp hq
  obtain rfl : 5 = k := Option.some.inj hk
  obtain ⟨f0, f1, f2, f3, f4, f5, f6⟩ := Word.lay_4_6_5_6_6_3_2 g 10#6 d a b m t z (Option.some.inj he).symm
  have hp : (!fw || false) = true := hp
  simp only [Bool.or_false, Bool.not_eq_true'] at hp
  exact decodeSyl_eq fw nchan 5 z _ 10 (by simp [hp]) (by simp [opcode, f1]) (by decide) (by simp [raw, rawVector,
      opcode, f0, f1, f2, f3, f4, f5, f6])
    (by simp) hq he hw hc

theorem vxor (g : BitVec 4) (d : BitVec 5) (a : BitVec 6) (b : BitVec 6) (m : BitVec 3) (t : BitVec 2) : Statement
    (.vxor g d a b m t) := by
  refine ⟨?_, nofun⟩
  intro fw nchan k z hk he hw hc hp hq
  obtain rfl : 5 = k := Option.some.inj hk
  obtain ⟨f0, f1, f2, f3, f4, f5, f6⟩ := Word.lay_4_6_5_6_6_3_2 g 11#6 d a b m t z (Option.some.inj he).symm
  have hp : (!fw || false) = true := hp
  simp only [Bool.or_false, Bool.not_eq_true'] at hp
  exact decodeSyl_eq fw nchan 5 z _ 11 (by simp [hp]) (by simp [opcode, f1]) (by decide) (by simp [raw, rawVector,
      opcode, f0, f1, f2, f3, f4, f5, f6])
    (by simp) hq he hw hc

theorem vsel (g : BitVec 4) (d : BitVec 5) (a : BitVec 6) (b : BitVec 6) (m : BitVec 3) (t : BitVec 2) : Statement
    (.vsel g d a b m t) := by
  refine ⟨?_, nofun⟩
  intro fw nchan k z hk he hw hc hp hq
  obtain rfl : 5 = k := Option.some.inj hk
  obtain ⟨f0, f1, f2, f3, f4, f5, f6⟩ := Word.lay_4_6_5_6_6_3_2 g 12#6 d a b m t z (Option.some.inj he).symm
  have hp : (!fw || false) = true := hp
  simp only [Bool.or_false, Bool.not_eq_true'] at hp
  exact decodeSyl_eq fw nchan 5 z _ 12 (by simp [hp]) (by simp [opcode, f1]) (by decide) (by simp [raw, rawVector,
      opcode, f0, f1, f2, f3, f4, f5, f6])
    (by simp) hq he hw hc

theorem vshli (g : BitVec 4) (d : BitVec 5) (a : BitVec 6) (i : BitVec 6) (m : BitVec 3) (t : BitVec 2) : Statement
    (.vshli g d a i m t) := by
  refine ⟨?_, nofun⟩
  intro fw nchan k z hk he hw hc hp hq
  obtain rfl : 5 = k := Option.some.inj hk
  obtain ⟨f0, f1, f2, f3, f4, f5, f6⟩ := Word.lay_4_6_5_6_6_3_2 g 13#6 d a i m t z (Option.some.inj he).symm
  have hp : (!fw || false) = true := hp
  simp only [Bool.or_false, Bool.not_eq_true'] at hp
  exact decodeSyl_eq fw nchan 5 z _ 13 (by simp [hp]) (by simp [opcode, f1]) (by decide) (by simp [raw, rawVector,
      opcode, f0, f1, f2, f3, f4, f5, f6])
    (by simp) hq he hw hc

theorem vshri (g : BitVec 4) (d : BitVec 5) (a : BitVec 6) (i : BitVec 6) (m : BitVec 3) (t : BitVec 2) : Statement
    (.vshri g d a i m t) := by
  refine ⟨?_, nofun⟩
  intro fw nchan k z hk he hw hc hp hq
  obtain rfl : 5 = k := Option.some.inj hk
  obtain ⟨f0, f1, f2, f3, f4, f5, f6⟩ := Word.lay_4_6_5_6_6_3_2 g 14#6 d a i m t z (Option.some.inj he).symm
  have hp : (!fw || false) = true := hp
  simp only [Bool.or_false, Bool.not_eq_true'] at hp
  exact decodeSyl_eq fw nchan 5 z _ 14 (by simp [hp]) (by simp [opcode, f1]) (by decide) (by simp [raw, rawVector,
      opcode, f0, f1, f2, f3, f4, f5, f6])
    (by simp) hq he hw hc

theorem vsari (g : BitVec 4) (d : BitVec 5) (a : BitVec 6) (i : BitVec 6) (m : BitVec 3) (t : BitVec 2) : Statement
    (.vsari g d a i m t) := by
  refine ⟨?_, nofun⟩
  intro fw nchan k z hk he hw hc hp hq
  obtain rfl : 5 = k := Option.some.inj hk
  obtain ⟨f0, f1, f2, f3, f4, f5, f6⟩ := Word.lay_4_6_5_6_6_3_2 g 15#6 d a i m t z (Option.some.inj he).symm
  have hp : (!fw || false) = true := hp
  simp only [Bool.or_false, Bool.not_eq_true'] at hp
  exact decodeSyl_eq fw nchan 5 z _ 15 (by simp [hp]) (by simp [opcode, f1]) (by decide) (by simp [raw, rawVector,
      opcode, f0, f1, f2, f3, f4, f5, f6])
    (by simp) hq he hw hc

theorem vperm (g : BitVec 4) (d : BitVec 5) (a : BitVec 6) (b : BitVec 6) (m : BitVec 3) (t : BitVec 2) : Statement
    (.vperm g d a b m t) := by
  refine ⟨?_, nofun⟩
  intro fw nchan k z hk he hw hc hp hq
  obtain rfl : 5 = k := Option.some.inj hk
  obtain ⟨f0, f1, f2, f3, f4, f5, f6⟩ := Word.lay_4_6_5_6_6_3_2 g 16#6 d a b m t z (Option.some.inj he).symm
  have hp : (!fw || false) = true := hp
  simp only [Bool.or_false, Bool.not_eq_true'] at hp
  exact decodeSyl_eq fw nchan 5 z _ 16 (by simp [hp]) (by simp [opcode, f1]) (by decide) (by simp [raw, rawVector,
      opcode, f0, f1, f2, f3, f4, f5, f6])
    (by simp) hq he hw hc

theorem vbc (g : BitVec 4) (d : BitVec 5) (s : BitVec 6) (m : BitVec 3) (t : BitVec 2) : Statement (.vbc g d s m t) :=
    by
  refine ⟨?_, nofun⟩
  intro fw nchan k z hk he hw hc hp hq
  obtain rfl : 5 = k := Option.some.inj hk
  obtain ⟨f0, f1, f2, f3, f4, f5, f6⟩ := Word.lay_4_6_5_6_6_3_2 g 17#6 d s 0#6 m t z (Option.some.inj he).symm
  have hp : (!fw || false) = true := hp
  simp only [Bool.or_false, Bool.not_eq_true'] at hp
  exact decodeSyl_eq fw nchan 5 z _ 17 (by simp [hp]) (by simp [opcode, f1]) (by decide) (by simp [raw, rawVector,
      opcode, f0, f1, f2, f3, f5, f6])
    (by simp) hq he hw hc

theorem vins (g : BitVec 4) (d : BitVec 5) (s : BitVec 6) (l : BitVec 6) (m : BitVec 3) (t : BitVec 2) : Statement
    (.vins g d s l m t) := by
  refine ⟨?_, nofun⟩
  intro fw nchan k z hk he hw hc hp hq
  obtain rfl : 5 = k := Option.some.inj hk
  obtain ⟨f0, f1, f2, f3, f4, f5, f6⟩ := Word.lay_4_6_5_6_6_3_2 g 18#6 d s l m t z (Option.some.inj he).symm
  have hp : (!fw || false) = true := hp
  simp only [Bool.or_false, Bool.not_eq_true'] at hp
  exact decodeSyl_eq fw nchan 5 z _ 18 (by simp [hp]) (by simp [opcode, f1]) (by decide) (by simp [raw, rawVector,
      opcode, f0, f1, f2, f3, f4, f5, f6])
    (by simp) hq he hw hc

theorem vext (g : BitVec 4) (d : BitVec 6) (a : BitVec 6) (l : BitVec 6) (t : BitVec 2) : Statement (.vext g d a l t)
    := by
  refine ⟨?_, nofun⟩
  intro fw nchan k z hk he hw hc hp hq
  obtain rfl : 5 = k := Option.some.inj hk
  obtain ⟨f0, f1, f2, f3, f4, f5, f6⟩ := Word.lay_4_6_6_6_6_2_2 g 19#6 d a l 0#2 t z (Option.some.inj he).symm
  have hp : (!fw || false) = true := hp
  simp only [Bool.or_false, Bool.not_eq_true'] at hp
  exact decodeSyl_eq fw nchan 5 z _ 19 (by simp [hp]) (by simp [opcode, f1]) (by decide) (by simp [raw, rawVector,
      opcode, f0, f1, f2, f3, f4, f6])
    (by simp) hq he hw hc

theorem vcmp (g : BitVec 4) (m : BitVec 3) (a : BitVec 6) (b : BitVec 6) (c : BitVec 3) (t : BitVec 2) : Statement
    (.vcmp g m a b c t) := by
  refine ⟨?_, nofun⟩
  intro fw nchan k z hk he hw hc hp hq
  obtain rfl : 5 = k := Option.some.inj hk
  obtain ⟨f0, f1, f2, f3, f4, f5, f6, f7⟩ := Word.lay_4_6_3_6_6_3_2_2 g 20#6 m a b c 0#2 t z (Option.some.inj he).symm
  have hp : (!fw || false) = true := hp
  simp only [Bool.or_false, Bool.not_eq_true'] at hp
  exact decodeSyl_eq fw nchan 5 z _ 20 (by simp [hp]) (by simp [opcode, f1]) (by decide) (by simp [raw, rawVector,
      opcode, f0, f1, f2, f3, f4, f5, f7])
    (by simp) hq he hw hc

theorem mand (g : BitVec 4) (d : BitVec 3) (a : BitVec 3) (b : BitVec 3) : Statement (.mand g d a b) := by
  refine ⟨?_, nofun⟩
  intro fw nchan k z hk he hw hc hp hq
  obtain rfl : 5 = k := Option.some.inj hk
  obtain ⟨f0, f1, f2, f3, f4, f5⟩ := Word.lay_4_6_3_3_3_13 g 21#6 d a b 0#13 z (Option.some.inj he).symm
  have hp : (!fw || false) = true := hp
  simp only [Bool.or_false, Bool.not_eq_true'] at hp
  exact decodeSyl_eq fw nchan 5 z _ 21 (by simp [hp]) (by simp [opcode, f1]) (by decide) (by simp [raw, rawVector,
      opcode, f0, f1, f2, f3, f4])
    (by simp) hq he hw hc

theorem mor (g : BitVec 4) (d : BitVec 3) (a : BitVec 3) (b : BitVec 3) : Statement (.mor g d a b) := by
  refine ⟨?_, nofun⟩
  intro fw nchan k z hk he hw hc hp hq
  obtain rfl : 5 = k := Option.some.inj hk
  obtain ⟨f0, f1, f2, f3, f4, f5⟩ := Word.lay_4_6_3_3_3_13 g 22#6 d a b 0#13 z (Option.some.inj he).symm
  have hp : (!fw || false) = true := hp
  simp only [Bool.or_false, Bool.not_eq_true'] at hp
  exact decodeSyl_eq fw nchan 5 z _ 22 (by simp [hp]) (by simp [opcode, f1]) (by decide) (by simp [raw, rawVector,
      opcode, f0, f1, f2, f3, f4])
    (by simp) hq he hw hc

theorem mxor (g : BitVec 4) (d : BitVec 3) (a : BitVec 3) (b : BitVec 3) : Statement (.mxor g d a b) := by
  refine ⟨?_, nofun⟩
  intro fw nchan k z hk he hw hc hp hq
  obtain rfl : 5 = k := Option.some.inj hk
  obtain ⟨f0, f1, f2, f3, f4, f5⟩ := Word.lay_4_6_3_3_3_13 g 23#6 d a b 0#13 z (Option.some.inj he).symm
  have hp : (!fw || false) = true := hp
  simp only [Bool.or_false, Bool.not_eq_true'] at hp
  exact decodeSyl_eq fw nchan 5 z _ 23 (by simp [hp]) (by simp [opcode, f1]) (by decide) (by simp [raw, rawVector,
      opcode, f0, f1, f2, f3, f4])
    (by simp) hq he hw hc

theorem mandn (g : BitVec 4) (d : BitVec 3) (a : BitVec 3) (b : BitVec 3) : Statement (.mandn g d a b) := by
  refine ⟨?_, nofun⟩
  intro fw nchan k z hk he hw hc hp hq
  obtain rfl : 5 = k := Option.some.inj hk
  obtain ⟨f0, f1, f2, f3, f4, f5⟩ := Word.lay_4_6_3_3_3_13 g 24#6 d a b 0#13 z (Option.some.inj he).symm
  have hp : (!fw || false) = true := hp
  simp only [Bool.or_false, Bool.not_eq_true'] at hp
  exact decodeSyl_eq fw nchan 5 z _ 24 (by simp [hp]) (by simp [opcode, f1]) (by decide) (by simp [raw, rawVector,
      opcode, f0, f1, f2, f3, f4])
    (by simp) hq he hw hc

theorem mset (g : BitVec 4) (d : BitVec 3) (a : BitVec 6) : Statement (.mset g d a) := by
  refine ⟨?_, nofun⟩
  intro fw nchan k z hk he hw hc hp hq
  obtain rfl : 5 = k := Option.some.inj hk
  obtain ⟨f0, f1, f2, f3, f4⟩ := Word.lay_4_6_3_6_13 g 25#6 d a 0#13 z (Option.some.inj he).symm
  have hp : (!fw || false) = true := hp
  simp only [Bool.or_false, Bool.not_eq_true'] at hp
  exact decodeSyl_eq fw nchan 5 z _ 25 (by simp [hp]) (by simp [opcode, f1]) (by decide) (by simp [raw, rawVector,
      opcode, f0, f1, f2, f3])
    (by simp) hq he hw hc

theorem vfaddF64 (g : BitVec 4) (d : BitVec 5) (a : BitVec 6) (b : BitVec 6) (m : BitVec 2) (r : BitVec 3) : Statement
    (.vfaddF64 g d a b m r) := by
  refine ⟨?_, nofun⟩
  intro fw nchan k z hk he hw hc hp hq
  obtain rfl : 5 = k := Option.some.inj hk
  obtain ⟨f0, f1, f2, f3, f4, f5, f6⟩ := Word.lay_4_6_5_6_6_2_3 g 26#6 d a b m r z (Option.some.inj he).symm
  have hp : (!fw || false) = true := hp
  simp only [Bool.or_false, Bool.not_eq_true'] at hp
  exact decodeSyl_eq fw nchan 5 z _ 26 (by simp [hp]) (by simp [opcode, f1]) (by decide) (by simp [raw, rawVector,
      opcode, f0, f1, f2, f3, f4, f5, f6])
    (by simp) hq he hw hc

theorem vfaddF32 (g : BitVec 4) (d : BitVec 5) (a : BitVec 6) (b : BitVec 6) (m : BitVec 2) (r : BitVec 3) : Statement
    (.vfaddF32 g d a b m r) := by
  refine ⟨?_, nofun⟩
  intro fw nchan k z hk he hw hc hp hq
  obtain rfl : 5 = k := Option.some.inj hk
  obtain ⟨f0, f1, f2, f3, f4, f5, f6⟩ := Word.lay_4_6_5_6_6_2_3 g 27#6 d a b m r z (Option.some.inj he).symm
  have hp : (!fw || false) = true := hp
  simp only [Bool.or_false, Bool.not_eq_true'] at hp
  exact decodeSyl_eq fw nchan 5 z _ 27 (by simp [hp]) (by simp [opcode, f1]) (by decide) (by simp [raw, rawVector,
      opcode, f0, f1, f2, f3, f4, f5, f6])
    (by simp) hq he hw hc

theorem vfaddBf16 (g : BitVec 4) (d : BitVec 5) (a : BitVec 6) (b : BitVec 6) (m : BitVec 2) (r : BitVec 3) :
    Statement (.vfaddBf16 g d a b m r) := by
  refine ⟨?_, nofun⟩
  intro fw nchan k z hk he hw hc hp hq
  obtain rfl : 5 = k := Option.some.inj hk
  obtain ⟨f0, f1, f2, f3, f4, f5, f6⟩ := Word.lay_4_6_5_6_6_2_3 g 28#6 d a b m r z (Option.some.inj he).symm
  have hp : (!fw || false) = true := hp
  simp only [Bool.or_false, Bool.not_eq_true'] at hp
  exact decodeSyl_eq fw nchan 5 z _ 28 (by simp [hp]) (by simp [opcode, f1]) (by decide) (by simp [raw, rawVector,
      opcode, f0, f1, f2, f3, f4, f5, f6])
    (by simp) hq he hw hc

theorem vfaddF16 (g : BitVec 4) (d : BitVec 5) (a : BitVec 6) (b : BitVec 6) (m : BitVec 2) (r : BitVec 3) : Statement
    (.vfaddF16 g d a b m r) := by
  refine ⟨?_, nofun⟩
  intro fw nchan k z hk he hw hc hp hq
  obtain rfl : 5 = k := Option.some.inj hk
  obtain ⟨f0, f1, f2, f3, f4, f5, f6⟩ := Word.lay_4_6_5_6_6_2_3 g 29#6 d a b m r z (Option.some.inj he).symm
  have hp : (!fw || false) = true := hp
  simp only [Bool.or_false, Bool.not_eq_true'] at hp
  exact decodeSyl_eq fw nchan 5 z _ 29 (by simp [hp]) (by simp [opcode, f1]) (by decide) (by simp [raw, rawVector,
      opcode, f0, f1, f2, f3, f4, f5, f6])
    (by simp) hq he hw hc

theorem vfsubF64 (g : BitVec 4) (d : BitVec 5) (a : BitVec 6) (b : BitVec 6) (m : BitVec 2) (r : BitVec 3) : Statement
    (.vfsubF64 g d a b m r) := by
  refine ⟨?_, nofun⟩
  intro fw nchan k z hk he hw hc hp hq
  obtain rfl : 5 = k := Option.some.inj hk
  obtain ⟨f0, f1, f2, f3, f4, f5, f6⟩ := Word.lay_4_6_5_6_6_2_3 g 30#6 d a b m r z (Option.some.inj he).symm
  have hp : (!fw || false) = true := hp
  simp only [Bool.or_false, Bool.not_eq_true'] at hp
  exact decodeSyl_eq fw nchan 5 z _ 30 (by simp [hp]) (by simp [opcode, f1]) (by decide) (by simp [raw, rawVector,
      opcode, f0, f1, f2, f3, f4, f5, f6])
    (by simp) hq he hw hc

theorem vfsubF32 (g : BitVec 4) (d : BitVec 5) (a : BitVec 6) (b : BitVec 6) (m : BitVec 2) (r : BitVec 3) : Statement
    (.vfsubF32 g d a b m r) := by
  refine ⟨?_, nofun⟩
  intro fw nchan k z hk he hw hc hp hq
  obtain rfl : 5 = k := Option.some.inj hk
  obtain ⟨f0, f1, f2, f3, f4, f5, f6⟩ := Word.lay_4_6_5_6_6_2_3 g 31#6 d a b m r z (Option.some.inj he).symm
  have hp : (!fw || false) = true := hp
  simp only [Bool.or_false, Bool.not_eq_true'] at hp
  exact decodeSyl_eq fw nchan 5 z _ 31 (by simp [hp]) (by simp [opcode, f1]) (by decide) (by simp [raw, rawVector,
      opcode, f0, f1, f2, f3, f4, f5, f6])
    (by simp) hq he hw hc

theorem vfsubBf16 (g : BitVec 4) (d : BitVec 5) (a : BitVec 6) (b : BitVec 6) (m : BitVec 2) (r : BitVec 3) :
    Statement (.vfsubBf16 g d a b m r) := by
  refine ⟨?_, nofun⟩
  intro fw nchan k z hk he hw hc hp hq
  obtain rfl : 5 = k := Option.some.inj hk
  obtain ⟨f0, f1, f2, f3, f4, f5, f6⟩ := Word.lay_4_6_5_6_6_2_3 g 32#6 d a b m r z (Option.some.inj he).symm
  have hp : (!fw || false) = true := hp
  simp only [Bool.or_false, Bool.not_eq_true'] at hp
  exact decodeSyl_eq fw nchan 5 z _ 32 (by simp [hp]) (by simp [opcode, f1]) (by decide) (by simp [raw, rawVector,
      opcode, f0, f1, f2, f3, f4, f5, f6])
    (by simp) hq he hw hc

theorem vfsubF16 (g : BitVec 4) (d : BitVec 5) (a : BitVec 6) (b : BitVec 6) (m : BitVec 2) (r : BitVec 3) : Statement
    (.vfsubF16 g d a b m r) := by
  refine ⟨?_, nofun⟩
  intro fw nchan k z hk he hw hc hp hq
  obtain rfl : 5 = k := Option.some.inj hk
  obtain ⟨f0, f1, f2, f3, f4, f5, f6⟩ := Word.lay_4_6_5_6_6_2_3 g 33#6 d a b m r z (Option.some.inj he).symm
  have hp : (!fw || false) = true := hp
  simp only [Bool.or_false, Bool.not_eq_true'] at hp
  exact decodeSyl_eq fw nchan 5 z _ 33 (by simp [hp]) (by simp [opcode, f1]) (by decide) (by simp [raw, rawVector,
      opcode, f0, f1, f2, f3, f4, f5, f6])
    (by simp) hq he hw hc

theorem vfmulF64 (g : BitVec 4) (d : BitVec 5) (a : BitVec 6) (b : BitVec 6) (m : BitVec 2) (r : BitVec 3) : Statement
    (.vfmulF64 g d a b m r) := by
  refine ⟨?_, nofun⟩
  intro fw nchan k z hk he hw hc hp hq
  obtain rfl : 5 = k := Option.some.inj hk
  obtain ⟨f0, f1, f2, f3, f4, f5, f6⟩ := Word.lay_4_6_5_6_6_2_3 g 34#6 d a b m r z (Option.some.inj he).symm
  have hp : (!fw || false) = true := hp
  simp only [Bool.or_false, Bool.not_eq_true'] at hp
  exact decodeSyl_eq fw nchan 5 z _ 34 (by simp [hp]) (by simp [opcode, f1]) (by decide) (by simp [raw, rawVector,
      opcode, f0, f1, f2, f3, f4, f5, f6])
    (by simp) hq he hw hc

theorem vfmulF32 (g : BitVec 4) (d : BitVec 5) (a : BitVec 6) (b : BitVec 6) (m : BitVec 2) (r : BitVec 3) : Statement
    (.vfmulF32 g d a b m r) := by
  refine ⟨?_, nofun⟩
  intro fw nchan k z hk he hw hc hp hq
  obtain rfl : 5 = k := Option.some.inj hk
  obtain ⟨f0, f1, f2, f3, f4, f5, f6⟩ := Word.lay_4_6_5_6_6_2_3 g 35#6 d a b m r z (Option.some.inj he).symm
  have hp : (!fw || false) = true := hp
  simp only [Bool.or_false, Bool.not_eq_true'] at hp
  exact decodeSyl_eq fw nchan 5 z _ 35 (by simp [hp]) (by simp [opcode, f1]) (by decide) (by simp [raw, rawVector,
      opcode, f0, f1, f2, f3, f4, f5, f6])
    (by simp) hq he hw hc

theorem vfmulBf16 (g : BitVec 4) (d : BitVec 5) (a : BitVec 6) (b : BitVec 6) (m : BitVec 2) (r : BitVec 3) :
    Statement (.vfmulBf16 g d a b m r) := by
  refine ⟨?_, nofun⟩
  intro fw nchan k z hk he hw hc hp hq
  obtain rfl : 5 = k := Option.some.inj hk
  obtain ⟨f0, f1, f2, f3, f4, f5, f6⟩ := Word.lay_4_6_5_6_6_2_3 g 36#6 d a b m r z (Option.some.inj he).symm
  have hp : (!fw || false) = true := hp
  simp only [Bool.or_false, Bool.not_eq_true'] at hp
  exact decodeSyl_eq fw nchan 5 z _ 36 (by simp [hp]) (by simp [opcode, f1]) (by decide) (by simp [raw, rawVector,
      opcode, f0, f1, f2, f3, f4, f5, f6])
    (by simp) hq he hw hc

theorem vfmulF16 (g : BitVec 4) (d : BitVec 5) (a : BitVec 6) (b : BitVec 6) (m : BitVec 2) (r : BitVec 3) : Statement
    (.vfmulF16 g d a b m r) := by
  refine ⟨?_, nofun⟩
  intro fw nchan k z hk he hw hc hp hq
  obtain rfl : 5 = k := Option.some.inj hk
  obtain ⟨f0, f1, f2, f3, f4, f5, f6⟩ := Word.lay_4_6_5_6_6_2_3 g 37#6 d a b m r z (Option.some.inj he).symm
  have hp : (!fw || false) = true := hp
  simp only [Bool.or_false, Bool.not_eq_true'] at hp
  exact decodeSyl_eq fw nchan 5 z _ 37 (by simp [hp]) (by simp [opcode, f1]) (by decide) (by simp [raw, rawVector,
      opcode, f0, f1, f2, f3, f4, f5, f6])
    (by simp) hq he hw hc

theorem vfmaF64 (g : BitVec 4) (d : BitVec 5) (a : BitVec 6) (b : BitVec 6) (m : BitVec 2) (r : BitVec 3) : Statement
    (.vfmaF64 g d a b m r) := by
  refine ⟨?_, nofun⟩
  intro fw nchan k z hk he hw hc hp hq
  obtain rfl : 5 = k := Option.some.inj hk
  obtain ⟨f0, f1, f2, f3, f4, f5, f6⟩ := Word.lay_4_6_5_6_6_2_3 g 38#6 d a b m r z (Option.some.inj he).symm
  have hp : (!fw || false) = true := hp
  simp only [Bool.or_false, Bool.not_eq_true'] at hp
  exact decodeSyl_eq fw nchan 5 z _ 38 (by simp [hp]) (by simp [opcode, f1]) (by decide) (by simp [raw, rawVector,
      opcode, f0, f1, f2, f3, f4, f5, f6])
    (by simp) hq he hw hc

theorem vfmaF32 (g : BitVec 4) (d : BitVec 5) (a : BitVec 6) (b : BitVec 6) (m : BitVec 2) (r : BitVec 3) : Statement
    (.vfmaF32 g d a b m r) := by
  refine ⟨?_, nofun⟩
  intro fw nchan k z hk he hw hc hp hq
  obtain rfl : 5 = k := Option.some.inj hk
  obtain ⟨f0, f1, f2, f3, f4, f5, f6⟩ := Word.lay_4_6_5_6_6_2_3 g 39#6 d a b m r z (Option.some.inj he).symm
  have hp : (!fw || false) = true := hp
  simp only [Bool.or_false, Bool.not_eq_true'] at hp
  exact decodeSyl_eq fw nchan 5 z _ 39 (by simp [hp]) (by simp [opcode, f1]) (by decide) (by simp [raw, rawVector,
      opcode, f0, f1, f2, f3, f4, f5, f6])
    (by simp) hq he hw hc

theorem vfmaBf16 (g : BitVec 4) (d : BitVec 5) (a : BitVec 6) (b : BitVec 6) (m : BitVec 2) (r : BitVec 3) : Statement
    (.vfmaBf16 g d a b m r) := by
  refine ⟨?_, nofun⟩
  intro fw nchan k z hk he hw hc hp hq
  obtain rfl : 5 = k := Option.some.inj hk
  obtain ⟨f0, f1, f2, f3, f4, f5, f6⟩ := Word.lay_4_6_5_6_6_2_3 g 40#6 d a b m r z (Option.some.inj he).symm
  have hp : (!fw || false) = true := hp
  simp only [Bool.or_false, Bool.not_eq_true'] at hp
  exact decodeSyl_eq fw nchan 5 z _ 40 (by simp [hp]) (by simp [opcode, f1]) (by decide) (by simp [raw, rawVector,
      opcode, f0, f1, f2, f3, f4, f5, f6])
    (by simp) hq he hw hc

theorem vfmaF16 (g : BitVec 4) (d : BitVec 5) (a : BitVec 6) (b : BitVec 6) (m : BitVec 2) (r : BitVec 3) : Statement
    (.vfmaF16 g d a b m r) := by
  refine ⟨?_, nofun⟩
  intro fw nchan k z hk he hw hc hp hq
  obtain rfl : 5 = k := Option.some.inj hk
  obtain ⟨f0, f1, f2, f3, f4, f5, f6⟩ := Word.lay_4_6_5_6_6_2_3 g 41#6 d a b m r z (Option.some.inj he).symm
  have hp : (!fw || false) = true := hp
  simp only [Bool.or_false, Bool.not_eq_true'] at hp
  exact decodeSyl_eq fw nchan 5 z _ 41 (by simp [hp]) (by simp [opcode, f1]) (by decide) (by simp [raw, rawVector,
      opcode, f0, f1, f2, f3, f4, f5, f6])
    (by simp) hq he hw hc

theorem vfmin (g : BitVec 4) (d : BitVec 5) (a : BitVec 6) (b : BitVec 6) (m : BitVec 3) (t : BitVec 2) : Statement
    (.vfmin g d a b m t) := by
  refine ⟨?_, nofun⟩
  intro fw nchan k z hk he hw hc hp hq
  obtain rfl : 5 = k := Option.some.inj hk
  obtain ⟨f0, f1, f2, f3, f4, f5, f6⟩ := Word.lay_4_6_5_6_6_3_2 g 42#6 d a b m t z (Option.some.inj he).symm
  have hp : (!fw || false) = true := hp
  simp only [Bool.or_false, Bool.not_eq_true'] at hp
  exact decodeSyl_eq fw nchan 5 z _ 42 (by simp [hp]) (by simp [opcode, f1]) (by decide) (by simp [raw, rawVector,
      opcode, f0, f1, f2, f3, f4, f5, f6])
    (by simp) hq he hw hc

theorem vfmax (g : BitVec 4) (d : BitVec 5) (a : BitVec 6) (b : BitVec 6) (m : BitVec 3) (t : BitVec 2) : Statement
    (.vfmax g d a b m t) := by
  refine ⟨?_, nofun⟩
  intro fw nchan k z hk he hw hc hp hq
  obtain rfl : 5 = k := Option.some.inj hk
  obtain ⟨f0, f1, f2, f3, f4, f5, f6⟩ := Word.lay_4_6_5_6_6_3_2 g 43#6 d a b m t z (Option.some.inj he).symm
  have hp : (!fw || false) = true := hp
  simp only [Bool.or_false, Bool.not_eq_true'] at hp
  exact decodeSyl_eq fw nchan 5 z _ 43 (by simp [hp]) (by simp [opcode, f1]) (by decide) (by simp [raw, rawVector,
      opcode, f0, f1, f2, f3, f4, f5, f6])
    (by simp) hq he hw hc

theorem vfcmp (g : BitVec 4) (m : BitVec 3) (a : BitVec 6) (b : BitVec 6) (c : BitVec 3) (t : BitVec 2) : Statement
    (.vfcmp g m a b c t) := by
  refine ⟨?_, nofun⟩
  intro fw nchan k z hk he hw hc hp hq
  obtain rfl : 5 = k := Option.some.inj hk
  obtain ⟨f0, f1, f2, f3, f4, f5, f6, f7⟩ := Word.lay_4_6_3_6_6_3_2_2 g 44#6 m a b c 0#2 t z (Option.some.inj he).symm
  have hp : (!fw || false) = true := hp
  simp only [Bool.or_false, Bool.not_eq_true'] at hp
  exact decodeSyl_eq fw nchan 5 z _ 44 (by simp [hp]) (by simp [opcode, f1]) (by decide) (by simp [raw, rawVector,
      opcode, f0, f1, f2, f3, f4, f5, f7])
    (by simp) hq he hw hc

theorem vcvt (g : BitVec 4) (d : BitVec 5) (a : BitVec 6) (f : BitVec 4) (t : BitVec 4) (r : BitVec 3) : Statement
    (.vcvt g d a f t r) := by
  refine ⟨?_, nofun⟩
  intro fw nchan k z hk he hw hc hp hq
  obtain rfl : 5 = k := Option.some.inj hk
  obtain ⟨f0, f1, f2, f3, f4, f5, f6⟩ := Word.lay_4_6_5_6_4_4_3 g 45#6 d a f t r z (Option.some.inj he).symm
  have hp : (!fw || false) = true := hp
  simp only [Bool.or_false, Bool.not_eq_true'] at hp
  exact decodeSyl_eq fw nchan 5 z _ 45 (by simp [hp]) (by simp [opcode, f1]) (by decide) (by simp [raw, rawVector,
      opcode, f0, f1, f2, f3, f4, f5, f6])
    (by simp) hq he hw hc

theorem vrcpe (g : BitVec 4) (d : BitVec 5) (a : BitVec 6) (m : BitVec 3) (t : BitVec 2) : Statement (.vrcpe g d a m
    t) := by
  refine ⟨?_, nofun⟩
  intro fw nchan k z hk he hw hc hp hq
  obtain rfl : 5 = k := Option.some.inj hk
  obtain ⟨f0, f1, f2, f3, f4, f5, f6⟩ := Word.lay_4_6_5_6_6_3_2 g 46#6 d a 0#6 m t z (Option.some.inj he).symm
  have hp : (!fw || false) = true := hp
  simp only [Bool.or_false, Bool.not_eq_true'] at hp
  exact decodeSyl_eq fw nchan 5 z _ 46 (by simp [hp]) (by simp [opcode, f1]) (by decide) (by simp [raw, rawVector,
      opcode, f0, f1, f2, f3, f5, f6])
    (by simp) hq he hw hc

theorem vrsqe (g : BitVec 4) (d : BitVec 5) (a : BitVec 6) (m : BitVec 3) (t : BitVec 2) : Statement (.vrsqe g d a m
    t) := by
  refine ⟨?_, nofun⟩
  intro fw nchan k z hk he hw hc hp hq
  obtain rfl : 5 = k := Option.some.inj hk
  obtain ⟨f0, f1, f2, f3, f4, f5, f6⟩ := Word.lay_4_6_5_6_6_3_2 g 47#6 d a 0#6 m t z (Option.some.inj he).symm
  have hp : (!fw || false) = true := hp
  simp only [Bool.or_false, Bool.not_eq_true'] at hp
  exact decodeSyl_eq fw nchan 5 z _ 47 (by simp [hp]) (by simp [opcode, f1]) (by decide) (by simp [raw, rawVector,
      opcode, f0, f1, f2, f3, f5, f6])
    (by simp) hq he hw hc

theorem vrcps (g : BitVec 4) (d : BitVec 5) (a : BitVec 6) (b : BitVec 6) (m : BitVec 3) (t : BitVec 2) : Statement
    (.vrcps g d a b m t) := by
  refine ⟨?_, nofun⟩
  intro fw nchan k z hk he hw hc hp hq
  obtain rfl : 5 = k := Option.some.inj hk
  obtain ⟨f0, f1, f2, f3, f4, f5, f6⟩ := Word.lay_4_6_5_6_6_3_2 g 48#6 d a b m t z (Option.some.inj he).symm
  have hp : (!fw || false) = true := hp
  simp only [Bool.or_false, Bool.not_eq_true'] at hp
  exact decodeSyl_eq fw nchan 5 z _ 48 (by simp [hp]) (by simp [opcode, f1]) (by decide) (by simp [raw, rawVector,
      opcode, f0, f1, f2, f3, f4, f5, f6])
    (by simp) hq he hw hc

theorem vrsqs (g : BitVec 4) (d : BitVec 5) (a : BitVec 6) (b : BitVec 6) (m : BitVec 3) (t : BitVec 2) : Statement
    (.vrsqs g d a b m t) := by
  refine ⟨?_, nofun⟩
  intro fw nchan k z hk he hw hc hp hq
  obtain rfl : 5 = k := Option.some.inj hk
  obtain ⟨f0, f1, f2, f3, f4, f5, f6⟩ := Word.lay_4_6_5_6_6_3_2 g 49#6 d a b m t z (Option.some.inj he).symm
  have hp : (!fw || false) = true := hp
  simp only [Bool.or_false, Bool.not_eq_true'] at hp
  exact decodeSyl_eq fw nchan 5 z _ 49 (by simp [hp]) (by simp [opcode, f1]) (by decide) (by simp [raw, rawVector,
      opcode, f0, f1, f2, f3, f4, f5, f6])
    (by simp) hq he hw hc

theorem vexp2 (g : BitVec 4) (d : BitVec 5) (a : BitVec 6) (m : BitVec 3) (t : BitVec 2) : Statement (.vexp2 g d a m
    t) := by
  refine ⟨?_, nofun⟩
  intro fw nchan k z hk he hw hc hp hq
  obtain rfl : 5 = k := Option.some.inj hk
  obtain ⟨f0, f1, f2, f3, f4, f5, f6⟩ := Word.lay_4_6_5_6_6_3_2 g 50#6 d a 0#6 m t z (Option.some.inj he).symm
  have hp : (!fw || false) = true := hp
  simp only [Bool.or_false, Bool.not_eq_true'] at hp
  exact decodeSyl_eq fw nchan 5 z _ 50 (by simp [hp]) (by simp [opcode, f1]) (by decide) (by simp [raw, rawVector,
      opcode, f0, f1, f2, f3, f5, f6])
    (by simp) hq he hw hc

theorem vlog2 (g : BitVec 4) (d : BitVec 5) (a : BitVec 6) (m : BitVec 3) (t : BitVec 2) : Statement (.vlog2 g d a m
    t) := by
  refine ⟨?_, nofun⟩
  intro fw nchan k z hk he hw hc hp hq
  obtain rfl : 5 = k := Option.some.inj hk
  obtain ⟨f0, f1, f2, f3, f4, f5, f6⟩ := Word.lay_4_6_5_6_6_3_2 g 51#6 d a 0#6 m t z (Option.some.inj he).symm
  have hp : (!fw || false) = true := hp
  simp only [Bool.or_false, Bool.not_eq_true'] at hp
  exact decodeSyl_eq fw nchan 5 z _ 51 (by simp [hp]) (by simp [opcode, f1]) (by decide) (by simp [raw, rawVector,
      opcode, f0, f1, f2, f3, f5, f6])
    (by simp) hq he hw hc

theorem vredi (g : BitVec 4) (d : BitVec 5) (a : BitVec 6) (o : BitVec 3) (m : BitVec 3) (t : BitVec 2) : Statement
    (.vredi g d a o m t) := by
  refine ⟨?_, nofun⟩
  intro fw nchan k z hk he hw hc hp hq
  obtain rfl : 5 = k := Option.some.inj hk
  obtain ⟨f0, f1, f2, f3, f4, f5, f6, f7⟩ := Word.lay_4_6_5_6_3_3_3_2 g 52#6 d a o 0#3 m t z (Option.some.inj he).symm
  have hp : (!fw || false) = true := hp
  simp only [Bool.or_false, Bool.not_eq_true'] at hp
  exact decodeSyl_eq fw nchan 5 z _ 52 (by simp [hp]) (by simp [opcode, f1]) (by decide) (by simp [raw, rawVector,
      opcode, f0, f1, f2, f3, f4, f6, f7])
    (by simp) hq he hw hc

theorem vredf (g : BitVec 4) (d : BitVec 5) (a : BitVec 6) (o : BitVec 3) (m : BitVec 3) (t : BitVec 2) : Statement
    (.vredf g d a o m t) := by
  refine ⟨?_, nofun⟩
  intro fw nchan k z hk he hw hc hp hq
  obtain rfl : 5 = k := Option.some.inj hk
  obtain ⟨f0, f1, f2, f3, f4, f5, f6, f7⟩ := Word.lay_4_6_5_6_3_3_3_2 g 53#6 d a o 0#3 m t z (Option.some.inj he).symm
  have hp : (!fw || false) = true := hp
  simp only [Bool.or_false, Bool.not_eq_true'] at hp
  exact decodeSyl_eq fw nchan 5 z _ 53 (by simp [hp]) (by simp [opcode, f1]) (by decide) (by simp [raw, rawVector,
      opcode, f0, f1, f2, f3, f4, f6, f7])
    (by simp) hq he hw hc

theorem vrfill (g : BitVec 4) (d : BitVec 5) (m : BitVec 3) (t : BitVec 2) : Statement (.vrfill g d m t) := by
  refine ⟨?_, nofun⟩
  intro fw nchan k z hk he hw hc hp hq
  obtain rfl : 5 = k := Option.some.inj hk
  obtain ⟨f0, f1, f2, f3, f4, f5⟩ := Word.lay_4_6_5_12_3_2 g 54#6 d 0#12 m t z (Option.some.inj he).symm
  have hp : (!fw || false) = true := hp
  simp only [Bool.or_false, Bool.not_eq_true'] at hp
  exact decodeSyl_eq fw nchan 5 z _ 54 (by simp [hp]) (by simp [opcode, f1]) (by decide) (by simp [raw, rawVector,
      opcode, f0, f1, f2, f4, f5])
    (by simp) hq he hw hc

theorem vhist (g : BitVec 4) (a : BitVec 6) (f : BitVec 4) (m : BitVec 3) : Statement (.vhist g a f m) := by
  refine ⟨?_, nofun⟩
  intro fw nchan k z hk he hw hc hp hq
  obtain rfl : 5 = k := Option.some.inj hk
  obtain ⟨f0, f1, f2, f3, f4, f5, f6, f7⟩ := Word.lay_4_6_5_6_4_2_3_2 g 55#6 0#5 a f 0#2 m 0#2 z (Option.some.inj
      he).symm
  have hp : (!fw || false) = true := hp
  simp only [Bool.or_false, Bool.not_eq_true'] at hp
  exact decodeSyl_eq fw nchan 5 z _ 55 (by simp [hp]) (by simp [opcode, f1]) (by decide) (by simp [raw, rawVector,
      opcode, f0, f1, f3, f4, f6])
    (by simp) hq he hw hc

theorem vrmg031 (g : BitVec 4) (d : BitVec 5) (a : BitVec 6) (b : BitVec 6) (s : BitVec 5) : Statement (.vrmg031 g d a
    b s) := by
  refine ⟨?_, nofun⟩
  intro fw nchan k z hk he hw hc hp hq
  obtain rfl : 6 = k := Option.some.inj hk
  obtain ⟨f0, f1, f2, f3, f4, f5⟩ := Word.lay_4_6_5_6_6_5 g 56#6 d a b s z (Option.some.inj he).symm
  have hp : (!fw || false) = true := hp
  simp only [Bool.or_false, Bool.not_eq_true'] at hp
  exact decodeSyl_eq fw nchan 6 z _ 56 (by simp [hp]) (by simp [opcode, f1]) (by decide) (by simp [raw, rawVector,
      opcode, f0, f1, f2, f3, f4, f5])
    (by simp) hq he hw hc

theorem vrmg3263 (g : BitVec 4) (d : BitVec 5) (a : BitVec 6) (b : BitVec 6) (s : BitVec 5) : Statement (.vrmg3263 g d
    a b s) := by
  refine ⟨?_, nofun⟩
  intro fw nchan k z hk he hw hc hp hq
  obtain rfl : 6 = k := Option.some.inj hk
  obtain ⟨f0, f1, f2, f3, f4, f5⟩ := Word.lay_4_6_5_6_6_5 g 57#6 d a b s z (Option.some.inj he).symm
  have hp : (!fw || false) = true := hp
  simp only [Bool.or_false, Bool.not_eq_true'] at hp
  exact decodeSyl_eq fw nchan 6 z _ 57 (by simp [hp]) (by simp [opcode, f1]) (by decide) (by simp [raw, rawVector,
      opcode, f0, f1, f2, f3, f4, f5])
    (by simp) hq he hw hc

theorem vbpt (g : BitVec 4) (d : BitVec 5) (a : BitVec 6) (t : BitVec 2) : Statement (.vbpt g d a t) := by
  refine ⟨?_, nofun⟩
  intro fw nchan k z hk he hw hc hp hq
  obtain rfl : 6 = k := Option.some.inj hk
  obtain ⟨f0, f1, f2, f3, f4, f5⟩ := Word.lay_4_6_5_6_9_2 g 58#6 d a 0#9 t z (Option.some.inj he).symm
  have hp : (!fw || false) = true := hp
  simp only [Bool.or_false, Bool.not_eq_true'] at hp
  exact decodeSyl_eq fw nchan 6 z _ 58 (by simp [hp]) (by simp [opcode, f1]) (by decide) (by simp [raw, rawVector,
      opcode, f0, f1, f2, f3, f5])
    (by simp) hq he hw hc

theorem vpack (g : BitVec 4) (d : BitVec 5) (a : BitVec 6) (b : BitVec 6) (w : BitVec 2) (v : BitVec 1) (o : BitVec 1)
    : Statement (.vpack g d a b w v o) := by
  refine ⟨?_, nofun⟩
  intro fw nchan k z hk he hw hc hp hq
  obtain rfl : 6 = k := Option.some.inj hk
  obtain ⟨f0, f1, f2, f3, f4, f5, f6, f7, f8⟩ := Word.lay_4_6_5_6_6_2_1_1_1 g 59#6 d a b w v o 0#1 z (Option.some.inj
      he).symm
  have hp : (!fw || false) = true := hp
  simp only [Bool.or_false, Bool.not_eq_true'] at hp
  exact decodeSyl_eq fw nchan 6 z _ 59 (by simp [hp]) (by simp [opcode, f1]) (by decide) (by simp [raw, rawVector,
      opcode, f0, f1, f2, f3, f4, f5, f6, f7])
    (by simp) hq he hw hc

theorem vunpk (g : BitVec 4) (d : BitVec 5) (a : BitVec 6) (w : BitVec 2) (v : BitVec 1) (o : BitVec 1) : Statement
    (.vunpk g d a w v o) := by
  refine ⟨?_, nofun⟩
  intro fw nchan k z hk he hw hc hp hq
  obtain rfl : 6 = k := Option.some.inj hk
  obtain ⟨f0, f1, f2, f3, f4, f5, f6, f7, f8⟩ := Word.lay_4_6_5_6_6_2_1_1_1 g 60#6 d a 0#6 w v o 0#1 z
      (Option.some.inj he).symm
  have hp : (!fw || false) = true := hp
  simp only [Bool.or_false, Bool.not_eq_true'] at hp
  exact decodeSyl_eq fw nchan 6 z _ 60 (by simp [hp]) (by simp [opcode, f1]) (by decide) (by simp [raw, rawVector,
      opcode, f0, f1, f2, f3, f5, f6, f7])
    (by simp) hq he hw hc

theorem vdig (g : BitVec 4) (d : BitVec 5) (a : BitVec 6) (b : BitVec 6) (w : BitVec 2) (v : BitVec 1) (o : BitVec 1)
    : Statement (.vdig g d a b w v o) := by
  refine ⟨?_, nofun⟩
  intro fw nchan k z hk he hw hc hp hq
  obtain rfl : 6 = k := Option.some.inj hk
  obtain ⟨f0, f1, f2, f3, f4, f5, f6, f7, f8⟩ := Word.lay_4_6_5_6_6_2_1_1_1 g 61#6 d a b w v o 0#1 z (Option.some.inj
      he).symm
  have hp : (!fw || false) = true := hp
  simp only [Bool.or_false, Bool.not_eq_true'] at hp
  exact decodeSyl_eq fw nchan 6 z _ 61 (by simp [hp]) (by simp [opcode, f1]) (by decide) (by simp [raw, rawVector,
      opcode, f0, f1, f2, f3, f4, f5, f6, f7])
    (by simp) hq he hw hc

theorem vbq (g : BitVec 4) (d : BitVec 5) (a : BitVec 6) (f : BitVec 4) (t : BitVec 4) (r : BitVec 3) : Statement
    (.vbq g d a f t r) := by
  refine ⟨?_, nofun⟩
  intro fw nchan k z hk he hw hc hp hq
  obtain rfl : 6 = k := Option.some.inj hk
  obtain ⟨f0, f1, f2, f3, f4, f5, f6⟩ := Word.lay_4_6_5_6_4_4_3 g 62#6 d a f t r z (Option.some.inj he).symm
  have hp : (!fw || false) = true := hp
  simp only [Bool.or_false, Bool.not_eq_true'] at hp
  exact decodeSyl_eq fw nchan 6 z _ 62 (by simp [hp]) (by simp [opcode, f1]) (by decide) (by simp [raw, rawVector,
      opcode, f0, f1, f2, f3, f4, f5, f6])
    (by simp) hq he hw hc

theorem vbdq (g : BitVec 4) (d : BitVec 5) (a : BitVec 6) (f : BitVec 4) (t : BitVec 4) (r : BitVec 3) : Statement
    (.vbdq g d a f t r) := by
  refine ⟨?_, nofun⟩
  intro fw nchan k z hk he hw hc hp hq
  obtain rfl : 6 = k := Option.some.inj hk
  obtain ⟨f0, f1, f2, f3, f4, f5, f6⟩ := Word.lay_4_6_5_6_4_4_3 g 63#6 d a f t r z (Option.some.inj he).symm
  have hp : (!fw || false) = true := hp
  simp only [Bool.or_false, Bool.not_eq_true'] at hp
  exact decodeSyl_eq fw nchan 6 z _ 63 (by simp [hp]) (by simp [opcode, f1]) (by decide) (by simp [raw, rawVector,
      opcode, f0, f1, f2, f3, f4, f5, f6])
    (by simp) hq he hw hc

theorem push (g : BitVec 4) (q : BitVec 3) (r : BitVec 1) : Statement (.push g q r) := by
  refine ⟨?_, nofun⟩
  intro fw nchan k z hk he hw hc hp hq
  obtain rfl : 7 = k := Option.some.inj hk
  obtain ⟨f0, f1, f2, f3, f4, f5⟩ := Word.lay_4_6_3_1_1_17 g 1#6 q 1#1 r 0#17 z (Option.some.inj he).symm
  have hp : (!fw || false) = true := hp
  simp only [Bool.or_false, Bool.not_eq_true'] at hp
  exact decodeSyl_eq fw nchan 7 z _ 1 (by simp [hp]) (by simp [opcode, f1]) (by decide) (by simp [raw, rawMatrix,
      opcode, f0, f1, f2, f4])
    (by simp) hq he hw hc

theorem shift (g : BitVec 4) : Statement (.shift g) := by
  refine ⟨?_, nofun⟩
  intro fw nchan k z hk he hw hc hp hq
  obtain rfl : 7 = k := Option.some.inj hk
  obtain ⟨f0, f1, f2⟩ := Word.lay_4_6_22 g 2#6 2097152#22 z (Option.some.inj he).symm
  have hp : (!fw || false) = true := hp
  simp only [Bool.or_false, Bool.not_eq_true'] at hp
  exact decodeSyl_eq fw nchan 7 z _ 2 (by simp [hp]) (by simp [opcode, f1]) (by decide) (by simp [raw, rawMatrix,
      opcode, f0, f1])
    (by simp) hq he hw hc

theorem acc (g : BitVec 4) (x : BitVec 1) (a : BitVec 3) (b : BitVec 3) (r : BitVec 2) : Statement (.acc g x a b r) :=
    by
  refine ⟨?_, nofun⟩
  intro fw nchan k z hk he hw hc hp hq
  obtain rfl : 7 = k := Option.some.inj hk
  obtain ⟨f0, f1, f2, f3, f4, f5, f6⟩ := Word.lay_4_6_1_3_3_2_13 g 3#6 x a b r 0#13 z (Option.some.inj he).symm
  have hp : (!fw || false) = true := hp
  simp only [Bool.or_false, Bool.not_eq_true'] at hp
  exact decodeSyl_eq fw nchan 7 z _ 3 (by simp [hp]) (by simp [opcode, f1]) (by decide) (by simp [raw, rawMatrix,
      opcode, f0, f1, f2, f3, f4, f5])
    (by simp) hq he hw hc

theorem dacc (g : BitVec 4) (x : BitVec 1) (a : BitVec 3) (r : BitVec 1) : Statement (.dacc g x a r) := by
  refine ⟨?_, nofun⟩
  intro fw nchan k z hk he hw hc hp hq
  obtain rfl : 7 = k := Option.some.inj hk
  obtain ⟨f0, f1, f2, f3, f4, f5, f6⟩ := Word.lay_4_6_1_3_3_1_14 g 4#6 x a 0#3 r 0#14 z (Option.some.inj he).symm
  have hp : (!fw || false) = true := hp
  simp only [Bool.or_false, Bool.not_eq_true'] at hp
  exact decodeSyl_eq fw nchan 7 z _ 4 (by simp [hp]) (by simp [opcode, f1]) (by decide) (by simp [raw, rawMatrix,
      opcode, f0, f1, f2, f3, f5])
    (by simp) hq he hw hc

theorem drd (g : BitVec 4) (x : BitVec 1) (a : BitVec 8) (c : BitVec 1) : Statement (.drd g x a c) := by
  refine ⟨?_, nofun⟩
  intro fw nchan k z hk he hw hc hp hq
  obtain rfl : 7 = k := Option.some.inj hk
  obtain ⟨f0, f1, f2, f3, f4, f5, f6⟩ := Word.lay_4_6_1_8_3_1_9 g 5#6 x a 0#3 c 0#9 z (Option.some.inj he).symm
  have hp : (!fw || false) = true := hp
  simp only [Bool.or_false, Bool.not_eq_true'] at hp
  exact decodeSyl_eq fw nchan 7 z _ 5 (by simp [hp]) (by simp [opcode, f1]) (by decide) (by simp [raw, rawMatrix,
      opcode, f0, f1, f2, f3, f5])
    (by simp) hq he hw hc

theorem drc (g : BitVec 4) (x : BitVec 1) (a : BitVec 8) (c : BitVec 1) : Statement (.drc g x a c) := by
  refine ⟨?_, nofun⟩
  intro fw nchan k z hk he hw hc hp hq
  obtain rfl : 7 = k := Option.some.inj hk
  obtain ⟨f0, f1, f2, f3, f4, f5, f6⟩ := Word.lay_4_6_1_8_3_1_9 g 6#6 x a 0#3 c 0#9 z (Option.some.inj he).symm
  have hp : (!fw || false) = true := hp
  simp only [Bool.or_false, Bool.not_eq_true'] at hp
  exact decodeSyl_eq fw nchan 7 z _ 6 (by simp [hp]) (by simp [opcode, f1]) (by decide) (by simp [raw, rawMatrix,
      opcode, f0, f1, f2, f3, f5])
    (by simp) hq he hw hc

theorem mclr (g : BitVec 4) (x : BitVec 2) : Statement (.mclr g x) := by
  refine ⟨?_, nofun⟩
  intro fw nchan k z hk he hw hc hp hq
  obtain rfl : 7 = k := Option.some.inj hk
  obtain ⟨f0, f1, f2, f3⟩ := Word.lay_4_6_2_20 g 7#6 x 0#20 z (Option.some.inj he).symm
  have hp : (!fw || false) = true := hp
  simp only [Bool.or_false, Bool.not_eq_true'] at hp
  exact decodeSyl_eq fw nchan 7 z _ 7 (by simp [hp]) (by simp [opcode, f1]) (by decide) (by simp [raw, rawMatrix,
      opcode, f0, f1, f2])
    (by simp) hq he hw hc

theorem sldA (g : BitVec 4) (q : BitVec 3) : Statement (.sldA g q) := by
  refine ⟨?_, nofun⟩
  intro fw nchan k z hk he hw hc hp hq
  obtain rfl : 7 = k := Option.some.inj hk
  obtain ⟨f0, f1, f2, f3, f4⟩ := Word.lay_4_6_1_3_18 g 8#6 0#1 q 0#18 z (Option.some.inj he).symm
  have hp : (!fw || false) = true := hp
  simp only [Bool.or_false, Bool.not_eq_true'] at hp
  exact decodeSyl_eq fw nchan 7 z _ 8 (by simp [hp]) (by simp [opcode, f1]) (by decide) (by simp [raw, rawMatrix,
      opcode, f0, f1, f2, f3])
    (by simp) hq he hw hc

theorem sldB (g : BitVec 4) (q : BitVec 3) : Statement (.sldB g q) := by
  refine ⟨?_, nofun⟩
  intro fw nchan k z hk he hw hc hp hq
  obtain rfl : 7 = k := Option.some.inj hk
  obtain ⟨f0, f1, f2, f3, f4⟩ := Word.lay_4_6_1_3_18 g 8#6 1#1 q 0#18 z (Option.some.inj he).symm
  have hp : (!fw || false) = true := hp
  simp only [Bool.or_false, Bool.not_eq_true'] at hp
  exact decodeSyl_eq fw nchan 7 z _ 8 (by simp [hp]) (by simp [opcode, f1]) (by decide) (by simp [raw, rawMatrix,
      opcode, f0, f1, f2, f3])
    (by simp) hq he hw hc

theorem a2v (g : BitVec 4) (d : BitVec 5) (a : BitVec 8) (q : BitVec 2) : Statement (.a2v g d a q) := by
  refine ⟨?_, nofun⟩
  intro fw nchan k z hk he hw hc hp hq
  obtain rfl : 7 = k := Option.some.inj hk
  obtain ⟨f0, f1, f2, f3, f4, f5⟩ := Word.lay_4_6_5_8_2_7 g 9#6 d a q 0#7 z (Option.some.inj he).symm
  have hp : (!fw || false) = true := hp
  simp only [Bool.or_false, Bool.not_eq_true'] at hp
  exact decodeSyl_eq fw nchan 7 z _ 9 (by simp [hp]) (by simp [opcode, f1]) (by decide) (by simp [raw, rawMatrix,
      opcode, f0, f1, f2, f3, f4])
    (by simp) hq he hw hc

theorem v2a (g : BitVec 4) (a : BitVec 8) (q : BitVec 2) (v : BitVec 6) : Statement (.v2a g a q v) := by
  refine ⟨?_, nofun⟩
  intro fw nchan k z hk he hw hc hp hq
  obtain rfl : 7 = k := Option.some.inj hk
  obtain ⟨f0, f1, f2, f3, f4, f5⟩ := Word.lay_4_6_8_2_6_6 g 10#6 a q v 0#6 z (Option.some.inj he).symm
  have hp : (!fw || false) = true := hp
  simp only [Bool.or_false, Bool.not_eq_true'] at hp
  exact decodeSyl_eq fw nchan 7 z _ 10 (by simp [hp]) (by simp [opcode, f1]) (by decide) (by simp [raw, rawMatrix,
      opcode, f0, f1, f2, f3, f4])
    (by simp) hq he hw hc

theorem a2s (g : BitVec 4) (a : BitVec 8) (t : BitVec 4) (r : BitVec 3) (n : BitVec 4) : Statement (.a2s g a t r n) :=
    by
  refine ⟨?_, nofun⟩
  intro fw nchan k z hk he hw hc hp hq
  obtain rfl : 7 = k := Option.some.inj hk
  obtain ⟨f0, f1, f2, f3, f4, f5, f6⟩ := Word.lay_4_6_8_4_3_4_3 g 11#6 a t r n 0#3 z (Option.some.inj he).symm
  have hp : (!fw || false) = true := hp
  simp only [Bool.or_false, Bool.not_eq_true'] at hp
  exact decodeSyl_eq fw nchan 7 z _ 11 (by simp [hp]) (by simp [opcode, f1]) (by decide) (by simp [raw, rawMatrix,
      opcode, f0, f1, f2, f3, f4, f5])
    (by simp) hq he hw hc

theorem aclr (g : BitVec 4) (a : BitVec 8) (n : BitVec 8) : Statement (.aclr g a n) := by
  refine ⟨?_, nofun⟩
  intro fw nchan k z hk he hw hc hp hq
  obtain rfl : 7 = k := Option.some.inj hk
  obtain ⟨f0, f1, f2, f3, f4⟩ := Word.lay_4_6_8_8_6 g 12#6 a n 0#6 z (Option.some.inj he).symm
  have hp : (!fw || false) = true := hp
  simp only [Bool.or_false, Bool.not_eq_true'] at hp
  exact decodeSyl_eq fw nchan 7 z _ 12 (by simp [hp]) (by simp [opcode, f1]) (by decide) (by simp [raw, rawMatrix,
      opcode, f0, f1, f2, f3])
    (by simp) hq he hw hc

theorem resultLanding (core : Nat) (fw : Bool) (ser : Nat) : Statement (.resultLanding core fw ser) := ⟨nofun, nofun⟩

theorem interlockedBundleEffect (core : Nat) (fw : Bool) : Statement (.interlockedBundleEffect core fw) := ⟨nofun, nofun⟩

theorem loopBoundary (core : Nat) (fw : Bool) : Statement (.loopBoundary core fw) := ⟨nofun, nofun⟩

theorem delegatedTrapEntry (core : Nat) (t : Trap) : Statement (.delegatedTrapEntry core t) := ⟨nofun, nofun⟩

theorem programContextStop (core : Nat) (t : Trap) : Statement (.programContextStop core t) := ⟨nofun, nofun⟩

theorem coreMachineCheck (core : Nat) (t : Trap) : Statement (.coreMachineCheck core t) := ⟨nofun, nofun⟩

theorem asyncEventTaken (core : Nat) : Statement (.asyncEventTaken core) := ⟨nofun, nofun⟩

theorem globalTimeAlarm (core : Nat) : Statement (.globalTimeAlarm core) := ⟨nofun, nofun⟩

theorem preemptionRequest (core : Nat) : Statement (.preemptionRequest core) := ⟨nofun, nofun⟩

theorem machineCheck (m : McReport) : Statement (.machineCheck m) := ⟨nofun, nofun⟩

theorem engineRowWrite (core : Nat) (fw : Bool) (chan : Nat) (ident : Nat) : Statement (.engineRowWrite core fw chan ident) := ⟨nofun, nofun⟩

theorem transferComplete (core : Nat) (fw : Bool) (chan : Nat) (ident : Nat) : Statement (.transferComplete core fw chan ident) := ⟨nofun, nofun⟩

theorem triggerFire (core : Nat) (fw : Bool) (chan : Nat) : Statement (.triggerFire core fw chan) := ⟨nofun, nofun⟩

theorem wstrTileStart (core : Nat) (fw : Bool) (chan : Nat) (ident : Nat) : Statement (.wstrTileStart core fw chan ident) := ⟨nofun, nofun⟩

theorem wstrTileReady (core : Nat) (fw : Bool) (chan : Nat) (ident : Nat) : Statement (.wstrTileReady core fw chan ident) := ⟨nofun, nofun⟩

theorem grelRelease (gang : Nat) : Statement (.grelRelease gang) := ⟨nofun, nofun⟩

theorem collectiveFire (core : Nat) (tile : Nat) : Statement (.collectiveFire core tile) := ⟨nofun, nofun⟩

theorem collectiveNodeCombine (key : CollKey) (lo : Nat) (k : Nat) : Statement (.collectiveNodeCombine key lo k) := ⟨nofun, nofun⟩

theorem collectiveComplete (core : Nat) (tile : Nat) : Statement (.collectiveComplete core tile) := ⟨nofun, nofun⟩

theorem linkFlitReceive (port : Nat) (lseq : BitVec 12) (crcOk : Bool) (f : Flit) : Statement (.linkFlitReceive port lseq crcOk f) := ⟨nofun, nofun⟩

theorem negativeAcknowledgement (port : Nat) (lseq : BitVec 12) : Statement (.negativeAcknowledgement port lseq) := ⟨nofun, nofun⟩

theorem routeResendTimeout (dst : Nat) (cls : Nat) : Statement (.routeResendTimeout dst cls) := ⟨nofun, nofun⟩

theorem nodeLost (node : Nat) : Statement (.nodeLost node) := ⟨nofun, nofun⟩

theorem collectiveFlit (f : Flit) : Statement (.collectiveFlit f) := ⟨nofun, nofun⟩

theorem readRequest (f : Flit) : Statement (.readRequest f) := ⟨nofun, nofun⟩

theorem readResponse (f : Flit) : Statement (.readResponse f) := ⟨nofun, nofun⟩

theorem rowWrite (f : Flit) : Statement (.rowWrite f) := ⟨nofun, nofun⟩

theorem wordWrite (f : Flit) : Statement (.wordWrite f) := ⟨nofun, nofun⟩

theorem atomicRequest (f : Flit) : Statement (.atomicRequest f) := ⟨nofun, nofun⟩

theorem atomicResponse (f : Flit) : Statement (.atomicResponse f) := ⟨nofun, nofun⟩

theorem writeAcknowledgement (f : Flit) : Statement (.writeAcknowledgement f) := ⟨nofun, nofun⟩

theorem retryWithWaitHint (f : Flit) : Statement (.retryWithWaitHint f) := ⟨nofun, nofun⟩

theorem bindingUpdate (f : Flit) : Statement (.bindingUpdate f) := ⟨nofun, nofun⟩

theorem bindingUpdateApply (idx : Nat) : Statement (.bindingUpdateApply idx) := ⟨nofun, nofun⟩

theorem marker (f : Flit) : Statement (.marker f) := ⟨nofun, nofun⟩

theorem caribouData (f : Flit) : Statement (.caribouData f) := ⟨nofun, nofun⟩

theorem caribouDone (f : Flit) : Statement (.caribouDone f) := ⟨nofun, nofun⟩

theorem routeAcknowledgement (f : Flit) : Statement (.routeAcknowledgement f) := ⟨nofun, nofun⟩

theorem localMove : Statement .localMove := ⟨nofun, nofun⟩

theorem migrateOut : Statement .migrateOut := ⟨nofun, nofun⟩

theorem loadRankMap : Statement .loadRankMap := ⟨nofun, nofun⟩

theorem loadPortTable : Statement .loadPortTable := ⟨nofun, nofun⟩

theorem dispatchTake (core : Nat) : Statement (.dispatchTake core) := ⟨nofun, nofun⟩

theorem launchPacketTake (core : Nat) : Statement (.launchPacketTake core) := ⟨nofun, nofun⟩

theorem gangReservationComplete (gang : Nat) : Statement (.gangReservationComplete gang) := ⟨nofun, nofun⟩

theorem partitionChange (core : Nat) : Statement (.partitionChange core) := ⟨nofun, nofun⟩

theorem gangRelease (gang : Nat) : Statement (.gangRelease gang) := ⟨nofun, nofun⟩

theorem readyWaitPreemption (die : Nat) : Statement (.readyWaitPreemption die) := ⟨nofun, nofun⟩

theorem stepBoundary (vrank : BitVec 16) : Statement (.stepBoundary vrank) := ⟨nofun, nofun⟩

theorem readyPacketReclaim (idx : Nat) : Statement (.readyPacketReclaim idx) := ⟨nofun, nofun⟩

theorem memsideOperation (idx : Nat) : Statement (.memsideOperation idx) := ⟨nofun, nofun⟩

theorem orderedAddArrival (idx : Nat) : Statement (.orderedAddArrival idx) := ⟨nofun, nofun⟩

theorem reductionBlockRun (stack : Nat) : Statement (.reductionBlockRun stack) := ⟨nofun, nofun⟩

theorem parityDifferenceApply (idx : Nat) : Statement (.parityDifferenceApply idx) := ⟨nofun, nofun⟩

theorem uncorrectableRead (row : Nat) : Statement (.uncorrectableRead row) := ⟨nofun, nofun⟩

theorem rowRemap (channel : Nat) (pseudo : Nat) (bank : Nat) (dramRow : Nat) : Statement (.rowRemap channel pseudo bank dramRow) := ⟨nofun, nofun⟩

theorem remapTableReload (channel : Nat) : Statement (.remapTableReload channel) := ⟨nofun, nofun⟩

theorem writeReachesAgent (write : Nat) (a : Agent) : Statement (.writeReachesAgent write a) := ⟨nofun, nofun⟩

theorem tlbiComplete (core : Nat) : Statement (.tlbiComplete core) := ⟨nofun, nofun⟩

theorem coreStateError (core : Nat) (fw : Bool) (det : Nat) : Statement (.coreStateError core fw det) := ⟨nofun, nofun⟩

theorem quiesceRecordUpdate (asid : BitVec 16) : Statement (.quiesceRecordUpdate asid) := ⟨nofun, nofun⟩

theorem mirrorAccept (idx : Nat) : Statement (.mirrorAccept idx) := ⟨nofun, nofun⟩

theorem limiterWindowBoundary (core : Nat) : Statement (.limiterWindowBoundary core) := ⟨nofun, nofun⟩

theorem thermalCapAdjust : Statement .thermalCapAdjust := ⟨nofun, nofun⟩

theorem temperatureUpdate (tmax : BitVec 8) (tin : BitVec 8) : Statement (.temperatureUpdate tmax tin) := ⟨nofun, nofun⟩

theorem powerTrip : Statement .powerTrip := ⟨nofun, nofun⟩

theorem powerUp : Statement .powerUp := ⟨nofun, nofun⟩

theorem identityTreeReady : Statement .identityTreeReady := ⟨nofun, nofun⟩

theorem linkUp (port : Nat) (refNode : BitVec 12) (refTime : Nat) : Statement (.linkUp port refNode refTime) := ⟨nofun, nofun⟩

theorem referenceChange (refNode : BitVec 12) (off : Int) : Statement (.referenceChange refNode off) := ⟨nofun, nofun⟩

theorem sessionLinkTimeout (port : Bool) : Statement (.sessionLinkTimeout port) := ⟨nofun, nofun⟩

theorem hostRead (m : PortMsg) : Statement (.hostRead m) := ⟨nofun, nofun⟩

theorem hostWrite (m : PortMsg) : Statement (.hostWrite m) := ⟨nofun, nofun⟩

theorem queueAppend (m : PortMsg) : Statement (.queueAppend m) := ⟨nofun, nofun⟩

theorem regRead (m : PortMsg) : Statement (.regRead m) := ⟨nofun, nofun⟩

theorem regWrite (m : PortMsg) : Statement (.regWrite m) := ⟨nofun, nofun⟩

theorem semAcquire (m : PortMsg) : Statement (.semAcquire m) := ⟨nofun, nofun⟩

theorem semRelease (m : PortMsg) : Statement (.semRelease m) := ⟨nofun, nofun⟩

theorem imageChunk (m : PortMsg) : Statement (.imageChunk m) := ⟨nofun, nofun⟩

theorem commitBoot (m : PortMsg) : Statement (.commitBoot m) := ⟨nofun, nofun⟩

theorem commitHandOver (m : PortMsg) : Statement (.commitHandOver m) := ⟨nofun, nofun⟩

theorem attest (m : PortMsg) : Statement (.attest m) := ⟨nofun, nofun⟩

theorem compareManifest (m : PortMsg) : Statement (.compareManifest m) := ⟨nofun, nofun⟩

theorem openSession (m : PortMsg) : Statement (.openSession m) := ⟨nofun, nofun⟩

theorem closeSession (m : PortMsg) : Statement (.closeSession m) := ⟨nofun, nofun⟩

theorem notify (m : PortMsg) : Statement (.notify m) := ⟨nofun, nofun⟩

theorem hodone (core : Nat) (v : Word) : Statement (.hodone core v) := ⟨nofun, nofun⟩

theorem handoverTimeout : Statement .handoverTimeout := ⟨nofun, nofun⟩

theorem firmwareRequestWord (core : Nat) (op : MemOp) (v : Word) (cmp : Word) : Statement (.firmwareRequestWord core op v cmp) := ⟨nofun, nofun⟩

theorem regionAnnounce (v : Word) : Statement (.regionAnnounce v) := ⟨nofun, nofun⟩

theorem rampWordWrite (v : Word) : Statement (.rampWordWrite v) := ⟨nofun, nofun⟩

theorem tkey7Write (core : Nat) (v : Word) : Statement (.tkey7Write core v) := ⟨nofun, nofun⟩

theorem tregWrite (core : Nat) (v : Word) : Statement (.tregWrite core v) := ⟨nofun, nofun⟩

theorem cacheLineWriteBack (row : Nat) : Statement (.cacheLineWriteBack row) := ⟨nofun, nofun⟩

theorem inputPowerLoss : Statement .inputPowerLoss := ⟨nofun, nofun⟩

theorem timeReferenceSettled : Statement .timeReferenceSettled := ⟨nofun, nofun⟩

theorem regionTableLoadComplete : Statement .regionTableLoadComplete := ⟨nofun, nofun⟩

theorem badControlFrame (m : PortMsg) : Statement (.badControlFrame m) := ⟨nofun, nofun⟩

theorem reservedCodeFlit (f : Flit) : Statement (.reservedCodeFlit f) := ⟨nofun, nofun⟩

end Sys2Proof.Laws.RoundTrip
end

