-- ==== Sys2Proof/Tests/Slice0.lean ====
section
/-! SUPPORT. Tests: what is ill formed is refused, words written out from the encodings of the spec decode to their
instructions, single steps give what the spec's tables give, and every hypothesis of a statement is met somewhere. -/

namespace Sys2Proof.Tests

open Sys2Proof Sys2Proof.Machine

set_option Elab.async false

/-! ## Small states -/

/-- The module after boot and a launch: the page tables of R425, core 0's program context about to issue at virtual
address 0, and no other core started. -/
def base : State := State.reset.placeBundle false 0

/-- The same with core 0's firmware context issuing. -/
def baseFw : State := let s := State.reset.placeBundle true 0; { s with iss := { s.iss with fw := true } }

/-- Core 0 changed. -/
def core0 (s : State) (f : Core → Core) : State := s.setCore 0 (f (s.core 0))

/-- Core 0's program context changed. -/
def prog0 (s : State) (f : Ctx → Ctx) : State := core0 s fun k => { k with prog := f k.prog }

/-- Core 0's firmware context changed. -/
def fw0 (s : State) (f : Ctx → Ctx) : State := core0 s fun k => { k with fw := f k.fw }

/-- Core 0's program registers changed. -/
def px0 (s : State) (f : ProgX → ProgX) : State := core0 s fun k => { k with px := f k.px }

/-- A register s[i] of core 0's program context. -/
def withS (s : State) (i : Nat) (v : Word) : State := prog0 s fun x => { x with s := Tab.put x.s i v }

/-- A partition of n rows on core 0. -/
def withRows (s : State) (n : Nat) : State := core0 s fun k => { k with sp := { k.sp with part := 64 * n } }

/-- The 128 MiB page n of address space 0, mapped to physical page n + 1 with the flags of bits [63:56]. -/
def withPage (s : State) (n flags : Nat) (home own : Nat) : State :=
  let w0 := BitVec.ofNat 64 (flags * 2 ^ 56 + (n + 1) * 0x8000000)
  let w1 := BitVec.ofNat 64 (home * 2 ^ 52 + own * 2 ^ 32)
  { s with mem := { s.mem with cells := putBytes s.mem.cells (0x120000 + 16 * n) (entryBytes w0 w1) } }

/-- Words of memory from a physical address on. -/
def withWords (s : State) (pa : Nat) (l : List Word) : State :=
  { s with mem := { s.mem with cells := putBytes s.mem.cells pa (l.flatMap wordBytes) } }

/-- The access that a virtual address translates to, if any. -/
def reach (s : State) (k : AccKind) (va : Word) : Option Acc :=
  match s.translate s.ctxAsid k va with
  | .ok a => some a
  | _ => none

/-- The value of a look-up that has not ended the issue. -/
def got {α : Type} : Except Res α → Option α
  | .ok a => some a
  | .error _ => none

/-- A member strand of core 0. -/
def strand : Strand :=
  { record := 0x1000, rcb := 0x2000, vrank := 0, asid := 0, pin := 0, sid := 0, gang := none, stepNo := 0, nchan := 16,
    taken := 0 }

/-! ## Ill-formed instructions are refused, each by its check -/

theorem test_wf_jt : (Instr.jt 0 1 2 3 0).wf = false := by decide
theorem test_wf_loop : (Instr.loop 0 6 1 1).wf = false ∧ (Instr.loop 0 0 1 0).wf = false := by decide
theorem test_wf_loopi : (Instr.loopi 0 6 1 1).wf = false ∧ (Instr.loopi 0 5 1 0).wf = false := by decide
theorem test_wf_lbrk : (Instr.lbrk 0 6).wf = false ∧ (Instr.lbrk 0 5).wf = true := by decide
theorem test_wf_chk : (Instr.chk 0 1 32 0).wf = false ∧ (Instr.chk 0 0 32 0).wf = true := by decide
theorem test_wf_tlbiAll : (Instr.tlbiAll 0 1 0).wf = false ∧ (Instr.tlbiAll 0 0 1).wf = false := by decide
theorem test_wf_cmp : (Instr.cmp 0 1 7 0 0).wf = false ∧ (Instr.cmpi 0 1 7 0 0).wf = false := by decide
theorem test_wf_predicates : (Instr.pand 0 0 1 2 0 0).wf = false ∧ (Instr.por 0 0 1 2 0 0).wf = false ∧
    (Instr.pxor 0 0 1 2 0 0).wf = false := by decide
theorem test_wf_ags : (Instr.ags 0 0 6 0).wf = false := by decide
theorem test_wf_local_address : (Instr.ldw 0 1 0x8001).wf = false ∧ (Instr.stw 0 1 0x8001).wf = false ∧
    (Instr.feq 0 1 0x8400).wf = false ∧ (Instr.fes 0 1 0x8001).wf = false ∧ (Instr.barv 0 1 0x8001).wf = false ∧
    (Instr.barw 0 1 0x8001).wf = false := by decide
theorem test_wf_local_rows : (Instr.ldr 0 32 0).wf = false ∧ (Instr.str 0 32 0).wf = false ∧
    (Instr.ldsy 0 32 0).wf = false ∧ (Instr.stsy 0 32 0).wf = false ∧ (Instr.ldr 0 31 0x8001).wf = false := by decide
theorem test_wf_device_rows : (Instr.gldr 0 32 0 0).wf = false ∧ (Instr.gstr 0 32 0 0).wf = false ∧
    (Instr.gldrs 0 32 0 0).wf = false := by decide
theorem test_wf_phase : (Instr.phase 0 12).wf = false ∧ (Instr.phase 0 11).wf = true := by decide
theorem test_wf_engine_scope : (Instr.copy 0 0 1 1 1 0 12).wf = false ∧ (Instr.gath 0 0 1 1 0 0 1).wf = false ∧
    (Instr.scat 0 0 1 1 0 0 1).wf = false ∧ (Instr.wstr 0 0 1 1 0 1).wf = false ∧
    (Instr.cbind 0 0 1 1 0 0 1).wf = false ∧ (Instr.bred 0 0 1 1 0 0 1).wf = false ∧
    (Instr.hist 0 0 1 1 0 1).wf = false ∧ (Instr.copy 0 0 1 1 1 0 11).wf = true := by decide
theorem test_wf_queues : (Instr.enq 0 0 1 1).wf = false ∧ (Instr.enq 0 1 1 32).wf = false ∧
    (Instr.deq 0 32 1 0).wf = false := by decide
theorem test_wf_lane_shift : (Instr.vshli 0 0 0 8 0 0).wf = false ∧ (Instr.vshri 0 0 0 16 0 1).wf = false ∧
    (Instr.vsari 0 0 0 32 0 2).wf = false ∧ (Instr.vsari 0 0 0 31 0 2).wf = true := by decide
theorem test_wf_lane_number : (Instr.vins 0 0 0 8 0 3).wf = false ∧ (Instr.vext 0 0 0 16 2).wf = false ∧
    (Instr.vext 0 0 0 15 2).wf = true := by decide
theorem test_wf_vcmp : (Instr.vcmp 0 0 0 0 0 0).wf = false ∧ (Instr.vcmp 0 1 0 0 6 0).wf = false ∧
    (Instr.vfcmp 0 0 0 0 0 0).wf = false ∧ (Instr.vfcmp 0 1 0 0 5 0).wf = false := by decide
theorem test_wf_masks : (Instr.mand 0 0 1 1).wf = false ∧ (Instr.mor 0 0 1 1).wf = false ∧
    (Instr.mxor 0 0 1 1).wf = false ∧ (Instr.mandn 0 0 1 1).wf = false ∧ (Instr.mset 0 0 1).wf = false := by decide
theorem test_wf_rounding : (Instr.vfaddF64 0 0 0 0 0 7).wf = false ∧ (Instr.vfsubF32 0 0 0 0 0 7).wf = false ∧
    (Instr.vfmulBf16 0 0 0 0 0 7).wf = false ∧ (Instr.vfmaF16 0 0 0 0 0 7).wf = false ∧
    (Instr.vcvt 0 0 0 9 9 7).wf = false ∧ (Instr.a2s 0 0 9 7 0).wf = false := by decide
theorem test_wf_vcvt : (Instr.vcvt 0 0 0 14 9 0).wf = false ∧ (Instr.vcvt 0 0 0 9 14 0).wf = false := by decide
theorem test_wf_reductions : (Instr.vredi 0 0 0 5 0 0).wf = false ∧ (Instr.vredf 0 0 0 3 0 0).wf = false := by decide
theorem test_wf_vhist : (Instr.vhist 0 0 7 0).wf = false ∧ (Instr.vhist 0 0 14 0).wf = false ∧
    (Instr.vhist 0 0 8 0).wf = true := by decide
theorem test_wf_vbpt : (Instr.vbpt 0 0 0 2).wf = false := by decide
theorem test_wf_vunpk : (Instr.vunpk 0 0 0 0 0 1).wf = false ∧ (Instr.vunpk 0 0 0 1 0 1).wf = true := by decide
theorem test_wf_blocks : (Instr.vbq 0 0 1 9 12 0).wf = false ∧ (Instr.vbq 0 0 0 10 1 0).wf = false ∧
    (Instr.vbdq 0 1 0 12 9 0).wf = false ∧ (Instr.vbq 0 0 30 9 12 0).wf = true := by decide
theorem test_wf_mclr : (Instr.mclr 0 0).wf = false := by decide
theorem test_wf_aclr : (Instr.aclr 0 255 1).wf = false ∧ (Instr.aclr 0 255 0).wf = true := by decide
theorem test_wf_a2s : (Instr.a2s 0 0 14 0 0).wf = false := by decide
theorem test_context_specials : (Instr.mfs 0 1 0x80).contextOk false 16 = false ∧
    (Instr.mfs 0 1 0x01).contextOk true 16 = false ∧ (Instr.mts 0 1 0xCE).contextOk true 16 = true ∧
    (Instr.wfmt 0 1).contextOk true 16 = false ∧ (Instr.chk 0 1 0 0).contextOk true 16 = false := by decide
theorem test_context_channels : (Instr.copy 0 4 1 1 0 0 0).contextOk true 4 = false ∧
    (Instr.cwid 0 3 1 0).contextOk true 4 = true ∧ (Instr.trig 0 4 1 1).contextOk true 4 = false := by decide
theorem test_ports : portsOk 5 0x00410800#32 = false ∧ portsOk 5 0x00410000#32 = true := by decide

/-! ## Words written out from the encodings: guard 11 in bits [31:28], the code in [27:22], the fields of the format
below (R69, R77 to R90) -/

/-- Each word decodes in the slot to its instruction. -/
def decodesTo (fw : Bool) (slot : Nat) (l : List (Syl × Instr)) : Bool :=
  l.all fun e => match decodeSyl fw 16 slot e.1 with
    | .ok i => i == e.2
    | .error _ => false

theorem test_decode_control : decodesTo false 0 [
    (0xB04002C4, .br 11 708), (0xB08603A2, .brl 11 6 930), (0xB0CB0000, .jr 11 11), (0xB11E0C00, .jrl 11 30 3),
    (0xB14E589B, .jt 11 14 22 9 11), (0xB198C3A2, .loop 11 3 6 930), (0xB1D8B674, .loopi 11 3 91 116),
    (0xB2080000, .lbrk 11 1), (0xB2560000, .wfmt 11 22), (0xB2891000, .mfs 11 9 16), (0xB2DB2100, .mts 11 27 33),
    (0xB30002C4, .trap 11 708), (0xB34000E3, .bkpt 11 227), (0xB3800000, .tret 11), (0xB3C00000, .susp 11),
    (0xB4000000, .yield 11), (0xB4590000, .exitS 11 25), (0xB4AA819C, .chk 11 1 21 412), (0xB4C00000, .stepB 11),
    (0xB5000000, .grel 11)] = true := by decide +kernel
theorem test_decode_control_firmware : decodesTo true 0 [
    (0xBC1E0C00, .tlbiPage 11 30 3), (0xBC0E5801, .tlbiAsid 11 14 22), (0xBC000002, .tlbiAll 11 0 0),
    (0xBC490000, .asw 11 9), (0xBC9B0000, .ctxs 11 27), (0xBCD30000, .ctxr 11 19), (0xBD000006, .fwsh 11 6),
    (0xBD590000, .qscQuiesce 11 25), (0xBD800000, .cres 11), (0xBDC00000, .ckill 11)] = true := by decide +kernel
theorem test_decode_scalar : decodesTo false 1 [
    (0xB04B7830, .add 11 11 30 3), (0xB08E5890, .sub 11 14 22 9), (0xB0DB4C60, .sAnd 11 27 19 6),
    (0xB1192DE0, .sOr 11 25 11 30), (0xB1433960, .sXor 11 3 14 22), (0xB1896D30, .andn 11 9 27 19),
    (0xB1C664B0, .shl 11 6 25 11), (0xB21E0CE0, .shr 11 30 3 14), (0xB25625B0, .sar 11 22 9 27),
    (0xB2931990, .ror 11 19 6 25), (0xB2CB7830, .mul 11 11 30 3), (0xB30E5890, .mulh 11 14 22 9),
    (0xB35B4C60, .mulhn 11 27 19 6), (0xB3992DE0, .div 11 25 11 30), (0xB3C33960, .divn 11 3 14 22),
    (0xB4096D30, .rem 11 9 27 19), (0xB44664B0, .remn 11 6 25 11), (0xB49E0CE0, .sMin 11 30 3 14),
    (0xB4D625B0, .sMax 11 22 9 27), (0xB5131990, .minn 11 19 6 25), (0xB54B7830, .maxn 11 11 30 3),
    (0xB58E5890, .ext 11 14 22 9), (0xB5DB4C60, .extn 11 27 19 6), (0xB6192DE0, .ins 11 25 11 30),
    (0xB6433800, .clz 11 3 14), (0xB6962400, .ctz 11 22 9), (0xB6DB4C00, .pcnt 11 27 19),
    (0xB70664BB, .sel 11 6 25 11 11), (0xB7760CE0, .cmp 11 6 6 3 14), (0xB7B525EC, .cmpi 11 6 5 9 492),
    (0xB7CDA600, .pand 11 3 6 9 1 0), (0xB82F8D00, .por 11 11 14 3 0 1), (0xB879A700, .pxor 11 14 6 9 1 1),
    (0xB89B4CE3, .addi 11 27 19 227), (0xB8D92C5B, .andi 11 25 11 91), (0xB9033933, .ori 11 3 14 307),
    (0xB9496CC4, .xori 11 9 27 196), (0xB986640B, .shli 11 6 25 11), (0xB9DE0C0E, .shri 11 30 3 14),
    (0xBA16241B, .sari 11 22 9 27)] = true := by decide +kernel
theorem test_decode_scalar_in_y : decodesTo false 2 [
    (0xB0531990, .add 11 19 6 25), (0xB08B7830, .sub 11 11 30 3), (0xB0CE5890, .sAnd 11 14 22 9),
    (0xBB2D3000, .agb 11 11 19), (0xBB589600, .ags 11 6 1 11), (0xBB9E3000, .agr 11 30 3)] = true := by decide +kernel
theorem test_decode_local : decodesTo false 3 [
    (0xB04E0333, .ldw 11 14 819), (0xB08903EC, .stw 11 9 1004), (0xB0DB02C4, .ldr 11 27 708),
    (0xB11B00E3, .str 11 27 227), (0xB15B9800, .ldsy 11 27 38912), (0xB19B03A2, .stsy 11 27 930),
    (0xB1D8045B, .feq 11 3 1115), (0xB2200074, .fes 11 1 116), (0xB24E5800, .tlr 11 14 22),
    (0xB2802700, .tls 11 9 3), (0xB2D300E3, .barv 11 19 227), (0xB319019C, .barw 11 25 412)] = true := by decide +kernel
theorem test_decode_global : decodesTo false 4 [
    (0xB05E0C0B, .gldw 11 30 3 11), (0xB09625EC, .gstw 11 22 9 492), (0xB0DB4CE3, .gldr 11 27 19 227),
    (0xB11B659C, .gstr 11 27 25 412), (0xB15E0C0B, .gldws 11 30 3 11), (0xB19B5952, .gldrs 11 27 22 338),
    (0xB1DB4C69, .aadd 11 27 19 6 1 0 1), (0xB2992DE9, .aand 11 25 11 30 1 0 1),
    (0xB2C33969, .aor 11 3 14 22 1 0 1), (0xB3096D39, .axor 11 9 27 19 1 0 1), (0xB34664B9, .aswp 11 6 25 11 1 0 1),
    (0xB39E0CE9, .acas 11 30 3 14 1 0 1), (0xB3D625B9, .afadd 11 22 9 27 1 0 1),
    (0xB2131996, .amin 11 19 6 25 0 1 1 0), (0xB24B7839, .amax 11 11 30 3 1 0 0 1),
    (0xB40E5895, .aoadd 11 14 22 9 0 1 1), (0xB46C0000, .phase 11 11), (0xB4AD31A9, .copy 11 11 19 6 1 0 9),
    (0xB4E4B7A9, .gath 11 9 11 30 1 0 9), (0xB50CE5A9, .scat 11 3 14 22 1 0 9), (0xB565B4E9, .wstr 11 9 27 19 1 9),
    (0xB5999800, .cwid 11 6 25 1), (0xB5EDE000, .cwcnt 11 11 30 0), (0xB60CE580, .trig 11 3 14 22),
    (0xB665B6C0, .enq 11 9 27 27), (0xB69B4E00, .deq 11 27 19 1), (0xB6D992D6, .cbind 11 6 25 11 0 1 6),
    (0xB73833B5, .bred 11 14 3 14 1 1 5), (0xB75896D6, .hist 11 6 9 27 1 6), (0xB7800000, .sarv 11)] = true := by decide +kernel
theorem test_decode_vector : decodesTo false 5 [
    (0xB066332E, .vadd 11 19 6 25 3 2), (0xB08672C7, .vsub 11 3 14 22 1 3), (0xB0E6332E, .vmul 11 19 6 25 3 2),
    (0xB10672C7, .vmulh 11 3 14 22 1 3), (0xB166332E, .vmin 11 19 6 25 3 2), (0xB18672C7, .vmax 11 3 14 22 1 3),
    (0xB1E6332E, .vminn 11 19 6 25 3 2), (0xB20672C7, .vmaxn 11 3 14 22 1 3), (0xB266332E, .vand 11 19 6 25 3 2),
    (0xB28672C7, .vor 11 3 14 22 1 3), (0xB2E6332E, .vxor 11 19 6 25 3 2), (0xB30672C7, .vsel 11 3 14 22 1 3),
    (0xB36633A6, .vshli 11 19 6 29 1 2), (0xB396F3AE, .vshri 11 11 30 29 3 2), (0xB3DCB3A6, .vsari 11 14 22 29 1 2),
    (0xB43698C7, .vperm 11 27 19 6 1 3), (0xB47C181A, .vbc 11 30 3 6 2), (0xB492D9AE, .vins 11 9 27 13 3 2),
    (0xB4C664D2, .vext 11 6 25 13 2), (0xB51BC1D2, .vcmp 11 3 30 3 5 2), (0xB5716000, .mand 11 6 1 3),
    (0xB59E2000, .mor 11 3 6 1), (0xB5DE6000, .mxor 11 3 6 3), (0xB6362000, .mandn 11 6 6 1),
    (0xB65A6000, .mset 11 3 19), (0xB68CC975, .vfaddF64 11 6 25 11 2 5), (0xB6C672CD, .vfaddF32 11 3 14 22 1 5),
    (0xB73698CD, .vfaddBf16 11 27 19 6 1 5), (0xB756F075, .vfaddF16 11 11 30 3 2 5),
    (0xB7AC4B7D, .vfsubF64 11 22 9 27 3 5), (0xB7CCC975, .vfsubF32 11 6 25 11 2 5),
    (0xB80672CD, .vfsubBf16 11 3 14 22 1 5), (0xB87698CD, .vfsubF16 11 27 19 6 1 5),
    (0xB896F075, .vfmulF64 11 11 30 3 2 5), (0xB8EC4B7D, .vfmulF32 11 22 9 27 3 5),
    (0xB90CC975, .vfmulBf16 11 6 25 11 2 5), (0xB94672CD, .vfmulF16 11 3 14 22 1 5),
    (0xB9B698CD, .vfmaF64 11 27 19 6 1 5), (0xB9D6F075, .vfmaF32 11 11 30 3 2 5),
    (0xBA2C4B7D, .vfmaBf16 11 22 9 27 3 5)] = true := by decide +kernel
theorem test_decode_vector_more : decodesTo false 5 [
    (0xBA4CC975, .vfmaF16 11 6 25 11 2 5), (0xBA8672C7, .vfmin 11 3 14 22 1 3), (0xBAE6332E, .vfmax 11 19 6 25 3 2),
    (0xBB19CB41, .vfcmp 11 3 14 22 4 1), (0xBB769C6D, .vcvt 11 27 19 8 13 5), (0xBB8CC80E, .vrcpe 11 6 25 3 2),
    (0xBBC67019, .vrsqe 11 3 14 6 1), (0xBC3698C7, .vrcps 11 27 19 6 1 3), (0xBC7C19D9, .vrsqs 11 30 3 14 6 1),
    (0xBCB69819, .vexp2 11 27 19 6 1), (0xBCD6F00E, .vlog2 11 11 30 3 2), (0xBD2C4C0F, .vredi 11 22 9 4 3 3),
    (0xBD4CCA0E, .vredf 11 6 25 2 3 2), (0xBD86001A, .vrfill 11 3 6 2), (0xBDC04D8C, .vhist 11 9 11 3)] = true := by decide +kernel
theorem test_decode_vector_in_w : decodesTo false 6 [
    (0xB066332E, .vadd 11 19 6 25 3 2), (0xB08672C7, .vsub 11 3 14 22 1 3), (0xB0E6332E, .vmul 11 19 6 25 3 2),
    (0xBE0672C9, .vrmg031 11 3 14 22 9), (0xBE7698D9, .vrmg3263 11 27 19 6 25), (0xBE96F001, .vbpt 11 11 30 1),
    (0xBEC672D4, .vpack 11 3 14 22 2 1 0), (0xBF12D812, .vunpk 11 9 27 2 0 1), (0xBF66332E, .vdig 11 19 6 25 1 1 1),
    (0xBF96F56C, .vbq 11 11 30 10 13 4), (0xBFC67659, .vbdq 11 3 14 12 11 1)] = true := by decide +kernel
theorem test_decode_matrix : decodesTo false 7 [
    (0xB0760000, .push 11 6 1), (0xB0A00000, .shift 11), (0xB0E5E000, .acc 11 1 1 3 3),
    (0xB1384000, .dacc 11 1 6 1), (0xB1632200, .drd 11 1 25 1), (0xB1816200, .drc 11 0 11 1),
    (0xB1F00000, .mclr 11 3), (0xB2180000, .sldA 11 6), (0xB22C0000, .sldB 11 3), (0xB25C2C80, .a2v 11 14 22 1),
    (0xB286F180, .v2a 11 27 3 6), (0xB2C676D8, .a2s 11 25 13 5 11), (0xB31926C0, .aclr 11 100 155)] = true := by decide +kernel
theorem test_decode_nop : decodesTo false 0 [(0xB0000000, .nop 11)] = true := by decide
theorem test_decode_long : decodeScalars false 16 0xBA595555 0xBAC12345 =
    [(1, .ok (.li 11 25 (BitVec.ofNat 38 (0x5555 * 2 ^ 22 + 0x12345))))] := by decide +kernel
theorem test_decode_long_high : decodeScalars false 16 0xBA990001 0xBAC00002 =
    [(1, .ok (.lih 11 25 (BitVec.ofNat 38 (2 ^ 22 + 2))))] := by decide +kernel
theorem test_decode_long_alone : decodeScalars false 16 0x0A590000 0 = [(1, .error 3), (2, .ok (.nop 0))] := by
  decide +kernel
theorem test_decode_reserved : decodeSyl false 16 0 0x05400000 = .error 0 ∧ decodeSyl false 16 3 0x03400000 = .error 0 ∧
    decodeSyl false 16 4 0x07C00000 = .error 0 ∧ decodeSyl false 16 7 0x03400000 = .error 0 ∧
    decodeSyl false 16 6 0x06800000 = .error 0 ∧ decodeSyl false 16 5 0x0E000000 = .error 0 := by decide +kernel
theorem test_decode_order : decodeSyl false 16 0 0x0DC00000 = .error 2 ∧ decodeSyl true 4 7 0x00400000 = .error 1 ∧
    decodeSyl false 16 5 0x00402100 = .ok (.vadd 0 0 4 8 0 0) ∧ decodeSyl false 16 5 0x00410800 = .error 5 := by decide +kernel

/-! ## Single steps, with results from the tables of the spec -/

/-- The state after an instruction, if the machine goes on. -/
def ran (i : Instr) (s : State) : Option State :=
  match exec i s with
  | .next t => some t
  | _ => none

/-- What s3 reads once a result of bound L for it has landed. -/
def result (i : Instr) (L : Nat) (s : State) : Option Word := (ran i s).map fun t => (t.later L).readS 3

/-- The cause that a trap of the program context has left: code and info. -/
def causeOf (i : Instr) (s : State) : Option (Nat × Nat) :=
  (ran i s).map fun t => ((t.core 0).prog.cause.toNat % 64, (t.core 0).prog.cause.toNat / 2 ^ 32)

/-- s1 and s2 with two values. -/
def two (x y : Word) : State := withS (withS base 1 x) 2 y

theorem test_add_wraps : result (.add 0 3 1 2) 1 (two (~~~0) 2) = some 1 := by decide +kernel
theorem test_sar_sign : result (.sar 0 3 1 2) 1 (two (1#64 <<< 63) 127) = some (~~~0) := by decide +kernel
theorem test_mulh_sign : result (.mulh 0 3 1 2) 4 (two (~~~0) 5) = some (~~~0) := by decide +kernel
theorem test_mulhn : result (.mulhn 0 3 1 2) 4 (two (~~~0) 5) = some 4 := by decide +kernel
theorem test_div_overflow : result (.div 0 3 1 2) 26 (two (1#64 <<< 63) (~~~0)) = some (1#64 <<< 63) := by decide +kernel
theorem test_div_zero : result (.divn 0 3 1 2) 26 (two 7 0) = some (~~~0) ∧
    result (.rem 0 3 1 2) 26 (two 7 0) = some 7 := by decide +kernel
theorem test_rem_sign : result (.rem 0 3 1 2) 26 (two (-7) 2) = some (-1) := by decide +kernel
theorem test_extn : result (.extn 0 3 1 2) 2 (two 0xABCD 0x1C4) = some 0xBC := by decide +kernel
theorem test_ext_sign : result (.ext 0 3 1 2) 2 (two 0xABCD 0x1C4) = some (-68) := by decide +kernel
theorem test_clz_zero : result (.clz 0 3 1) 2 (two 0 0) = some 64 := by decide +kernel
theorem test_lih_keeps_low : result (.lih 0 3 1) 1 (withS base 3 0x7FFFFFFFFF) = some 0x7FFFFFFFFF := by decide +kernel
theorem test_source_before_result : result (.sub 0 3 3 3) 1 (withS base 3 9) = some 0 := by decide +kernel
theorem test_pair_zero : ((ran (.cmp 0 0 0 1 2) (two 5 5)).map fun t =>
    ((t.later 1).readP 0, (t.later 1).readP 1)) = some (true, false) := by decide +kernel
theorem test_jr_low_bits : ((ran (.jr 0 1) (withS base 1 0xFFFF00000000005F)).map fun t => t.ctx.pc) = some 0x40 := by
  decide +kernel
theorem test_br_back : ((ran (.br 0 0x3FFFFF) { base with iss := { base.iss with pc := 0x40 } }).map fun t => t.ctx.pc) =
    some 0x20 := by decide +kernel
theorem test_loop_zero : ((ran (.loopi 0 2 0 3) base).map fun t => t.ctx.pc) = some 0x80 := by decide +kernel
theorem test_ags_then_agr : result (.agr 0 3 4) 1 (prog0 base fun x => { x with ags := [(4, { cur := 77 })] }) = some 77 := by
  decide +kernel
theorem test_wfmt_reserved : causeOf (.wfmt 0 1) (withS base 1 0xC000) = some (1, 3) := by decide +kernel
theorem test_tret_outside : causeOf (.tret 0) base = some (1, 7) := by decide +kernel
theorem test_trap_info : causeOf (.trap 0 0x1234) base = some (0x0B, 0x1234) := by decide +kernel
theorem test_untranslated : causeOf (.gldw 0 1 2 0) (withS base 2 0x8000000) = some (4, 0) := by decide +kernel
theorem test_scratch_range : causeOf (.ldw 0 1 0) base = some (6, 0) := by decide +kernel
theorem test_scratch_word : ((ran (.stw 0 1 0x0401) (withS (withRows base 2) 1 9)).map fun t =>
    (t.sp.row 0, t.sp.row 1)) = some (BitVec.ofNat 512 (9 * 2 ^ 64), 0) := by decide +kernel
theorem test_fes_then_feq : ((ran (.fes 0 1 0) (withRows base 1)).map fun t => t.sp.isFull 0) = some true := by
  decide +kernel
theorem test_barrier_turns : barrierArrive 0x0007000200030005 1 = 0x0008000000030005 ∧
    barrierArrive 0x0007000000030005 1 = 0x0007000100030005 := by decide
theorem test_gstw_then_read : ((ran (.gstw 0 1 0 1) (withS base 1 0x1122334455667788)).map fun t =>
    rowWord (t.mem.latest (0x8000000 / 64)) 1) = some 0x1122334455667788 := by decide +kernel
theorem test_vadd_saturates : ((ran (.vadd 0 2 0 1 0 0) (px0 base fun x =>
    { x with fmt := 0x200, v := [(0, 0x7F), (1, 0x01)] })).map fun t => (t.later 2).readV 2) = some 0x7F := by
  decide +kernel
theorem test_vrmg_bytes : ((ran (.vrmg031 0 2 0 1 1) (px0 base fun x => { x with v := [(0, 0x0201), (1, 0x33)] })).map
    fun t => (t.later 2).readV 2) = some (BitVec.ofNat 512 (2 + 0x33 * 2 ^ 504)) := by decide +kernel
theorem test_mclr_one : ((ran (.mclr 0 1) (px0 base fun x =>
    { x with mx := { x.mx with d0 := 3, d1 := 4 } })).map fun t => (t.mx.diag 0, t.mx.diag 1)) =
    some ((0, 0), (4, 0)) := by decide +kernel
theorem test_fwshare_clamped : ((ran (.fwsh 0 0) baseFw).map fun t => t.fx.fwshare) = some 1 ∧
    ((ran (.fwsh 0 65) baseFw).map fun t => t.fx.fwshare) = some 64 := by decide +kernel

/-! ## Witnesses: states and operands that meet the hypotheses of the statements, clause by clause -/

/-! ### Scalar instructions, guards, results and control -/

/-- A guard that reads true, the one hypothesis of ScalarIntegers, ScalarBitFields, ScalarImmediates, AddressGenerators,
Branches, SharedSpecials, TranslationInvalidate, Phase, the lane statements and MatrixMoves. -/
theorem test_witness_guard : base.readP 0 = true ∧ baseFw.readP 0 = true := by decide +kernel

theorem test_witness_ScalarConditions : base.readP 0 = true ∧ (0#3 ≠ 7#3) ∧ (6#3 ≠ 7#3) := by decide +kernel

theorem test_witness_FalseGuard : (Instr.add 1 0 0 0).guard = some 1 ∧ base.readP 1 = false := by decide +kernel

theorem test_witness_ResultLands : (1#6 ≠ 0) ∧ base.settled (.s 1) :=
  ⟨by decide, show ∀ e ∈ base.ctx.pend, e.dest ≠ .s 1 from by decide +kernel⟩

theorem test_witness_LaterResultWins : (1#6 ≠ 0) ∧ base.settled (.s 1) ∧ 2 ≤ 0 + 2 ∧ 1 ≤ 0 + 2 :=
  ⟨by decide, show ∀ e ∈ base.ctx.pend, e.dest ≠ .s 1 from by decide +kernel, by decide, by decide⟩

/-- A result on its way to a destination. -/
def flight (d : Dest) (n : Nat) : Pend :=
  { dest := d, val := 5, mask := 7, live := 6, issued := n, due := 20, slot := 1, ser := n, flags := 0, defer := false }

/-- Three results on their way. -/
def flying (d : Dest) : State :=
  core0 base fun k => { k with cycle := 5, prog := { k.prog with pend := [flight d 1, flight d 2, flight d 3] } }

theorem test_witness_ResultLanding : ∀ d ∈ [Dest.s 1, .p 1, .v 1, .m 1, .row 1],
    (((flying d).core 0).ctx false).pend = [flight d 1] ++ flight d 2 :: [flight d 3] ∧
    (∀ y ∈ [flight d 1], y.ser ≠ (flight d 2).ser) ∧ (flight d 2).issued < ((flying d).core 0).cycle ∧
    (flight d 2).live ≠ 0 ∧ (flight d 2).late = false ∧ (flight d 2).dest = d := by decide +kernel

/-- The one in the middle has had every bit written by a younger result. -/
theorem test_witness_ResultLanding_late : let e := { flight (.s 1) 2 with late := true, live := 0 }
    let s := core0 base fun k => { k with cycle := 5, prog := { k.prog with pend := [flight (.s 1) 1, e, flight (.s 1) 3] } }
    ((s.core 0).ctx false).pend = [flight (.s 1) 1] ++ e :: [flight (.s 1) 3] ∧ (flight (.s 1) 1).ser ≠ e.ser ∧
    e.issued < (s.core 0).cycle := by decide +kernel

theorem test_witness_JumpTable_out : (base.readS 2).toNat ≤ (base.readS 1).toNat := by decide +kernel

theorem test_witness_JumpTable_in : let s := withS base 2 1
    (s.readS 1).toNat < (s.readS 2).toNat ∧ (got (s.loadFor (s.readS 3 + 8 * s.readS 1) 8)).isSome = true := by
  decide +kernel

theorem test_witness_LoopSetup : base.readP 0 = true ∧ (5#3).toNat < 6 := by decide +kernel

/-- A loop level, active with some iterations left, whose last bundle is at an address. -/
def level (n : Word) (fin : Addr) : LoopLevel := { act := true, count := n, start := 0x20, fin := fin }

theorem test_witness_LoopBreak : (Tab.get {} base.ctx.loops 5 : LoopLevel).act = false ∧
    (Tab.get {} (prog0 base fun x => { x with loops := [(5, level 2 0x40)] }).ctx.loops 5 : LoopLevel).act = true := by
  decide +kernel

/-- The end of a bundle that is the last of level 3, inside which level 5 ends elsewhere. -/
def boundary : State :=
  prog0 base fun x => { x with boundary := some 0x40, loops := [(3, level 2 0x40), (5, level 1 0x80)] }

theorem test_witness_LoopBoundary_none :
    ((((prog0 base fun x => { x with boundary := some 0x40 }).core 0).ctx false).boundary = some 0x40) ∧
    ∀ j, j < 6 → (Tab.get {} (((prog0 base fun x => { x with boundary := some 0x40 }).core 0).ctx false).loops j :
      LoopLevel).act = false := by decide +kernel

theorem test_witness_LoopBoundary_back : let x := (boundary.core 0).ctx false
    x.boundary = some 0x40 ∧ (Tab.get {} x.loops 3 : LoopLevel).act = true ∧
    (Tab.get {} x.loops 3 : LoopLevel).fin = 0x40 ∧ (Tab.get {} x.loops 3 : LoopLevel).count ≠ 1 ∧
    ∀ j, j < 6 → 3 < j → (Tab.get {} x.loops j : LoopLevel).act = true → (Tab.get {} x.loops j : LoopLevel).fin ≠ 0x40 := by
  decide +kernel

/-- The same bundle ends level 5, in its last iteration, and level 3 in its last or not. -/
def nested (n : Word) : State :=
  prog0 base fun x => { x with boundary := some 0x40, loops := [(3, level n 0x40), (5, level 1 0x40)] }

theorem test_witness_LoopBoundary_spent : ∀ n ∈ [1, 2], let x := ((nested (BitVec.ofNat 64 n)).core 0).ctx false
    x.boundary = some 0x40 ∧
    (∀ j, j < 6 → (Tab.get {} x.loops j : LoopLevel).act = true → (Tab.get {} x.loops j : LoopLevel).fin = 0x40 ∧
      (Tab.get {} x.loops j : LoopLevel).count = if j = 3 then BitVec.ofNat 64 n else 1) ∧
    (Tab.get {} x.loops 3 : LoopLevel).act = true ∧ (Tab.get {} x.loops 5 : LoopLevel).act = true := by decide +kernel

/-- Both contexts' special registers at the ends of their ranges of numbers. -/
theorem test_witness_Specials : base.iss.fw = false ∧ baseFw.iss.fw = true ∧ baseFw.readP 0 = true ∧
    (∀ n ∈ [0, 15], n < 16) ∧ (∀ n ∈ [0x80, 0xFF], 0x80 ≤ (BitVec.ofNat 8 n).toNat) ∧
    (∀ n ∈ [0xC4, 0xCB], 0xC4 ≤ (BitVec.ofNat 8 n).toNat ∧ (BitVec.ofNat 8 n).toNat ≤ 0xCB) ∧ (6 < 7) ∧
    (199 < 200) := by decide +kernel

theorem test_witness_FormatWrite : baseFw.iss.fw = true ∧ base.iss.fw = false ∧ base.px.shCnt = 0 ∧
    (px0 base fun x => { x with shCnt := 1 }).px.shCnt ≠ 0 ∧ bitsOf ((withS base 1 0xB0000000).readS 1).toNat 28 4 = 11 ∧
    bitsOf ((withS base 1 0x0B000000).readS 1).toNat 24 4 = 11 ∧ bitsOf ((withS base 1 0xC000).readS 1).toNat 14 2 = 3 ∧
    bitsOf ((withS base 1 0x1800).readS 1).toNat 10 3 = 6 ∧ bitsOf ((withS base 1 0xAA009400).readS 1).toNat 28 4 = 10 ∧
    bitsOf ((withS base 1 0xAA009400).readS 1).toNat 24 4 = 10 ∧
    bitsOf ((withS base 1 0xAA009400).readS 1).toNat 14 2 = 2 ∧
    bitsOf ((withS base 1 0xAA009400).readS 1).toNat 10 3 = 5 := by decide +kernel

theorem test_witness_StatusFlags : (flying (.s 1)).me.landing false = true ∧ base.me.landing false = false ∧
    base.iss.fw = false := by decide +kernel

theorem test_witness_FirmwareShare : baseFw.readP 0 = true ∧ baseFw.iss.fw = true := by decide +kernel

theorem test_witness_DeferredFaultCheck :
    (prog0 base fun x => { x with sdef := 2 }).ctx.sdef.getLsbD 1 = true ∧
    (px0 base fun x => { x with vdef := 1 }).px.vdef.getLsbD 0 = true ∧ base.ctx.sdef.getLsbD 1 = false ∧
    base.px.vdef.getLsbD 0 = false := by decide +kernel

/-! ### Traps -/

/-- A trap with a cause code. -/
def aTrap (code : Nat) : Trap := ⟨BitVec.ofNat 6 code, 1, 3, false, 0x55, 0x40⟩

/-- Core 0 with every delegable cause delegated. -/
def delegating : State := core0 base fun k => { k with fx := { k.fx with tdeleg := delegMask } }

theorem test_witness_DelegatedEntry : (delegating.core 0).prog.run = .running ∧ (delegating.core 0).prog.inh = false ∧
    ∀ n ∈ [0x01, 0x06, 0x07, 0x08, 0x0A, 0x0B, 0x0C], delegable (aTrap n).code = true ∧
      bitAt (delegating.core 0).fx.tdeleg (aTrap n).code.toNat = true := by decide +kernel

theorem test_witness_ProgramStop : (base.core 0).prog.run = .running := by decide +kernel

theorem test_witness_FirmwareTraps : (baseFw.core 0).fw.run = .running ∧ baseFw.iss.core = 0 ∧ baseFw.iss.fw = true ∧
    baseFw.ctx.inh = false := by decide +kernel

theorem test_witness_CompletingTraps : baseFw.iss.fw = true ∧ baseFw.ctx.inh = false ∧ delegating.iss.fw = false ∧
    delegating.ctx.inh = false ∧ bitAt delegating.fx.tdeleg 0x0B = true ∧ bitAt delegating.fx.tdeleg 0x0C = true ∧
    bitAt base.fx.tdeleg 0x0B = false ∧ bitAt base.fx.tdeleg 0x0C = false ∧
    (prog0 delegating fun x => { x with inh := true }).ctx.inh = true := by decide +kernel

theorem test_witness_TrapReturn : base.ctx.inh = false ∧ (prog0 base fun x => { x with inh := true }).ctx.inh = true := by
  decide +kernel

/-! ### Strands and the system instructions -/

theorem test_witness_FirmwareSuspension : baseFw.iss.fw = true ∧ baseFw.fx.events = [] ∧
    (core0 baseFw fun k => { k with fx := { k.fx with events := [⟨0x24, 0, 0⟩] } }).fx.events ≠ [] := by decide +kernel

/-- Core 0 with a strand. -/
def withStrand (s : State) (k : Strand) : State := core0 s fun x => { x with strand := some k }

/-- A transfer of the program context on channel 0. -/
def aCopy : Xfer := { fw := false, chan := 0, ident := 1, kind := .copy, total := 8 }

theorem test_witness_StrandSuspends : (withStrand base strand).me.strand = some strand ∧ base.iss.fw = false ∧
    (withStrand (flying (.s 1)) strand).me.landing false = true ∧
    (withStrand base strand).me.landing false = false ∧ (withStrand base strand).outstanding = false ∧
    (withStrand base { strand with pin := 1 }).outstanding = false ∧
    (core0 (withStrand base strand) fun k => { k with cycle := 5, xfers := [aCopy] }).me.landing false = false ∧
    (core0 (withStrand base strand) fun k => { k with cycle := 5, xfers := [aCopy] }).outstanding = true := by
  decide +kernel

/-- The rows of a list stand on this module, or their answers have come. -/
def rowsHere (s : State) (l : List (BitVec 16 × Word)) : Bool := l.all fun e => (s.rowsRead l).rowReady e.1 e.2

theorem rowsHere_iff (s : State) (l : List (BitVec 16 × Word)) : rowsHere s l = true ↔ s.RowsHere l := by
  simp only [rowsHere, State.RowsHere, List.all_eq_true]

/-- A strand whose record another module holds. -/
def farStrand : State := withStrand (withPage base 1 0xFC 1 0) { strand with record := 0x8000000 }

theorem test_witness_StrandSuspends_rows :
    rowsHere (withStrand base strand) ((withStrand base strand).strandRows strand) = true ∧
    rowsHere farStrand (farStrand.strandRows { strand with record := 0x8000000 }) = false ∧
    farStrand.me.landing false = false ∧ farStrand.outstanding = false := by decide +kernel

theorem test_witness_StrandExits : (withStrand base strand).me.strand = some strand ∧
    (withStrand base strand).me.landing false = false ∧ (withStrand base strand).outstanding = false ∧
    rowsHere (withStrand base strand) ((withStrand base strand).strandRows strand) = true := by decide +kernel

/-- A resident rank whose block another module holds. -/
def farRank : State :=
  let s := withPage base 1 0xFC 1 0
  { s with disp := { s.disp with ranks := [{ vrank := 0, asid := 0, block := 0x8000000 }] } }

theorem test_witness_StrandSteps : (withStrand base strand).rankRows 0 = [] ∧
    (withStrand base strand).rankHere 0 = true ∧ (withStrand base strand).rankRoot 0 ≠ strand.rcb ∧
    rowsHere farRank (farRank.rankRows 0) = false ∧
    (let k := { strand with rcb := 0 }
     let s := withStrand base k
     s.rankRoot 0 = 0 ∧ s.me.strand = some k ∧ s.me.landing false = false ∧ s.outstanding = false ∧
       rowsHere s (s.strandRows k) = true) := by decide +kernel

/-- A gang of core 0, whose member waits at the gang barrier. -/
def aGang : Gang :=
  { ident := 1, asid := 0, vrank := 0, rcb := 0x2000, img := 0, pre := 0, part := 0, hdr := [], tiles := [], rings := [],
    presets := [], cores := [0], got := [0], asked := true, loaded := true, released := true, relTime := 0, left := [],
    grelAt := none, grel := [] }

/-- The gang, with core 0 its only member. -/
def ganged (x : Gang) : State :=
  let s := prog0 (withStrand base { strand with gang := some 1 }) fun c => { c with waits := [.gang 1] }
  { s with disp := { s.disp with gangs := [x] } }

theorem test_witness_GangBarrier : (withStrand base strand).me.strand.bind (fun k => k.gang) = none ∧
    (ganged aGang).findGang 1 = some aGang ∧ (ganged aGang).iss.core ∉ aGang.grel ∧ 0 ∈ { aGang with grel := [0] }.grel ∧
    (ganged { aGang with grel := [0] }).findGang 1 = some { aGang with grel := [0] } ∧
    (∀ c ∈ aGang.cores, Wait.gang 1 ∈ ((ganged aGang).core c).prog.waits) ∧ aGang.grelAt = none ∧
    (ganged { aGang with grelAt := some 0 }).findGang 1 = some { aGang with grelAt := some 0 } ∧
    0 ≤ (ganged { aGang with grelAt := some 0 }).hub.gtime := by decide +kernel

theorem test_witness_ContextControl : base.me.strand = none ∧ (withStrand base strand).me.strand ≠ none ∧
    (withStrand base strand).me.prog.run ≠ .stopped ∧ (prog0 baseFw fun x => { x with run := .stopped }).me.prog.run = .stopped ∧
    (prog0 baseFw fun x => { x with run := .stopped }).me.dead = false ∧
    (core0 (prog0 baseFw fun x => { x with run := .stopped }) fun k => { k with dead := true }).me.dead = true := by
  decide +kernel

theorem test_witness_ImageTransfers_refused :
    256 ≤ ((fw0 baseFw fun x => { x with chans := [(0, { iss := 256 })] }).chanAt 0).outstanding ∧
    (baseFw.chanAt 0).outstanding < 256 ∧ baseFw.me.strand = none ∧
    (prog0 (withStrand baseFw strand) fun x => { x with run := .running }).me.prog.run ≠ .stopped ∧
    (withStrand baseFw strand).me.strand ≠ none := by decide +kernel

theorem test_witness_ImageTransfers_save : (got (baseFw.probeSpan 0 (imageSpan true 0x100000
    (imageRows baseFw.sp.part ((baseFw.me.xfers.filter fun x => !x.fw).length + baseFw.me.parked.length))) [])).isSome =
      true := by decide +kernel

theorem test_witness_ImageTransfers_restore : (got (baseFw.loadFor 0x100000 2)).any (fun r =>
    rowWord r.1 0 != 0x4B561001#64 && (got (r.2.probeSpan 0 (imageSpan false 0x100000 1) [])).isSome) = true := by
  decide +kernel

theorem test_witness_Quiesce : ∀ md ∈ [0, 1, 2, 3],
    bitsOf ((fw0 baseFw fun x => { x with s := [(1, BitVec.ofNat 64 (md * 65536 + 7))] }).readS 1).toNat 16 2 = md := by
  decide +kernel

/-! ### Local and device memory -/

theorem test_witness_ScratchpadWords : base.readP 0 = true ∧ base.iss.fw = false ∧ (withRows base 0).sp.part ≤ 0 ∧
    ¬ (withRows base 1).sp.part ≤ 64 * ((base.lAddr 0 8).toNat / 64) ∧
    ¬ (withRows base 1).sp.part ≤ 64 * ((base.lAddr 0 64).toNat / 64) ∧ 0 ∉ (withRows base 1).sp.bad ∧
    0 ∈ (core0 (withRows base 1) fun k => { k with sp := { k.sp with bad := [0] } }).sp.bad ∧ base.ctx.acted = false ∧
    (withRows base 4095).sp.part ≤ 64 * ((((withRows base 4095).lAddr 0x3F 64).toNat) / 64 + 4032) := by decide +kernel

/-- One row of scratchpad, full or not, poisoned or not. -/
def oneRow (full : Bool) (bad : List Nat) : State :=
  core0 (withRows base 1) fun k => { k with sp := { k.sp with full := Tab.put k.sp.full 0 full, bad := bad } }

theorem test_witness_FullEmptyRows : base.iss.fw = false ∧ (oneRow true [0]).ctx.acted = false ∧ (baseFw.me.repart = none) ∧
    64 * (((oneRow true []).lAddr 0 64).toNat / 64) < (oneRow true []).sp.part ∧
    (oneRow false []).sp.isFull 0 = false ∧ (oneRow true []).sp.isFull 0 = true ∧ 0 ∉ (oneRow true []).sp.bad ∧
    (oneRow true [0]).sp.isFull 0 = true ∧ 0 ∈ (oneRow true [0]).sp.bad := by decide +kernel

/-- Tile 1 of core 0, over the rows 1 and 2 of a partition of four. -/
def withTile (t : Tile) : State := px0 (withRows base 4) fun x => { x with tiles := [(1, t)] }

/-- A bound tile that a collective binding of core 0 waits for. -/
def boundTile : Tile := { bnd := true, st := .filling, rows := 2, first := 1 }

/-- The binding of tile 1. -/
def aBinding : Binding :=
  { key := ⟨0, 0, 1⟩, vrank := 0, asid := 0, core := 0, fw := false, chan := 0, ident := 1, tile := 1, pos := 0,
    desc := ⟨0, 0, 0, false, 0, 0, 2, 0, 0⟩, dva := 0, sw := 0, rl := false, sc := 0, held := [], members := [0], born := 0 }

theorem test_witness_TileStates :
    ((withTile {}).px.tile 1).rows = 0 ∧ (withTile boundTile).ctx.acted = false ∧
    (withTile boundTile).px.tile 1 = boundTile ∧ 64 * (boundTile.first + boundTile.rows) ≤ (withTile boundTile).sp.part ∧
    (core0 (withTile boundTile) fun k => { k with xfers := [{ aCopy with tiles := [1] }] }).me.xfers.any
      (fun f => f.tiles.contains 1) = true ∧
    { withTile boundTile with binds := [{ aBinding with fired := some 2 }] }.binds.any (fun b => b.core == 0 && b.tile == 1 &&
      b.fired.isSome && !b.fin && b.image == none) = true ∧
    { withTile boundTile with binds := [aBinding] }.binds.any (fun b => b.core == 0 && b.tile == 1 &&
      b.fired == none && b.image == none) = true ∧
    (withTile boundTile).me.xfers = [] ∧ (withTile boundTile).binds = [] := by decide +kernel

/-- The binding is being saved. -/
theorem test_witness_TileStates_saving :
    let x : Xfer := { aCopy with kind := .ctxs, desc := [0, 0x100000] }
    let b := { aBinding with image := some 0x100000 }
    let s := { core0 (withTile boundTile) fun k => { k with xfers := [x] } with binds := [b] }
    s.me.xfers = [x] ∧ x.tiles = [] ∧ (x.desc.getD 1 0).setWidth 48 = (0x100000 : Addr) ∧ s.binds = [b] ∧ b.fired = none := by
  decide +kernel

/-- A barrier word in row 0: phase, arrived, need. -/
def barrier (w : Word) : State :=
  core0 (withRows base 1) fun k => { k with sp := { k.sp with rows := [(0, w.setWidth 512)] } }

theorem test_witness_BarrierWords :
    64 * (((barrier 0).lAddr 0 64).toNat / 64) < (barrier 0).sp.part ∧ (barrier 0).sp.bad = [] ∧
    (withS (barrier 0) 1 1).readS 1 = 1 ∧ (barrier 0).readS 1 = 0 := by decide +kernel

/-- The last phase that ends a wait for the phase 0 and the first that does not, each found in the word. -/
theorem test_witness_BarrierWords_phase : rowWord ((barrier 0x7FFF000000030000).sp.row 0) 0 = 0x7FFF000000030000 ∧
    rowWord ((barrier 0x8000000000030000).sp.row 0) 0 = 0x8000000000030000 := by decide +kernel

/-- Core 0 with s1 naming the start of the second page, mapped with some flags, home and owner. -/
def onPage (flags home : Nat) : State := withS (withPage base 1 flags home 0) 1 0x8000000

theorem test_witness_TranslationCaches : { base with turns := [.walk 0 0] }.nextTurn = .walk 0 0 ∧
    { base with turns := [.cached []] }.nextTurn = .cached [] ∧
    base.mem.walkErrs = [] ∧ base.mem.reports = [] ∧ base.mem.recoveries = 0 := by decide +kernel

theorem test_witness_AccessFaults : ∀ k ∈ [AccKind.read, .write, .atomic],
    (onPage (if k = .read then 0xD4 else 0xE4) 0).xlate k 0x8000000 = .denied ∧
    (withS base 1 0x8000000).xlate k 0x8000000 = .none none ∧
    (onPage 0xF6 0).xlate k 0x8000000 = .none (some 0x120010) := by decide +kernel

/-- The destination s0 of a speculative load, which keeps no fault, and another. -/
theorem test_witness_AccessFaults_aside : (onPage 0xD4 0).translate (onPage 0xD4 0).ctxAsid .read 0x8000000 = .denied ∧
    (withS base 1 0x8000000).translate (withS base 1 0x8000000).ctxAsid .read 0x8000000 = .none none ∧
    (onPage 0xF6 0).translate (onPage 0xF6 0).ctxAsid .read 0x8000000 = .none (some 0x120010) ∧ (1#6 ≠ 0) := by
  decide +kernel

/-- The access that s1 names is found by the context, its row local, on memory, reached at once and not poisoned. -/
def plainAt (s : State) (k : AccKind) (va : Word) (ms c : Bool) : Bool :=
  match s.xlate k va with
  | .ok a => !s.mem.stalls a.pa && !s.isRemote a && !isHubRow a.row && !s.mem.bad.contains a.row && a.leaf.ms == ms &&
    a.leaf.c == c
  | _ => false

/-- A page whose home is another module. -/
def afar : State := onPage 0xFC 1

/-- The third 128 MiB page as small pages, the first of them the hub page. -/
def atHub : State :=
  withS (withWords (withWords base 0x120020 [0x8000000000130000]) 0x130000
    [BitVec.ofNat 64 (0xF2 * 2 ^ 56 + hubBase), 0]) 1 0x10000000

/-- A store there that was translated without the memory-side flag, which no leaf of the hub page may lack (R321). -/
def atHubPlain : State :=
  prog0 atHub fun x => { x with sentAs :=
    [(.write, 0x10000000, ⟨hubBase, ⟨true, true, false, false, false, false, 0, hubBase, 0, 0, false⟩⟩)] }

/-- Memory whose row at the page is poisoned. -/
def poisonedRow : State := let s := onPage 0xFC 0; { s with mem := { s.mem with bad := [0x10000000 / 64] } }

/-- The same, memory-side. -/
def afarSide : State := onPage 0xF2 1

/-- The core has an answer for s1's row, under some keys of it. -/
def answered (s : State) (keys : Nat → List Nat) : State :=
  prog0 s fun x => { x with answers := (keys (((reach s .read 0x8000000).map fun a => a.key).getD 0)).map fun n => (n, 0) }

theorem test_witness_DeviceLoads : plainAt (onPage 0xFC 0) .read 0x8000000 false true = true ∧
    poisonedRow.ctx.acted = false ∧ (answered afar fun n => [n, poisonKey n]).ctx.acted = false ∧
    (reach (onPage 0xFC 0) .read 0x8000000).isSome = true ∧
    plainAt (onPage 0xF8 0) .read 0x8000000 false false = true ∧ plainAt (onPage 0xF2 0) .read 0x8000000 true false = true ∧
    base.mem.posted = [] ∧ base.mem.adds = [] ∧ (0#6 = 0) ∧ (1#6 ≠ 0) ∧
    (reach atHub .read 0x10000000).any (fun a => isHubRow a.row && !atHub.mem.stalls a.pa && !atHub.isRemote a) = true ∧
    (reach poisonedRow .read 0x8000000).any (fun a => poisonedRow.mem.bad.contains a.row && !poisonedRow.mem.stalls a.pa &&
      !poisonedRow.isRemote a && !isHubRow a.row) = true := by decide +kernel

theorem test_witness_DeviceLoads_remote : ∀ keys ∈ [fun _ => [], fun n => [n], fun n => [n, poisonKey n]],
    (reach (answered afar keys) .read 0x8000000).any (fun a => (answered afar keys).isRemote a &&
      ((answered afar keys).ctx.answers.find? fun e => e.1 = a.key).isSome == !(keys 0).isEmpty &&
      ((answered afar keys).ctx.answers.any fun e => e.1 = poisonKey a.key) == ((keys 0).length == 2)) = true := by
  decide +kernel

/-- Operations that core 0's program context posted to the row at the page, each local or for another module. -/
def posting (s : State) (outs : List (Option (Nat × Flit))) : State :=
  { s with mem := { s.mem with
    posted := (outs.zip (List.range outs.length)).map fun e =>
      { by_ := .context 0 false, row := 0x10000000 / 64, va := 0x8000000, page := 0x10000000, op := .store, word := 0,
        w32 := false, val := 0, rowVal := 0, born := 0, made := e.2, out := e.1 }
    nextId := outs.length } }

/-- A flit for module 1. -/
def outward : Option (Nat × Flit) := some (1, { w0 := 0, w1 := 0, w2 := 0, w3 := 0, payload := 0 })

/-- The access that s1 names, through the context. -/
def reachOwn (s : State) (k : AccKind) : Option Acc :=
  match s.xlate k 0x8000000 with
  | .ok a => some a
  | _ => none

theorem test_witness_DeviceStores : plainAt (onPage 0xFC 0) .write 0x8000000 false true = true ∧
    base.mem.posted = [] ∧ base.mem.adds = [] ∧ base.mem.log = [] ∧
    (match atHubPlain.xlate .write 0x10000000 with
      | .ok a => isHubRow a.row && !a.leaf.ms && !atHubPlain.mem.stalls a.pa && !atHubPlain.isRemote a &&
        (atHubPlain.beforeStore a).isSome
      | _ => false) = true ∧
    plainAt (onPage 0xF2 0) .write 0x8000000 true false = true ∧
    (reachOwn afar .write).any (fun a => afar.isRemote a) = true ∧
    (reachOwn poisonedRow .write).any (fun a => ((poisonedRow.beforeStore a).any fun t => t.mem.bad.contains a.row) &&
      !poisonedRow.isRemote a && !a.leaf.ms) = true ∧
    (reachOwn (onPage 0xFC 0) .write).any (fun a => ((onPage 0xFC 0).beforeStore a).any fun t =>
      !t.mem.bad.contains a.row) = true ∧
    (let s := posting (onPage 0xF8 0) [outward, none]
     (reachOwn s .write).any fun a => (s.beforeStore a).isNone && !a.leaf.ms) = true := by decide +kernel

/-- A dirty line of another row in the core's array. -/
theorem test_witness_DeviceStores_line :
    let w : WriteRec := { ident := 1, row := 0x10000000 / 64 + 1, val := 5, prev := 0, by_ := .context 0 false, rank := none, dirty := true,
                          all := none, homed := false, pub := [], reached := [], spread := [], viewed := [.context 0 false],
                          line := some (0, 64) }
    let s := onPage 0xFC 0
    let t := { s with mem := { s.mem with log := [w] } }
    (reachOwn t .write).any (fun a => a.leaf.c && w.row != a.row && (t.beforeStore a).isSome) = true := by decide +kernel

/-- Memory whose row at the page is poisoned, on a memory-side page. -/
def poisonedSide : State := let s := onPage 0xF2 0; { s with mem := { s.mem with bad := [0x10000000 / 64] } }

/-- The hypotheses of AtomicsComplete: no operation of the context, a plain row, and a form with or without a result. -/
theorem test_witness_AtomicsComplete : plainAt (onPage 0xF2 0) .atomic 0x8000000 true false = true ∧
    (onPage 0xF2 0).mem.posted = [] ∧ (onPage 0xF2 0).mem.adds = [] ∧ ((0#6 = 0) ∧ (0#1 = 0)) ∧ (1#6 ≠ 0) := by decide +kernel

theorem test_witness_Atomics_poisoned : (poisonedSide.release 4).any (fun t => t.mem.bad.contains (0x10000000 / 64)) = true ∧
    (reachOwn poisonedSide .atomic).any (fun a => a.row == 0x10000000 / 64 && !poisonedSide.isRemote a) = true ∧
    (match atHub.xlate .atomic 0x10000000 with
      | .ok a => isHubRow a.row && !atHub.mem.stalls a.pa && !atHub.isRemote a &&
        (atHub.drain atHub.agent (fun p => p.page == a.page) true).isSome && (atHub.release 4).isSome
      | _ => false) = true ∧ afarSide.mem.posted = [] := by decide +kernel

theorem test_witness_Atomics : plainAt (onPage 0xF2 0) .atomic 0x8000000 true false = true ∧
    (((onPage 0xF2 0).release 4).any fun t => t.mem.bad == []) = true ∧
    (let s := posting (onPage 0xF2 0) [none]
     ((s.drain s.agent (fun p => p.page == 0x10000000) true).any fun t => t.mem.bad == []) = true ∧
     (s.release 4).isSome = true) ∧
    ((posting (onPage 0xF2 0) [outward]).release 4) = none := by decide +kernel

theorem test_witness_Atomics_remote : ∀ keys ∈ [fun _ => [], fun n => [answerKey n],
      fun n => [answerKey n, poisonKey (answerKey n)]],
    (reachOwn (answered afarSide keys) .atomic).any (fun a => (answered afarSide keys).isRemote a &&
      ((answered afarSide keys).ctx.answers.find? fun e => e.1 = answerKey a.key).isSome == !(keys 0).isEmpty &&
      ((answered afarSide keys).ctx.answers.any fun e => e.1 = poisonKey (answerKey a.key)) == ((keys 0).length == 2)) = true := by
  decide +kernel

/-- The firmware's context with a resident rank, its block on this module or on another. -/
def fwRank (home : Nat) : State :=
  let s := withPage baseFw 1 0xFC home 0
  { s with disp := { s.disp with ranks := [{ vrank := 0, asid := 0, block := 0x8000000 }] } }

theorem test_witness_OrderedAdd : plainAt (onPage 0xF2 0) .atomic 0x8000000 true false = true ∧
    (reach atHub .atomic 0x10000000).any (fun a => isHubRow a.row && !atHub.mem.stalls a.pa && !atHub.isRemote a) = true ∧
    (reachOwn afarSide .atomic).any (fun a => afarSide.isRemote a) = true ∧
    (withStrand (onPage 0xF2 0) strand).me.strand = some strand ∧ base.iss.fw = false ∧
    (fwRank 0).iss.fw = true ∧ rowsHere (fwRank 0) ((fwRank 0).rankRows 0) = true ∧
    ((fwRank 0).rowsRead ((fwRank 0).rankRows 0)).rankHere 0 = true ∧
    rowsHere (fwRank 1) ((fwRank 1).rankRows 0) = false := by decide +kernel

/-- A dirty line that core 1 wrote and core 0's program context holds in its view, in some row. -/
def viewing (row : Nat) : State :=
  let w : WriteRec := { ident := 1, row := row, val := 5, prev := 0, by_ := .context 1 false, rank := none, dirty := true,
                        all := none, homed := false, pub := [], reached := [(.context 0 false, 1)], spread := [],
                        viewed := [.context 0 false] }
  let s := posting base [none]
  { s with mem := { s.mem with log := [w] } }

theorem test_witness_Phase : ∀ row ∈ [0x400000, tierBase / 64],
    let s := viewing row
    (∀ e ∈ s.mem.log, e.inView s.agent = true ∧ (s.mem.recs e.row).find? (fun w => w.dirty) = some e) ∧
    (∀ e ∈ s.mem.posted, e.by_ = s.agent) ∧ s.mem.posted.length = 1 ∧
    (∀ n ∈ [4, 10, 11], ((s.publish s.agent s.agent n).mem.log.any fun e => s.reaches e s.agent &&
      (s.publish s.agent s.agent n).member ((s.publish s.agent s.agent n).scopeOf n s.agent) e.row e.by_ e.rank) = true) ∧
    inTier (64 * row) 64 = (row != 0x400000) := by decide +kernel

/-! ### Engine commands, channels and queues -/

/-- A partition of 64 rows whose rows 0 and 1 hold a descriptor, a ring that holds tile 1, and register s1 = 0. -/
def described (d : List Word) : State :=
  px0 (core0 (withRows base 64) fun k => { k with sp := { k.sp with rows :=
    [(0, ofWords (d.take 8 ++ List.replicate (8 - d.length) 0)), (1, 0)] } }) fun x =>
    { x with tiles := [(1, { rows := 8, first := 8 })], rings := [(0, { nt := 1, pos := [(0, 1)] })] }

/-- A descriptor: source, destination, length and word 3. -/
def desc (src dst len w3 : Word) : List Word := [src, dst, len, w3]

/-- A command passes its checks. -/
def passes (k : XKind) (d : List Word) : Bool :=
  let s := described d
  match s.readDesc 0 with
  | .ok d0 => (got (s.checkCmd k none 0 d0 0 false false 0)).isSome
  | .error _ => false

theorem test_witness_EngineCommands : passes .copy (desc 0x200 0x400 8 5) = true ∧
    passes .gath (desc 0x2000 0x400 8 0x200000004) = true ∧ passes .scat (desc 0x400 0x2000 8 0x400000001) = true ∧
    passes .wstr (desc 0x2000 0 512 0x600000000) = true ∧ passes .hist (desc 0 0x400 1024 0x800000004) = true ∧
    base.chanOk 0 = true ∧ baseFw.chanOk 4 = false ∧ base.quiescing 0 = false ∧
    { base with hub := { base.hub with quiesced := [0] } }.quiescing 0 = true ∧
    (got ((described []).readDesc 0)).any (fun d0 => (described []).indexPoison .copy (resolveDesc base.ctx d0) == none &&
      (described []).cmdReason .copy false 0 d0 (resolveDesc base.ctx d0) == some 1) = true := by decide +kernel

theorem test_witness_Triggers : let s := described (desc 0x200 0x400 0x100000008 5)
    s.chanOk 0 = true ∧ baseFw.chanOk 4 = false ∧ opKind 0 = some .copy ∧
    (got (s.readDesc 0)).any (fun d0 => d2 d0 32 4 == 1 && opKind (d3 d0 33 3) == some .copy &&
      (got (s.checkCmd .copy (some (0, 1)) 1 d0 0 false false 0)).isSome) = true := by decide +kernel

theorem test_witness_ChannelWaits : base.chanOk 0 = true ∧ baseFw.chanOk 4 = false ∧
    (let s := prog0 base fun x => { x with chans := [(0, { iss := 2, tw := 1 })] }
     ¬ (2 : Nat) ≤ (Tab.get {} s.ctx.chans 0 : Chan).tw.toNat ∧
     (1 : Nat) ≤ (Tab.get {} s.ctx.chans 0 : Chan).tw.toNat ∧
     ((Tab.get {} s.ctx.chans 0 : Chan).iss.toNat + 2 ^ 64 - (Tab.get {} s.ctx.chans 0 : Chan).tw.toNat) % 2 ^ 64 = 1) := by
  decide +kernel

/-- An atomic of core 0's program context that is still on its way. -/
def adding (s : State) : State :=
  { s with mem := { s.mem with posted :=
    [{ by_ := .context 0 false, row := 0x20000000 / 64, va := 0, page := 0x20000000, op := .aadd, word := 0, w32 := false,
       val := 0, rowVal := 0, born := 0, made := 0 }] } }

/-- A pinned strand that may suspend, or has an atomic on its way, or whose record another module holds. -/
theorem test_witness_ChannelWaits_strand : let k := { strand with pin := 1 }
    let s := withStrand base k
    let t := withStrand farStrand { k with record := 0x8000000 }
    s.me.strand = some k ∧ base.iss.fw = false ∧ (adding s).mem.posted.any (fun p => p.by_ == s.agent && p.op != .store) = true ∧
    s.mem.posted = [] ∧ s.mem.adds = [] ∧ s.strandWaits = none ∧ t.mem.posted = [] ∧ t.mem.adds = [] ∧
    t.strandWaits.isSome = true := by decide +kernel

/-- A queue of 16 slots, its header at the start of a memory-side page and its slots 4 KiB behind, with its indexes, its
word 3 and the first word of slot 0's last word. -/
def queued (wi ri w3 last : Word) : State :=
  withWords (withWords (onPage 0xF2 0) 0x10000000 [wi, ri, 0x8001000, w3]) 0x10001038 [last]

/-- The header of s1's queue. -/
def headerOf (s : State) : Option QHdr := (reach s .atomic 0x8000000).map fun a => (s.queueHdr 0 0x8000000 a).1

theorem test_witness_QueueInstructions : plainAt (queued 0 0 4 0) .atomic 0x8000000 true false = true ∧
    (headerOf (queued 0 0 4 0)).map (fun h => (h.bad, h.mir, h.base)) = some (false, false, 0x8001000) ∧
    (headerOf (queued 0 0 25 0)).map (fun h => h.bad) = some true ∧ (queued 0 0 4 0).quiescing 0 = false ∧
    { queued 0 0 4 0 with hub := { (queued 0 0 4 0).hub with quiesced := [0] } }.quiescing 0 = true ∧
    (reachOwn afarSide .atomic).any (fun a => afarSide.isRemote a && afarSide.ctx.answers.all fun e => e.1 != a.key) = true ∧
    poisonedSide.mem.bad = [0x10000000 / 64] ∧ (queued 0 0 4 0).mem.posted = [] ∧ (queued 0 0 4 0).mem.adds = [] := by
  decide +kernel

/-- What the context has posted to the queue's page comes first: it has none, or it can not be performed yet. -/
theorem test_witness_QueueInstructions_order :
    (reachOwn (queued 0 0 4 0) .atomic).any (fun a =>
      (queued 0 0 4 0).drain (queued 0 0 4 0).agent (fun x => x.page == a.page) true == some (queued 0 0 4 0)) = true ∧
    (let s := posting (queued 0 0 4 0) [outward]
     (reachOwn s .atomic).any fun a => (s.drain s.agent (fun x => x.page == a.page) true).isNone && !s.isRemote a) = true ∧
    ((posting (queued 0 0 4 0) [outward]).release 4) = none := by decide +kernel

/-- The header of s1's queue, and the queue's state as it was when it was found. -/
def headerIn (s : State) : Option (QHdr × State) := (reachOwn s .atomic).map fun a => s.queueHdr 0 0x8000000 a

/-- A queue with a mirror at node 5, whose header for this side stands at some address; 0x10000000 is on another module. -/
def mirrored (mra : Word) : State := withWords (withPage (queued 0 0 11268 0) 2 0xF2 1 0) 0x10000028 [mra]

/-- What an append to s1's queue, with a packet of zero, answers: 0 full, 1 done, 2 later, 3 a fault, 4 an invalid header. -/
def appends (s : State) : Option Nat :=
  (s.release 4).bind fun s1 => match (s1.append s1.agent 0 0x8000000 0 none).1 with
  | .full => some 0
  | .done _ => some 1
  | .later => some 2
  | .fault _ _ _ => some 3
  | .bad => some 4
  | .poison => some 5

theorem test_witness_QueueInstructions_full : appends (queued 16 0 4 0) = some 0 := by decide +kernel

theorem test_witness_QueueInstructions_enq : appends (queued 15 0 4 0) = some 1 := by decide +kernel

theorem test_witness_QueueInstructions_unmapped : appends (withWords (queued 0 0 4 0) 0x10000010 [0x20000000]) = some 3 := by
  decide +kernel

theorem test_witness_QueueInstructions_mirror :
    (headerIn (mirrored 0x8002000)).any (fun e => e.1.mir && !e.1.bad && (e.2.boundRi 0 e.1).isSome) = true ∧
    (headerIn (mirrored 0x10000000)).any (fun e => e.1.mir && !e.1.bad && (e.2.boundRi 0 e.1).isNone) = true := by
  decide +kernel

/-- A dirty line of the context over the queue's header, with another word 3 and mirror, that is written back on the way. -/
def overwritten (w3 mra : Word) : State :=
  let s := withPage (queued 0 0 260 0) 2 0xF2 1 0
  let w : WriteRec := { ident := 1, row := 0x10000000 / 64, val := ofWords [0, 0, 0x8001000, w3, 0, mra, 0, 0], prev := 0,
                        by_ := .context 0 false, rank := none, dirty := true, all := none, homed := false, pub := [],
                        reached := [], spread := [], viewed := [.context 0 false] }
  { s with mem := { s.mem with log := [w] } }

theorem test_witness_QueueInstructions_spoilt : appends (overwritten 25 0) = some 4 := by decide +kernel

theorem test_witness_QueueInstructions_later : appends (overwritten 11268 0x10000000) = some 2 := by decide +kernel

theorem test_witness_QueueInstructions_before : ∀ p ∈ [(25, 0), (11268, 0x10000000)],
    (headerIn (overwritten (BitVec.ofNat 64 p.1) (BitVec.ofNat 64 p.2))).any (fun e =>
      !e.1.bad && !e.1.mir && e.1.qsc == 4 && (e.2.boundRi 0 e.1).isSome) = true := by decide +kernel

/-- What a take finds in the oldest slot of s1's queue: whether its packet is there. -/
def takes (s : State) : Option Bool :=
  (headerIn s).bind fun e => (got (s.dataAcc .read (e.1.slot e.1.ri.toNat) 0)).bind fun slot =>
    (got (e.2.slotRow (e.1.slot e.1.ri.toNat) slot)).map fun r =>
      r.2.packetIn (0x10000000 / 64) e.1 r.1 && !s.isRemote slot

/-- The queue of s1 names a waiter queue, and core 0 holds a strand. -/
def withWaiters (s : State) (wq : Word) (k : Strand) : State := withStrand (withWords s 0x10000020 [wq]) k

theorem test_witness_QueueInstructions_deq : takes (queued 1 0 4 0x8000000000000000) = some true ∧
    takes (queued 1 0 4 0) = some false ∧ (headerIn (queued 0 0 4 0)).map (fun e => e.1.ri == e.1.wi) = some true ∧
    (queued 0 0 4 0).ctx.acted = false ∧
    (let s := withWaiters (queued 0 0 4 0) 0x8000000 strand
     (headerIn s).map (fun e => e.1.wq) = some 0x8000000 ∧ s.ctx.waits = [] ∧ s.outstanding = false ∧ s.addsOut = false ∧
     s.strandWaits = none ∧ (adding s).addsOut = true ∧
     (got (s.dataAcc .atomic 0x8000000 1)).any (fun w => !s.isRemote w) = true ∧
     (got (s.dataAcc .write 0x8001000 1)).isSome = true ∧
     (core0 s fun k => { k with cycle := 5, xfers := [aCopy] }).outstanding = true) := by decide +kernel

/-- The strand's record on another module, and a waiter queue whose header is poisoned or invalid. -/
theorem test_witness_QueueInstructions_waiters :
    (let s := withWaiters (withPage (queued 0 0 4 0) 2 0xFC 1 0) 0x8000000 { strand with record := 0x10000000 }
     s.strandWaits.isSome = true ∧ s.addsOut = false) ∧
    (let s := withWaiters (queued 0 0 4 0) 0x8002000 strand
     let t := { s with mem := { s.mem with bad := [0x10002000 / 64] } }
     (got (t.dataAcc .atomic 0x8002000 1)).any (fun w => t.mem.bad.contains w.row && !t.isRemote w) = true ∧
       (got ((withWords s 0x10002018 [25]).dataAcc .atomic 0x8002000 1)).any (fun w =>
         ((withWords s 0x10002018 [25]).queueHdr 0 0x8002000 w).1.bad) = true) := by decide +kernel

/-- The slot that an append writes next, or a take reads, is found, local, reached at once and not poisoned. -/
def slotPlain (s : State) (k : AccKind) (va : Word) : Bool :=
  match s.translate 0 k va with
  | .ok a => !s.mem.stalls a.pa && !s.isRemote a && !isHubRow a.row && a.leaf.ms && a.row != 0x10000000 / 64 &&
    !s.mem.bad.contains a.row
  | _ => false

/-- An enqueue to the queue before and after its publication: header, room and slot. -/
def enqueuing (wi : Word) : Bool :=
  let s := queued wi 0 4 0
  let s1 := s.publish s.agent s.agent 0
  plainAt s .atomic 0x8000000 true false && plainAt s1 .atomic 0x8000000 true false &&
    (headerIn s).any (fun e => !e.1.bad && !e.1.mir && e.1.qsc == 0) &&
    (headerIn s1).any (fun e => !e.1.bad && !e.1.mir && e.1.lc == 4 && e.1.wi - e.1.ri == wi &&
      slotPlain s1 .write (e.1.slot e.1.wi.toNat)) &&
    !s.quiescing 0 && s.mem.posted == [] && s.mem.adds == [] && !s.ctx.acted

theorem test_witness_QueueCompletion : enqueuing 15 = true ∧ enqueuing 16 = true := by decide +kernel

theorem test_witness_QueueCompletion_deq : let s := queued 1 0 4 0x8000000000000000
    (headerIn s).any (fun e => e.1.ri != e.1.wi && slotPlain s .read (e.1.slot e.1.ri.toNat) &&
      e.1.ri.toNat / 2 ^ e.1.lc % 2 == 0) = true ∧ s.hub.mirrors = [] ∧
    ((reachOwn s .atomic).any fun a => rowWord (s.peek { a with pa := a.pa + 0x1000 }) 7 == 0x8000000000000000) = true := by
  decide +kernel

theorem test_witness_QueueAppend : (queued 1 0 4 0).translate 0 .write 0x8001000 ≠ .denied ∧
    (reach (queued 1 0 4 0) .write 0x8001040).any (fun a => !isHubRow a.row && a.row != 0x10000000 / 64) = true ∧
    (2 ^ 4 ≤ (16#64 - 0).toNat) ∧ (15#64 - 0).toNat < 2 ^ 4 ∧
    appends poisonedSide = some 5 := by decide +kernel

theorem test_witness_QueueAppend_bad : appends (queued 0 0 25 0) = some 4 := by decide +kernel

theorem test_witness_QueueAppend_mirror : appends (mirrored 0x8002000) = some 1 := by decide +kernel

/-- A resident rank whose block stands at 0x8000000, on a page with some flags, with some of its words, and core 0's
program context of it. -/
def rankedOn (flags : Nat) (w : List Word) : State :=
  let s := withWords (onPage flags 0) 0x10000000 w
  { s with disp := { s.disp with ranks := [{ vrank := 0, asid := 0, block := 0x8000000 }] } }

/-- The same on a cached page. -/
def ranked (w : List Word) : State := rankedOn 0xFC w

theorem test_witness_StepArrival : let s := rankedOn 0xF2 []
    rowsHere s (s.rankRows s.ctx.vrank) = true ∧ (s.rowsRead (s.rankRows s.ctx.vrank)).rankHere s.ctx.vrank = true ∧
    s.rankBlock s.ctx.vrank = some 0x8000000 ∧ s.disp.records = [] ∧
    (reach s .read 0x8000000).any (fun a => !isHubRow a.row && a.leaf.ms && !s.isRemote a && !s.mem.bad.contains a.row &&
      !s.mem.stalls a.pa) = true ∧
    rowsHere farRank (farRank.rankRows farRank.ctx.vrank) = false := by decide +kernel

/-- A parameter block of a reduction at 0x8000000: word 0, and its result at 0x8001000. -/
def reducing (w0 : Word) : State := withWords (onPage 0xFC 0) 0x10000000 [w0, 0x8001000, 0, 0, 0x8002000, 0x8003000]

/-- A channel on which n transfers are outstanding. -/
def crowded (s : State) (n : Word) : State := prog0 s fun x => { x with chans := [(0, { iss := n })] }

/-- The state from which the engine of a reduction reads its block, with an acquire or without. -/
def acquiring (s : State) (q : Bool) : State :=
  let e : Agent := .engine 0 false 0 (s.nextIdent 0)
  if q then (s.shareView s.agent e).snapshot e s.agent 4 else s.shareView s.agent e

/-- The 16 words of the block, as the engine reads it. -/
def blockWords (s : State) : List Word :=
  let e : Agent := .engine 0 false 0 (s.nextIdent 0)
  match (acquiring s true).paramRow e 0x8000000 with
  | .ok r => match r.2.paramRow e 0x8000040 with
    | .ok r1 => rowWords r.1 ++ rowWords r1.1
    | .error _ => []
  | .error _ => []

theorem test_witness_ReductionCommand :
    let s := reducing 0x0031000000000001
    s.chanOk 0 = true ∧ (got ((acquiring s false).dataAcc .read 0x8000000 0)).isSome = true ∧ redBad (blockWords s) = false ∧
    (blockWords s).length = 16 ∧
    redBad (blockWords (reducing 0)) = true ∧ (got (s.probeAll 0 (redSpans (blockWords s)) [])).isSome = true ∧
    s.quiescing 0 = false ∧ s.mem.red = [] ∧ 256 ≤ (((crowded s 256).chanAt 0).iss - ((crowded s 256).chanAt 0).tw).toNat := by
  decide +kernel

/-- A stack whose reduction engine holds 64 blocks. -/
theorem test_witness_ReductionCommand_full :
    let s := reducing 0x0031000000000001
    let b : RedBlock := { stack := s.mem.stackOf 0x10000000, core := 1, fw := false, chan := 0, ident := 1, asid := 0, words := [],
                          rl := false, sc := 0 }
    let t := { s with mem := { s.mem with red := List.replicate 64 b } }
    64 ≤ (t.mem.red.filter fun x => x.stack = t.mem.stackOf 0x10000000).length := by decide +kernel

/-- Rank 0 with an endpoint table of one group of the ranks 0 and 1, and a collective descriptor in rows 0 and 1 that
binds tile 1. -/
def binding (rows job : Nat) : State :=
  let d := described [0x80000040000001, 1, 0, 0, 0x400]
  let s := ranked (List.replicate 12 0 ++ [0x8001000])
  let m := (withWords (withWords s 0x10001000 [BitVec.ofNat 64 job, 1]) 0x10001040 [0x8002000, 2]).mem
  let m' := (withWords { s with mem := m } 0x10002000 [0x10000]).mem
  px0 { d with mem := m', disp := s.disp } fun x => { x with tiles := [(1, { rows := rows, first := 8 })] }

/-- The descriptor that cbind reads. -/
def bindWords (s : State) : List Word := (got (s.readDesc 0)).getD []

theorem test_witness_CollectiveBind : let s := binding 2 7
    s.chanOk 0 = true ∧ s.bindBad (bindWords s) = false ∧ (binding 0 7).bindBad (bindWords (binding 0 7)) = true ∧
    s.quiescing s.collAsid = false ∧
    (collDesc (bindWords s)).kind = 0 ∧ dw (bindWords s) 3 = 0 ∧
    rowsHere s (s.rankRows s.ctx.vrank) = true ∧ (s.rowsRead (s.rankRows s.ctx.vrank)).rankHere s.ctx.vrank = true ∧
    256 ≤ (((crowded s 256).chanAt 0).iss - ((crowded s 256).chanAt 0).tw).toNat ∧
    rowsHere farRank (farRank.rankRows farRank.ctx.vrank) = false := by decide +kernel

theorem test_witness_CollectiveBind_endpoint :
    (got ((binding 2 7).endpoint 0)).map (fun x => x.1) = some (some (7, [0, 1])) := by decide +kernel

theorem test_witness_CollectiveBind_noEndpoint :
    (got ((binding 2 0x10000).endpoint 0)).map (fun x => x.1) = some none := by decide +kernel

/-- The rank's backlog header at a word-10 address and its one slot, each on this module or on another. -/
def backlogged (blog base_ : Word) : State :=
  withWords (withWords (withPage (ranked []) 2 0xFC 1 0) 0x10000050 [blog]) 0x10003000 [1, 0, base_, 4]

theorem test_witness_CollectiveBind_backlog :
    rowsHere (backlogged 0x8003000 0x8004000) ((backlogged 0x8003000 0x8004000).blogRow 0) = true := by decide +kernel

theorem test_witness_CollectiveBind_farBacklog :
    rowsHere (backlogged 0x10000000 0) ((backlogged 0x10000000 0).blogRow 0) = false := by decide +kernel

theorem test_witness_CollectiveBind_ring :
    rowsHere (backlogged 0x8003000 0x8004000) ((backlogged 0x8003000 0x8004000).ringRows 0) = true := by decide +kernel

theorem test_witness_CollectiveBind_farRing :
    rowsHere (backlogged 0x8003000 0x10000000) ((backlogged 0x8003000 0x10000000).ringRows 0) = false := by decide +kernel

/-- The rows that a member of two copies out of a tile of two rows, by the kinds of R352, and the probe of them. -/
theorem test_witness_CollectiveBind_copy : let s := onPage 0xFC 0
    (collDesc (bindWords (binding 2 7))).copyRows 2 0 2 = 2 ∧
    (got (s.probeSpan 0 ⟨true, ((0x8000000#64).toNat : Int), 64 * 2⟩ [])).isSome = true := by decide +kernel

/-! ### Vectors and matrices -/

theorem test_witness_SourcePorts : (31#6).toNat < 32 ∧ 32 ≤ (32#6).toNat := by decide

/-- Magnitudes to be rounded: zero, one in its binade, one of E4M3 that rounds above its largest, and a subnormal one. -/
theorem test_witness_Rounding : 5 < 6 ∧ (2 ^ 32 - 1 : Nat) < 2 ^ 32 ∧ 0 < 1 ∧
    ((2 : ℚ) ^ (9 : Int) ≤ 1000 ∧ (1000 : ℚ) < (2 : ℚ) ^ (10 : Int)) ∧ fmtE4M3.maxMag = 0x7E ∧ fmtE4M3.bias = 7 ∧
    (2 ^ 3 + 6 : ℚ) * (2 : ℚ) ^ (15 - 7 - 3 : Int) < ⌊(1000 : ℚ) / (2 : ℚ) ^ (9 - 3 : Int)⌋ * (2 : ℚ) ^ (9 - 3 : Int) ∧
    ((2 : ℚ) ^ (-8 : Int) ≤ 1 / 256 ∧ (1 / 256 : ℚ) < (2 : ℚ) ^ (-7 : Int)) ∧
    (0 < (⌊(1 / 256 : ℚ) / (2 : ℚ) ^ (-6 - 3 : Int)⌋ : ℚ) * (2 : ℚ) ^ (-6 - 3 : Int) ∧
      (⌊(1 / 256 : ℚ) / (2 : ℚ) ^ (-6 - 3 : Int)⌋ : ℚ) * (2 : ℚ) ^ (-6 - 3 : Int) < (2 : ℚ) ^ (1 - 7 : Int)) := by
  decide +kernel

/-- Each lane format has a signalling NaN, an infinity, a finite value, a zero and a subnormal one. -/
theorem test_witness_FloatSpecials : ∀ F ∈ [fmtF64, fmtF32, fmtF16, fmtBf16],
    let ex (x : Nat) : Nat := x / 2 ^ F.fb % 2 ^ F.eb
    let fr (x : Nat) : Nat := x % 2 ^ F.fb
    let inf := (2 ^ F.eb - 1) * 2 ^ F.fb
    (ex (inf + 1) = 2 ^ F.eb - 1 ∧ fr (inf + 1) ≠ 0 ∧ fr (inf + 1) < 2 ^ (F.fb - 1)) ∧ (ex inf = 2 ^ F.eb - 1 ∧ fr inf = 0) ∧
    ex (2 ^ F.fb) < 2 ^ F.eb - 1 ∧ ex (2 ^ F.fb) ≠ 0 ∧ (ex 0 = 0 ∧ fr 0 = 0) ∧ (ex 1 = 0 ∧ fr 1 ≠ 0) ∧
    inf + 1 < 2 ^ F.width := by decide +kernel

/-- The NaN of E4M3, which has no infinity, a value between two integers, and one outside the range of an integer. -/
theorem test_witness_ConversionSpecials : fmtE4M3.noInf = true ∧ 0x7F / 2 ^ fmtE4M3.fb % 2 ^ fmtE4M3.eb = 2 ^ fmtE4M3.eb - 1 ∧
    0x7F % 2 ^ fmtE4M3.fb = 2 ^ fmtE4M3.fb - 1 ∧ fmtE5M2.noInf = false ∧ 0x7C / 2 ^ fmtE5M2.fb % 2 ^ fmtE5M2.eb = 2 ^ fmtE5M2.eb - 1 ∧
    0x7C % 2 ^ fmtE5M2.fb = 0 ∧ (2 ^ 3 + 4 : ℚ) * (2 : ℚ) ^ (7 - 7 - 3 : Int) - ⌊(3 / 2 : ℚ)⌋ = 1 / 2 ∧
    (127 : Int) < 448 ∧ (8 ∈ [8, 16, 32, 64]) := by decide +kernel

/-- A ring 0 whose head is a ready tile of 32 rows of scratchpad, with a format. -/
def beating (fmt : Word) (rows : List (Nat × Row)) : State :=
  px0 (core0 (withRows base 64) fun k => { k with sp := { k.sp with rows := rows } }) fun x =>
    { x with
      fmt := fmt
      tiles := [(1, { rv := true, st := .ready, vr := 32, rows := 32, first := 0 })]
      rings := [(0, { nt := 1, pos := [(0, 1)] })] }

/-- The next rows of ring 0 are there to be read, and all zero. -/
def zeroRows (s : State) (n : Nat) : Bool :=
  (s.px.ring 0).nt != 0 && (s.px.tile (s.px.headTile 0)).st == .ready && s.tileCfg (s.px.tile (s.px.headTile 0)) &&
    decide ((s.px.ring 0).rcur + n ≤ (s.px.tile (s.px.headTile 0)).vr) && (List.range n).all fun j =>
      let i := (s.px.tile (s.px.headTile 0)).first + (s.px.ring 0).rcur + j
      !s.sp.bad.contains i && s.sp.row i == 0

theorem zeroRows_has (s : State) (n : Nat) (h : zeroRows s n = true) : s.RingHas 0 (List.replicate n 0) := by
  simp only [zeroRows, Bool.and_eq_true, bne_iff_ne, beq_iff_eq, decide_eq_true_eq, List.all_eq_true, List.mem_range,
    Bool.not_eq_true', List.contains_eq_mem, decide_eq_false_iff_not] at h
  obtain ⟨⟨⟨⟨h1, h2⟩, h3⟩, h4⟩, h5⟩ := h
  refine ⟨h1, h2, h3, by rwa [List.length_replicate], fun j hj => ?_⟩
  rw [List.length_replicate] at hj
  exact ⟨(h5 j hj).1, by rw [List.getElem?_replicate, if_pos hj, (h5 j hj).2]⟩

theorem test_witness_IntegerBeat : (beating 0x11FE0000 []).RingHas 0 (List.replicate 24 0) ∧
    (List.replicate 24 (0 : Row)).length = 24 ∧ (beating 0x11FE0000 []).fmt.getLsbD 13 = false ∧
    (beating 0x2000 []).fmt.getLsbD 13 = true ∧
    bitsOf (0x11FE0000#64).toNat 28 4 = 1 ∧ bitsOf (0x11FE0000#64).toNat 24 4 = 1 ∧ bitsOf (0x11FE0000#64).toNat 16 2 = 2 ∧
    bitsOf (0x11FE0000#64).toNat 14 2 = 0 :=
  ⟨zeroRows_has _ _ (by decide +kernel), by decide +kernel⟩

/-- With 8-bit slots and ring rows full of ones in plane 0, a cell's bound reaches its limit where 64 more words of
product would take it there. -/
theorem test_witness_IntegerBeat_bound :
    let s := px0 (beating 0x11000000 ((List.range 24).map fun i => (i, ~~~0))) fun x => { x with mx := { x.mx with g := [(0, 127)] } }
    (got (s.ringPair 0 0 false false)).isSome = true ∧ 2 ^ 7 ≤ s.mx.bound 0 0 0 + 1 := by decide +kernel

theorem test_witness_DiagonalBeat : let s := beating 0x33002000 []
    s.RingHas 0 (List.replicate 8 0) ∧ (List.replicate 8 (0 : Row)).length = 8 ∧
    s.fmt.getLsbD 13 = true ∧ bitsOf s.fmt.toNat 28 4 = 3 ∧ bitsOf s.fmt.toNat 24 4 = 3 ∧
    (beating 0x11FE0000 []).fmt.getLsbD 13 = false :=
  ⟨zeroRows_has _ _ (by decide +kernel), by decide +kernel⟩

theorem test_witness_RingReads : let s := beating 0 []
    (s.px.ring 0).nt ≠ 0 ∧ (s.px.ring 1).nt = 0 ∧ (s.px.tile 1).st = .ready ∧ (s.px.tile 1).rows ≠ 0 ∧
    64 * ((s.px.tile 1).first + (s.px.tile 1).rows) ≤ s.sp.part ∧ (s.px.ring 0).rcur + 16 ≤ (s.px.tile 1).vr ∧
    s.sp.bad = [] ∧ (core0 s fun k => { k with sp := { k.sp with bad := [3] } }).sp.bad = [3] ∧
    (px0 s fun x => { x with rings := [(0, { nt := 1, pos := [(0, 1)], rcur := 16 })] }).px.ring 0 =
      { nt := 1, pos := [(0, 1)], rcur := 16 } := by decide +kernel

theorem test_witness_Drains : (beating 0x33002000 []).fmt.getLsbD 13 = true ∧ base.fmt.getLsbD 13 = false ∧
    bitsOf base.fmt.toNat 14 2 = 0 ∧ bitsOf (beating 0x11FE4000 []).fmt.toNat 14 2 = 1 ∧ (base.mx.diag 0).2 ≤ 64 ∧
    (1#1 = 1) ∧ (0#1 = 0) := by decide +kernel

/-- A partition of some rows, and address generator 4 at some offset. -/
def storing (rows off : Nat) (bad : List Nat) : State :=
  prog0 (core0 (withRows base rows) fun k => { k with sp := { k.sp with bad := bad } }) fun x =>
    { x with ags := [(4, { cur := BitVec.ofNat 64 off })] }

theorem test_witness_StoreConversion : base.iss.fw = false ∧ (storing 0 0 []).sp.part ≤ 64 * 0 ∧
    64 * 0 < (storing 1 0 [0]).sp.part ∧ 0 ∈ (storing 1 0 [0]).sp.bad ∧ 64 * 0 < (storing 1 0 []).sp.part ∧
    0 ∉ (storing 1 0 []).sp.bad ∧ (0 + 64) / 64 * 64 < (storing 2 0 []).sp.part ∧
    (storing 1 0 []).sp.part ≤ (0 + 64) / 64 * 64 ∧
    2 * (elemOf 3).width = 128 ∧ 2 * (elemOf 0).width < 64 ∧
    2 * (elemOf 2).width = 64 := by decide +kernel

/-! ### Events of the cores and engines -/

/-- Core 0 with an asynchronous event pending at its firmware context, in a run state and inside a handler or not. -/
def signalled (r : RunState) (inh : Bool) : State :=
  fw0 (core0 base fun k => { k with fx := { k.fx with events := [⟨0x24, 0, 0⟩] } }) fun x => { x with run := r, inh := inh }

theorem test_witness_CoreEvents :
    (((base.core 0).ctx false).waits.all fun w => base.waitOver 0 false w) = true ∧
    (((prog0 base fun x => { x with waits := [.full 0 true] }).core 0).ctx false).waits.any
      (fun w => !(prog0 base fun x => { x with waits := [.full 0 true] }).waitOver 0 false w) = true ∧
    ((fw0 base fun x => { x with ended := true }).core 0).fw.ended = true ∧ (base.core 0).fw.ended = false ∧
    (base.core 0).prog.waits = [] ∧ (base.core 0).prog.looped = false ∧
    ((prog0 base fun x => { x with looped := true }).core 0).prog.looped = true ∧
    (((prog0 base fun x => { x with waits := [.full 0 false] }).core 0).ctx false).waits.all
      (fun w => (prog0 base fun x => { x with waits := [.full 0 false] }).waitOver 0 false w) = true ∧
    ((signalled .sleeping false).core 0).fx.events = [⟨0x24, 0, 0⟩] ∧ ((signalled .sleeping false).core 0).fw.waits = [] ∧
    ((signalled .running true).core 0).fw.inh = true ∧ ((signalled .running false).core 0).fw.inh = false ∧
    (base.core 0).fw.run ≠ .off ∧ (base.core 0).prog.run = .running ∧ (base.core 0).prog.stoppable = true ∧
    ((prog0 base fun x => { x with waits := [.landed] }).core 0).prog.stoppable = false ∧ (base.core 0).kill = false ∧
    (base.core 0).faulty = none := by decide +kernel

theorem test_witness_MachineChecks : (base.checkTarget (base.fillRank ⟨0x01, 0xFF, 0, 0x40, 0⟩)).isSome = true ∧
    (∀ n ∈ [0x01, 0x15], 1 ≤ (BitVec.ofNat 8 n).toNat ∧ (BitVec.ofNat 8 n).toNat ≤ 0x15) ∧
    (base.core 0).prog.run = .running ∧ (base.core 0).prog.stoppable = true ∧ (base.core 0).kill = false ∧ 0 < 5120 ∧
    base.mem.recs 0 = [] ∧ ((viewing 0x400000).mem.recs 0x400000).any (fun w => w.dirty) = true := by decide +kernel

/-- Core 0 with some transfers outstanding. -/
def moving (l : List Xfer) : State := core0 (withRows base 64) fun k => { k with xfers := l }

/-- A copy of 8 bytes from row 8 to row 16 of the scratchpad, some of them moved. -/
def aMove (pos : Nat) : Xfer := { aCopy with desc := desc 0x200 0x400 8 5 ++ List.replicate 12 0, index := [0], pos := pos }

/-- A copy's command as a trigger's, on channel 1. -/
def aCommand : Xfer := { aMove 0 with chan := 1 }

/-- Core 0 with a copy on channel 0 that has landed, and a trigger on that channel. -/
def completing (trigs : List Trig) (tw : Word) : State :=
  prog0 (moving [aMove 8]) fun x => { x with chans := [(0, { iss := 5, tw := tw, trigs := trigs })] }

theorem test_witness_EngineMoves : (moving [aMove 0]).findXfer 0 false 0 1 = some (aMove 0) ∧
    (moving [aMove 0]).held 0 (aMove 0) = false ∧ (aMove 8).landed = true ∧ (aMove 0).landed = false ∧
    (dSrc (aMove 0).desc).kind = 1 ∧ (dDst (aMove 0).desc).kind = 1 ∧ dHasHist (aMove 0).desc = false ∧
    dHasArrival (aMove 0).desc = false ∧ ((moving [aMove 0]).pieceAt 0 (aMove 0) 0).len = 8 ∧ (aMove 0).total ≤ 0 + 8 ∧
    (moving [aMove 8]).findXfer 0 false 0 1 = some (aMove 8) ∧
    (moving [aMove 0, { aMove 0 with ident := 2 }]).held 0 { aMove 0 with ident := 2 } = true ∧
    (1 = ((0 : Word) + 1).toNat) ∧ (2 ≠ ((0 : Word) + 1).toNat) ∧
    (Tab.get {} ((completing [] 1).core 0).prog.chans 0 : Chan).trigs = [] ∧
    (Tab.get {} ((completing [⟨1, aCommand⟩] 0).core 0).prog.chans 0 : Chan).trigs = [⟨1, aCommand⟩] ∧
    (completing [⟨1, aCommand⟩] 0).quiescing 0 = false := by decide +kernel

/-- Core 0 with a transfer, on a page of device memory that the transfer has probed. -/
def probing (x : Xfer) : State := core0 (withRows (onPage 0xFC 0) 64) fun k => { k with xfers := [x] }

/-- The probed page. -/
def probed : List (Nat × Word × Word) := [(2048, 0xFC00000010000000, 0)]

/-- A copy, gather or scatter of 8 bytes from one side to another, some of them moved. -/
def aPiece (k : XKind) (d : List Word) : Xfer :=
  { aCopy with kind := k, desc := d ++ List.replicate (16 - d.length) 0, index := [0], held := probed }

/-- One piece, its source is there, and both rows of the scratchpad are good. -/
def onePiece (x : Xfer) : Bool :=
  let s := probing x
  let n := s.batchOf 0 x
  s.findXfer 0 false 0 1 == some x && !s.held 0 x && decide (x.pos < x.total) && !dHasHist x.desc &&
    match n.1 with
    | [e] => (s.sideRead 0 x (dSrc x.desc) (s.sideByte 0 (dSrc x.desc) e.2.src) e.2.len).any fun r => r.2.1.isNone
    | _ => false

theorem test_witness_EngineRows : onePiece (aPiece .copy (desc 0x200 0x400 8 5)) = true ∧
    onePiece (aPiece .copy (desc 0x8000000 0x400 8 4)) = true ∧ onePiece (aPiece .gath (desc 0x2000 0x400 8 0x200000005)) = true ∧
    onePiece (aPiece .scat (desc 0x400 0x2000 8 0x400000005)) = true := by decide +kernel

/-- A copy to device memory: the row is found, on this module, and can be stored. -/
theorem test_witness_EngineRows_memory : let x := aPiece .copy (desc 0x200 0x8000000 8 1)
    onePiece x = true ∧ (dDst x.desc).kind = 0 ∧ (x.acc 0x8000000).any (fun a => !(probing x).isRemote a && !(probing x).mem.stalls a.pa &&
      !(probing x).mem.bad.contains a.row && !isHubRow a.row && ((probing x).engReady 0 x a).isSome) = true := by decide +kernel

theorem test_witness_EngineRows_hist : let x : Xfer := { aPiece .hist (desc 0 0x400 1024 0x800000004) with data := [0], total := 1024 }
    (probing x).findXfer 0 false 0 1 = some x ∧ (probing x).held 0 x = false ∧ dHasHist x.desc = false ∧ (dDst x.desc).kind = 1 ∧
    ((probing x).batchOf 0 x).1.all (fun e => !(probing x).sp.bad.contains ((probing x).sideByte 0 (dSrc x.desc) e.2.src / 64)) = true := by
  decide +kernel

theorem test_witness_EngineTraversal : (0 < dCnt (aPiece .copy (desc 0x200 0x400 8 5)).desc 1) ∧
    0 < dLen (aPiece .copy (desc 0x200 0x400 8 5)).desc := by decide +kernel

/-- A pending trigger of core 0's program context on channel 0, at a threshold. -/
def triggered (thr : Word) : State :=
  prog0 (moving []) fun x => { x with chans := [(0, { iss := 5, tw := 1, trigs := [⟨thr, { aMove 0 with chan := 1 }⟩] })] }

/-- A weight stream into ring 0, on some tiles. -/
def aStream (pos : Nat) (tiles : List Nat) : Xfer :=
  { aCopy with kind := .wstr, desc := desc 0x2000 0 512 0x600000000 ++ List.replicate 12 0, pos := pos, tiles := tiles }

/-- Core 0 with that stream, and tile 1 the tail of ring 0 in some state. -/
def streaming (x : Xfer) (st : TileState) : State :=
  px0 (moving [x]) fun y => { y with tiles := [(1, { rv := true, rows := 8, first := 8, st := st })],
                                      rings := [(0, { nt := 1, pos := [(0, 1)] })] }

theorem test_witness_TriggersAndTiles :
    ((triggered 1).core 0).prog.chans.any (fun e => e.2.trigs.length == 1) = true ∧
    (1#64).toNat < (2#64).toNat ∧ (1#64).toNat ≤ (1#64).toNat ∧ (triggered 1).quiescing 0 = false ∧
    ({ triggered 1 with iss := { (triggered 1).iss with core := 0, fw := false } } : State).tileBad .copy true
      (aMove 0).desc = none ∧
    (streaming (aStream 0 []) .empty).findXfer 0 false 0 1 = some (aStream 0 []) ∧
    (streaming (aStream 0 []) .empty).held 0 (aStream 0 []) = false ∧
    ((streaming (aStream 0 []) .empty).core 0).saving = false ∧
    (streaming (aStream 0 []) .empty).tailTile 0 (aStream 0 []) = 1 ∧
    (((streaming (aStream 0 []) .empty).core 0).px.tile 1).st = .empty ∧
    (streaming (aStream 0 []) .empty).streamFirst 0 (aStream 0 []) = true ∧
    (streaming (aStream 8 [1]) .filling).findXfer 0 false 0 1 = some (aStream 8 [1]) ∧ (aStream 8 [1]).total ≤ 8 ∧
    (((streaming (aStream 8 [1]) .filling).core 0).px.tile 1).bnd = false := by decide +kernel

theorem test_witness_TriggersAndTiles_quiescing :
    let s := streaming (aStream 0 []) .empty
    ({ s with hub := { s.hub with quiesced := [0] } } : State).quiescing (aStream 0 []).asid = true ∧
    s.quiescing (aStream 0 []).asid = false ∧ (aStream 0 []).pos < (aStream 0 []).total := by decide +kernel

/-- A stream in the middle of a block, at the start of one, in error, and one whose block is not here yet. -/
def blocked (pos : Nat) (bad : Bool) (held : List (Nat × Word × Word)) : Xfer :=
  { aStream pos [1] with desc := desc 0x8000000 0 512 0x600000000 ++ List.replicate 12 0, bad := bad, held := held }

/-- Core 0 with that stream, on a probed page, and its tile at some row. -/
def writing (x : Xfer) (vr : Nat) : State :=
  px0 (probing x) fun y => { y with tiles := [(1, { rv := true, rows := 8, first := 8, st := .filling, vr := vr })],
                                    rings := [(0, { nt := 1, pos := [(0, 1)] })] }

theorem test_witness_WeightStream : wsBits (blocked 0 false probed).desc = 8 ∧
    (∀ p ∈ [(1, false), (0, true), (0, false)], let x := blocked p.1 p.2 probed
      (writing x 0).findXfer 0 false 0 1 = some x ∧ (writing x 0).held 0 x = false ∧ x.pos < x.total ∧ dHasHist x.desc = false) ∧
    8 / 8 * 8 ≤ (((writing (blocked 1 false probed) 8).core 0).px.tile 1).vr ∧
    (((writing (blocked 1 false probed) 0).core 0).px.tile 1).vr < 8 / 8 * 8 := by decide +kernel

theorem test_witness_WeightStream_block :
    (((writing (blocked 0 false probed) 0).nextBlock 0 (blocked 0 false probed)).any fun r => !r.1.bad) = true := by decide +kernel

theorem test_witness_WeightStream_noBlock : let x := blocked 0 false [(2048, 0xFC00000010000000, 0x10000000000000)]
    ((writing x 0).nextBlock 0 x).isNone = true ∧ d3 x.desc 49 4 ≤ 7 := by decide +kernel

/-- The binding of tile 1 as member 0 of two, with the tile's two rows fired. -/
def firedBinding : Binding := { aBinding with fired := some 2, members := [0, 1] }

/-- Module state with a binding, and values of its collective. -/
def collecting (b : Binding) (vs : List NodeVal) : State :=
  let s := px0 (withRows base 64) fun x => { x with tiles := [(1, { bnd := true, st := .draining, vr := 2, rows := 2, first := 1 })] }
  { s with binds := [b], colls := [{ key := b.key, vals := vs }] }

/-- The look-up of collectiveFire finds the binding. -/
def firing (s : State) : Option Binding :=
  s.binds.find? fun b => b.core == 0 && b.tile == 1 && b.fired.isSome && !b.sent && !b.cut && !s.bindHeld b

theorem test_witness_CollectiveProgress_fire :
    firing (collecting firedBinding []) = some firedBinding ∧ firedBinding.input.length < firedBinding.reads 2 ∧
    firedBinding.image = none ∧ firedBinding.rl = false ∧ (collecting firedBinding []).fab.lost = [] ∧
    ((collecting firedBinding []).core 0).sp.bad = [] ∧
    ((core0 (collecting firedBinding []) fun k => { k with sp := { k.sp with bad := [1] } }).core 0).sp.bad = [1] ∧
    ((collecting firedBinding []).bindTile firedBinding).first + firedBinding.input.length = 1 ∧ firedBinding.desc.kind ≠ 2 ∧
    (let b := { firedBinding with input := [0, 0] }
     firing (collecting b []) = some b ∧ b.reads 2 ≤ b.input.length ∧ 2 ≤ b.members.length ∧
       parentOf b.members.length b.pos 1 = some (0, 2) ∧ ((collecting b []).collOf b.key).val b.pos 1 false = none) := by
  decide +kernel

/-- An operand of the tree. -/
def operand (lo : Nat) : NodeVal := { lo := lo, k := 1, down := false, rows := [0, 0] }

/-- The binding as member 0 of four. -/
def ofFour : Binding := { firedBinding with members := [0, 1, 2, 3], sent := true }

theorem test_witness_CollectiveProgress_node : let s := collecting ofFour [operand 0, operand 1]
    s.anyBind ofFour.key = some ofFour ∧ half 2 = 1 ∧ (s.collOf ofFour.key).val 0 1 false = some (operand 0) ∧
    (s.collOf ofFour.key).val 1 1 false = some (operand 1) ∧ parentOf 4 0 2 = some (0, 4) ∧
    (s.collOf ofFour.key).ended = false ∧ (s.collOf ofFour.key).val 0 2 false = none ∧ s.siteHere ofFour.key 0 = true ∧
    elemOf 2 = .int true 32 := by decide +kernel

/-- What the member receives. -/
def received : NodeVal := { lo := 0, k := 1, down := true, rows := [5, 6], desc := some (firedBinding.desc, 2) }

/-- A copy of two whole rows, whose pieces end where its rows do. -/
theorem test_witness_EngineMoves_rows :
    let x : Xfer := { aCopy with desc := desc 0x200 0x400 128 5 ++ List.replicate 12 0, index := [0], total := 128 }
    let s := moving [x]
    (s.pieceAt 0 x 0).len = 64 ∧ ¬ x.total ≤ 0 + 64 ∧
      (((dDst x.desc).base : Int) + (s.pieceAt 0 x 64).dst).toNat / 64 ≠ (((dDst x.desc).base : Int) + (s.pieceAt 0 x 0).dst).toNat / 64 := by
  decide +kernel

/-- The look-up of collectiveComplete finds the binding. -/
def completes (s : State) : Option Binding :=
  s.binds.find? fun b => b.core == 0 && b.tile == 1 && !b.fin && !s.bindHeld b &&
    (b.cut || (b.fired.isSome && ((s.collOf b.key).val b.pos 1 true).any fun v => v.err != 0 || b.sent))

theorem test_witness_CollectiveProgress_end : ∀ n ∈ [0, 1, 2],
    let b := { firedBinding with sent := true, step := n }
    let s := collecting b [received]
    completes s = some b ∧ b.cut = false ∧ b.image = none ∧ b.dva = 0 ∧ b.posted = 0 ∧ b.rl = false ∧
      (s.collOf b.key).val b.pos 1 true = some received ∧ (b.result received).length = 2 ∧
      (s.core 0).prog.chans = [] ∧ (s.core 0).sp.bad = [] := by decide +kernel

/-- A remote write of its result is not acknowledged yet. -/
theorem test_witness_CollectiveProgress_posted :
    let b := { firedBinding with sent := true, step := 2, posted := 1 }
    completes (collecting b [received]) = some b ∧ (b.result received).length ≤ b.step ∧ b.posted ≠ 0 := by decide +kernel

/-- Operands of a node: good with equal fields, with others, and in error. -/
theorem test_witness_CollectiveCombine : elemOf 2 = .int true 32 ∧ elemOf 9 = .flt fmtF32 ∧
    (∀ l ∈ [operand 0, { operand 0 with err := 1 }], ∀ r ∈ [operand 1, { operand 1 with err := 1 }],
      ((l.err = 0 ∨ l.err ≠ 0) ∧ (r.err = 0 ∨ r.err ≠ 0))) ∧ (operand 0).desc = (operand 1).desc ∧
    (operand 0).desc ≠ received.desc ∧ (operand 0).rows.length = (operand 1).rows.length := by decide +kernel

/-- Chunks with their indexes in rising order within a span. -/
theorem test_witness_CollectiveCombine_sparse :
    let l : Chunk := ⟨false, [(0, 5), (3, 6)]⟩
    let r : Chunk := ⟨false, [(3, 7), (7, 8)]⟩
    (l.pairs.map fun p => p.1).Pairwise (· < ·) ∧ (r.pairs.map fun p => p.1).Pairwise (· < ·) ∧
      ∀ p ∈ l.pairs ++ r.pairs, p.1 < 8 := by decide +kernel

/-- A collective flit for rank 0. -/
def aFlit : Flit := { w0 := 0, w1 := 0, w2 := 0, w3 := 0, payload := 0 }

/-- Rank 0 at a step state, with a backlog ring of 2^4 slots of some indexes, and a flit delivered for it. -/
def flitCame (rsv : Word) (wi : Word) : State :=
  let s := ranked ([rsv] ++ List.replicate 9 0 ++ [0x8001000])
  let m := (withWords s 0x10001000 [wi, 0, 0x8002000, 4]).mem
  { s with mem := m, fab := { s.fab with inbox := [aFlit] } }

/-- The rank's ASID is being quiesced. -/
def quiescent (s : State) : State := { s with hub := { s.hub with quiesced := [0] } }

theorem test_witness_CollectiveFlits :
    (flitCame 0 0).fab.inbox.contains aFlit = true ∧ firstOf (flitCame 0 0).fab.inbox aFlit = true ∧ aFlit.cls = 0 ∧
    ({ base with fab := { base.fab with inbox := [aFlit] } } : State).resident aFlit.rank = false ∧ base.car.landing = [] ∧
    (flitCame 0 0).resident aFlit.rank = true ∧
    (let s := { farRank with fab := { farRank.fab with inbox := [aFlit] } }
     s.resident 0 = true ∧ (s.rowsRead (s.rankRows 0)).rankHere 0 = false) := by decide +kernel

/-- The flit's rank after its block has been read. -/
def blockRead (s : State) : State := s.rowsRead (s.rankRows 0)

theorem test_witness_CollectiveFlits_here : (blockRead (flitCame 0 0)).rankHere 0 = true ∧
    (blockRead (flitCame 0 0)).toRing 0 aFlit.collKey = true ∧
    rowsHere (blockRead (flitCame 0 0)) ((blockRead (flitCame 0 0)).blogRow 0) = true := by decide +kernel

theorem test_witness_CollectiveFlits_frozen : (blockRead (quiescent (flitCame 0x300000000 0))).rankRes 0 = 3 ∧
    (quiescent (flitCame 0x300000000 0)).quiescing 0 = true ∧ (blockRead (flitCame 0 0)).rankRes 0 = 0 := by decide +kernel

theorem test_witness_CollectiveFlits_ring : ∀ n ∈ [0, 16],
    let s1 := blockRead (flitCame 0 (BitVec.ofNat 64 n))
    (((s1.rowsRead (s1.blogRow 0)).backlog 0).map fun q => q.full) = some (n == 16) := by decide +kernel

theorem test_witness_CollectiveFlits_slot :
    let s1 := blockRead (flitCame 0 0)
    let s2 := s1.rowsRead (s1.blogRow 0)
    ((s2.backlog 0).any fun q => rowsHere s2 (q.entryRows (s2.rankAsid 0) q.wi)) = true := by decide +kernel

/-- The rank has bound the collective in its present step, and its binding is in force, or its collective has ended. -/
theorem test_witness_CollectiveFlits_bound : ∀ l ∈ [[{ firedBinding with key := aFlit.collKey }], []],
    let t := flitCame 0 0
    let s := { t with
               disp := { t.disp with ranks := [{ vrank := 0, asid := 0, block := 0x8000000, bound := [aFlit.collKey] }] }
               binds := l }
    (blockRead s).toRing aFlit.rank aFlit.collKey = false ∧
      (blockRead s).bindOf aFlit.collKey aFlit.rank = l.head? ∧
      bitAt aFlit.w3 47 = false ∧ fld aFlit.w3 8 3 = 0 ∧ bitAt aFlit.w3 46 = false := by decide +kernel

/-! ### Fabric and migration -/

/-- The module with a link up at ports 1 and 2, and the port table's entry for node 5 naming port 2. -/
def linked : State :=
  { base with
    hub := { base.hub with linked := true }
    fab := { base.fab with
      links := [(1, { up := true, rxNext := 7, replay := [aFlit, aFlit], txNext := 2 }), (2, { up := true })]
      ports := [(5, 0x8000000100000002)] } }

/-- A flit for a node. -/
def flitTo (n : Nat) : Flit := { aFlit with w0 := BitVec.ofNat 64 (n * 2 ^ 52 + 3 * 2 ^ 40) }

theorem test_witness_Links : (linked.link 1).up = true ∧ (linked.link 1).rxNext = 7 ∧ (flitTo 5).dst ≠ linked.node ∧
    linked.fab.lost = [] ∧ linked.fab.badPorts = [] ∧ linked.portFor 5 0 0 = some 2 ∧
    (BitVec.ofNat 12 5) ∈ ({ linked with fab := { linked.fab with lost := [5] } } : State).fab.lost ∧
    5 ∈ ({ linked with fab := { linked.fab with badPorts := [5] } } : State).fab.badPorts ∧ (linked.link 3).up = false ∧ linked.hub.started = true ∧
    (0 < ((2054#12) - 7).toNat ∧ ((2054#12) - 7).toNat < 2048) ∧ 2048 ≤ ((2055#12) - 7).toNat ∧
    ({ linked with fab := { linked.fab with links := [(1, { up := true, fails := 15, naked := some 0 })] } } : State).link 1 =
      { up := true, fails := 15, naked := some 0 } := by decide +kernel

/-- Some delivered flits. -/
def delivered (l : List Flit) : State := { ranked [] with fab := { (ranked []).fab with inbox := l } }

/-- A flit from node 3 of a class, with an operation, a row and its last word. -/
def flitOf (cls op row : Nat) (w3 : Word) : Flit :=
  { w0 := BitVec.ofNat 64 (3 * 2 ^ 40 + cls * 2 ^ 36), w1 := 0, w2 := BitVec.ofNat 64 (op * 2 ^ 60 + row * 64), w3 := w3,
    payload := 0 }

/-- Node 5 has been silent for longer than the time of R404: its only port is down. -/
def silent : State :=
  { base with hub := { base.hub with gtime := 2000000 }, fab := { base.fab with ports := [(5, 0x8000000100000002)] } }

theorem test_witness_Routes : (linked.link 1).up = true ∧ (flitTo 0).dst = linked.node ∧ (flitTo 0).cls < 2 ∧
    (linked.route 3 0).ahead = [] ∧ (flitTo 0).rseq = (linked.route 3 0).rx ∧
    (∀ n ∈ [0, 1, 1024], let f := { flitTo 0 with w0 := (flitTo 0).w0 + BitVec.ofNat 64 n }
      (f.rseq - (linked.route 3 0).rx).toNat = n) ∧
    (flitOf 2 4 0 0).cls = 2 ∧ (flitOf 2 4 0 0).memOp = 4 ∧
    (delivered [flitOf 2 4 0 0]).fab.inbox.find? (fun x => x.src == 3 && x.cls == 2) = some (flitOf 2 4 0 0) ∧
    (flitOf 3 0 0 0).reserved = true ∧ silent.portsGone 5 = true ∧ silent.fab.lost.contains 5 = false ∧
    silent.fab.badPorts.contains 5 = false := by decide +kernel

/-- A request for the row at 0x10000000. -/
def request (op : Nat) (w3 : Word) : Flit := flitOf 1 op (0x10000000 / 64) w3

/-- An atomic's flit of a posted operation: its tag is one of 512 to 1023. -/
def postedRequest : Flit :=
  memFlit 4 (0x10000000 / 64) 0 false 2 600 0

theorem test_witness_RequestsServed : (∀ p ∈ [(0, 0), (2, 0), (2, 2), (3, 0), (4, 2)],
    let f := request p.1 (BitVec.ofNat 64 (p.2 * 256))
    (delivered [f]).fab.inbox.find? (fun x => x.src == f.src && x.cls == f.cls) = some f ∧ f.cls = 1 ∧ f.memOp = p.1 ∧
      f.code = p.2 ∧ isHubRow f.row = false ∧ rowHere f.row = true ∧ (delivered [f]).fab.lost = [] ∧ (delivered [f]).fab.badPorts = [] ∧
      (delivered [f]).waitHint f.row = none ∧ (delivered [f]).mem.stalls (64 * f.row) = false ∧
      (delivered [f]).mem.recs f.row = [] ∧ (delivered [f]).mem.bad = [] ∧ memOpOf 2 = some .aadd ∧ f.tag < 512) ∧
    postedRequest.tag = 600 ∧ postedRequest.memOp = 4 ∧
    (let f := request 0 0
     let s := delivered [f]
     ({ s with mem := { s.mem with refresh := [(s.mem.bankOf f.row, 5)] } } : State).waitHint f.row = some 5) := by
  decide +kernel

/-- Writes made from the present version and from an older one, under a mask, of a word and of a masked word, and a
poisoned row; a read whose page is memory-side and one whose page is not. -/
theorem test_witness_RequestsServed_forms : (request 2 0x300).code = 3 ∧
    (delivered [request 2 0x300]).mem.version (0x10000000 / 64) = (request 2 0x300).index ∧
    (delivered [request 2 0x10300]).mem.version (0x10000000 / 64) ≠ (request 2 0x10300).index ∧ (request 2 0x400).code = 4 ∧
    (request 3 0x100).code = 1 ∧ (request 4 0x200).code < 13 ∧ bitAt (request 4 0x200).w3 13 = false ∧
    bitAt (request 0 0x20).w3 5 = true ∧ bitAt (request 0 0).w3 5 = false ∧ poisonedRow.mem.bad = [0x10000000 / 64] := by
  decide +kernel

/-- Core 0's program context has asked for rows under some keys, each still wanted (0) or given up (1). -/
def asking (f : Flit) (keys : List Nat) (n : Nat) : State := prog0 (delivered [f]) fun x => { x with asked := keys.map fun k => (k, n) }

/-- An operation of core 0's program context that waits for its acknowledgement from module 3. -/
def acknowledging (f : Flit) : State :=
  let p : Posted := { by_ := .context 0 false, row := f.row, va := 0, page := 0, op := .store, word := 0, w32 := false, val := 0,
                      rowVal := 0, born := 0, made := 0, out := some (3, f), stage := 2 }
  { delivered [f] with mem := { (delivered [f]).mem with posted := [p] } }

theorem test_witness_AnswersTaken : (∀ op ∈ [1, 5], ∀ n ∈ [0, 1],
    let f := request op 0x10000
    let s := asking f [homeKey f.src f.row, answerKey (homeKey f.src f.row)] n
    s.fab.inbox.find? (fun x => x.src == f.src && x.cls == f.cls) = some f ∧ f.cls = 1 ∧ f.memOp = op ∧
      askerOf f.tag = .context 0 false ∧ f.code = 0 ∧
      ((s.core 0).ctx false).asked.find? (fun e => e.1 = homeKey f.src f.row) = some (homeKey f.src f.row, n) ∧
      ((s.core 0).ctx false).asked.find? (fun e => e.1 = answerKey (homeKey f.src f.row)) =
        some (answerKey (homeKey f.src f.row), n)) ∧
    (let f := request 7 0x10000
     f.memOp = 7 ∧ f.index % 1024 ≠ 0 ∧
      ({ delivered [f] with fab := { (delivered [f]).fab with reqs := [(3, f)] } } : State).fab.reqs.find?
        (fun e => e.1 = f.src ∧ e.2.sameRow f = true) = some (3, f)) ∧
    (let f := { request 6 0 with w2 := (memFlit 6 (0x10000000 / 64) 0 false 0 512 0).w2,
                                 w3 := (memFlit 6 (0x10000000 / 64) 0 false 0 512 0).w3 }
     f.memOp = 6 ∧ askerOf f.tag = .post 0 false ∧
     ((acknowledging f).awaited f 2).map (fun e => (e.1, e.2.out.isSome)) = some (0, true)) ∧
    (request 6 0x300).code = 3 := by decide +kernel

/-- A packet of s1's queue that waits for its mirror at some node, its flit sent or not. -/
def mirroring (s : State) (acked : Bool) (bud : Nat) : State :=
  { s with hub := { s.hub with mirrors :=
    [{ asid := 0, va := 0x8000000, row := 0x10000000 / 64, index := 0, bud := bud, mrow := 0, sent := true, acked := acked }] } }

theorem test_witness_AnswersTaken_mirrors : ∀ n ∈ [5, 6], ∀ a ∈ [false, true],
    let s := mirroring (mirrored 0x8002000) a n
    s.hub.mirrors.any (fun m => m.acked == a && m.sent) = true ∧
    (match s.queueAcc 0 .read 0x8000000 with
      | .ok acc => !s.isRemote acc && !(s.queueHdr 0 0x8000000 acc).1.bad && (s.queueHdr 0 0x8000000 acc).1.mir &&
        (s.queueHdr 0 0x8000000 acc).1.bud == 5
      | .error _ => false) = true := by decide +kernel

/-- A migration that waits for markers. -/
def leaving : Migration :=
  { job := 0, vrank := 0, asid := 0, dn := 5, la := 0x8001000, block := 0x8000000, cw := 0, cv := 0, waiting := [3] }

/-- A migration flit. -/
def carFlit (op : Nat) : Flit := flitOf 2 op 0 0

/-- A flit of an arrival for rank 0, whose area at 0x8006000 names the block at 0x8005000, whose ring is at 0x8003000. -/
def arriving (f : Flit) : State :=
  let s := withWords (withWords (delivered [f]) 0x10006000 [0, 0x8005000]) 0x10005050 [0x8003000]
  { s with car := { s.car with landing := [(0, 0x8006000, 0)] } }

/-- The state once the rows that lead to the ring are here, if they are. -/
def landed (s : State) : Option State :=
  let s1 := s.rowsRead (s.areaRow 0)
  let s2 := s1.rowsRead (s1.areaBlock 0)
  if rowsHere s (s.areaRow 0) && rowsHere s1 (s1.areaBlock 0) && rowsHere s2 (s2.areaRing 0) then some (s2.rowsRead (s2.areaRing 0))
  else none

theorem test_witness_RankArrival : (∀ op ∈ [0, 1, 2, 3], (carFlit op).cls = 2 ∧ (carFlit op).memOp = op ∧
      (delivered [carFlit op]).fab.inbox.find? (fun x => x.src == 3 && x.cls == 2) = some (carFlit op)) ∧
    leaving.vrank = (carFlit 1).rank ∧ leaving.job = (carFlit 1).w1.extractLsb' 48 16 ∧
    (delivered [carFlit 1]).markerDue (carFlit 1) = true ∧ { carFlit 2 with w2 := 0x2200000010000000 }.carKind = 2 ∧
    (delivered [carFlit 3]).disp.ranks.length < 128 ∧
    (let s := delivered [carFlit 3]
     128 ≤ { s with disp := { s.disp with ranks := List.replicate 128 { vrank := 9, asid := 0, block := 0 } } }.disp.ranks.length) ∧
    (let s := { base with fab := { base.fab with maps := [(1, [])], updates := [(1, 2, 5, 100)] } }
     s.fab.updates[0]? = some (1, 2, 5, 100) ∧ s.fab.maps.find? (fun m => m.1 = 1) = some (1, []) ∧
       s.rankNode 1 2 = none) := by decide +kernel

/-- A rank that another node held before. -/
theorem test_witness_RankArrival_moved :
    let s := { base with fab := { base.fab with maps := [(1, [(2, 0x8007)])], updates := [(1, 2, 5, 0)] } }
    s.rankNode 1 2 = some 7 ∧ 7 ≠ s.node ∧ s.fab.lost = [] ∧ s.fab.badPorts = [] ∧ 0 ≤ s.hub.gtime := by decide +kernel

theorem test_witness_RankArrival_data : let f := { carFlit 2 with w2 := 0x2200000010000000 }
    (landed (arriving f)).any (fun s3 => s3.fab.inbox.find? (fun x => x.src == f.src && x.cls == f.cls) == some f &&
      f.carKind == 2 && !s3.mem.stalls (64 * (f.carAddr.toNat / 64))) = true := by decide +kernel

theorem test_witness_RankArrival_done : let f := carFlit 3
    (landed (arriving f)).any (fun s3 =>
      let s4 := s3.rowsRead (s3.doneRows 0)
      rowsHere s3 (s3.doneRows 0) && s4.fab.inbox.find? (fun x => x.src == f.src && x.cls == f.cls) == some f &&
        (s4.takeIn f).landingOf 0 == some (0, 0x8005000)) = true := by decide +kernel

/-- The migration engine's queue, on a page of its own at the top of address space 0, holding one command; the rank of
the block at 0x8000000 is at a step state. -/
def commanded (w : List Word) (step : Word) : State :=
  let s := ranked [step]
  let s1 := withWords s (0x100000 + 16 * 511) [0x8000000000140000]
  let s2 := withWords s1 (0x140000 + 16 * 4095) [BitVec.ofNat 64 (0xF2 * 2 ^ 56 + 0x18000000)]
  let s3 := withWords s2 0x1FFF0000 [1, 0, 0xFFFFFFFF1000, 4]
  withWords s3 0x1FFF1000 (w ++ List.replicate (7 - w.length) 0 ++ [0x8000000000000000])

/-- The command found. -/
def commandIn (s : State) : Option Row := s.command.map fun e => e.2

theorem test_witness_MigrationCommands : base.car.busy = none ∧
    (∀ n ∈ [0, 1, 2, 3], (commandIn (commanded [BitVec.ofNat 64 (n * 2 ^ 60), 0x8001000] 0)).map (fun v => (cmdBad v, cmdOp v)) =
      some (false, n)) ∧
    (∀ n ∈ [2, 3], (commandIn (commanded [BitVec.ofNat 64 (n * 2 ^ 60), 0, 0, 0, 0, 1] 0)).map (fun v => (cmdBad v, cmdOp v)) =
      some (true, n)) := by decide +kernel

/-- The state of which MigrationCommands speaks, with the rows that lead to a move's swap list or to no table, if they are
here and the engine finds its command. -/
def found (s : State) (op : Nat) : Option State :=
  let q : List (BitVec 16 × Word) := [(0, caribouQueue.setWidth 64)]
  let s1 := s.rowsRead q
  let s2 := s1.rowsRead s1.commandRow
  match s2.command with
  | none => none
  | some (slot, v) =>
    let l2 := cwRow (cmdCw v) :: if cmdOp v ≠ op ∨ op = 1 then [] else s2.swapRows presetReach (cmdLa v)
    let s3 := s2.rowsRead l2
    if rowsHere s q && rowsHere s1 s1.commandRow && rowsHere s2 l2 && s3.command == some (slot, v) && s3.car.busy.isNone then some s3
    else none

/-- The rank's block once it is here. -/
def ranksRead (s : State) : Option State :=
  let s4 := s.rowsRead (s.rankRows 0)
  if (s.disp.ranks.find? fun r => r.asid = 0).isSome && s4.rankHere 0 then some s4 else none

/-- The list of a local move: one page that is not cold. -/
def aMoveOf (step : Word) : State := withWords (commanded [0, 0x8001000] step) 0x10001000 [0x8000000000000000]

theorem test_witness_MigrationCommands_move : ((found (aMoveOf 0x200000000) 0).bind ranksRead).any (fun s4 =>
    s4.rankRes 0 == 2 && (s4.swapList presetReach 0x8001000).any fun l => rowsHere s4 (s4.farPages 0 l)) = true := by
  decide +kernel

theorem test_witness_MigrationCommands_early : (aMoveOf 0).rankRes 0 = 0 ∧ (aMoveOf 0).rankHere 0 = true ∧
    (aMoveOf 0).quiescing 0 = false ∧ (quiescent (aMoveOf 0)).quiescing 0 = true := by decide +kernel

theorem test_witness_MigrationCommands_out :
    ((found (commanded [0x1000000000000000] 0x200000000) 1).bind ranksRead).any (fun s4 => s4.rankRes 0 == 2) = true := by
  decide +kernel

/-- Address space 0 has a page table, which has no entry for the second 512 GiB. -/
def halfMapped (m : Mem) : Bool :=
  let p := m.tatb.toNat
  let q := place1 (fld (m.word p) 13 31 * 8192) (2 ^ 39)
  m.tlb == [] && inMemory p 16 && !m.stalls p && bitAt (m.word p) 63 &&
    !(bitAt (m.word p) 62 || tableBad (m.word p) (m.word (p + 8)) 13 8192) && !m.stalls q && !bitAt (m.word q) 63

theorem halfMapped_none (m : Mem) (node : Nat) (k : AccKind) (va : Word) (h : halfMapped m = true) (hv : va.toNat / 2 ^ 39 = 1) :
    m.translate node 0 k va = .none none := by
  simp only [halfMapped, Bool.and_eq_true, Bool.not_eq_true', beq_iff_eq, Bool.or_eq_false_iff] at h
  obtain ⟨⟨⟨⟨⟨⟨ht, h0⟩, h1⟩, h2⟩, h3, h4⟩, h5⟩, h6⟩ := h
  have hp (b : Nat) : place1 b va.toNat = place1 b (2 ^ 39) := by
    simp only [place1]
    omega
  have hc : m.cachedEntry 0 va.toNat = none := by simp [Mem.cachedEntry, ht]
  have hf : fld va 48 16 = 0 := by
    rw [fld, BitVec.extractLsb'_toNat, Nat.shiftRight_eq_div_pow]
    omega
  simp only [Mem.translate, hf, ne_eq, not_true_eq_false, if_false, hc, Nat.mul_zero, Nat.add_zero, h0, h1, Mem.with0, h2, h3, h4,
    hp, h5, Mem.with1, h6, Bool.or_self, Bool.false_eq_true, Bool.true_eq_false, if_true]

theorem rows_cons (s : State) (a : BitVec 16 × Word) (l : List (BitVec 16 × Word)) :
    s.rowsRead (a :: l) = (s.touch a.1 a.2).rowsRead l := rfl

theorem rows_unmapped (s : State) (l : List (BitVec 16 × Word)) (h : halfMapped s.mem = true)
    (hl : ∀ e ∈ l, e.1 = 0 ∧ e.2.toNat / 2 ^ 39 = 1) :
    s.rowsRead l = s ∧ ∀ e ∈ l, s.rowReady e.1 e.2 = true := by
  have ht (e : BitVec 16 × Word) (he : e ∈ l) : s.translate e.1.toNat .read e.2 = .none none := by
    rw [(hl e he).1]
    exact halfMapped_none _ _ _ _ h (hl e he).2
  refine ⟨?_, fun e he => by simp [State.rowReady, State.rowReadyAs, ht e he]⟩
  have hs (e : BitVec 16 × Word) (he : e ∈ l) : s.touch e.1 e.2 = s := by
    simp [State.touch, State.touchAs, State.openWalk, ht e he]
  clear hl ht
  induction l with
  | nil => rfl
  | cons a t ih =>
    rw [State.rowsRead, List.foldl_cons, hs a List.mem_cons_self]
    exact ih fun e he => hs e (List.mem_cons_of_mem _ he)

/-- A load of the port table at 0x8000000000, once the command has been read. -/
def loading : State :=
  let s := commanded [0x3000000000000000, 0x8000000000] 0
  let s1 := s.rowsRead [(0, caribouQueue.setWidth 64)]
  s1.rowsRead s1.commandRow

/-- What the engine finds. -/
def loadRow : Row := ofWords [0x3000000000000000, 0x8000000000, 0, 0, 0, 0, 0, 0x8000000000000000]

theorem test_witness_MigrationCommands_found : let s3 := loading.touch 0 0
    loading.command = some (0xFFFFFFFF1000, loadRow) ∧ s3.command = some (0xFFFFFFFF1000, loadRow) ∧
    s3.car.busy = none ∧ halfMapped s3.mem = true ∧ s3.rowReady 0 0 = true ∧ cmdBad loadRow = false ∧
    cmdOp loadRow = 3 ∧ cmdCw loadRow = 0 ∧ cmdLa loadRow = 0x8000000000 := by decide +kernel

/-- The rows of the command's completion word and table are here. -/
theorem test_witness_MigrationCommands_tables : let l2 := cwRow (cmdCw loadRow) :: tableRows (cmdLa loadRow) 512
    loading.RowsHere l2 ∧ loading.rowsRead l2 = loading.touch 0 0 := by
  intro l2
  obtain ⟨-, -, -, hm, hr, -, -, hc, ha⟩ := test_witness_MigrationCommands_found
  have hl : ∀ e ∈ tableRows (cmdLa loadRow) 512, e.1 = 0 ∧ e.2.toNat / 2 ^ 39 = 1 := by
    intro e he
    obtain ⟨i, hi, rfl⟩ := List.mem_map.mp he
    rw [List.mem_range] at hi
    refine ⟨rfl, ?_⟩
    rw [ha, BitVec.toNat_setWidth, BitVec.toNat_add, BitVec.toNat_ofNat]
    rw [show (549755813888 : Addr).toNat = 2 ^ 39 from rfl]
    omega
  have hx := rows_unmapped _ _ hm hl
  have hz : cwRow (cmdCw loadRow) = (0, 0) := by rw [hc]; decide
  have he : loading.rowsRead l2 = loading.touch 0 0 := by
    rw [rows_cons, hz]
    exact hx.1
  refine ⟨fun e hm' => ?_, he⟩
  rw [he]
  rcases List.mem_cons.mp hm' with rfl | h
  · rw [hz]
    exact hr
  · exact hx.2 e h

/-- The rows of a table image at 0x8100000, all of one value, where the dispatchers hold them. -/
def tabled (v : Row) (n : Nat) : State :=
  let l := (List.range n).map fun i => ((0 : BitVec 16), (0x8100000 : Addr) + BitVec.ofNat 48 (64 * i), v)
  { base with disp := { base.disp with records := l } }

theorem tabled_read (v : Row) (n i : Nat) (h : i < n) :
    (tabled v n).hubRead 0 (0x8100000 + BitVec.ofNat 48 (64 * i)) = some v := by
  have hs : ((tabled v n).disp.records.find? fun e => e.1 = 0 ∧ e.2.1 = 0x8100000 + BitVec.ofNat 48 (64 * i)).isSome := by
    rw [List.find?_isSome]
    exact ⟨_, List.mem_map.mpr ⟨i, List.mem_range.mpr h, rfl⟩, by simp⟩
  obtain ⟨e, he⟩ := Option.isSome_iff_exists.mp hs
  obtain ⟨j, -, hj⟩ := List.mem_map.mp (List.mem_of_find?_eq_some he)
  simp only [State.hubRead, he, ← hj]

/-- A fold that reads one value gives as many. -/
theorem same_rows (v : Row) (f : Nat → Option Row) (l : List Nat) (h : ∀ i ∈ l, f i = some v) :
    l.foldr (fun i acc => match f i, acc with
      | some r, some l => some (r :: l)
      | _, _ => none) (some []) = some (List.replicate l.length v) := by
  induction l with
  | nil => rfl
  | cons a t ih =>
    rw [List.foldr_cons, ih fun i hi => h i (List.mem_cons_of_mem _ hi), h a List.mem_cons_self]
    rfl

theorem tabled_image (v : Row) (n : Nat) : (tabled v n).imageTable 0x8100000 n = some (List.replicate n v) := by
  have h := same_rows v (fun i => (tabled v n).hubRead 0 (0x8100000 + BitVec.ofNat 48 (64 * i))) (List.range n)
    fun i hi => tabled_read v n i (List.mem_range.mp hi)
  rw [List.length_range] at h
  exact h

/-- A row of port-table entries that name one port each and are not valid. -/
def onePort : Row := ofWords (List.replicate 8 0x100000000)

theorem test_witness_MigrationCommands_ports :
    (((tabled onePort 512).imageTable 0x8100000 512).bind portsOfImage).isSome = true := by
  rw [tabled_image]
  decide +kernel

theorem test_witness_MigrationCommands_map : ((tabled 0 2048).imageTable 0x8100000 2048).bind mapOfImage = some [] := by
  have hz (e : BitVec 16) (h : e ∈ (List.replicate 2048 (0 : Row)).flatMap fun r =>
      (List.range 32).map fun i => BitVec.ofNat 16 (lane 16 r i)) : e = 0 := by
    obtain ⟨r, hr, hi⟩ := List.mem_flatMap.mp h
    obtain ⟨i, -, rfl⟩ := List.mem_map.mp hi
    simp only [List.eq_of_mem_replicate hr, lane, BitVec.ofNat_eq_ofNat, BitVec.toNat_zero, Nat.zero_div, Nat.zero_mod]
  rw [tabled_image, Option.bind_some, mapOfImage]
  generalize (List.replicate 2048 (0 : Row)).flatMap _ = l at hz ⊢
  have hf : (l.zipIdx.filter fun e => e.1 != 0) = [] := by
    rw [List.filter_eq_nil_iff]
    intro e he
    simp [hz _ (List.fst_mem_of_mem_zipIdx he)]
  have ha : (l.any fun e => e.extractLsb' 12 3 != 0) = false := by
    rw [List.any_eq_false]
    intro e he
    simp [hz _ he]
  rw [ha, hf]
  rfl

/-! ### Dispatchers -/

/-- The effective values of a small region. -/
def someEff : Eff := { ncore := 4, nrow := 2048, nslot := 0, nchan := 16, prio := 3, fdom := 0 }

/-- The root region of rank 0, at 0x8003000, with some of what waits in it. -/
def aRegion (ready : List (Addr × Nat × Nat)) (launches : List (Nat × Row)) : Region :=
  { asid := 0, rcb := 0x8003000, vrank := 0, eff := some someEff, chain := [], ready := ready, launches := launches }

/-- Rank 0 with that region, a ready record at 0x8004000, its rows and the region's held by the dispatchers, and no
strand on the idle core 0. -/
def waiting (ready : List (Addr × Nat × Nat)) (launches : List (Nat × Row)) : State :=
  let s := ranked [0, 0x8003000]
  let rows : List (BitVec 16 × Addr × Row) :=
    [(0, 0x8003000, 0), (0, 0x8003040, 0), (0, 0x8004000, 0x0200000000000000#512 <<< 256)]
  let t := { s with disp := { s.disp with regions := [aRegion ready launches], records := rows } }
  fw0 (prog0 t fun x => { x with run := .idle }) fun x => { x with run := .sleeping }

/-- The dispatchers' view of the work, once its rows are here. -/
def prepared (s : State) : State := ((s.rowsRead s.workRows).prepare 0).replayStops 0

/-- What core 0's dispatcher chooses: its region, whether a record, and the state. -/
def chosen (s : State) : Option (Region × Option Addr × Option Row × State) :=
  ((prepared s).choose 0).map fun e => match e.2.1 with
    | .record _ a => (e.1, some a, none, e.2.2)
    | .launch _ v => (e.1, none, some v, e.2.2)

theorem test_witness_Takes_record : let s := waiting [(0x8004000, 0, 0)] []
    s.coreIdle 0 = true ∧ base.coreIdle 0 = false ∧ s.gangFor 0 = none ∧ rowsHere s s.workRows = true ∧
    ((s.rowsRead s.workRows).core 0).strand = none ∧
    (chosen s).any (fun e =>
      let l := (prepared s).imageAt 0 0x8004000
      let t := (e.2.2.2.rowsRead l).reloadSeqs e.1.vrank
      e.2.1 == some 0x8004000 && rowsHere (prepared s) l &&
        (t.hubRead 0 0x8004000).any (fun r => fld (rowWord r 4) 62 2 == 0) && (t.core 0).strand.isNone && t.disp.images.isEmpty) =
      true := by decide +kernel

/-- A gang that waits for core 0. -/
def needing : Gang := { aGang with loaded := false, released := false, got := [] }

theorem test_witness_Takes_gang : let s := waiting [] []
    let t := { s with disp := { s.disp with gangs := [needing] } }
    let u := prog0 t fun x => { x with run := .stopped }
    t.coreIdle 0 = true ∧ t.gangFor 0 = some needing ∧ (t.core 0).open_ = true ∧ u.coreIdle 0 = true ∧
    u.gangFor 0 = some needing ∧ (u.core 0).open_ = false := by decide +kernel

/-- A launch packet for the image at 0x8005000: cores 0, one member, a partition of 8 times 16 rows. -/
def packet (nm : Nat) : Row :=
  ofWords [0x8005000, 0x8003000, BitVec.ofNat 64 (nm * 2 ^ 54 + 8 * 2 ^ 48), 1, 0, 0, 0, 0]

/-- Rank 0 with a launch packet waiting, its image's header in memory. -/
def launching (nm : Nat) : State :=
  let s := waiting [] [(0, packet nm)]
  { s with mem := (withWords s 0x10005000 [0x4B560001]).mem }

/-- The check of the packet that core 0's dispatcher chooses, and whether the rows of its image are here. -/
def checked (s : State) : Option (Bool × Except Nat LaunchIn) :=
  ((prepared s).choose 0).bind fun e => match e.2.1 with
    | .record _ _ => none
    | .launch age v =>
      let l := (prepared s).launchRows e.1.asid v
      some (rowsHere (prepared s) l,
        ((((e.2.2.rowsRead l).dropLaunch e.1 age).traceTake e.1 0 0xFFFFFFFF).launchCheck e.1 someEff v))

theorem test_witness_Takes_launch : (checked (launching 1)).any (fun r => r.1 && match r.2 with
      | .ok _ => true
      | .error _ => false) = true ∧ (launching 1).coreIdle 0 = true ∧ (launching 1).gangFor 0 = none ∧
    rowsHere (launching 1) (launching 1).workRows = true ∧ (launching 1).disp.gangs = [] := by decide +kernel

theorem test_witness_Takes_reject : (checked (launching 2)).any (fun r => r.1 && match r.2 with
      | .error n => n == 2
      | .ok _ => false) = true := by decide +kernel

/-- A gang of core 0 in some stage. -/
def ganging (g : Gang) : State := { waiting [] [] with disp := { (waiting [] []).disp with gangs := [g] } }

/-- The gang after its member cores have been reserved, with its partitions asked for or not. -/
def reserved (s : State) (g : Gang) : Option Gang := (g.cores.foldl State.reserve s).findGang 1

theorem test_witness_Gangs : (ganging aGang).findGang 1 = some aGang ∧ aGang.loaded = true ∧ (ganging needing).findGang 1 = some needing ∧
    needing.loaded = false ∧
    (∀ b ∈ [false, true], let g := { needing with asked := b }
      reserved (ganging g) g = some { g with got := [0] } ∧ ∀ c ∈ g.cores, c ∈ [0]) ∧
    (let g := { needing with cores := [0, 1] }
     let s := ganging g
     let t := s.setCore 1 { s.core 1 with dead := true }
     (reserved t g).any fun x => !x.got.contains 1) = true ∧
    (ganging needing).hub.gtime < { aGang with relTime := 5 }.relTime ∧
    { aGang with released := false }.relTime ≤ (ganging needing).hub.gtime ∧
    (core0 base fun k => { k with repart := some 128 }).me.repart = some 128 ∧
    (core0 base fun k => { k with repart := some 128, xfers := [aCopy] }).me.xfers ≠ [] := by decide +kernel

/-- Its partitions have come and the rows of its image and rank are here; a partition is still pending. -/
theorem test_witness_Gangs_load :
    let s1 := needing.cores.foldl State.reserve (ganging needing)
    let g1 := { needing with got := [0] }
    let t := g1.codeVas.foldl (fun s va => s.touchAs .fetch g1.asid va) s1
    (∀ c ∈ g1.cores, (s1.core c).repart = none) ∧ g1.codeVas.all (fun va => t.rowReadyAs .fetch g1.asid va) = true ∧
    rowsHere t (t.rankRows g1.vrank ++ t.regionRows g1.asid g1.vrank g1.rcb) = true ∧
    (t.rowsRead (t.rankRows g1.vrank ++ t.regionRows g1.asid g1.vrank g1.rcb)).rankHere g1.vrank = true := by decide +kernel

theorem test_witness_Gangs_pending :
    let s := { core0 base fun k => { k with repart := some 128, held := some 1 } with disp :=
      { base.disp with gangs := [{ needing with got := [0] }] } }
    let s1 := needing.cores.foldl State.reserve s
    s1.findGang 1 = some { needing with got := [0] } ∧ (s1.core 0).repart = some 128 := by decide +kernel

/-- A region below the root, of a lower priority. -/
def lowRegion : Region :=
  { aRegion [] [] with rcb := 0x8006000, chain := [(0x8003000, 4)], eff := some { someEff with prio := 1 } }

/-- Core 0 busy with a strand of that region while a record of the root has waited. -/
def starved : State :=
  let s := waiting [(0x8004000, 0, 0)] []
  let t := prog0 (withStrand s { strand with rcb := 0x8006000 }) fun x => { x with run := .running }
  { t with hub := { t.hub with gtime := 10000 }, disp := { t.disp with regions := t.disp.regions ++ [lowRegion] } }

/-- Core 0 of a grown partition whose rows some binding of it uses or not. -/
def regrouping (l : List Binding) (n : Nat) : State :=
  { core0 base fun k => { k with repart := some n } with binds := l }

theorem test_witness_Gangs_partition : (regrouping [] 128).me.repart = some 128 ∧ base.sp.part < 128 ∧
    (regrouping [] 0).me.repart = some 0 ∧ (regrouping [] 128).me.xfers = [] ∧ (regrouping [] 128).binds = [] ∧
    ((regrouping [aBinding] 128).binds.any fun b => b.core == 0 && b.image == none) = true := by decide +kernel

theorem test_witness_ReadyWait : let t := starved.rowsRead starved.workRows
    rowsHere starved starved.workRows = true ∧
    t.serves (aRegion [(0x8004000, 0, 0)] []) = true ∧ 0 + 10000 ≤ t.hub.gtime ∧
    (allCores.all fun c => !t.coreIdle c) = true ∧ (t.hubRead 0 0x8004000).any (fun r => fld (rowWord r 4) 62 2 == 0) = true ∧
    t.disp.regions = [aRegion [(0x8004000, 0, 0)] [], lowRegion] ∧ lowRegion.ready = [] ∧
    t.victim (aRegion [(0x8004000, 0, 0)] []) allCores = some 0 ∧
    ((t.core 0).strand.bind fun t => t.gang) = none := by decide +kernel

/-- Rank 0 in some phase. -/
def phased (r : Rank) (step : Word) : State :=
  let s := ranked [step]
  { s with disp := { s.disp with ranks := [r] } }

/-- The rank. -/
def aRank (n : Nat) (stepped cold : Bool) : Rank :=
  { vrank := 0, asid := 0, block := 0x8000000, stepped := stepped, phase := n, cold := cold }

/-- The state of the boundary's rows read, if they are here. -/
def bounded (s : State) (r : Rank) : Option State :=
  if rowsHere s (s.boundaryRows r) then some (s.rowsRead (s.boundaryRows r)) else none

theorem test_witness_StepBoundary :
    (bounded (phased (aRank 0 false false) 0) (aRank 0 false false)).any (fun t => t.rankHere 0 && t.rankRes 0 == 0 &&
      !(t.prepare 0).atBoundary (aRank 0 false false)) = true ∧
    (bounded (phased (aRank 0 true false) 0) (aRank 0 true false)).any (fun t =>
      (t.prepare 0).atBoundary (aRank 0 true false)) = true ∧
    (bounded (phased (aRank 0 false false) 0x300000000) (aRank 0 false false)).any (fun t => t.rankRes 0 == 3) = true := by
  decide +kernel

theorem test_witness_StepBoundary_stages :
    (∀ n ∈ [0, 1, 2, 3], (phased (aRank n false false) 0).disp.ranks.find? (fun x => x.vrank = 0) = some (aRank n false false)) ∧
    (phased (aRank 2 false false) 0).moving (aRank 2 false false) = false ∧
    { phased (aRank 2 false false) 0 with car := { base.car with busy := some leaving } }.moving (aRank 2 false false) = true ∧
    (phased (aRank 2 false false) 0).mayActivate (aRank 2 false false) = true ∧
    (phased (aRank 2 false true) 0).mayActivate (aRank 2 false true) = false ∧
    (let s := phased (aRank 1 false false) 0
     let t := core0 (withStrand s { strand with asleep := true }) fun k => { k with toSave := true }
     (allCores.any fun c => (t.core c).toSave && (t.pinnedCores (aRank 1 false false)).contains c)) = true ∧
    (allCores.all fun c => !((phased (aRank 1 false false) 0).core c).toSave) = true := by decide +kernel

/-- A ready packet held for s1's queue, its record in some state. -/
def holding (st : Word) : State :=
  let s := withWords (queued 0 0 4 0) 0x10002020 [st]
  { s with disp := { s.disp with holds := [(0, 0x8000000, ofWords [0x8002000, 0, 0, 0, 0, 0, 0, 0])] } }

/-- The state once the held packet's record is here. -/
def heldRead (st : Word) : Option State :=
  let l : List (BitVec 16 × Word) := [(0, 0x8002000)]
  if rowsHere (holding st) l then some ((holding st).rowsRead l) else none

theorem test_witness_PacketReclaim :
    ((heldRead 0x0600000000000000).any fun t => (t.hubRead 0 0x8002000).map recSt == some 6) = true ∧
    ((heldRead 0).any fun t => (t.hubRead 0 0x8002000).map recSt == some 0 &&
      match t.append .queueController 0 0x8000000 (ofWords [0x8002000, 0, 0, 0, 0, 0, 0, 0]) none with
      | (.done i, _) => i == 0
      | _ => false) = true := by decide +kernel

/-- A region block that lies below an announced one, one that does not, and the announced one. -/
theorem test_witness_RegionAnnounce : bitsOf (0x8003000#64).toNat 48 16 = 0 ∧ 128 * bitsOf (0x8003000#64).toNat 7 41 = 0x8003000 ∧
    ((aRegion [] []).asid.toNat = 0 ∧ (aRegion [] []).rcb.toNat = 0x8003000) ∧
    (waiting [] []).disp.ranks.any (fun r => r.asid.toNat == 0) = true ∧
    lowRegion.chain.any (fun e => e.1.toNat == 0x8003000) = true := by
  decide +kernel
/-! ### Base dies and registers of the module -/

/-- A posted store of a word to row 0x400000 of page 0x10000000, and a later one of the same context. -/
def aPosted (n : Nat) : Posted :=
  { by_ := .context 0 false, row := 0x10000000 / 64, va := 0x8000000, page := 0x10000000, op := .store, word := 0, w32 := false,
    val := 5, rowVal := 0, born := 0, made := n }

/-- An ordered add of rank 0 in step 0 with a number. -/
def anAdd (q : Nat) : OrdAdd :=
  { stack := 0, vrank := 0, va := 0x8000000, pa := 0x10000000, page := 0x10000000, w := false, k := false, q := q, op := 5,
    stepNo := 0, by_ := .context 0 false, born := 0, made := 1 }

/-- A sequence of the rank whose next number is 3. -/
def aSeq : OrdSeq :=
  { stack := 0, vrank := 0, va := 0x8000000, pa := 0x10000000, w := false, k := false, next := 3, err := false, held := [],
    spilled := [] }

/-- Memory with operations on their way. -/
def onWay (p : List Posted) (x : List OrdAdd) (q : List OrdSeq) : State :=
  { base with mem := { base.mem with posted := p, adds := x, seqs := q } }

theorem test_witness_PostedOperations :
    (onWay [aPosted 1, aPosted 2] [] []).mem.wayFree (aPosted 1).way = true ∧
    (onWay [aPosted 1, aPosted 2] [] []).mem.wayFree (aPosted 2).way = false ∧ isHubRow (aPosted 1).row = false ∧
    (onWay [aPosted 1] [] []).mem.bad = [] ∧ (onWay [aPosted 1] [] []).mem.stalls (64 * (aPosted 1).row) = false ∧
    (∀ n ∈ [0, 1], let p := { aPosted 1 with out := outward, stage := n }
      (onWay [p] [] []).mem.wayFree p.way = true ∧ p.stage = n) ∧
    (∀ n ∈ [0, 1], (onWay [] [anAdd n] []).mem.wayFree (anAdd n).way = true ∧
      (anAdd n).stepNo = (onWay [] [anAdd n] []).openStep (anAdd n).vrank ∧ (onWay [] [anAdd n] []).mem.heldAdds 0 < 4096 ∧
      (onWay [] [anAdd n] []).resident (anAdd n).vrank = false ∧ (onWay [] [anAdd n] []).mem.stalls (anAdd n).pa = false ∧
      isHubRow ((anAdd n).pa / 64) = false) ∧
    (onWay [] [anAdd 2] [aSeq]).mem.seqs.find? (fun q => q.same (anAdd 2)) = some aSeq ∧ (anAdd 2).q < aSeq.next ∧
    (onWay [] [{ anAdd 0 with made := 2 }, anAdd 1] []).mem.wayFree { anAdd 0 with made := 2 }.way = false := by decide +kernel

/-- The state in which an arriving add of rank 0 is considered: its rank's block has been read. -/
def considered (s : State) : State := s.rowsRead (s.rankRows 0)

theorem test_witness_PostedOperations_rank :
    (considered (onWay [] [anAdd 0] [])).rankHere 0 = true ∧ (considered farRank).rankHere 0 = false ∧
    (let x := { anAdd 0 with stepNo := 1 }
     (onWay [] [x] []).mem.wayFree x.way = true ∧ x.stepNo ≠ (onWay [] [x] []).openStep x.vrank) ∧
    { aSeq with held := [(5, 1)] }.held.any (fun e => e.1 = (anAdd 5).q) = true ∧
    aSeq.same (anAdd 3) = true ∧ (anAdd 3).q = aSeq.next ∧ aSeq.held.all (fun e => e.1 ≠ 3 && e.1 ≠ 4) = true ∧
    isHubRow (aSeq.pa / 64) = false ∧ aSeq.same (anAdd 4) = true ∧ aSeq.next < (anAdd 4).q := by decide +kernel

/-- A sequence with 64 adds held. -/
def fullSeq : OrdSeq := { aSeq with held := (List.range 64).map fun i => (i + 6, 0) }

/-- Rank 0 with a spill area of some records at 0x8005000, and an add that finds its stack's buffer full: 64 such sequences. -/
def spilling (cap : Word) : State :=
  let s := withWords (ranked (List.replicate 11 0 ++ [0x8005000])) 0x10005000 [cap, 0]
  { s with mem := { s.mem with adds := [anAdd 5], seqs := fullSeq :: List.replicate 63 { fullSeq with va := 0x8000040, pa := 0x10000040 } } }

/-- The rank's block is here, its step is open, the buffer is full; and whether the area has room. -/
def spills (cap : Word) : Option Bool :=
  let t := (considered (spilling cap)).reloadSeqs 0
  if t.resident 0 && t.rankHere 0 && t.openStep 0 == 0 && 4096 ≤ t.mem.heldAdds 0 &&
      t.mem.seqs.find? (fun q => q.same (anAdd 5)) == some fullSeq then
    some (t.spill 0 fullSeq 5 1).isSome
  else none

theorem test_witness_PostedOperations_spill : spills 0 = some false ∧ spills 8 = some true ∧
    fullSeq.next < (anAdd 5).q ∧ fullSeq.held.any (fun e => e.1 = 5) = false := by decide +kernel

/-- A block of two sources and one row that a reduction engine holds for core 0, and its transfer. -/
def aBlock : RedBlock :=
  { stack := 0, core := 0, fw := false, chan := 0, ident := 1, asid := 0, words := [0x0031000000000001], rl := false, sc := 0 }

/-- The block's transfer, some rows done. -/
def blockXfer (pos posted : Nat) (index : List Int) : Xfer :=
  { aCopy with kind := .bred, pos := pos, posted := posted, index := index }

/-- The engine with the block. -/
def reduces (x : Xfer) : State := { moving [x] with mem := { base.mem with red := [aBlock] } }

theorem test_witness_ReductionRun : (∀ x ∈ [blockXfer 0 0 [], blockXfer 1 1 [0], blockXfer 1 0 [0], blockXfer 1 0 []],
    (reduces x).mem.red.find? (fun b => b.stack = 0) = some aBlock ∧ (reduces x).findXfer 0 false 0 1 = some x ∧
      (reduces x).held 0 x = false ∧ ((reduces x).core 0).prog.chans = [] ∧ bitsOf (dw aBlock.words 0).toNat 0 26 = 1) ∧
    (let x := { blockXfer 0 0 [] with ident := 2 }
     let s := prog0 { moving [x] with mem := { base.mem with red := [{ aBlock with ident := 2 }] } } fun c =>
       { c with chans := [(1, { trigs := [⟨9, aMove 0⟩] })] }
     s.findXfer 0 false 0 2 = some x ∧ s.held 0 x = true) ∧
    dw aBlock.words 2 = 0 ∧ aBlock.rl = false := by decide +kernel

theorem test_witness_ReductionRun_lanes : elemOf 2 = .int true 32 ∧ 0 < [(0 : Row)].length ∧ [(0 : Row)].length ≤ 8 := by
  decide

/-- A region of eight groups of 2 MiB at 1 GiB, a parity difference on its way, a write not yet home, and a write that
core 1 has not seen. -/
def regional : State :=
  let w : WriteRec := { ident := 1, row := 0x400000, val := 5, prev := 0, by_ := .context 0 false, rank := none, dirty := true, all := none, homed := false,
                        pub := [], reached := [], spread := [], viewed := [.context 0 false] }
  { base with mem := { base.mem with
    regions := [{ kind := 1, base := 0x40000000, size := 1, copy := 0 }]
    diffs := [(0x5000000, 1)]
    log := [w] } }

/-- A row of the parity region, and its group with one more row that fails. -/
def failingRow : State :=
  { regional with mem := { regional.mem with uncorr := ((regional.mem.group 0x1000000).getD []).filter fun i => i ≠ 0x1000000 } }

theorem test_witness_BaseDieEvents : regional.mem.diffs[0]? = some (0x5000000, 1) ∧
    (regional.mem.group 0x1000000).any (fun g => g.length == 8 && regional.mem.diffs.all fun d => !g.contains d.1) = true ∧
    (failingRow.mem.group 0x1000000).any (fun g => g.any fun i => i != 0x1000000 && failingRow.mem.uncorr.contains i) = true ∧
    regional.mem.bad = [] ∧ regional.mem.uncorr = [] ∧ regional.mem.walkErrs = [] ∧ regional.mem.reports = [] ∧
    regional.mem.recoveries = 0 ∧ regional.mem.remapM = [] ∧ base.mem.group 0x400000 = none ∧
    base.mem.copyRow 0x400000 = none ∧ Tab.get 0 base.mem.corrected (dramNumber 1 0 2 3) = 0 ∧
    Tab.get 0 { base.mem with corrected := [(dramNumber 1 0 2 3, 4)] }.corrected (dramNumber 1 0 2 3) = 4 ∧
    (regional.mem.log.find? fun w => w.ident = 1).isSome = true ∧
    (regional.mem.log.all fun w => regional.mayReach w (.context 1 false) && !regional.mayReach w (.context 0 false)) = true ∧
    ((regional.mem.recs 0x400000).find? fun w => w.dirty).isSome = true ∧ base.mem.log = [] := by decide +kernel

/-- A region kept twice, its copy at 2 GiB, whose row 0x1000000 fails. -/
def copied (bad : List Nat) : State :=
  { base with mem := { base.mem with
    regions := [{ kind := 2, base := 0x40000000, size := 1, copy := 0x80000000 }], uncorr := [0x1000000], bad := bad } }

theorem test_witness_BaseDieEvents_copy : (copied []).mem.group 0x1000000 = none ∧
    (copied []).mem.copyRow 0x1000000 = some 0x2000000 ∧ (copied []).mem.bad.contains 0x2000000 = false ∧
    (copied []).mem.uncorr.contains 0x2000000 = false ∧ (copied [0x2000000]).mem.copyRow 0x1000000 = some 0x2000000 ∧
    (copied [0x2000000]).mem.bad.contains 0x2000000 = true ∧
    (let place := (copied []).mem.dramPlace 0x1000000
     (Tab.get [] (copied []).mem.remapM (2 * place.1 + place.2.1)).length < 64) := by decide +kernel

/-- Address space 7 being quiesced while a binding of it stands, with its record's page mapped. -/
def quieting : State :=
  let s := withWords (withPage base 32 0xFC 0 0) (33 * 0x8000000 + 64 * 7) [0, 0, 5]
  { s with hub := { s.hub with quiesced := [7] }, binds := [{ firedBinding with asid := 7 }] }

theorem test_witness_QuiesceRecord : quieting.quiescing 7 = true ∧ base.quiescing 7 = false ∧
    (quieting.hubRead 0 (quiesceVa 7)).map (fun q => bitsOf (rowWord q 2).toNat 0 32) = some 5 ∧
    (quieting.quiesceCounts 7)[1]? = some 1 := by decide +kernel

/-- A region table at 0x10000200 with some first entry. -/
def tableOf (w0 w1 : Word) : State := withWords base 0x10000200 [w0, w1]

theorem test_witness_ModuleRegisters : Tab.get 0 base.hub.freq 0 = 0 ∧ base.me.fx.tkix = 0 ∧
    (core0 base fun k => { k with fx := { k.fx with tkix := 3 } }).me.fx.tkix ≠ 0 ∧ base.mem.regionsIn = none ∧
    (regionOf ((tableOf 0xC000000000000000 0).mem.word 0x10000200) 0).2 = true ∧
    (regionOf ((tableOf 0x4000000040000000 0x100000000000).mem.word 0x10000200)
      ((tableOf 0x4000000040000000 0x100000000000).mem.word 0x10000208)).2 = false ∧
    regionsApart ((List.range 32).map fun i => (regionOf ((tableOf 0x4000000040000000 0x100000000000).mem.word (0x10000200 + 16 * i))
      ((tableOf 0x4000000040000000 0x100000000000).mem.word (0x10000200 + 16 * i + 8))).1) = true ∧
    (∀ k ∈ [1, 2], let e : RegionEnt := { kind := k, base := 0x40000000, size := 1, copy := 0x80000000 }
      { base.mem with regionsIn := some [e] }.regionsIn = some [e] ∧ e.kind = k) ∧ base.mem.wf = true ∧
    base.hub.gtime / 1000 ≤ base.hub.capAt := by decide +kernel

/-! ### Hub and ports -/

theorem test_witness_PowerEvents : State.reset.hub.started = false ∧ State.reset.hub.tripped = false ∧
    base.hub.started = true ∧ (109#8).toNat < 110 ∧ 110 ≤ (110#8).toNat ∧ (50#8).toNat ≤ 50 ∧ 50 < (51#8).toNat ∧
    base.hub.tmax.toNat ≤ 90 ∧ 95 ≤ (95#8).toNat ∧ (90 < (91#8).toNat ∧ (91#8).toNat < 95) ∧ (base.core 0).fw.run ≠ .off ∧
    base.hub.gtime / 1000 ≤ base.hub.capAt ∧
    (let h := { base.hub with gtime := 5000000 }
     h.capAt < h.gtime / 1000) ∧ { State.reset.hub with tripped := true }.tripped = true := by
  decide +kernel

theorem test_witness_TimeAndIdentity : base.hub.started = true ∧ linked.hub.linked = true ∧ linked.hub.ref ≠ 5 ∧
    (let h := { linked.hub with node := 9, ref := 7 }
     h.ref ≠ 5 ∧ h.ref ≠ 9 ∧ h.ref ≠ 12 ∧ (5#12).toNat < h.node.toNat ∧ h.node.toNat < (12#12).toNat ∧ h.started = true ∧
       h.linked = true) ∧
    base.hub.uns = false ∧
    (∀ x ∈ [(50, true), (-51, false)], let h := { base.hub with uns := true, off := x.1 }
      h.uns = true ∧ decide (h.off.natAbs ≤ 50) = x.2) ∧
    base.hub.treeReady = false ∧ base.hub.heldAttests = [] ∧
    { base with hub := { base.hub with treeReady := true } }.hub.treeReady = true := by decide +kernel

/-- A request of session 1 of port A, with a number, an address, an argument and a payload. -/
def ask (op : BitVec 8) (seq : Word) (addr : Addr) (arg : BitVec 32) (body : List Byte) : PortMsg :=
  { portB := false, magic := 0x4656, ver := 1, op := op, sess := 1, plen := BitVec.ofNat 16 body.length, seq := seq, asid := 0,
    addr := addr, arg := arg, udp := true, body := body }

/-- A staged image of 32 bytes of firmware, of the highest version. -/
def image : List Host.Cell := putBytes [] 0 ([0x4B564657#64, 0xFFFF, 32, 0].flatMap wordBytes)

/-- The module with that image staged twice, a commit under way, in some states. -/
def committing (arg : BitVec 32) (bst hos : Nat) : State :=
  { base with hub := { base.hub with
    stage := image, staged := 2988, stage2 := image, staged2 := 2988, commit := some (ask 9 2 0 arg [])
    bst := bst, hos := hos, hofr := 0x8000000, hova := 0x8000000 } }

/-- The image has no fault of its own, and no staged image is not refused; whether the good one is accepted is the
verdict of its signature, of which the model knows nothing. -/
theorem test_witness_Boot : (committing 0 2 0).hub.commit = some (ask 9 2 0 0 []) ∧ (ask 9 2 0 0 []).arg = 0 ∧
    (imageOf (committing 0 2 0).hub.stage (committing 0 2 0).hub.staged).bad = false ∧
    imageRefused [] (imageOf [] 0) = true ∧ (imageOf image 2988).blen = 32 ∧ (imageOf image 2988).svn = 0xFFFF := by
  decide +kernel

theorem test_witness_Boot_verdict : imageRefused image (imageOf image 2988) =
    !Config.lmsVerify (signedPart image (imageOf image 2988)) (stagedBytes image (128 + (imageOf image 2988).blen) 2828) := by
  have hb : (imageOf image 2988).bad = false := by decide +kernel
  have hs : (imageOf image 2988).svn = 0xFFFF := by decide +kernel
  have hm : ¬ 0xFFFF < Config.msvn.toNat := by have := Config.msvn.isLt; omega
  rw [imageRefused, hb, hs, decide_eq_false hm, Bool.false_or, Bool.false_or]

/-- A hand-over in its switching state, with some cores done of all. -/
def switching (done all : Nat) : State :=
  { base with hub := { base.hub with hos := 2, hocn := done, hotg := all, hoAt := 0, gtime := 1000000000000 } }

theorem test_witness_HandOver : (committing 1 4 1).hub.commit = some (ask 9 2 0 1 []) ∧
    inHbm (committing 1 4 1).hub.hofr.toNat 32 = true ∧ (committing 1 4 1).liveCores ≠ [] ∧
    (switching 0 2).hub.hos = 2 ∧ ((switching 0 2).core 0).handed = false ∧ ((switching 0 2).core 0).fw.run ≠ .stopped ∧
    (switching 0 2).hub.hocn + 1 < (switching 0 2).hub.hotg ∧ (switching 1 2).hub.hotg ≤ (switching 1 2).hub.hocn + 1 ∧
    base.hub.hos ≠ 2 ∧ bitsOf (0x100#64).toNat 0 8 = 0 ∧ bitsOf (1#64).toNat 0 8 ≠ 0 ∧
    (switching 0 2).hub.hoAt + (switching 0 2).hub.hotmoNow * 1000000 ≤ (switching 0 2).hub.gtime ∧
    (switching 0 2).hub.hocn < (switching 0 2).hub.hotg ∧
    (let h := { (switching 0 2).hub with gtime := 0 }
     h.hos = 2 ∧ h.gtime < h.hoAt + h.hotmoNow * 1000000) ∧
    (core0 (switching 0 2) fun k => { k with handed := true }).me.handed = true := by decide +kernel

/-- The module with session 1 of port A open, its next number 2. -/
def opened (s : State) (x : Session) : State :=
  { s with hub := { s.hub with portA := { s.hub.portA with up := true, sessions := [(1, x)] } } }

/-- The answer that session 1 got to its request 2. -/
def aReply : Reply :=
  { op := 0x81, sess := 1, seq := 2, status := 0, value := 0, body := [], plen := 0, asid := 0, addr := 0 }

theorem test_witness_PortSessions : ((opened base {}).port false).up = true ∧ (ask 1 2 0 64 []).good = true ∧
    { ask 1 2 0 64 [] with udp := false }.good = false ∧ (opened base {}).session false 1 = some {} ∧
    (opened base {}).session false 2 = none ∧ (ask 1 2 0 64 []).seq ≠ 0 ∧
    (let x : Session := { next := 3, replies := [aReply] }
     (ask 1 2 0 64 []).seq.toNat < x.next.toNat ∧ (x.replies.find? fun r => r.seq = 2) = some aReply) ∧
    (let x : Session := { next := 64, replies := [{ aReply with seq := 63 }] }
     (ask 1 2 0 64 []).seq.toNat < x.next.toNat ∧ (x.replies.find? fun r => r.seq = 2) = none ∧ x.busy = none) ∧
    (let x : Session := { next := 2, busy := some (ask 1 1 0 64 []) }
     x.busy ≠ some (ask 1 2 0 64 []) ∧ (ask 1 2 0 64 []).seq = x.next ∧ x.busy ≠ none ∧ x.held = []) ∧
    (opened base { busy := some (ask 1 2 0 64 []), asked := [0] }).portsBusy = true ∧ (opened base {}).portsBusy = false ∧
    (ask 1 2 0 64 []).status = 0 ∧
    (34#64).toNat - (2#64).toNat ≤ 32 ∧ (2#64).toNat + 32 < (35#64).toNat ∧ (ask 1 2 0 64 []).early = false ∧
    State.reset.hub.bst ≠ 4 := by decide +kernel

/-- A request that is next in its session at a running module. -/
def next_ (s : State) (m : PortMsg) : Bool :=
  let t := opened s {}
  m.good && m.seq == 2 && (t.session false 1 == some {}) && t.hub.bst == 4 && !t.portsBusy && m.status == 0

/-- The state in which the request is under way. -/
def begun (s : State) (m : PortMsg) : State :=
  (opened s {}).setSession false 1 { next := 3, busy := some m }

/-- Whether a request's work ends, and with which status. -/
def ended : Served → Option Nat
  | .done st _ _ _ => some st
  | .wait _ => none

theorem test_witness_PortRequests_memory :
    (next_ base (ask 1 2 0x8000000 64 []) && next_ base (ask 2 2 0x8000000 0 [1, 2]) &&
      next_ base (ask 3 2 0x8000000 0 (List.replicate 64 0))) = true ∧
    ended (((begun (onPage 0xFC 0) (ask 1 2 0x8000000 64 [])).hostView false).portRows (ask 1 2 0x8000000 64 [])
      (slices 0x8000000 64) []) = some 0 ∧
    ended ((begun (onPage 0xFC 0) (ask 2 2 0x8000000 0 [1, 2])).portWrite (ask 2 2 0x8000000 0 [1, 2])
      (slices 0x8000000 2)) = some 0 := by decide +kernel

theorem test_witness_PortRequests_append : let m := ask 3 2 0x8000000 0 (List.replicate 64 0)
    let t := begun (queued 0 0 4 0) m
    (reach t .atomic 0x8000000).any (fun acc => !t.isRemote acc && ended (t.portAppend m 0 0x8000000 acc) == some 0) = true := by
  decide +kernel

/-- A register semaphore 3 held by some word. -/
def semaphore (w : Word) : State := { base with hub := { base.hub with sems := [(3, w)] } }

theorem test_witness_PortRequests_registers :
    (next_ base (ask 4 2 0x10 1 []) && next_ base (ask 5 2 0x18 1 (List.replicate 8 0)) && next_ base (ask 6 2 0 3 []) &&
      next_ base (ask 7 2 0 3 []) && next_ base (ask 10 2 0 0 (List.replicate 32 0)) && next_ base (ask 14 2 0 0 (List.replicate 64 0))) = true ∧
    (ask 4 2 0x10 1 []).window = true ∧ (ask 5 2 0x18 1 (List.replicate 8 0)).window = true ∧ (ask 6 2 0 3 []).plain 64 0 = true ∧
    bitAt (Tab.get 0 base.hub.sems 3) 63 = false ∧ Tab.get 0 (semaphore (semWord false 1)).hub.sems 3 = semWord false 1 ∧
    bitAt (semWord true 1) 63 = true ∧ semWord true 1 ≠ semWord false 1 ∧ (ask 10 2 0 0 (List.replicate 32 0)).plain 1 32 = true ∧
    base.hub.bctr.toNat < 32768 ∧ base.hub.leaf < 2 ^ 20 ∧ (ask 14 2 0 0 (List.replicate 64 0)).plain 1 64 = true := by
  decide +kernel

/-- The mailbox of firmware, a queue on a memory-side page. -/
def mailbox : State := withWords (withPage base 32 0xF2 0 0) (33 * 0x8000000 + 0x800000) [0, 0, 0x000100801000, 4]

theorem test_witness_PortRequests_notify : let m := ask 14 2 0 0 (List.replicate 64 0)
    let t := begun mailbox m
    (reach t .atomic (mailboxVa.setWidth 64)).any (fun acc => ended (t.portAppend m 0 mailboxVa acc) == some 0) = true := by
  decide +kernel

/-- Rank 0 with a manifest at 0x8007000 that lists the image at 0x8005000. -/
def listed : State :=
  withWords (withWords (ranked [0]) 0x10007000 [0x4B564D01, 0, 0x8008000, 1]) 0x10008000 [0x8005000]

theorem test_witness_PortRequests_compare : let m := ask 11 2 0x8007000 0 []
    base.resident 0 = false ∧ listed.resident 0 = true ∧
    (match ((begun listed m).hostView false).compare m 0 with
      | .ok (some _, _) => true
      | _ => false) = true := by decide +kernel

theorem test_witness_PortLifecycle : (ask 0x0C 1 0 0 []).seq = 1 ∧ { ask 0x0C 1 0 0 [] with sess := 0 }.plain 1 0 = true ∧
    ((List.range 16).map fun i => i + 1).find? (fun n => !(((opened base {}).port false).sessions.any fun e => e.1 == n)) = some 2 ∧
    (let t := { base with hub := { base.hub with portA := { base.hub.portA with sessions := (List.range 16).map fun i => (i + 1, {}) } } }
     ((List.range 16).all fun i => (t.port false).sessions.any fun e => e.1 == i + 1)) = true ∧
    (ask 0x0D 2 0 0 []).plain 1 0 = true ∧ (ask 8 2 0 0 [1]).addr.toNat + 1 ≤ stageSize ∧
    (let t := { base with hub := { base.hub with gtime := 100000000 } }
     0 + 1000000 * t.hub.lto ≤ t.hub.gtime) ∧
    State.reset.hub.bst = 0 ∧ base.hub.bst = 4 ∧ base.hub.hos ≠ 1 ∧ base.hub.commit = none ∧
    (ask 9 2 0 1 []).plain 2 0 = true ∧ (committing 1 4 0).hub.hofr ≠ 0 ∧ (committing 1 4 0).hub.hova ≠ 0 := by decide +kernel

/-! ### Decoding and the step -/

theorem test_witness_DecodeFates : raw false 0 0x0C000000 ≠ none ∧ raw false 0 0x0FC00000 = none ∧ (0x0C000000#32 ≠ 0) ∧
    bitsOf (0x0C000000#32).toNat 22 6 = 48 ∧ bitsOf (0x00000001#32).toNat 22 6 = 0 ∧ raw false 1 0x00C00000 ≠ none ∧
    portsOk 1 0x00C00000 = true ∧ portsOk 5 0x00400021 = true := by decide +kernel

theorem test_witness_RoundTrip : let i := Instr.add 0 1 2 3
    i.slot = some 1 ∧ (encode i).isSome = true ∧ i.wf = true ∧ i.contextOk false 16 = true ∧ i.present false = true ∧
    (encode i).any (fun w => portsOk 1 w) = true ∧ (encodePair (.li 0 1 5)).isSome = true := by decide +kernel

/-- A bundle that holds one addition in its first scalar slot, placed for core 0's program context. -/
def addBundle : State := State.reset.placeBundle false ((((encode (.add 0 1 2 3)).getD 0).setWidth 256 : BitVec 256) <<< 32)

theorem test_witness_StepRunsDecoded : addBundle.nextTurn = .core 0 0 0 ∧
    { base with turns := [.occur .regionTableLoadComplete] }.nextTurn = .occur .regionTableLoadComplete ∧
    Instr.regionTableLoadComplete.scheduled = true ∧ { base with turns := [.time 5] }.nextTurn = .time 5 ∧
    base.mem.walkErrs = [] ∧ base.mem.reports = [] ∧ base.mem.recoveries = 0 := by decide +kernel

/-- A translation of page 1 of address space 0 that a translation cache holds and that is in use, while the tables map
nothing there; its tlbi has not completed. -/
def stale : State :=
  let s := core0 base fun k => { k with fx := { k.fx with tlbis := [(0, 0, 0x8000000), (2, 0, 0)] } }
  { s with mem := { s.mem with tlb :=
      [{ level := 2, asid := 0, va := 0x8000000, w0 := BitVec.ofNat 64 (63 * 2 ^ 58 + 0x18000000), w1 := 0, live := true }] } }

theorem test_witness_TranslationInvalidate : (stale.core 0).fx.tlbis = (0, 0, 0x8000000) :: [(2, 0, 0)] ∧
    0x8000040 / 65536 = (0x8000000#48).toNat / 65536 ∧
    { base with turns := [.walk 0 0] }.nextTurn = .walk 0 0 ∧
    { base with turns := [.cached []] }.nextTurn = .cached [] := by decide +kernel

/-- R326: an access may use a removed leaf until its tlbi completes, and not after. -/
theorem test_tlbi_complete : (reach stale .read 0x8000040).map (fun a => a.pa) = some 0x18000040 ∧
    reach { stale with mem := stale.mem.invalidate 0 0 0x8000000 } .read 0x8000040 = none := by decide +kernel

/-- R325: a walk of the page that boot maps leaves its three entries of levels 0, 1 and 2. -/
theorem test_cache_walk : (base.mem.cacheWalk 0 64).tlb.map (fun e => e.level) = [0, 1, 2] := by decide +kernel

/-- The turn of core 0, up to the choice of its context. -/
def preparing (s : State) : State :=
  let s0 := { s with turns := s.turns.tail, fresh := s.fresh + 1 }
  ((s0.openTurn 0 0).dueSwitch 0).takeAsync 0 |>.actStops 0

/-- Whether the step runs, for core 0's program context, a bundle that holds one instruction beside no-ops, and the
instruction answers a next state without a trap or a wait. -/
def runsAlone (s : State) (k : Nat) (i : Instr) : Bool :=
  s.nextTurn == .core 0 0 0 && (preparing s).chooseCtx 0 == some false &&
  match ((preparing s).frame 0 false 0).fetchBundle with
  | .ok (b, u) =>
    let l := decodeBundle u.iss.fw (u.me.channels u.iss.fw) b
    (l.any fun e => e.1 == k && (match e.2 with
      | .ok j => j == i
      | .error _ => false)) &&
    (l.all fun e => match e.2 with
      | .ok (.nop _) => true
      | .ok j => e.1 == k && j == i
      | .error _ => false) &&
    !u.beat (u.fates b).1 &&
    match exec i { u with iss := { u.iss with slot := k, trap := none, errs := [] } } with
    | .next v => v.iss.trap.isNone && v.iss.waits.isEmpty
    | _ => false
  | .error _ => false

/-- A concrete state that meets all of the first clause: the bundle of one addition. -/
theorem test_witness_StepRunsDecoded_bundle : runsAlone addBundle 1 (.add 0 1 2 3) = true := by decide +kernel

theorem test_witness_StepKeepsMemoryCanonical : base.Canonical ∧ (onPage 0xFC 0).Canonical :=
  ⟨show base.mem.wf = true by decide +kernel, show (onPage 0xFC 0).mem.wf = true by decide +kernel⟩

end Sys2Proof.Tests
end

section
/-! SUPPORT. Proof of the statement on special registers: what a move reads and writes, said once for each kind of register,
then the registers of both contexts, of the program context and of the firmware context. -/

namespace Sys2Proof.Machine

/-! ## One core changed -/

/-- A change of the issuing core alone leaves every other core and the rest of the machine. -/
theorem State.onlyCore_setMe (s : State) (k : Core) : OnlyCore s.iss.core s (s.setMe k) :=
  ⟨rfl, fun _ h => s.core_setMe_ne _ k h⟩

/-- So does one that changes the issue frame too. -/
theorem State.onlyCore_setMe_iss (s : State) (k : Core) (i : Issue) :
    OnlyCore s.iss.core { s with iss := i } { s.setMe k with iss := i } :=
  ⟨rfl, fun _ h => s.core_setMe_ne _ k h⟩

theorem State.ctx_setMe (s : State) (k : Core) : (s.setMe k).ctx = k.ctx s.iss.fw := by
  simp [State.ctx]

/-! ## The moves (R108) -/

section Moves
variable {s : State} {g : BitVec 4} {a : BitVec 6} {n : BitVec 8}

/-- Whatever a special register but fpstat reads is the result of the move. -/
theorem exec_mfs_reads {v : Word} (h : s.readP g = true) (hr : s.readSpecial n.toNat = some v)
    (hn : ¬ (n = 0x01 ∧ s.iss.fw = false ∧ s.me.landing false = true)) :
    exec (.mfs g a n) s = .next (s.issueS a v 1) := by
  rw [exec_mfs, execMfs, if_neg hn, hr, issue_ok g s _ h]

/-- A number that does not exist in the context is refused. -/
theorem exec_mfs_refused (h : s.readP g = true) (hr : s.readSpecial n.toNat = none)
    (hn : ¬ (n = 0x01 ∧ s.iss.fw = false ∧ s.me.landing false = true)) :
    exec (.mfs g a n) s = .next (s.trapped (s.trapOf 0x01 3 0) []) := by
  rw [exec_mfs, execMfs, if_neg hn, hr]
  exact issue_trap g s _ _ h

theorem exec_mts_writes {t : State} (h : s.readP g = true) (hw : s.writeSpecial n.toNat (s.readS a) = .ok t) :
    exec (.mts g a n) s = .next t := by
  simp [execMts, hw, h]

theorem exec_mts_refused {r : Nat} (h : s.readP g = true) (hw : s.writeSpecial n.toNat (s.readS a) = s.illegal r) :
    exec (.mts g a n) s = .next (s.trapped (s.trapOf 0x01 r 0) []) := by
  simp [execMts, hw, h, State.illegal, State.fault]

/-- A write of a register that the context has: only the context changes. -/
theorem exec_mts_setCtx {c : Ctx} (h : s.readP g = true) (hw : s.writeSpecial n.toNat (s.readS a) = .ok (s.setCtx c)) :
    ∃ t, exec (.mts g a n) s = .next t ∧ OnlyCore s.iss.core s t ∧ t.ctx = c :=
  ⟨_, exec_mts_writes h hw, s.onlyCore_setMe _, s.ctx_setCtx c⟩

/-- A write of a register of the firmware context alone. -/
theorem exec_mts_setFx {x : FwX} (h : s.readP g = true) (hw : s.writeSpecial n.toNat (s.readS a) = .ok (s.setFx x)) :
    ∃ t, exec (.mts g a n) s = .next t ∧ OnlyCore s.iss.core s t ∧ t.fx = x ∧ t.ctx = s.ctx :=
  ⟨_, exec_mts_writes h hw, s.onlyCore_setMe _, s.fx_setFx x, s.ctx_setFx x⟩

/-- A write of a register of the program context alone. -/
theorem exec_mts_setPx {x : ProgX} (h : s.readP g = true) (hw : s.writeSpecial n.toNat (s.readS a) = .ok (s.setPx x)) :
    ∃ t, exec (.mts g a n) s = .next t ∧ OnlyCore s.iss.core s t ∧ t.px = x ∧ t.ctx = s.ctx :=
  ⟨_, exec_mts_writes h hw, s.onlyCore_setMe _, s.px_setPx x, s.ctx_setPx x⟩

/-- The firmware's write of a trap register of the program context (R39). -/
theorem exec_mts_setProg {c : Ctx} (h : s.readP g = true) (hf : s.iss.fw = true)
    (hw : s.writeSpecial n.toNat (s.readS a) = .ok (s.setMe { s.me with prog := c })) :
    ∃ t, exec (.mts g a n) s = .next t ∧ OnlyCore s.iss.core s t ∧ t.me.prog = c ∧ t.ctx = s.ctx :=
  ⟨_, exec_mts_writes h hw, s.onlyCore_setMe _, congrArg Core.prog (s.me_setMe _), by simp [State.ctx, Core.ctx, hf]⟩

end Moves

/-! ## The numbers of each context (R19) -/

theorem toNat_ofNat_eight {k : Nat} (h : k < 256) : (BitVec.ofNat 8 k).toNat = k := by
  rw [BitVec.toNat_ofNat]; exact Nat.mod_eq_of_lt h

/-- R19, R208: the watermarks of a context's channels, 16 of the program's and 4 of the firmware's. -/
theorem State.readSpecial_watermark (s : State) (n : Nat) (h : n < if s.iss.fw then 4 else 16) :
    s.readSpecial (0x20 + n) = some (Tab.get {} s.ctx.chans n : Chan).tw := by
  cases hf : s.iss.fw <;> simp only [hf, Bool.false_eq_true, if_false, if_true] at h <;>
    simp (disch := omega) only [State.readSpecial, hf, if_neg, if_pos, Bool.false_eq_true, if_false, if_true,
      Nat.add_sub_cancel_left]

theorem State.writeSpecial_watermark (s : State) (n : Nat) (v : Word) (h : n < if s.iss.fw then 4 else 16) :
    s.writeSpecial (0x20 + n) v = s.illegal 6 := by
  cases hf : s.iss.fw <;> simp only [hf, Bool.false_eq_true, if_false, if_true] at h <;>
    simp (disch := omega) only [State.writeSpecial, hf, if_neg, if_pos, Bool.false_eq_true, if_false, if_true]

/-- R19: the numbers from 0x80 on are the firmware's. -/
theorem State.readSpecial_program_high (s : State) (n : Nat) (hf : s.iss.fw = false) (h : 0x80 ≤ n) :
    s.readSpecial n = none := by
  unfold State.readSpecial
  dsimp only
  iterate 11 rw [if_neg (by omega)]
  rw [hf, if_neg Bool.false_ne_true]
  iterate 8 rw [if_neg (by omega)]

theorem State.writeSpecial_program_high (s : State) (n : Nat) (v : Word) (hf : s.iss.fw = false) (h : 0x80 ≤ n) :
    s.writeSpecial n v = s.illegal 3 := by
  unfold State.writeSpecial
  dsimp only
  iterate 4 rw [if_neg (by omega)]
  rw [hf, if_neg Bool.false_ne_true]
  iterate 8 rw [if_neg (by omega)]

/-- R324: the keys read as zero. -/
theorem State.readSpecial_key (s : State) (n : Nat) (hf : s.iss.fw = true) (h : 0xC4 ≤ n) (h' : n ≤ 0xCB) :
    s.readSpecial n = some 0 := by
  simp (disch := omega) only [State.readSpecial, hf, if_neg, if_pos, if_true]

/-- R324: the first seven words of a key are kept until the last is written. -/
theorem State.writeSpecial_key (s : State) (n : Nat) (v : Word) (hf : s.iss.fw = true) (h : n < 7) :
    s.writeSpecial (0xC4 + n) v = .ok (s.setFx { s.fx with tkeys := Tab.set 0 s.fx.tkeys n v }) := by
  simp (disch := omega) only [State.writeSpecial, hf, if_neg, if_pos, if_true, Nat.add_sub_cancel_left]

/-! ## The registers of each context -/

/-- A field of a word, in the terms of the statements. -/
theorem fld_eq_bitsOf (v : Word) (lo n : Nat) : fld v lo n = bitsOf v.toNat lo n := by
  rw [fld, BitVec.extractLsb'_toNat, Nat.shiftRight_eq_div_pow, bitsOf]

/-- R21: the reserved codes of fmt. -/
theorem fmtReserved_iff (v : Word) : fmtReserved v = true ↔
    10 < bitsOf v.toNat 28 4 ∨ 10 < bitsOf v.toNat 24 4 ∨ bitsOf v.toNat 14 2 = 3 ∨ 5 < bitsOf v.toNat 10 3 := by
  simp only [fmtReserved, fld_eq_bitsOf, Bool.or_eq_true, decide_eq_true_eq, beq_iff_eq, or_assoc]

/-- R24, R107: the checks of a format write in their order, and its shadow. -/
theorem formatWrite : Claims.FormatWrite := by
  intro s g a h v reserved refused
  have refuses (r : Nat) (e : s.writeFmt v = s.illegal r) : refused r := by
    show issue g s (s.writeFmt v) = _
    rw [e]; exact issue_trap g s _ _ h
  refine ⟨fun hf => refuses 3 ?_, fun hf hc => refuses 4 ?_, fun hf hc hr => refuses 3 ?_, fun hf hc hr => ?_⟩
  · simp [State.writeFmt, hf]
  · simp [State.writeFmt, hf, hc]
  · simp [State.writeFmt, hf, hc, (fmtReserved_iff v).2 hr]
  · have hr' : fmtReserved v = false := by simpa using mt (fmtReserved_iff v).1 hr
    have run : exec (.wfmt g a) s = .next
        { s.setPx { s.px with shVal := s.px.fmt, fmt := v &&& fmtMask, shCnt := 4 } with
          iss := { s.iss with fmtSet := true } } := by
      show issue g s (s.writeFmt v) = _
      simp [State.writeFmt, hf, hc, hr', h]
    exact ⟨_, run, s.px_setPx _, s.ctx_setPx _, rfl, s.onlyCore_setMe_iss _ _⟩

/-- R108, R19, R20: the registers that both contexts have. -/
theorem sharedSpecials : Claims.SharedSpecials := by
  intro s g a h reads refused c
  have read {n : BitVec 8} {v : Word} (hn : n ≠ 1) (e : s.readSpecial n.toNat = some v) : reads n v :=
    exec_mfs_reads h e fun x => hn x.1
  refine ⟨read (by decide) rfl, read (by decide) rfl, read (by decide) rfl, read (by decide) rfl, read (by decide) rfl,
    read (by decide) rfl, read (by decide) rfl, read (by decide) rfl, read (by decide) rfl, read (by decide) rfl, ?_, ?_, ?_⟩
  · intro n hn
    simp only [List.mem_cons, List.not_mem_nil, or_false] at hn
    rcases hn with rfl | rfl | rfl | rfl | rfl | rfl <;> exact exec_mts_refused h rfl
  · intro hf n hn
    simp only [List.mem_cons, List.not_mem_nil, or_false] at hn
    rcases hn with rfl | rfl <;> exact exec_mts_refused h (by simp [State.writeSpecial, hf])
  · intro n hn
    simp only [List.mem_cons, List.not_mem_nil, or_false] at hn
    rcases hn with rfl | rfl | rfl <;>
      exact ⟨_, exec_mts_writes h rfl, s.onlyCore_setMe _, s.ctx_setCtx _⟩

/-- R9: the three fields of coreid do not overlap. -/
theorem coreIdentity : Claims.CoreIdentity := by
  intro c hc
  have die : c / 50 < 4 := by omega
  have group : c % 50 / 10 < 5 := by omega
  have word : (coreIdWord c).toNat = c + c / 50 * 256 + c % 50 / 10 * 1024 := by
    simp only [coreIdWord, BitVec.toNat_ofNat]; omega
  simp only [word, bitsOf, Nat.reducePow]
  generalize c / 50 = d at *
  generalize c % 50 / 10 = k at *
  omega

/-- R20, R27: both moves of fpstat wait for the results on their way. -/
theorem statusFlags : Claims.StatusFlags := by
  intro s g a h hf
  refine ⟨fun hl => ⟨?_, ?_⟩, fun hl => ⟨?_, ?_⟩⟩
  · simp [execMfs, hf, hl, h]
  · simp [execMts, State.writeSpecial, hf, hl, h]
  · exact exec_mfs_reads h (by simp [State.readSpecial, hf]) (by simp [hl])
  · exact ⟨_, exec_mts_writes (t := s.setPx { s.px with fpstat := (s.readS a).setWidth 7 }) h
      (by simp [State.writeSpecial, hf, hl]), s.px_setPx _, s.onlyCore_setMe _⟩

/-- R20: fwshare's clamp is the nearest number from 1 to 64. -/
theorem clampShare_eq (v : Nat) : clampShare v = max 1 (min v 64) := by
  unfold clampShare; split <;> omega

/-- R20, R226: both writes of fwshare clamp alike. -/
theorem firmwareShare : Claims.FirmwareShare := by
  intro s g h hf clamped
  have share (v : Nat) : (s.setFx { s.fx with fwshare := clampShare v }).fx = { s.fx with fwshare := clamped v } := by
    rw [State.fx_setFx, clampShare_eq]
  exact ⟨fun a => ⟨_, exec_mts_writes h (by simp [State.writeSpecial, hf]), share _, s.onlyCore_setMe _⟩,
    fun i => ⟨_, issue_ok g s _ h, share _, s.onlyCore_setMe _⟩⟩

/-- R19 to R22: the registers of a program context alone. -/
theorem programSpecials : Claims.ProgramSpecials := by
  intro s g a h hf v reads refused
  have read {n : BitVec 8} {w : Word} (hn : n ≠ 1) (e : s.readSpecial n.toNat = some w) : reads n w :=
    exec_mfs_reads h e fun x => hn x.1
  refine ⟨?_, ?_, ?_, ?_, ?_, ?_, ?_, ?watermarks, ?fmt, ?fmtsv, ?streams, ?firmwares⟩
  case watermarks =>
    intro n hn
    have e : (BitVec.ofNat 8 (0x20 + n)).toNat = 0x20 + n := toNat_ofNat_eight (by omega)
    exact ⟨read (fun x => by rw [x] at e; simp at e; omega) (by rw [e, s.readSpecial_watermark n (by simpa [hf])]),
      exec_mts_refused h (by rw [e, s.writeSpecial_watermark n _ (by simpa [hf])])⟩
  case fmt =>
    simp [execMts, execWfmt, State.writeSpecial, hf]
  case fmtsv =>
    exact ⟨s.setPx { s.px with fmtsv := v &&& fmtMask }, exec_mts_writes h (by simp [State.writeSpecial, hf, v]),
      s.onlyCore_setMe _, s.ctx_setPx _, s.px_setPx _⟩
  case streams =>
    intro n hn
    simp only [List.mem_cons, List.not_mem_nil, or_false] at hn
    rcases hn with rfl | rfl | rfl | rfl
    · exact ⟨s.setPx { s.px with rkey0 := v }, exec_mts_writes h (by simp [State.writeSpecial, hf, v]),
        s.onlyCore_setMe _, s.ctx_setPx _, s.px_setPx _⟩
    · exact ⟨{ s.setPx { s.px with rcnt0 := v } with iss := { s.iss with drawn0 := 0 } },
        exec_mts_writes h (by simp [State.writeSpecial, hf, v]), s.onlyCore_setMe_iss _ _, s.ctx_setPx _, s.px_setPx _⟩
    · exact ⟨s.setPx { s.px with rkey1 := v }, exec_mts_writes h (by simp [State.writeSpecial, hf, v]),
        s.onlyCore_setMe _, s.ctx_setPx _, s.px_setPx _⟩
    · exact ⟨{ s.setPx { s.px with rcnt1 := v } with iss := { s.iss with drawn1 := 0 } },
        exec_mts_writes h (by simp [State.writeSpecial, hf, v]), s.onlyCore_setMe_iss _ _, s.ctx_setPx _, s.px_setPx _⟩
  case firmwares =>
    intro n hn
    have hn1 : n ≠ 1 := by rintro rfl; simp at hn
    exact ⟨exec_mfs_refused h (s.readSpecial_program_high _ hf hn) fun x => hn1 x.1,
      exec_mts_refused h (s.writeSpecial_program_high _ _ hf hn)⟩
  all_goals exact read (by decide) (by simp [State.readSpecial, hf])

/-- R19, R35, R36, R324: the registers of a firmware context alone. -/
theorem firmwareSpecials : Claims.FirmwareSpecials := by
  intro s g a h hf v reads refused p writes
  have read {n : BitVec 8} {w : Word} (e : s.readSpecial n.toNat = some w) : reads n w :=
    exec_mfs_reads h e fun x => by simp [hf] at x
  refine ⟨?watermarks, ⟨?_, ?_, ?_, ?_, ?_, ?_, ?_, ?_⟩, ⟨?_, ?_, ?_, ?_, ?keys, ?_, ?_, ?_⟩, ⟨?rcb, ?vrank, ?tdeleg⟩,
    ⟨?cause, ?epc, ?faddr, ?tstat, ?fmtsv, ?fwev⟩, ⟨?tatb, ?tkix, ?tkeys⟩, ?readOnly, ?programs⟩
  case watermarks =>
    intro n hn
    have e : (BitVec.ofNat 8 (0x20 + n)).toNat = 0x20 + n := toNat_ofNat_eight (by omega)
    exact ⟨read (by rw [e, s.readSpecial_watermark n (by simpa [hf])]),
      exec_mts_refused h (by rw [e, s.writeSpecial_watermark n _ (by simpa [hf])])⟩
  case keys => exact fun n lo hi => read (s.readSpecial_key _ hf lo hi)
  case rcb => exact exec_mts_setCtx h (by simp [State.writeSpecial, hf, v])
  case vrank => exact exec_mts_setCtx h (by simp [State.writeSpecial, hf, v])
  case tdeleg => exact exec_mts_setFx h (by simp [State.writeSpecial, hf, v, delegMask])
  case cause => exact exec_mts_setProg h hf (by simp [State.writeSpecial, hf, v, p, causeMask])
  case epc => exact exec_mts_setProg h hf (by simp [State.writeSpecial, hf, v, p])
  case faddr => exact exec_mts_setProg h hf (by simp [State.writeSpecial, hf, v, p])
  case tstat => exact exec_mts_setProg h hf (by simp [State.writeSpecial, hf, v, p, Ctx.setTstat, bitAt])
  case fmtsv => exact exec_mts_setPx h (by simp [State.writeSpecial, hf, v, fmtMask])
  case fwev =>
    obtain ⟨t, run, only, hfx, hctx⟩ := exec_mts_setFx (n := 0x87) (a := a) h
      (x := { s.fx with fwev := s.fx.fwev &&& ~~~(v.setWidth 2) }) (by simp [State.writeSpecial, hf, v])
    exact ⟨t, run, only, congrArg FwX.fwev hfx, hctx⟩
  case tatb => exact exec_mts_writes h (by simp [State.writeSpecial, hf, v])
  case tkix => exact exec_mts_setFx h (by simp [State.writeSpecial, hf, v])
  case tkeys =>
    intro n hn
    have e : (BitVec.ofNat 8 (0xC4 + n)).toNat = 0xC4 + n := toNat_ofNat_eight (by omega)
    obtain ⟨t, run, only, hfx, hctx⟩ := exec_mts_setFx (n := BitVec.ofNat 8 (0xC4 + n)) h
      (by rw [e, s.writeSpecial_key n (s.readS a) hf hn])
    exact ⟨t, run, only, by simp [hfx, v], hctx, fun j hj => by simp [hfx, hj]⟩
  case readOnly =>
    intro n hn
    simp only [List.mem_cons, List.not_mem_nil, or_false] at hn
    rcases hn with rfl | rfl | rfl | rfl <;> exact exec_mts_refused h (by simp [State.writeSpecial, hf])
  case programs =>
    intro n hn
    simp only [List.mem_cons, List.not_mem_nil, or_false] at hn
    rcases hn with rfl | rfl | rfl | rfl | rfl | rfl | rfl <;>
      exact ⟨exec_mfs_refused h (by simp [State.readSpecial, hf]) (by simp [hf]),
        exec_mts_refused h (by simp [State.writeSpecial, hf])⟩
  all_goals exact read (by simp [State.readSpecial, hf, tstatWord, p])

/-- Settles O9, claim by claim: a move reads what `State.readSpecial` gives and writes what `State.writeSpecial` gives, and
each touches the issuing core alone. -/
theorem specialRegisters : Obligations.SpecialRegisters :=
  ⟨formatWrite, sharedSpecials, programSpecials, coreIdentity, firmwareSpecials, statusFlags, firmwareShare⟩

end Sys2Proof.Machine
end

section
/-! SUPPORT. What the named operations of the hub, the queues and the dispatchers leave of the dispatchers' tables: those below an
append leave all of them, the others the rank table. -/

namespace Sys2Proof.Machine

/-! ## What leaves the dispatchers' tables alone -/

/-- A run over a list of steps each of which keeps a part of the state keeps it. -/
theorem State.foldl_keeps {α β : Type} (part : State → β) (f : State → α → State) (h : ∀ s x, part (f s x) = part s)
    (l : List α) (s : State) : part (l.foldl f s) = part s := by
  induction l generalizing s with
  | nil => rfl
  | cons x t ih => exact (ih (f s x)).trans (h s x)

@[simp] theorem State.opened_disp (s : State) (pa : Nat) : (s.opened pa).disp = s.disp := rfl
@[simp] theorem State.noteError_disp (s : State) (asid pa : Nat) : (s.noteError asid pa).disp = s.disp := rfl
@[simp] theorem State.actFor_disp (s : State) (v : Option (BitVec 16)) : (s.actFor v).disp = s.disp := rfl
@[simp] theorem State.flushPubs_disp (s : State) (a : Agent) : (s.flushPubs a).disp = s.disp := rfl
@[simp] theorem State.writeHome_disp (s : State) (a : Agent) (c : Bool) (r : Nat) (v : Row) :
    (s.writeHome a c r v).disp = s.disp := rfl
@[simp] theorem State.publish_disp (s : State) (a b : Agent) (sc : Nat) : (s.publish a b sc).disp = s.disp := rfl
@[simp] theorem State.raiseAsync_disp (s : State) (c : Nat) (e : Async) : (s.raiseAsync c e).disp = s.disp := rfl
@[simp] theorem State.bumpModule_disp (s : State) (w : Nat) (high : Bool) : (s.bumpModule w high).disp = s.disp := by
  simp only [State.bumpModule, State.bump]
@[simp] theorem State.onLink_disp (s : State) (p : Nat) (f : Flit) : (s.onLink p f).disp = s.disp := rfl
@[simp] theorem State.setRoute_disp (s : State) (r : Route) : (s.setRoute r).disp = s.disp := rfl
@[simp] theorem State.forgetHub_disp (s : State) (keys : List Nat) : (s.forgetHub keys).disp = s.disp := rfl
@[simp] theorem State.dropAnswersAs_disp (s : State) (k : AccKind) (l : List (BitVec 16 × Word)) :
    (s.dropAnswersAs k l).disp = s.disp := rfl
@[simp] theorem State.dropAnswers_disp (s : State) (l : List (BitVec 16 × Word)) : (s.dropAnswers l).disp = s.disp := rfl

@[simp] theorem State.load_disp (s : State) (a : Agent) (acc : Acc) (n : Nat) : (s.load a acc n).2.2.disp = s.disp := by
  unfold State.load; dsimp only; split
  · rfl
  · split <;> rfl

@[simp] theorem State.put_disp (s : State) (a : Agent) (acc : Acc) (v : Row) : (s.put a acc v).disp = s.disp := by
  unfold State.put; split <;> rfl

@[simp] theorem State.putPart_disp (s : State) (a : Agent) (acc : Acc) (v : Row) : (s.putPart a acc v).disp = s.disp := by
  unfold State.putPart; split
  · rfl
  · simp

@[simp] theorem State.routeFlit_disp (s : State) (dst cls : Nat) (f : Flit) : (s.routeFlit dst cls f).disp = s.disp := by
  unfold State.routeFlit; dsimp only; split
  · simp
  · split
    · rfl
    · split <;> simp

@[simp] theorem State.sendFlit_disp (s : State) (dst cls : Nat) (f : Flit) : (s.sendFlit dst cls f).disp = s.disp := by
  unfold State.sendFlit; split
  · split
    · rfl
    · simp
  · simp

@[simp] theorem State.askHub_disp (s : State) (acc : Acc) : (s.askHub acc).disp = s.disp := by
  unfold State.askHub; split <;> simp

@[simp] theorem State.askHubOnce_disp (s : State) (acc : Acc) (f : Flit) : (s.askHubOnce acc f).disp = s.disp := by
  unfold State.askHubOnce; dsimp only; split <;> simp

@[simp] theorem State.openWalk_disp (s : State) (k : AccKind) (asid : BitVec 16) (va : Word) (n : Nat) :
    (s.openWalk k asid va n).disp = s.disp := by
  induction n generalizing s with
  | zero => rfl
  | succ n ih =>
    unfold State.openWalk; split
    · rw [ih]; rfl
    · rfl

@[simp] theorem State.openedAt_disp (s : State) (asid : BitVec 16) (k : AccKind) (va : Word) :
    (s.openedAt asid k va).disp = s.disp := by
  unfold State.openedAt; dsimp only; split
  · split <;> simp
  · simp

@[simp] theorem State.touchAs_disp (s : State) (k : AccKind) (asid : BitVec 16) (va : Word) :
    (s.touchAs k asid va).disp = s.disp := by
  unfold State.touchAs; dsimp only; split
  · split <;> simp
  · simp
  · simp

@[simp] theorem State.touch_disp (s : State) (asid : BitVec 16) (va : Word) : (s.touch asid va).disp = s.disp :=
  s.touchAs_disp .read asid va

/-- R322: reading rows changes nothing that the dispatchers hold. -/
@[simp] theorem State.rowsRead_disp (s : State) (l : List (BitVec 16 × Word)) : (s.rowsRead l).disp = s.disp :=
  State.foldl_keeps State.disp (fun s (e : BitVec 16 × Word) => s.touch e.1 e.2) (fun s e => s.touch_disp e.1 e.2) l s

@[simp] theorem State.noteApp_disp (s : State) (asid : BitVec 16) (e : App) : (s.noteApp asid e).disp = s.disp := by
  unfold State.noteApp; split <;> rfl

@[simp] theorem State.headerOf_disp (s : State) (node : Nat) (asid : BitVec 16) (va : Addr) (row : Row) :
    (s.headerOf node asid va row).2.disp = s.disp := by
  unfold State.headerOf; dsimp only; split
  · rfl
  · split <;> rfl

@[simp] theorem State.queueHdr_disp (s : State) (asid : BitVec 16) (va : Addr) (acc : Acc) :
    (s.queueHdr asid va acc).2.disp = s.disp := by
  simp [State.queueHdr]

@[simp] theorem State.putSlot_disp (s : State) (a : Agent) (slot : Acc) (v : Row) : (s.putSlot a slot v).disp = s.disp := by
  unfold State.putSlot; split <;> simp [State.remoteRow]

@[simp] theorem State.owesMirror_disp (s : State) (asid : BitVec 16) (va : Addr) (row : Nat) (h : QHdr) (i : Nat)
    (who : Option PortMsg) : (s.owesMirror asid va row h i who).disp = s.disp := by
  unfold State.owesMirror; split <;> rfl

@[simp] theorem State.sendMirror_disp (s : State) (e : Mirror) (h : QHdr) (v : Row) : (s.sendMirror e h v).disp = s.disp := by
  unfold State.sendMirror; split <;> simp

@[simp] theorem State.mirror_disp (s : State) (asid : BitVec 16) (va : Addr) (row : Nat) (h : QHdr) (i : Nat) (v : Row)
    (who : Option PortMsg) : (s.mirror asid va row h i v who).disp = s.disp := by
  unfold State.mirror; dsimp only; split <;> simp

@[simp] theorem State.rewriteFar_disp (s : State) (acc : Acc) (old new : Row) : (s.rewriteFar acc old new).disp = s.disp := by
  unfold State.rewriteFar; dsimp only; split
  · simp
  · refine State.foldl_keeps State.disp _ (fun s j => ?_) _ _
    split <;> simp

@[simp] theorem State.rewriteAs_disp (s : State) (a : Agent) (v : Option (BitVec 16)) (asid : BitVec 16) (va : Addr)
    (f : Row → Row) : (s.rewriteAs a v asid va f).disp = s.disp := by
  unfold State.rewriteAs; split
  · split
    · split <;> simp [State.serving]
    · simp [State.serving]
  · rfl
  · rfl

@[simp] theorem State.takeAt_disp (s : State) (a : Agent) (acc : Acc) (h : QHdr) : (s.takeAt a acc h).disp = s.disp := by
  simp [State.takeAt]

@[simp] theorem State.takeHere_disp (s : State) (a : Agent) (asid : BitVec 16) (va : Addr) :
    (s.takeHere a asid va).2.disp = s.disp := by
  unfold State.takeHere; split
  · simp
  · split
    · rfl
    · dsimp only; split
      · simp
      · split
        · simp
        · split
          · simp
          · split <;> simp

@[simp] theorem State.take_disp (s : State) (a : Agent) (asid : BitVec 16) (va : Addr) : (s.take a asid va).2.disp = s.disp := by
  simp [State.take]

@[simp] theorem State.takeFar_disp (s : State) (asid : BitVec 16) (va : Addr) (acc : Acc) :
    (s.takeFar asid va acc).2.disp = s.disp := by
  unfold State.takeFar; split
  · simp
  · dsimp only; split
    · simp
    · split
      · simp
      · split
        · simp
        · split
          · simp
          · split <;> simp

/-! ## What keeps the rank table -/

@[simp] theorem State.noteFirst_ranks (s : State) (asid : BitVec 16) (va own : Addr) :
    (s.noteFirst asid va own).disp.ranks = s.disp.ranks := by
  unfold State.noteFirst; split <;> rfl

@[simp] theorem State.claim_ranks (s : State) (a : Agent) (asid : BitVec 16) (va : Addr) (acc : Acc) (h : QHdr) (ri : Word) :
    (s.claim a asid va acc h ri).2.disp.ranks = s.disp.ranks := by
  unfold State.claim; split <;> simp

@[simp] theorem State.appendFar_ranks (s : State) (a : Agent) (asid : BitVec 16) (va : Addr) (acc : Acc) (v : Row) :
    (s.appendFar a asid va acc v).2.disp.ranks = s.disp.ranks := by
  unfold State.appendFar; dsimp only; split
  · simp
  · split
    · simp
    · split
      · simp
      · split
        · simp
        · split
          · simp
          · split <;> simp

@[simp] theorem State.appendHere_ranks (s : State) (a : Agent) (asid : BitVec 16) (va : Addr) (acc : Acc) (v : Row)
    (ri : Option Word) (who : Option PortMsg) : (s.appendHere a asid va acc v ri who).2.disp.ranks = s.disp.ranks := by
  unfold State.appendHere; dsimp only; split
  · simp
  · split
    · simp
    · split
      · simp
      · split
        · simp
        · rename_i ri _
          have e := State.claim_ranks ((s.queueHdr asid va acc).2.openedAt asid .write
            ((s.queueHdr asid va acc).1.slot (s.queueHdr asid va acc).1.wi.toNat)) a asid va acc (s.queueHdr asid va acc).1 ri
          split <;> rename_i h <;> rw [h] at e <;> simpa using e

@[simp] theorem State.append_ranks (s : State) (a : Agent) (asid : BitVec 16) (va : Addr) (v : Row) (who : Option PortMsg) :
    (s.append a asid va v who).2.disp.ranks = s.disp.ranks := by
  unfold State.append; dsimp only; split
  · simp
  · split <;> simp

@[simp] theorem State.hubRewrite_ranks (s : State) (asid : BitVec 16) (va : Addr) (f : Row → Row) :
    (s.hubRewrite asid va f).disp.ranks = s.disp.ranks := by
  unfold State.hubRewrite; split <;> simp

@[simp] theorem State.setStop_ranks (s : State) (asid : BitVec 16) (rcb : Addr) (code : Nat) :
    (s.setStop asid rcb code).disp.ranks = s.disp.ranks := s.hubRewrite_ranks _ _ _

/-- R391: a machine check delivered, whether or not its record finds a place in the queue. -/
@[simp] theorem State.raiseMc_ranks (s : State) (m : McReport) : (s.raiseMc m).disp.ranks = s.disp.ranks := by
  unfold State.raiseMc
  extract_lets m s1
  have e1 : s1.disp.ranks = s.disp.ranks := by
    unfold s1; split <;> simp
  have e := (s1.append_ranks .queueController 0 mcQueueVa (mcRecord m s.hub.gtime s.hub.mcLost) none).trans e1
  split <;> rename_i h <;> rw [h] at e
  · exact e
  · exact (congrArg Disp.ranks ((State.bumpModule_disp _ 2 false).trans (State.noteApp_disp _ _ _))).trans e

@[simp] theorem State.countLive_ranks (s : State) (asid : BitVec 16) (rcb : Addr) (x : Int) :
    (s.countLive asid rcb x).disp.ranks = s.disp.ranks := s.hubRewrite_ranks _ _ _

@[simp] theorem State.setRegion_ranks (s : State) (g : Region) : (s.setRegion g).disp.ranks = s.disp.ranks := rfl

@[simp] theorem State.addRegion_ranks (s : State) (asid : BitVec 16) (rcb : Addr) (v : BitVec 16) :
    (s.addRegion asid rcb v).disp.ranks = s.disp.ranks := by
  unfold State.addRegion; split <;> rfl

@[simp] theorem State.regionMc_ranks (s : State) (src die : Nat) (g : Region) (det : Word) :
    (s.regionMc src die g det).disp.ranks = s.disp.ranks := s.raiseMc_ranks _

@[simp] theorem State.refresh_ranks (s : State) (die : Nat) (g : Region) :
    (s.refresh die g).disp.ranks = s.disp.ranks := by
  unfold State.refresh; split
  · rfl
  · split <;> simp

@[simp] theorem State.named_ranks (s : State) (die : Nat) (asid : BitVec 16) (rcb : Addr) :
    (s.named die asid rcb).disp.ranks = s.disp.ranks := by
  unfold State.named; split <;> simp

@[simp] theorem State.refreshAll_ranks (s : State) (die : Nat) : (s.refreshAll die).disp.ranks = s.disp.ranks := by
  unfold State.refreshAll
  refine State.foldl_keeps (fun s => s.disp.ranks) _ (fun s g => ?_) _ s
  split <;> simp

@[simp] theorem State.discover_ranks (s : State) : s.discover.disp.ranks = s.disp.ranks := by
  unfold State.discover; dsimp only
  refine (State.foldl_keeps (fun s => s.disp.ranks) _ (fun s e => ?_) _ _).trans
    (State.foldl_keeps (fun s => s.disp.ranks) _ (fun s r => ?_) _ s)
  · split
    · rfl
    · split
      · split <;> simp
      · rfl
  · split
    · exact State.foldl_keeps (fun s => s.disp.ranks) _ (fun s b => s.addRegion_ranks _ b _) _ s
    · rfl

@[simp] theorem State.dropPacket_ranks (s : State) (g : Region) : (s.dropPacket g).disp.ranks = s.disp.ranks :=
  s.hubRewrite_ranks _ _ _

@[simp] theorem State.makeEligible_ranks (s : State) (g : Region) (rec : Addr) (age : Nat) :
    (s.makeEligible g rec age).disp.ranks = s.disp.ranks := rfl

@[simp] theorem State.onPacket_ranks (s : State) (die : Nat) (asid : BitVec 16) (rcb : Addr) (i : Nat) (v : Row) :
    (s.onPacket die asid rcb i v).disp.ranks = s.disp.ranks := by
  unfold State.onPacket; split
  · rfl
  · split
    · simp
    · split
      · simp
      · dsimp only; split
        · simp
        · split
          · simp
          · split
            · simp
            · split
              · simp
              · split <;> simp

@[simp] theorem State.settlePkts_ranks (s : State) (die : Nat) (asid : BitVec 16) (rcb : Addr) (n : Nat) :
    (s.settlePkts die asid rcb n).disp.ranks = s.disp.ranks := by
  induction n generalizing s with
  | zero => rfl
  | succ n ih =>
    unfold State.settlePkts; split
    · rfl
    · split
      · rfl
      · dsimp only; split
        · split <;> simp [ih]
        · split <;> simp [ih]

@[simp] theorem State.gotPacket_ranks (s : State) (die : Nat) (asid : BitVec 16) (rcb : Addr) (p : Nat × Row) :
    (s.gotPacket die asid rcb p).disp.ranks = s.disp.ranks := by
  unfold State.gotPacket; split <;> simp

@[simp] theorem State.drainQueue_ranks (s : State) (die : Nat) (asid : BitVec 16) (rcb q : Addr) (n : Nat) :
    (s.drainQueue die asid rcb q n).disp.ranks = s.disp.ranks := by
  induction n generalizing s with
  | zero => rfl
  | succ n ih =>
    have e : (s.take .queueController asid q).2.disp.ranks = s.disp.ranks := by simp
    unfold State.drainQueue; split <;> rename_i h <;> rw [h] at e
    · exact e
    · dsimp only; split
      · simpa using e
      · rw [ih]; simpa using e

@[simp] theorem State.drainFar_ranks (s : State) (die : Nat) (asid : BitVec 16) (rcb q : Addr) (acc : Acc) :
    (s.drainFar die asid rcb q acc).disp.ranks = s.disp.ranks := by
  unfold State.drainFar; dsimp only
  split <;> split <;> simp

@[simp] theorem State.drainRegion_ranks (s : State) (die : Nat) (g : Region) :
    (s.drainRegion die g).disp.ranks = s.disp.ranks := by
  unfold State.drainRegion; dsimp only; split
  · simp
  · split
    · simp
    · split
      · split <;> simp
      · simp

@[simp] theorem State.drainAll_ranks (s : State) (die : Nat) : (s.drainAll die).disp.ranks = s.disp.ranks := by
  unfold State.drainAll
  refine State.foldl_keeps (fun s => s.disp.ranks) _ (fun s g => ?_) _ s
  split
  · rfl
  · split <;> simp

/-- What a dispatcher does before a take makes no rank resident, and none leave. -/
@[simp] theorem State.prepare_ranks (s : State) (die : Nat) : (s.prepare die).disp.ranks = s.disp.ranks := by
  simp [State.prepare]

/-! ### The ordered-atomic buffer -/

@[simp] theorem State.orderedMc_ranks (s : State) (stack : Nat) (v : BitVec 16) (va : Addr) (det : Nat) :
    (s.orderedMc stack v va det).disp.ranks = s.disp.ranks := s.raiseMc_ranks _

@[simp] theorem State.touchSpill_disp (s : State) (v : BitVec 16) (i : Nat) : (s.touchSpill v i).disp = s.disp := by
  unfold State.touchSpill; dsimp only; split <;> simp

@[simp] theorem State.spillWrite_disp (s : State) (v : BitVec 16) (i : Nat) (ws : List Word) (used : Nat) :
    (s.spillWrite v i ws used).disp = s.disp := by
  simp [State.spillWrite]

@[simp] theorem State.unspill_disp (s : State) (v : BitVec 16) (i : Nat) : (s.unspill v i).disp = s.disp := by
  unfold State.unspill; split <;> simp

@[simp] theorem State.freeRecord_disp (s : State) (q : OrdSeq) (i : Nat) : (s.freeRecord q i).disp = s.disp := by
  unfold State.freeRecord; split
  · simp
  · split <;> simp

@[simp] theorem State.spillScan_disp (v : BitVec 16) (n i left : Nat) (s : State) :
    (State.spillScan v n i left s).2.disp = s.disp := by
  induction n generalizing i left s with
  | zero => rfl
  | succ n ih =>
    cases left with
    | zero => rfl
    | succ left => unfold State.spillScan; dsimp only; split <;> simp [ih]

@[simp] theorem State.reloadSeqs_disp (s : State) (v : BitVec 16) : (s.reloadSeqs v).disp = s.disp := by
  unfold State.reloadSeqs; dsimp only; split
  · simp
  · split
    · simp
    · refine (State.foldl_keeps State.disp _ (fun s e => ?_) _ _).trans (by simp)
      split <;> simp

@[simp] theorem State.dropSeqs_ranks (s : State) (v : BitVec 16) (report : Bool) :
    (s.dropSeqs v report).disp.ranks = s.disp.ranks := by
  unfold State.dropSeqs; dsimp only
  refine (State.foldl_keeps (fun s => s.disp.ranks) _ (fun s q => ?_) _ _).trans rfl
  have freed : (q.spilled.foldl (fun s x => s.freeRecord q x.2) s).disp = s.disp :=
    State.foldl_keeps State.disp (fun s (x : Nat × Nat) => s.freeRecord q x.2) (fun s x => s.freeRecord_disp q x.2) _ s
  split <;> simp [freed]

@[simp] theorem State.sendClose_disp (s : State) (v : BitVec 16) (n : Word) (quiet : Bool) :
    (s.sendClose v n quiet).disp = s.disp := by
  unfold State.sendClose; dsimp only
  exact (State.foldl_keeps State.disp _ (fun s d => s.sendFlit_disp _ _ _) _ _).trans rfl

/-- R148: neither does the closing of a rank's sequences. -/
@[simp] theorem State.closeSeqs_ranks (s : State) (v : BitVec 16) : (s.closeSeqs v).disp.ranks = s.disp.ranks := by
  simp [State.closeSeqs]

@[simp] theorem State.preemptNow_disp (s : State) (c : Nat) : (s.preemptNow c).disp = s.disp := rfl

end Sys2Proof.Machine
end

section
/-! SUPPORT. Proof of the statement on dispatcher events: pre-emption, the stages of a step boundary, held packets and announced
regions. -/

namespace Sys2Proof.Machine

/-- R322: once the rows have come, what was to be done with them is done. -/
theorem State.reading_of_rowsHere (s : State) (l : List (BitVec 16 × Word)) (k : State → State) (h : s.RowsHere l) :
    s.reading l k = (k (s.rowsRead l)).dropAnswers l :=
  if_pos (List.all_eq_true.2 h)

/-! ## Pre-emption for a waiting record (R303) -/

/-- One record of one region that has waited long enough, with no idle core: the chosen victim is pre-empted. -/
theorem State.readyWait_one (t : State) (g : Region) (rest : List Region) (rec : Addr) (a tm : Nat) (r : Row) (c : Nat)
    (regions : t.disp.regions = g :: rest) (others : ∀ h ∈ rest, h.ready = []) (served : t.serves g = true)
    (ready : g.ready = [(rec, a, tm)]) (long : tm + 10000 ≤ t.hub.gtime) (busy : ∀ c ∈ allCores, t.coreIdle c = false)
    (row : t.hubRead g.asid rec = some r) (unpinned : fld (rowWord r 4) 62 2 = 0)
    (victim : t.victim g allCores = some c) (alone : ((t.core c).strand.bind fun t => t.gang) = none) :
    t.readyWait = (t.setCore c { t.core c with preempt := true }).actStops c := by
  have waiting : (t.disp.regions.flatMap fun g =>
      if t.serves g then (g.ready.filter fun e => decide (e.2.2 + 10000 ≤ t.hub.gtime)).map fun e => (g, e.1) else []) =
      [(g, rec)] := by
    have none : ∀ h ∈ rest, (if t.serves h then
        (h.ready.filter fun e => decide (e.2.2 + 10000 ≤ t.hub.gtime)).map fun e => (h, e.1) else []) = [] := by
      intro h hh
      simp [others h hh]
    rw [regions, List.flatMap_cons, List.flatMap_eq_nil_iff.2 none]
    simp [served, ready, long]
  have stuck : ([(g, rec)].filter fun w =>
      !(allCores.any fun c => t.coreIdle c && (t.gangFor c).isNone && t.recordFits w.1 c w.2)) = [(g, rec)] := by
    have : (allCores.any fun c => t.coreIdle c && (t.gangFor c).isNone && t.recordFits g c rec) = false := by
      rw [List.any_eq_false]
      intro c hc
      simp [busy c hc]
    simp [this]
  unfold State.readyWait
  simp only [waiting, stuck, List.foldl_cons, List.foldl_nil, row, unpinned, if_true, victim, alone, Option.bind_none]

/-! ## The step boundary (R305, R306) -/

/-- A rank written in the rank table stands there where one of its number stood. -/
theorem State.mem_setRank (s : State) (r : Rank) (h : ∃ x ∈ s.disp.ranks, x.vrank = r.vrank) :
    r ∈ (s.setRank r).disp.ranks := by
  obtain ⟨x, hx, e⟩ := h
  exact List.mem_map.2 ⟨x, hx, if_pos e⟩

/-- R306: a rank that has reached its boundary leaves its step. -/
theorem State.boundaryStage_leaves (t : State) (r : Rank) (here : ∃ x ∈ t.disp.ranks, x.vrank = r.vrank)
    (phase : r.phase = 0) (res : t.rankRes r.vrank = 0) (reached : (t.prepare 0).atBoundary r = true) :
    { r with phase := 1, stepped := false } ∈ (t.boundaryStage r).disp.ranks := by
  have kept (s : State) (l : List Nat) : (l.foldl (fun s c =>
      (s.setCore c { s.core c with toSave := true }).preemptNow c) s).disp.ranks = s.disp.ranks :=
    State.foldl_keeps (fun s => s.disp.ranks) (fun s (c : Nat) => (s.setCore c { s.core c with toSave := true }).preemptNow c)
      (fun s c => by simp) l s
  unfold State.boundaryStage
  simp only [res, phase, reached, and_self, if_true]
  refine State.mem_setRank _ _ ?_
  simpa [kept] using here

/-- R373, R396: a rank that has moved away or is killed has no boundary. -/
theorem State.boundaryStage_gone (t : State) (r : Rank) (res : t.rankRes r.vrank = 3) : t.boundaryStage r = t := by
  simp [State.boundaryStage, res]

/-- R305: a rank within its step stays in it until its boundary is reached. -/
theorem State.boundaryStage_within (t : State) (r : Rank) (res : t.rankRes r.vrank ≠ 3) (phase : r.phase = 0)
    (h : ¬ (t.rankRes r.vrank = 0 ∧ (t.prepare 0).atBoundary r = true)) : t.boundaryStage r = t.prepare 0 := by
  unfold State.boundaryStage
  rw [if_neg res, if_pos phase]
  exact if_neg h

/-- R306: the boundary waits for the images of the pinned strands. -/
theorem State.boundaryStage_saving (t : State) (r : Rank) (res : t.rankRes r.vrank ≠ 3) (phase : r.phase = 1)
    (h : ∃ c ∈ allCores, (t.core c).toSave = true ∧ c ∈ t.pinnedCores r) : t.boundaryStage r = t := by
  have any : (allCores.any fun c => (t.core c).toSave && (t.pinnedCores r).contains c) = true := by
    simpa [List.any_eq_true] using h
  unfold State.boundaryStage
  rw [if_neg res, if_neg (by omega), if_pos phase, if_pos any]

/-- R306: with every image saved the step advances. -/
theorem State.boundaryStage_saved (t : State) (r : Rank) (res : t.rankRes r.vrank ≠ 3) (phase : r.phase = 1)
    (h : ∀ c ∈ allCores, (t.core c).toSave = true → c ∉ t.pinnedCores r) :
    t.boundaryStage r =
      let s := (t.setRankWord r.vrank 2 (t.rankWord r.vrank 2 + 1)).setRankWord r.vrank 3
        (BitVec.ofNat 64 (bitsOf (t.rankWord r.vrank 3).toNat 0 32))
      if t.moving r then (s.setRes r.vrank 2).setRank { r with phase := 2 } else s.endBoundary r := by
  have any : ¬ (allCores.any fun c => (t.core c).toSave && (t.pinnedCores r).contains c) = true := by
    simpa [List.any_eq_true] using h
  unfold State.boundaryStage
  rw [if_neg res, if_neg (by omega), if_pos phase, if_neg any, ← fld_eq_bitsOf]

/-- R306: a move that is under way holds the boundary open. -/
theorem State.boundaryStage_moving (t : State) (r : Rank) (res : t.rankRes r.vrank ≠ 3) (phase : r.phase = 2) :
    t.boundaryStage r = if t.moving r then t else t.endBoundary r := by
  unfold State.boundaryStage
  rw [if_neg res, if_neg (by omega), if_neg (by omega), if_pos phase]

/-- R330: a rank whose step has not been opened waits for a move, or for a place among the active ones. -/
theorem State.boundaryStage_unopened (t : State) (r : Rank) (res : t.rankRes r.vrank ≠ 3) (phase : 2 < r.phase) :
    t.boundaryStage r = if t.moving r then (t.setRes r.vrank 2).setRank { r with phase := 2 }
      else if t.mayActivate r then t.endBoundary r else t := by
  unfold State.boundaryStage
  rw [if_neg res, if_neg (by omega), if_neg (by omega), if_neg (by omega)]

/-- STEP_BOUNDARY of a resident rank whose rows are here. -/
theorem execStepBoundary_eq (s : State) (r : Rank) (found : s.disp.ranks.find? (fun x => x.vrank = r.vrank) = some r)
    (here : s.RowsHere (s.boundaryRows r)) (u : State)
    (stage : (if (s.rowsRead (s.boundaryRows r)).rankHere r.vrank then (s.rowsRead (s.boundaryRows r)).boundaryStage r
      else s.rowsRead (s.boundaryRows r)) = u) :
    exec (.stepBoundary r.vrank) s = .next (u.dropAnswers (s.boundaryRows r)) := by
  rw [exec_stepBoundary, execStepBoundary, found]
  exact congrArg _ ((s.reading_of_rowsHere _ _ here).trans (by rw [stage]))

/-! ## Held packets (R450) -/

/-- The first of the held packets no longer held. -/
def State.dropHold (s : State) : State := { s with disp := { s.disp with holds := s.disp.holds.eraseIdx 0 } }

theorem State.killed_iff (s : State) (asid : BitVec 16) (rec : Addr) :
    s.killed asid rec = true ↔ ∃ r, s.hubRead asid rec = some r ∧ recSt r = 6 := by
  simp [State.killed, Option.any_eq_true]

/-- READY_PACKET_RECLAIM of the first held packet: once its record has been read, the packet of a killed one is discarded, and
any other is appended again. -/
theorem execReadyPacketReclaim_first (s : State) (h : BitVec 16 × Addr × Row) (rest : List (BitVec 16 × Addr × Row))
    (holds : s.disp.holds = h :: rest) :
    let va : Addr := (rowWord h.2.2 0).setWidth 48
    ∃ k : State → State, exec (.readyPacketReclaim 0) s = .next (s.reading [(h.1, va.setWidth 64)] k) ∧
      (∀ t, t.killed h.1 va = true → k t = t.dropHold) ∧
      ∀ t a u, t.killed h.1 va = false → t.append .queueController h.1 h.2.1 h.2.2 none = (a, u) →
        (∀ i, a = .done i → k t = u.dropHold.setAge h.1 va i) ∧ ((∀ i, a ≠ .done i) → k t = u) := by
  have first : s.disp.holds[0]? = some h := by rw [holds]; rfl
  rw [exec_readyPacketReclaim, execReadyPacketReclaim, first]
  refine ⟨_, if_neg (by simp), fun t killed => if_pos killed, fun t a u alive appended => ⟨?_, fun refused => ?_⟩⟩
  · rintro i rfl
    rw [if_neg (by simp [alive]), appended]
    rfl
  · rw [if_neg (by simp [alive]), appended]
    cases a with
    | done i => exact absurd rfl (refused i)
    | _ => rfl

/-! ## Announced regions (R284) -/

/-- The region blocks that an announcement concerns: the one that it names, and those below it. -/
def Region.announcedBy (g : Region) (v : Word) : Prop :=
  g.asid.toNat = bitsOf v.toNat 48 16 ∧
    (g.rcb.toNat = 128 * bitsOf v.toNat 7 41 ∨ ∃ e ∈ g.chain, e.1.toNat = 128 * bitsOf v.toNat 7 41)

theorem announced_asid_iff (v : Word) (a : BitVec 16) : a = v.extractLsb' 48 16 ↔ a.toNat = bitsOf v.toNat 48 16 := by
  rw [← BitVec.toNat_inj, ← fld_eq_bitsOf, fld]

theorem announced_block_iff (v : Word) (a : Addr) :
    a = BitVec.ofNat 48 (fld v 7 41 * 128) ↔ a.toNat = 128 * bitsOf v.toNat 7 41 := by
  have small : fld v 7 41 < 2 ^ 41 := (v.extractLsb' 7 41).isLt
  rw [← BitVec.toNat_inj, BitVec.toNat_ofNat, Nat.mod_eq_of_lt (by omega), Nat.mul_comm, fld_eq_bitsOf]

/-- The test that the announcement makes of a region. -/
theorem Region.announcedBy_iff (g : Region) (v : Word) :
    (g.asid = v.extractLsb' 48 16 ∧ (g.rcb = BitVec.ofNat 48 (fld v 7 41 * 128) ∨
      g.chain.any (fun e => e.1 = BitVec.ofNat 48 (fld v 7 41 * 128)) = true)) ↔ g.announcedBy v := by
  simp only [announced_asid_iff, announced_block_iff, List.any_eq_true, decide_eq_true_eq, Region.announcedBy]

/-- R284: a region stays known, and as it was where the announcement does not concern it. -/
theorem State.announce_keeps (s : State) (v : Word) (x : Region) (h : x ∈ s.disp.regions) :
    ∃ g ∈ (s.announce v).disp.regions, g.asid = x.asid ∧ g.rcb = x.rcb ∧ (¬ x.announcedBy v → g = x) := by
  refine ⟨_, List.mem_append_left _ (List.mem_map_of_mem h), ?_⟩
  by_cases named : x.announcedBy v
  · rw [if_pos ((x.announcedBy_iff v).2 named)]
    exact ⟨rfl, rfl, fun n => absurd named n⟩
  · rw [if_neg (mt (x.announcedBy_iff v).1 named)]
    exact ⟨rfl, rfl, fun _ => rfl⟩

/-- R284: the values of every region that it concerns are to be found anew. -/
theorem State.announce_forgets (s : State) (v : Word) (g : Region) (h : g ∈ (s.announce v).disp.regions)
    (named : g.announcedBy v) :
    g.eff = none ∧ g.err = false ∧ (g.rcb.toNat = 128 * bitsOf v.toNat 7 41 → g.again = true) := by
  rcases List.mem_append.1 h with old | own
  · obtain ⟨x, hx, rfl⟩ := List.mem_map.1 old
    by_cases known : x.announcedBy v
    · rw [if_pos ((x.announcedBy_iff v).2 known)]
      refine ⟨rfl, rfl, fun e => ?_⟩
      simp [(announced_block_iff v x.rcb).2 e]
    · rw [if_neg (mt (x.announcedBy_iff v).1 known)] at named
      exact absurd named known
  · split at own
    · split at own
      · cases own
      · rw [List.mem_singleton.1 own]
        exact ⟨rfl, rfl, fun _ => rfl⟩
    · cases own

/-- R284: a block of a resident rank's address space is known from its announcement on. -/
theorem State.announce_known (s : State) (v : Word) (h : ∃ r ∈ s.disp.ranks, r.asid.toNat = bitsOf v.toNat 48 16) :
    ∃ g ∈ (s.announce v).disp.regions, g.asid.toNat = bitsOf v.toNat 48 16 ∧ g.rcb.toNat = 128 * bitsOf v.toNat 7 41 := by
  obtain ⟨r, hr, asid⟩ := h
  by_cases known : ∃ x ∈ s.disp.regions, x.asid = v.extractLsb' 48 16 ∧ x.rcb = BitVec.ofNat 48 (fld v 7 41 * 128)
  · obtain ⟨x, hx, xa, xb⟩ := known
    obtain ⟨g, hg, ga, gb, _⟩ := s.announce_keeps v x hx
    exact ⟨g, hg, (announced_asid_iff v _).1 (ga.trans xa), (announced_block_iff v _).1 (gb.trans xb)⟩
  · have new : ¬ (s.disp.regions.any fun g => g.asid = v.extractLsb' 48 16 ∧ g.rcb = BitVec.ofNat 48 (fld v 7 41 * 128)) =
        true := by simpa using known
    cases found : s.disp.ranks.find? fun r => r.asid = v.extractLsb' 48 16 with
    | none => exact absurd ((announced_asid_iff v _).2 asid) (by simpa using List.find?_eq_none.1 found r hr)
    | some r' =>
      refine ⟨{ asid := v.extractLsb' 48 16, rcb := BitVec.ofNat 48 (fld v 7 41 * 128), vrank := r'.vrank, eff := none,
                chain := [], ready := [], launches := [], again := true }, List.mem_append_right _ ?_,
        (announced_asid_iff v _).1 rfl, (announced_block_iff v _).1 rfl⟩
      rw [found]
      dsimp only
      rw [if_neg new]
      exact List.mem_singleton_self _

/-- Settles O47, stage by stage: each event runs once its rows have been read, and a step boundary, whose first stage keeps the
rank table, is one equation per stage. -/
theorem dispatcherEvents : Obligations.DispatcherEvents := by
  intro s
  refine ⟨?preemption, ?boundary, ?held, ?announced⟩
  case preemption =>
    intro die g rest rec a tm r c w t here regions others served ready long busy row unpinned victim alone
    rw [← State.readyWait_one t g rest rec a tm r c regions others served ready long busy row unpinned victim alone]
    exact congrArg _ (s.reading_of_rowsHere w State.readyWait here)
  case boundary =>
    intro r found v w t ended here
    have stage (u : State) (e : (if t.rankHere v then t.boundaryStage r else t) = u) :
        exec (.stepBoundary v) s = .next (u.dropAnswers w) := execStepBoundary_eq s r found here u e
    refine ⟨fun gone => stage t ?_, fun block => ?_⟩
    · rcases gone with away | res
      · rw [if_neg (by simp [away])]
      · rw [t.boundaryStage_gone r res, ite_self]
    rw [block] at stage
    refine ⟨fun phase res h => stage _ (t.boundaryStage_within r res phase h), fun phase res reached => ?_,
      fun phase res h => stage _ (t.boundaryStage_saving r res phase h),
      fun phase res h => stage _ (t.boundaryStage_saved r res phase h),
      fun phase res => stage _ (t.boundaryStage_moving r res phase),
      fun phase res => stage _ (t.boundaryStage_unopened r res phase)⟩
    have resident : ∃ x ∈ t.disp.ranks, x.vrank = r.vrank :=
      ⟨r, by rw [s.rowsRead_disp]; exact List.mem_of_find?_eq_some found, rfl⟩
    exact ⟨_, stage _ rfl, _, t.boundaryStage_leaves r resident phase res reached, rfl, rfl, rfl⟩
  case held =>
    intro h rest holds va l t gone here
    obtain ⟨k, run, discards, appends⟩ := execReadyPacketReclaim_first s h rest holds
    rw [s.reading_of_rowsHere l k here] at run
    refine ⟨fun killed => ?_, fun alive a u appended => ?_⟩
    · rw [run, discards t ((t.killed_iff _ _).2 killed)]
      rfl
    · have alive : t.killed h.1 va = false :=
        Bool.eq_false_iff.2 fun killed => (((t.killed_iff _ _).1 killed).elim fun r e => alive r e.1 e.2)
      obtain ⟨done, refused⟩ := appends t a u alive appended
      exact ⟨fun i e => by rw [run, done i e]; rfl, fun e => by rw [run, refused e]⟩
  case announced =>
    intro v
    refine ⟨s.announce v, rfl, rfl, s.announce_forgets v, fun g known other => ?_, s.announce_known v⟩
    obtain ⟨y, hy, _, _, same⟩ := s.announce_keeps v g known
    exact same other ▸ hy

end Sys2Proof.Machine
end

section
/-! SUPPORT. Proof of the round trip of decoding, from the lemma of each constructor. -/

namespace Sys2Proof.Laws.RoundTrip

/-- The round trip of every instruction, constructor by constructor. -/
theorem statement (i : Instr) : Statement i := by
  cases i
  exacts [
    nop .., br .., brl .., jr .., jrl .., jt .., loop .., loopi .., lbrk .., wfmt .., mfs .., mts .., trap ..,
    bkpt .., tret .., susp .., yield .., exitS .., chk .., stepB .., grel .., tlbiPage .., tlbiAsid .., tlbiAll ..,
    asw .., ctxs .., ctxr .., fwsh .., qscQuiesce .., qscEndQuiesce .., qscQueueInvalidate .., cres .., ckill ..,
    add .., sub .., sAnd .., sOr .., sXor .., andn .., shl .., shr .., sar .., ror .., mul .., mulh .., mulhn ..,
    div .., divn .., rem .., remn .., sMin .., sMax .., minn .., maxn .., ext .., extn .., ins .., clz .., ctz ..,
    pcnt .., sel .., cmp .., cmpi .., pand .., por .., pxor .., addi .., andi .., ori .., xori .., shli .., shri ..,
    sari .., li .., lih .., agb .., ags .., agr .., ldw .., stw .., ldr .., str .., ldsy .., stsy .., feq .., fes ..,
    tlr .., tls .., barv .., barw .., gldw .., gstw .., gldr .., gstr .., gldws .., gldrs .., aadd .., amin ..,
    amax .., aand .., aor .., axor .., aswp .., acas .., afadd .., aoadd .., phase .., copy .., gath .., scat ..,
    wstr .., cwid .., cwcnt .., trig .., enq .., deq .., cbind .., bred .., hist .., sarv .., vadd .., vsub ..,
    vmul .., vmulh .., vmin .., vmax .., vminn .., vmaxn .., vand .., vor .., vxor .., vsel .., vshli .., vshri ..,
    vsari .., vperm .., vbc .., vins .., vext .., vcmp .., mand .., mor .., mxor .., mandn .., mset .., vfaddF64 ..,
    vfaddF32 .., vfaddBf16 .., vfaddF16 .., vfsubF64 .., vfsubF32 .., vfsubBf16 .., vfsubF16 .., vfmulF64 ..,
    vfmulF32 .., vfmulBf16 .., vfmulF16 .., vfmaF64 .., vfmaF32 .., vfmaBf16 .., vfmaF16 .., vfmin .., vfmax ..,
    vfcmp .., vcvt .., vrcpe .., vrsqe .., vrcps .., vrsqs .., vexp2 .., vlog2 .., vredi .., vredf .., vrfill ..,
    vhist .., vrmg031 .., vrmg3263 .., vbpt .., vpack .., vunpk .., vdig .., vbq .., vbdq .., push .., shift ..,
    acc .., dacc .., drd .., drc .., mclr .., sldA .., sldB .., a2v .., v2a .., a2s .., aclr .., resultLanding ..,
    interlockedBundleEffect .., loopBoundary .., delegatedTrapEntry .., programContextStop .., coreMachineCheck ..,
    asyncEventTaken .., globalTimeAlarm .., preemptionRequest .., machineCheck .., engineRowWrite ..,
    transferComplete .., triggerFire .., wstrTileStart .., wstrTileReady .., grelRelease .., collectiveFire ..,
    collectiveNodeCombine .., collectiveComplete .., linkFlitReceive .., negativeAcknowledgement ..,
    routeResendTimeout .., nodeLost .., collectiveFlit .., readRequest .., readResponse .., rowWrite .., wordWrite ..,
    atomicRequest .., atomicResponse .., writeAcknowledgement .., retryWithWaitHint .., bindingUpdate ..,
    bindingUpdateApply .., marker .., caribouData .., caribouDone .., routeAcknowledgement .., localMove ..,
    migrateOut .., loadRankMap .., loadPortTable .., dispatchTake .., launchPacketTake .., gangReservationComplete ..,
    partitionChange .., gangRelease .., readyWaitPreemption .., stepBoundary .., readyPacketReclaim ..,
    memsideOperation .., orderedAddArrival .., reductionBlockRun .., parityDifferenceApply .., uncorrectableRead ..,
    rowRemap .., remapTableReload .., writeReachesAgent .., tlbiComplete .., coreStateError ..,
    quiesceRecordUpdate .., mirrorAccept .., limiterWindowBoundary .., thermalCapAdjust .., temperatureUpdate ..,
    powerTrip .., powerUp .., identityTreeReady .., linkUp .., referenceChange .., sessionLinkTimeout .., hostRead ..,
    hostWrite .., queueAppend .., regRead .., regWrite .., semAcquire .., semRelease .., imageChunk .., commitBoot ..,
    commitHandOver .., attest .., compareManifest .., openSession .., closeSession .., notify .., hodone ..,
    handoverTimeout .., firmwareRequestWord .., regionAnnounce .., rampWordWrite .., tkey7Write .., tregWrite ..,
    cacheLineWriteBack .., inputPowerLoss .., timeReferenceSettled .., regionTableLoadComplete .., badControlFrame ..,
    reservedCodeFlit ..]

/-- Settles O57, by the round trip of each constructor: a syllable decodes in its slot, a long immediate in its pair. -/
theorem roundTrip : Obligations.RoundTrip := by
  intro i fw nchan
  obtain ⟨syllable, pair⟩ := statement i
  exact ⟨syllable fw nchan, pair fw nchan⟩

end Sys2Proof.Laws.RoundTrip
end

section
/-! SUPPORT. Proof of the decode fates: the decoder's answer under each condition, in the order of its conditions. -/

namespace Sys2Proof.Machine

/-! ## The fate of a syllable (R70, R75) -/

theorem opcode_eq_bitsOf (w : Syl) : opcode w = bitsOf w.toNat 22 6 := by
  rw [opcode, BitVec.extractLsb'_toNat, Nat.shiftRight_eq_div_pow, bitsOf]

theorem operands_zero_iff (w : Syl) : w.extractLsb' 0 22 = 0#22 ↔ bitsOf w.toNat 0 22 = 0 := by
  rw [← BitVec.toNat_inj, BitVec.extractLsb'_toNat, Nat.shiftRight_eq_div_pow, bitsOf, BitVec.toNat_zero]

section Fates
variable {fw : Bool} {nchan k : Nat} {w : Syl}

/-- A slot that the firmware context does not have holds nothing but a word of zeros. -/
theorem decodeSyl_absentSlot (absent : fw = true ∧ 5 ≤ k) (hw : w ≠ 0) : decodeSyl fw nchan k w = .error 1 := by
  have hw : ¬ w = 0#32 := hw
  simp [decodeSyl, absent, hw]

theorem decodeSyl_nop (slot : ¬ (fw = true ∧ 5 ≤ k)) (code : opcode w = 0) :
    decodeSyl fw nchan k w = if w.extractLsb' 0 22 = 0#22 then .ok (.nop (w.extractLsb' 28 4)) else .error 3 := by
  simp [decodeSyl, slot, code]

theorem decodeSyl_absentCode (slot : ¬ (fw = true ∧ 5 ≤ k)) (code : opcode w ≠ 0) (map : raw fw k w = none) :
    decodeSyl fw nchan k w = .error 0 := by
  simp [decodeSyl, slot, code, map]

/-- The conditions on a syllable that its slot's map has, in their order. -/
theorem decodeSyl_present {i : Instr} (slot : ¬ (fw = true ∧ 5 ≤ k)) (code : opcode w ≠ 0) (map : raw fw k w = some i) :
    decodeSyl fw nchan k w =
      if k = 0 ∧ fw = false ∧ 48 ≤ opcode w then .error 2
      else if portsOk k w = false then .error 5
      else if encode i = some w ∧ i.wf = true ∧ i.contextOk fw nchan = true then .ok i else .error 3 := by
  simp [decodeSyl, slot, code, map, and_assoc]

end Fates

/-- Settles O55: the conditions of the decoder, one after another. -/
theorem decodeFates : Obligations.DecodeFates := by
  intro fw nchan k w _ hw op fate
  have hop : opcode w = op := opcode_eq_bitsOf w
  refine ⟨fun h5 hk => decodeSyl_absentSlot ⟨h5, hk⟩ hw, fun slot code => ?nop, fun slot code => ⟨?absent, ?present⟩⟩
  case nop =>
    simp only [← operands_zero_iff]
    exact decodeSyl_nop slot (hop.trans code)
  case absent => exact decodeSyl_absentCode slot (hop ▸ code)
  case present =>
    intro i map
    have conditions := decodeSyl_present (nchan := nchan) slot (hop ▸ code) map
    rw [hop] at conditions
    refine ⟨fun hk hf privileged => conditions.trans (if_pos ⟨hk, hf, privileged⟩), fun unprivileged => ?_⟩
    rw [if_neg unprivileged] at conditions
    exact ⟨fun port => conditions.trans (if_pos port), fun port => conditions.trans (if_neg (by simp [port]))⟩

end Sys2Proof.Machine
end

section
/-! SUPPORT. Proof of the statement on the scratchpad: which row an offset reaches, what a store leaves, and what observing a
mark leaves. -/

namespace Sys2Proof.Machine

/-! ## Words of a row -/

theorem getLsbD_setBits (r : Row) (lo w x p : Nat) (h : lo + w ≤ 512) :
    (setBits r lo w x).getLsbD p = if lo ≤ p ∧ p < lo + w then x.testBit (p - lo) else r.getLsbD p := by
  simp only [setBits, BitVec.getLsbD_or, BitVec.getLsbD_and, BitVec.getLsbD_not, BitVec.getLsbD_shiftLeft,
    BitVec.getLsbD_ofNat, Nat.testBit_two_pow_sub_one, Nat.testBit_mod_two_pow]
  by_cases inside : lo ≤ p ∧ p < lo + w
  · have h1 : p < 512 := by omega
    have h2 : ¬ p < lo := by omega
    have h3 : p - lo < w := by omega
    have h4 : p - lo < 512 := by omega
    simp [inside, h1, h2, h3, h4]
  · rw [if_neg inside]
    by_cases p512 : p < 512
    · by_cases below : p < lo
      · simp [below, p512]
      · have h3 : ¬ p - lo < w := by omega
        simp [p512, h3]
    · simp [p512, r.getLsbD_of_ge p (by omega)]

/-- A word of a row of which one word has been replaced. -/
theorem extract_setRowWord (r : Row) (j n : Nat) (x : Word) (hj : j < 8) :
    (setRowWord r j x).extractLsb' (64 * n) 64 = if n = j then x else r.extractLsb' (64 * n) 64 := by
  apply BitVec.eq_of_getLsbD_eq
  intro i hi
  rw [BitVec.getLsbD_extractLsb', setRowWord, getLsbD_setBits _ _ _ _ _ (by omega)]
  by_cases same : n = j
  · have at_ : 64 * j ≤ 64 * n + i ∧ 64 * n + i < 64 * j + 64 := by omega
    rw [if_pos at_, if_pos same, BitVec.testBit_toNat, show 64 * n + i - 64 * j = i by omega]
    simp [hi]
  · have away : ¬ (64 * j ≤ 64 * n + i ∧ 64 * n + i < 64 * j + 64) := by omega
    simp [away, same, hi]

/-! ## Scratchpad addresses and rows (R76, R127, R394) -/

/-- The offset that an address field gives, with the field's parts as numbers. -/
theorem State.lAddr_eq (s : State) (a : BitVec 16) (scale : Nat) :
    s.lAddr a scale =
      if a.getLsbD 15 = true then (Tab.get {} s.ctx.ags (bitsOf a.toNat 11 4)).cur
      else s.readS (BitVec.ofNat 6 (bitsOf a.toNat 9 6)) +
        (a.extractLsb' 0 9).signExtend 64 * BitVec.ofNat 64 scale := by
  have gen : (a.extractLsb' 11 4).toNat = bitsOf a.toNat 11 4 := by
    rw [BitVec.extractLsb'_toNat, Nat.shiftRight_eq_div_pow, bitsOf]
  have reg : a.extractLsb' 9 6 = BitVec.ofNat 6 (bitsOf a.toNat 9 6) := by
    apply BitVec.eq_of_toNat_eq
    rw [BitVec.extractLsb'_toNat, Nat.shiftRight_eq_div_pow, BitVec.toNat_ofNat, bitsOf, Nat.mod_mod]
  rw [State.lAddr, gen, reg]

theorem fld_row (off : Word) : fld off 6 58 = off.toNat / 64 := by
  rw [fld_eq_bitsOf, bitsOf]
  have := off.isLt
  omega

section Rows
variable {s : State} {off : Word}

theorem State.spRow_eq_spRange (h : s.iss.fw = true → s.me.repart = none) : s.spRow off = s.spRange off := by
  cases hf : s.iss.fw
  · simp [State.spRow, hf]
  · simp [State.spRow, hf, h hf]

theorem State.spRow_out (h : s.iss.fw = true → s.me.repart = none) (out : s.sp.part ≤ 64 * (off.toNat / 64)) :
    s.spRow off = .error (s.fault 0x06 0 off) := by
  have hh : s.sp.has (off.toNat / 64) = false := by simpa [Scratch.has] using out
  rw [State.spRow_eq_spRange h, State.spRange_eq, fld_row, hh]
  rfl

theorem State.spRow_in (h : s.iss.fw = true → s.me.repart = none) (here : 64 * (off.toNat / 64) < s.sp.part) :
    s.spRow off = .ok (off.toNat / 64) := by
  have hh : s.sp.has (off.toNat / 64) = true := by simpa [Scratch.has] using here
  rw [State.spRow_eq_spRange h, State.spRange_eq, fld_row, hh]
  rfl

theorem State.spClean_out (h : s.iss.fw = true → s.me.repart = none) (out : s.sp.part ≤ 64 * (off.toNat / 64)) :
    s.spClean off = .error (s.fault 0x06 0 off) := by
  rw [State.spClean, State.spRow_out h out]

theorem State.spClean_poisoned (h : s.iss.fw = true → s.me.repart = none) (here : 64 * (off.toNat / 64) < s.sp.part)
    (bad : off.toNat / 64 ∈ s.sp.bad) (first : s.ctx.acted = false) :
    s.spClean off = .error (s.fault 0x09 0 off) := by
  rw [State.spClean, State.spRow_in h here]
  simp [bad, first]

theorem State.spClean_in (h : s.iss.fw = true → s.me.repart = none) (here : 64 * (off.toNat / 64) < s.sp.part)
    (clean : off.toNat / 64 ∉ s.sp.bad) : s.spClean off = .ok (off.toNat / 64) := by
  rw [State.spClean, State.spRow_in h here]
  simp [clean]

end Rows

/-! ## Changes of the scratchpad -/

@[simp] theorem Scratch.part_setRow (p : Scratch) (i : Nat) (v : Row) : (p.setRow i v).part = p.part := rfl
@[simp] theorem Scratch.part_setFull (p : Scratch) (i : Nat) (b : Bool) : (p.setFull i b).part = p.part := rfl
@[simp] theorem Scratch.bad_setFull (p : Scratch) (i : Nat) (b : Bool) : (p.setFull i b).bad = p.bad := rfl

/-- R394: a row written whole is poisoned no more. -/
@[simp] theorem Scratch.mem_bad_setRow (p : Scratch) (i j : Nat) (v : Row) :
    j ∈ (p.setRow i v).bad ↔ j ∈ p.bad ∧ j ≠ i := by
  simp [Scratch.setRow, removeNat]

/-- A new scratchpad of the issuing core, in which the rows but those named are as they were. -/
theorem State.onlyScratch_setSp (s : State) (p : Scratch) (rows : List Nat) (part : p.part = s.sp.part)
    (row : ∀ i, i ∉ rows → p.row i = s.sp.row i ∧ p.isFull i = s.sp.isFull i ∧ p.bad.contains i = s.sp.bad.contains i) :
    OnlyScratch rows s (s.setSp p) where
  rest := rfl
  others _ hc := s.core_setMe_ne _ _ hc
  here := by simp [State.setSp]
  part := by simpa [State.setSp, State.sp] using part
  row i hi := by simpa [State.setSp, State.sp] using row i hi

theorem State.onlyScratch_setRow (s : State) (i : Nat) (v : Row) : OnlyScratch [i] s (s.setSp (s.sp.setRow i v)) := by
  refine s.onlyScratch_setSp _ _ rfl fun j hj => ?_
  have hj : j ≠ i := by simpa using hj
  simp [Scratch.row_setRow_ne _ _ _ _ hj, hj]

theorem State.onlyScratch_setFull (s : State) (i : Nat) (b : Bool) : OnlyScratch [i] s (s.setSp (s.sp.setFull i b)) := by
  refine s.onlyScratch_setSp _ _ rfl fun j hj => ?_
  have hj : j ≠ i := by simpa using hj
  simp [Scratch.isFull_setFull_ne _ _ _ _ hj]

/-- R131: a row stored with its mark. -/
theorem State.onlyScratch_setRow_setFull (s : State) (i : Nat) (v : Row) (b : Bool) :
    OnlyScratch [i] s (s.setSp ((s.sp.setRow i v).setFull i b)) := by
  refine s.onlyScratch_setSp _ _ rfl fun j hj => ?_
  have hj : j ≠ i := by simpa using hj
  simp [Scratch.row_setRow_ne _ _ _ _ hj, Scratch.isFull_setFull_ne _ _ _ _ hj, hj]

/-! ## What observing a place leaves (R242) -/

@[simp] theorem State.observeMark_cores (s : State) (key : Nat) : (s.observeMark key).cores = s.cores :=
  State.foldl_keeps State.cores (fun s b => s.observe b s.agent) (fun _ _ => rfl) _ s

@[simp] theorem State.observeMark_iss (s : State) (key : Nat) : (s.observeMark key).iss = s.iss :=
  State.foldl_keeps State.iss (fun s b => s.observe b s.agent) (fun _ _ => rfl) _ s

@[simp] theorem State.observeMark_cells (s : State) (key : Nat) : (s.observeMark key).mem.cells = s.mem.cells :=
  State.foldl_keeps (fun s => s.mem.cells) (fun s b => s.observe b s.agent) (fun _ _ => rfl) _ s

/-- The issuing core is found in the cores and the frame. -/
theorem State.me_congr {s t : State} (cores : t.cores = s.cores) (iss : t.iss = s.iss) : t.me = s.me := by
  rw [State.me, State.me, State.core, State.core, cores, iss]

theorem State.ctx_congr {s t : State} (cores : t.cores = s.cores) (iss : t.iss = s.iss) : t.ctx = s.ctx := by
  rw [State.ctx, State.ctx, State.me_congr cores iss, iss]

/-- So is all that a result on its way rests on. -/
theorem State.issueBits_congr {s t : State} (d : Dest) (v m : Row) (b : Nat) (f : BitVec 7) (q : Bool)
    (cores : t.cores = s.cores) (iss : t.iss = s.iss) :
    (t.issueBits d v m b f q).cores = (s.issueBits d v m b f q).cores := by
  simp only [State.issueBits, State.setMe, State.setCore, State.me_congr cores iss, State.ctx_congr cores iss, cores, iss]

theorem State.issueP_congr {s t : State} (i : Nat) (b : Bool) (L : Nat) (cores : t.cores = s.cores) (iss : t.iss = s.iss) :
    (t.issueP i b L).cores = (s.issueP i b L).cores := by
  unfold State.issueP
  split
  · exact cores
  · exact State.issueBits_congr _ _ _ _ _ _ cores iss

theorem State.sp_congr {s t : State} (cores : t.cores = s.cores) (iss : t.iss = s.iss) : t.sp = s.sp :=
  congrArg Core.sp (State.me_congr cores iss)

@[simp] theorem State.issueBits_sp (s : State) (d : Dest) (v m : Row) (b : Nat) (f : BitVec 7) (q : Bool) :
    (s.issueBits d v m b f q).sp = s.sp := by
  simp [State.sp, State.issueBits_me]

@[simp] theorem State.issueS_sp (s : State) (d : BitVec 6) (v : Word) (L : Nat) : (s.issueS d v L).sp = s.sp := by
  unfold State.issueS; split <;> simp

@[simp] theorem State.issueP_sp (s : State) (i : Nat) (b : Bool) (L : Nat) : (s.issueP i b L).sp = s.sp := by
  unfold State.issueP; split
  · rfl
  · exact s.issueBits_sp _ _ _ _ _ _

@[simp] theorem State.issueRow_sp (s : State) (i : Nat) (v : Row) (L : Nat) (f : BitVec 7) :
    (s.issueRow i v L f).sp = s.sp := s.issueBits_sp _ _ _ _ _ _

/-- Bytes at home are read in the list of cells alone. -/
theorem Mem.byte_congr {m n : Mem} (h : n.cells = m.cells) (x : Nat) : n.byte x = m.byte x := by
  rw [Mem.byte, Mem.byte, h]

/-! ## Words and rows of the scratchpad (R129) -/

theorem scratchpadWords : Claims.ScratchpadWords := by
  intro s g t a hg hp addr row out traps word j
  have at_ (scale : Nat) : s.lAddr a scale = addr scale := s.lAddr_eq a scale
  have offWord_eq : offWord (addr 8) = j := fld_eq_bitsOf _ 3 3
  have hj : j < 8 := Nat.mod_lt _ (by decide)
  have trap {i : Instr} {code : Nat} {x : Word} (e : exec i s = issue g s (s.fault code 0 x)) : traps i code x :=
    e.trans (issue_trap g s _ _ hg)
  have next {i : Instr} {u : State} (e : exec i s = issue g s (.ok u)) : exec i s = .next u := e.trans (issue_ok g s u hg)
  refine ⟨fun o => ⟨trap ?_, trap ?_⟩, fun o => ⟨trap ?_, trap ?_⟩, fun i bad first => ⟨trap ?_, trap ?_⟩,
    fun i bad first => trap ?_, fun i clean => ?words, fun i clean => next ?_, fun i => ?row⟩
  · rw [exec_ldw, execLdw, at_, State.spClean_out hp o]; rfl
  · rw [exec_stw, execStw, at_, State.spClean_out hp o]; rfl
  · rw [exec_ldr, execLdr, at_, State.spClean_out hp o]; rfl
  · rw [exec_str, execStr, at_, State.spRow_out hp o]; rfl
  · rw [exec_ldw, execLdw, at_, State.spClean_poisoned hp (Nat.not_le.1 i) bad first]; rfl
  · rw [exec_stw, execStw, at_, State.spClean_poisoned hp (Nat.not_le.1 i) bad first]; rfl
  · rw [exec_ldr, execLdr, at_, State.spClean_poisoned hp (Nat.not_le.1 i) bad first]; rfl
  case words =>
    have found : s.spClean (addr 8) = .ok (row (addr 8)) := State.spClean_in hp (Nat.not_le.1 i) clean
    have ldw : exec (.ldw g t a) s = .next (s.issueS t (rowWord (s.sp.row (row (addr 8))) j) 4) :=
      next (by rw [exec_ldw, execLdw, at_, found, Res.andThen_ok, offWord_eq])
    have stw : exec (.stw g t a) s = .next (s.setSp (s.sp.setRow (row (addr 8))
        (setRowWord (s.sp.row (row (addr 8))) j (s.readS t)))) :=
      next (by rw [exec_stw, execStw, at_, found, Res.andThen_ok, offWord_eq])
    refine ⟨ldw, _, stw, s.onlyScratch_setRow _ _, by simp, fun n _ => ?_⟩
    rw [State.sp_setSp, Scratch.row_setRow]
    exact extract_setRowWord _ _ _ _ hj
  · rw [exec_ldr, execLdr, at_, State.spClean_in hp (Nat.not_le.1 i) clean, Res.andThen_ok]
  case row =>
    have str : exec (.str g t a) s = .next (s.setSp (s.sp.setRow (row (addr 64)) (s.readV t.toNat))) :=
      next (by rw [exec_str, execStr, at_, State.spRow_in hp (Nat.not_le.1 i), Res.andThen_ok])
    exact ⟨_, str, s.onlyScratch_setRow _ _, by simp, by simp, by simp⟩

/-! ## Full and empty rows (R130 to R133) -/

theorem fullEmptyRows : Claims.FullEmptyRows := by
  intro s g t a hg hp off i here
  have row : s.spRow (s.lAddr a 64) = .ok i := State.spRow_in hp here
  have next {j : Instr} {u : State} (e : exec j s = issue g s (.ok u)) : exec j s = .next u := e.trans (issue_ok g s u hg)
  refine ⟨fun empty => ?_, fun full bad first => ?_, fun full clean => ?ldsy, fun full => ?_, fun empty => ?stsy,
    fun j => ?feq, fun v => ?fes⟩
  · rw [exec_ldsy, execLdsy, row, Res.andThen_ok, if_pos empty]
    exact issue_wait g s _ hg
  · rw [exec_ldsy, execLdsy, row, Res.andThen_ok, if_neg (by simp [full]), State.spClean_poisoned hp here bad first]
    exact issue_trap g s _ _ hg
  case ldsy =>
    let t1 := (s.observeMark i).issueRow t.toNat (s.sp.row i) 1 0
    have loaded : t1.sp = s.sp := ((s.observeMark i).issueRow_sp ..).trans (State.sp_congr (by simp) (by simp))
    have run : exec (.ldsy g t a) s = .next (t1.setSp (t1.sp.setFull i false)) :=
      next (by rw [exec_ldsy, execLdsy, row, Res.andThen_ok, if_neg (by simp [full]), State.spClean_in hp here clean,
        Res.andThen_ok])
    refine ⟨_, run, ?_, by simp, by rw [State.sp_setSp, loaded]; rfl, Mem.byte_congr ?_⟩
    · rw [State.ctx_setSp]
      exact State.ctx_congr (State.issueBits_congr _ _ _ _ _ _ (by simp) (by simp)) (s.observeMark_iss i)
    · exact s.observeMark_cells i
  · rw [exec_stsy, execStsy, row, Res.andThen_ok, if_pos full]
    exact issue_wait g s _ hg
  case stsy =>
    have run : exec (.stsy g t a) s = .next (s.setSp ((s.sp.setRow i (s.readV t.toNat)).setFull i true)) :=
      next (by rw [exec_stsy, execStsy, row, Res.andThen_ok, if_neg (by simp [empty])])
    exact ⟨_, run, s.onlyScratch_setRow_setFull _ _ _, by simp, by simp⟩
  case feq =>
    let s1 := if s.sp.isFull i then s.observeMark i else s
    have cores : s1.cores = s.cores := by unfold s1; split <;> simp
    have iss : s1.iss = s.iss := by unfold s1; split <;> simp
    have cells : s1.mem.cells = s.mem.cells := by unfold s1; split <;> simp
    have run : exec (.feq g j a) s = .next (s1.issuePair j (s.sp.isFull i) 1) :=
      next (by rw [exec_feq, execFeq, row, Res.andThen_ok])
    refine ⟨_, run, congrArg Ctx.pend (State.ctx_congr ?_ ?_), ?_, Mem.byte_congr ?_⟩
    · exact State.issueP_congr _ _ _ (State.issueP_congr _ _ _ cores iss) (by simp [iss])
    · simp [State.issuePair, iss]
    · simp [State.issuePair, State.sp_congr cores iss]
    · simp [State.issuePair, cells]
  case fes =>
    have run : exec (.fes g v a) s = .next (s.setSp (s.sp.setFull i (v == 1))) :=
      next (by rw [exec_fes, execFes, row, Res.andThen_ok])
    exact ⟨_, run, s.onlyScratch_setFull _ _, by simp, by simp⟩

/-- Settles O18, claim by claim. -/
theorem scratchpadAccess : Obligations.ScratchpadAccess := ⟨scratchpadWords, fullEmptyRows⟩

end Sys2Proof.Machine
end

section
/-! SUPPORT. Proof of the statement on the engine commands: what drawing an identifier and beginning a transfer leave, and
what the commands with a descriptor have in common. -/

namespace Sys2Proof.Machine

/-! ## An identifier drawn (R209) -/

@[simp] theorem State.drawId_mem (s : State) (c : Nat) (d : BitVec 6) : (s.drawId c d).mem = s.mem := by
  simp [State.drawId]

@[simp] theorem State.drawId_iss (s : State) (c : Nat) (d : BitVec 6) : (s.drawId c d).iss = s.iss := by
  simp [State.drawId]

/-- A result on its way leaves the core but for the list of results and its counter. -/
theorem State.issueS_me (s : State) (d : BitVec 6) (v : Word) (L : Nat) :
    ∃ p n, (s.issueS d v L).me = { s.me with ser := n }.setCtx s.iss.fw { s.ctx with pend := p } := by
  unfold State.issueS
  split
  · exact ⟨s.ctx.pend, s.me.ser, by cases h : s.iss.fw <;> simp [State.ctx, Core.ctx, Core.setCtx, h]⟩
  · exact ⟨_, _, s.issueBits_me _ _ _ _ _ _⟩

/-- The results on their way after one more depend on those before, the time, the counter and the slot. -/
theorem State.issueS_pend_setCtx (s : State) (c : Ctx) (d : BitVec 6) (v : Word) (L : Nat) (h : c.pend = s.ctx.pend) :
    ((s.setCtx c).issueS d v L).ctx.pend = (s.issueS d v L).ctx.pend := by
  unfold State.issueS
  split
  · simp [h]
  · rw [State.ctx, State.ctx, State.issueBits_me, State.issueBits_me]
    simp [State.setCtx, State.ctx, h]

theorem State.issueS_me_setCtx (s : State) (c : Ctx) (d : BitVec 6) (v : Word) (L : Nat) :
    ∃ p n, ((s.setCtx c).issueS d v L).me = { s.me with ser := n }.setCtx s.iss.fw { c with pend := p } := by
  obtain ⟨p, n, h⟩ := (s.setCtx c).issueS_me d v L
  refine ⟨p, n, h.trans ?_⟩
  cases hf : s.iss.fw <;> simp [State.setCtx, State.ctx, Core.ctx, Core.setCtx, hf]

/-- An identifier drawn leaves the core but for the channel's count, the list of results and its counter. -/
theorem State.drawId_me (s : State) (c : Nat) (d : BitVec 6) :
    ∃ p n, (s.drawId c d).me = { s.me with ser := n }.setCtx s.iss.fw
      { s.ctx with chans := Tab.put s.ctx.chans c { s.chanAt c with iss := (s.chanAt c).iss + 1 }, pend := p } :=
  s.issueS_me_setCtx _ d _ 1

@[simp] theorem State.drawId_xfers (s : State) (c : Nat) (d : BitVec 6) : (s.drawId c d).me.xfers = s.me.xfers := by
  obtain ⟨p, n, h⟩ := s.drawId_me c d
  simp [h]

@[simp] theorem State.drawId_sp (s : State) (c : Nat) (d : BitVec 6) : (s.drawId c d).sp = s.sp := by
  obtain ⟨p, n, h⟩ := s.drawId_me c d
  simp [State.sp, h]

theorem State.drawId_chans (s : State) (c : Nat) (d : BitVec 6) :
    (s.drawId c d).ctx.chans = Tab.put s.ctx.chans c { s.chanAt c with iss := (s.chanAt c).iss + 1 } := by
  obtain ⟨p, n, h⟩ := s.drawId_me c d
  simp [State.ctx, h]

theorem State.drawId_pend (s : State) (c : Nat) (d : BitVec 6) :
    (s.drawId c d).ctx.pend = (s.issueS d ((s.chanAt c).iss + 1) 1).ctx.pend :=
  s.issueS_pend_setCtx _ d _ 1 rfl

/-! ## A transfer begun (R210, R216) -/

@[simp] theorem State.startTiles_iss (s : State) (c : Nat) (x : Xfer) : (s.startTiles c x).iss = s.iss := by
  unfold State.startTiles; dsimp only; split <;> rfl

@[simp] theorem State.startTiles_mem (s : State) (c : Nat) (x : Xfer) : (s.startTiles c x).mem = s.mem := by
  unfold State.startTiles; dsimp only; split <;> rfl

/-- The tiles of a transfer's sides are all that its start changes before it is outstanding. -/
theorem State.startTiles_core (s : State) (c : Nat) (x : Xfer) :
    ∃ y, (s.startTiles c x).core c = { s.core c with px := y } := by
  unfold State.startTiles
  dsimp only
  split
  · exact ⟨(s.core c).px, rfl⟩
  · exact ⟨_, s.core_setCore c _⟩

@[simp] theorem State.startXfer_iss (s : State) (c : Nat) (x : Xfer) : (s.startXfer c x).iss = s.iss := by
  unfold State.startXfer
  dsimp only
  split <;> exact State.startTiles_iss _ c x

/-- A transfer begun reads and writes nothing: views alone change in memory. -/
theorem State.startXfer_mem (s : State) (c : Nat) (x : Xfer) :
    ∃ l, (s.startXfer c x).mem = { s.mem with log := l } := by
  unfold State.startXfer
  dsimp only
  split
  · rw [State.setCore_mem, State.snapshot, State.mapLog, State.startTiles_mem]
    exact ⟨_, rfl⟩
  · rw [State.setCore_mem, State.startTiles_mem]
    exact ⟨_, rfl⟩

/-- The core at which a transfer is begun: it is outstanding behind those that were, and its tiles are held. -/
theorem State.startXfer_core (s : State) (c : Nat) (x : Xfer) :
    ∃ y, (s.startXfer c x).core c = { s.core c with px := y, xfers := (s.core c).xfers ++ [x] } := by
  obtain ⟨y, h⟩ := (s.shareView (.context c x.fw) (x.agent c)).startTiles_core c x
  have h : ((s.shareView (.context c x.fw) (x.agent c)).startTiles c x).core c = { s.core c with px := y } := h
  refine ⟨y, ?_⟩
  unfold State.startXfer
  dsimp only
  split
  · rw [State.core_setCore]
    show ({ ((s.shareView (.context c x.fw) (x.agent c)).startTiles c x).core c with
      xfers := (((s.shareView (.context c x.fw) (x.agent c)).startTiles c x).core c).xfers ++ [x] } : Core) = _
    rw [h]
  · rw [State.core_setCore, h]

section Start
variable (s : State) (x : Xfer)

theorem State.startXfer_me :
    ∃ y, (s.startXfer s.iss.core x).me = { s.me with px := y, xfers := s.me.xfers ++ [x] } := by
  rw [State.me, State.startXfer_iss]
  exact s.startXfer_core s.iss.core x

theorem State.startXfer_xfers : (s.startXfer s.iss.core x).me.xfers = s.me.xfers ++ [x] := by
  obtain ⟨y, h⟩ := s.startXfer_me x
  rw [h]

@[simp] theorem State.startXfer_sp : (s.startXfer s.iss.core x).sp = s.sp := by
  obtain ⟨y, h⟩ := s.startXfer_me x
  rw [State.sp, h, State.sp]

@[simp] theorem State.startXfer_ctx : (s.startXfer s.iss.core x).ctx = s.ctx := by
  obtain ⟨y, h⟩ := s.startXfer_me x
  rw [State.ctx, h, State.startXfer_iss]
  rfl

theorem State.startXfer_byte (b : Nat) : (s.startXfer s.iss.core x).mem.byte b = s.mem.byte b := by
  obtain ⟨l, h⟩ := s.startXfer_mem s.iss.core x
  rw [h]
  rfl

end Start

/-! ## The checks of a command (R212) -/

theorem State.checkCmd_reason (s : State) (k : XKind) (c : Nat) (d0 : List Word) (faddr : Word) (aq rl : Bool) (sc r : Nat)
    (clean : s.indexPoison k (resolveDesc s.ctx d0) = none)
    (reason : s.cmdReason k false c d0 (resolveDesc s.ctx d0) = some r) :
    s.checkCmd k none c d0 faddr aq rl sc = .error (s.cmdFault r faddr) := by
  simp [State.checkCmd, clean, reason]

/-- A command that passes its checks is the transfer of its descriptor, with the translations that its probe found. -/
theorem State.checkCmd_ok {s : State} {k : XKind} {c : Nat} {d0 : List Word} {faddr : Word} {aq rl : Bool} {sc : Nat}
    {x : Xfer} (h : s.checkCmd k none c d0 faddr aq rl sc = .ok x) :
    ∃ held, x = s.newXfer k c (resolveDesc s.ctx d0) held aq rl sc := by
  simp only [State.checkCmd, Bool.false_eq_true, if_false] at h
  split at h
  · cases h
  split at h
  · cases h
  split at h
  · cases h
  split at h
  · cases h
  split at h
  · cases h
  · exact ⟨_, (Except.ok.inj h).symm⟩

/-! ## The commands with a descriptor -/

/-- What an issued command leaves: its transfer outstanding, one identifier drawn, and all else that the statement names as
before. -/
structure State.Begun (s : State) (n : Nat) (d : BitVec 6) (y : Xfer) (u : State) : Prop where
  xfers : u.me.xfers = s.me.xfers ++ [y]
  chans : u.ctx.chans = Tab.put s.ctx.chans n { s.chanAt n with iss := (s.chanAt n).iss + 1 }
  pend : u.ctx.pend = (s.issueS d ((s.chanAt n).iss + 1) 1).ctx.pend
  sp : u.sp = s.sp
  byte : ∀ b, u.mem.byte b = s.mem.byte b

theorem State.begun_startXfer (s : State) (n : Nat) (d : BitVec 6) (y : Xfer) :
    s.Begun n d y ((s.drawId n d).startXfer s.iss.core y) := by
  have start := (s.drawId n d).startXfer_xfers y
  have sp := (s.drawId n d).startXfer_sp y
  have ctx := (s.drawId n d).startXfer_ctx y
  have byte := (s.drawId n d).startXfer_byte y
  rw [State.drawId_iss] at start sp ctx byte
  exact ⟨by rw [start, State.drawId_xfers], by rw [ctx, State.drawId_chans], by rw [ctx, State.drawId_pend],
    by rw [sp, State.drawId_sp], fun b => by rw [byte, State.drawId_mem]⟩

/-- R225: so it is where the histogram has been cleared before. -/
theorem State.begun_startXfer_setPx (s : State) (n : Nat) (d : BitVec 6) (y : Xfer) (p : ProgX) :
    s.Begun n d y (((s.drawId n d).setPx p).startXfer s.iss.core y) := by
  have start := ((s.drawId n d).setPx p).startXfer_xfers y
  have sp := ((s.drawId n d).setPx p).startXfer_sp y
  have ctx := ((s.drawId n d).setPx p).startXfer_ctx y
  have byte := ((s.drawId n d).setPx p).startXfer_byte y
  rw [State.setPx_iss, State.drawId_iss] at start sp ctx byte
  have xfers : ((s.drawId n d).setPx p).me.xfers = s.me.xfers := by simp [State.setPx]
  exact ⟨by rw [start, xfers], by rw [ctx, State.ctx_setPx, State.drawId_chans],
    by rw [ctx, State.ctx_setPx, State.drawId_pend], by rw [sp, State.sp_setPx, State.drawId_sp],
    fun b => by rw [byte, State.setPx_mem, State.drawId_mem]⟩

/-- What a command with a descriptor comes to: the refusal of its channel, that of a check, the completion of its identifier
under a quiesce (R228), or its transfer begun. -/
structure State.Commands (s : State) (k : XKind) (n : Nat) (off : Word) (d : BitVec 6) (aq rl : Bool) (sc : Nat) (r : Res) :
    Prop where
  illegal : s.chanOk n = false → r = s.illegal 3
  refused : ∀ d0 e, s.chanOk n = true → s.readDesc off = .ok d0 → s.checkCmd k none n d0 off aq rl sc = .error e → r = e
  quiesced : ∀ d0 x, s.chanOk n = true → s.readDesc off = .ok d0 → s.checkCmd k none n d0 off aq rl sc = .ok x →
    s.quiescing s.cmdAsid = true → r = .ok ((s.drawId n d).completeId s.iss.core s.iss.fw n x.ident)
  begun : ∀ d0 x, s.chanOk n = true → s.readDesc off = .ok d0 → s.checkCmd k none n d0 off aq rl sc = .ok x →
    s.quiescing s.cmdAsid = false → ∃ l u, r = .ok u ∧ s.Begun n d { x with data := l } u

section Commands
variable (s : State) (g c : BitVec 4) (a d : BitVec 6) (sc : BitVec 4)

theorem State.engineCmd_commands (k : XKind) (aq rl : Bool) :
    s.Commands k c.toNat (s.readS a) d aq rl sc.toNat (s.engineCmd k c a d aq rl sc) where
  illegal h := by simp [State.engineCmd, h]
  refused d0 e h read checked := by simp [State.engineCmd, h, read, checked]
  quiesced d0 x h read checked quiet := by simp [State.engineCmd, h, read, checked, quiet]
  begun d0 x h read checked busy :=
    ⟨x.data, _, by simp [State.engineCmd, h, read, checked, busy], s.begun_startXfer c.toNat d x⟩

/-- R225: hist is such a command too; its transfer holds the histogram as it was. -/
theorem State.execHist_commands (r : BitVec 1) :
    ∃ res, exec (.hist g c a d r sc) s = issue g s res ∧
      s.Commands .hist c.toNat (s.readS a) d false (r == 1) sc.toNat res := by
  rw [exec_hist, execHist]
  generalize (r == 1) = rl
  refine ⟨_, rfl, fun h => by simp [h], fun d0 e h read checked => by simp [h, read, checked],
    fun d0 x h read checked quiet => by simp [h, read, checked, quiet], fun d0 x h read checked busy => ?_⟩
  refine ⟨histRows s.px.hist, _, by simp [h, read, checked, busy]; rfl, ?_⟩
  split
  · exact s.begun_startXfer_setPx c.toNat d _ _
  · exact s.begun_startXfer c.toNat d _

end Commands

/-- Settles O24: the five commands share their checks and what they leave. -/
theorem engineCommands : Obligations.EngineCommands := by
  intro s g c a d hg n off ch issues
  have of_commands (i : Instr) (k : XKind) (aq rl : Bool) (sc : Nat) (r : Res) (run : exec i s = issue g s r)
      (h : s.Commands k n off d aq rl sc r) : issues i k aq rl sc := by
    refine ⟨fun bad => ?_, fun d0 ok read => ⟨fun r clean reason => ?_, fun x checked => ⟨fun quiet => ?_, fun busy => ?_⟩⟩⟩
    · rw [run, h.illegal bad]
      exact issue_trap g s _ _ hg
    · rw [run, h.refused d0 _ ok read (s.checkCmd_reason k n d0 off aq rl sc r clean reason)]
      exact issue_trap g s _ _ hg
    · rw [run, h.quiesced d0 x ok read checked quiet]
      exact issue_ok g s _ hg
    · obtain ⟨l, u, ends, begun⟩ := h.begun d0 x ok read checked busy
      obtain ⟨held, rfl⟩ := State.checkCmd_ok checked
      refine ⟨u, _, by rw [run, ends]; exact issue_ok g s _ hg, begun.xfers, rfl, rfl, rfl, rfl, rfl, rfl, rfl, rfl, rfl, ?_,
        fun m hm => ?_, begun.pend, begun.sp, begun.byte⟩
      · simp only [ch, begun.chans, Tab.get_put_self]
        rfl
      · simp only [ch, begun.chans, Tab.get_put_ne _ _ _ _ _ hm]
  refine ⟨fun q r sc => ⟨?_, ?_, ?_⟩, fun q sc => ?_, fun r sc => ?_⟩
  · exact of_commands _ _ _ _ _ _ rfl (s.engineCmd_commands c a d sc .copy (q == 1) (r == 1))
  · exact of_commands _ _ _ _ _ _ rfl (s.engineCmd_commands c a d sc .gath (q == 1) (r == 1))
  · exact of_commands _ _ _ _ _ _ rfl (s.engineCmd_commands c a d sc .scat (q == 1) (r == 1))
  · exact of_commands _ _ _ _ _ _ rfl (s.engineCmd_commands c a d sc .wstr (q == 1) false)
  · obtain ⟨res, run, h⟩ := s.execHist_commands g c a d sc r
    exact of_commands _ _ _ _ _ _ run h

end Sys2Proof.Machine
end

section
/-! SUPPORT. Proof of the claim on step arrivals: what leaves every row of memory as it was, what one row performed at its home
changes, and the hub's rewrite of a word of a rank's block. -/

namespace Sys2Proof.Machine

/-! ## A row and its bytes -/

theorem lanesNat_bytes (x n : Nat) :
    lanesNat 8 ((List.range n).map fun i => x / 2 ^ (8 * i) % 2 ^ 8) = x % 2 ^ (8 * n) := by
  induction n generalizing x with
  | zero => simp [lanesNat, Nat.mod_one]
  | succ n ih =>
    have shifted (i : Nat) : x / 2 ^ (8 * (i + 1)) = x / 2 ^ 8 / 2 ^ (8 * i) := by
      rw [Nat.div_div_eq_div_mul, ← Nat.pow_add, show 8 + 8 * i = 8 * (i + 1) by omega]
    have rest := ih (x / 2 ^ 8)
    simp only [← shifted] at rest
    rw [List.range_succ_eq_map, List.map_cons, List.map_map, lanesNat]
    simp only [Function.comp_def, Nat.succ_eq_add_one, rest]
    rw [show 8 * (n + 1) = 8 + 8 * n by omega, Nat.pow_add, Nat.mod_mul]
    simp

/-- A row whose bytes are those of v is v. -/
theorem ofLanes_bytes (v : Row) :
    ofLanes 8 ((List.range 64).map fun i => (v.extractLsb' (8 * i) 8).toNat) = v := by
  simp only [BitVec.extractLsb'_toNat, Nat.shiftRight_eq_div_pow]
  rw [ofLanes, lanesNat_bytes, Nat.mod_eq_of_lt v.isLt, BitVec.ofNat_toNat, BitVec.setWidth_eq]

/-- A row depends on its own bytes alone. -/
theorem Mem.home_congr {m n : Mem} {r : Nat} (h : ∀ a, a / 64 = r → n.byte a = m.byte a) : n.home r = m.home r := by
  have e (i : Nat) (hi : i ∈ List.range 64) : (n.byte (64 * r + i)).toNat = (m.byte (64 * r + i)).toNat := by
    rw [h _ (by have := List.mem_range.1 hi; omega)]
  rw [Mem.home, Mem.home, List.map_congr_left e]

@[simp] theorem Mem.home_setHome (m : Mem) (r : Nat) (v : Row) : (m.setHome r v).home r = v := by
  refine Eq.trans ?_ (ofLanes_bytes v)
  rw [Mem.home]
  congr 1
  refine List.map_congr_left fun i hi => ?_
  have hi := List.mem_range.1 hi
  rw [Mem.byte_setHome, if_pos (by omega), show (64 * r + i) % 64 = i by omega]

/-! ## What leaves every row as it was -/

/-- A state of memory that differs in views, publications and operations on their way alone: the bytes at home stand, and so do
the rows written and their values, in coherence order. -/
structure Mem.SameRows (m n : Mem) : Prop where
  rest : n = { m with log := n.log, nextId := n.nextId, arrivals := n.arrivals, posted := n.posted, adds := n.adds }
  rows : n.log.map (fun w => (w.row, w.val)) = m.log.map fun w => (w.row, w.val)

/-- The newest value of a row in a list of writes. -/
def lastWrite (l : List (Nat × Row)) (r : Nat) : Option Row := (l.filter fun e => e.1 = r).getLast?.map fun e => e.2

theorem Mem.latest_eq (m : Mem) (r : Nat) :
    m.latest r = (lastWrite (m.log.map fun w => (w.row, w.val)) r).getD (m.home r) := by
  rw [lastWrite, List.filter_map, List.getLast?_map]
  unfold Mem.latest Mem.recs
  simp only [Function.comp_def]
  cases (m.log.filter fun w => w.row = r).getLast? <;> rfl

namespace Mem.SameRows
variable {m n : Mem} (h : Mem.SameRows m n)
include h

theorem cells : n.cells = m.cells := by rw [h.rest]
theorem bad : n.bad = m.bad := by rw [h.rest]
theorem uncorr : n.uncorr = m.uncorr := by rw [h.rest]

theorem byte (a : Nat) : n.byte a = m.byte a := Mem.byte_congr h.cells a

theorem home (r : Nat) : n.home r = m.home r := Mem.home_congr fun a _ => h.byte a

theorem latest (r : Nat) : n.latest r = m.latest r := by
  rw [Mem.latest_eq, Mem.latest_eq, h.rows, h.home]

theorem newest (a : Nat) : n.newest a = m.newest a := by
  rw [Mem.newest, Mem.newest, h.latest]

theorem decipher (ek r : Nat) (v : Row) : n.decipher ek r v = m.decipher ek r v := by
  rw [h.rest]; rfl

theorem encipher (ek r : Nat) (v : Row) : n.encipher ek r v = m.encipher ek r v := by
  rw [h.rest]; rfl

theorem stalls (pa : Nat) : n.stalls pa = m.stalls pa := by
  rw [h.rest]; rfl

theorem translate (node asid : Nat) (k : AccKind) (va : Word) :
    n.translate node asid k va = m.translate node asid k va := by
  rw [h.rest]; rfl

end Mem.SameRows

theorem Mem.SameRows.trans {m n k : Mem} (h : m.SameRows n) (h' : n.SameRows k) : m.SameRows k :=
  ⟨by rw [h'.rest, h.rest], h'.rows.trans h.rows⟩

/-- Any change of the log that keeps each write's row and value is such a change. -/
theorem Mem.sameRows_mapLog (m : Mem) (f : WriteRec → WriteRec) (hf : ∀ w, (f w).row = w.row ∧ (f w).val = w.val) :
    m.SameRows { m with log := m.log.map f } := by
  refine ⟨rfl, ?_⟩
  rw [List.map_map]
  exact List.map_congr_left fun w _ => Prod.ext (hf w).1 (hf w).2

/-- R235: a publication at less than PKG is such a change. -/
theorem Mem.sameRows_publish (m : Mem) (a : Agent) (sc : Scope) (h : wideScope sc.code = false) : m.SameRows (m.publish a sc) := by
  have tier : sc.code ≠ 11 := by rintro e; simp [wideScope, e] at h
  unfold Mem.publish
  simp only [h, tier, Bool.false_eq_true, if_false]
  refine ⟨rfl, ?_⟩
  rw [List.map_map]
  refine List.map_congr_left fun w _ => ?_
  simp only [Function.comp_apply]
  split <;> rfl

/-- R236: so is the reaching of scopes by what an agent has published. -/
theorem State.sameRows_flushPubs (s : State) (a : Agent) : s.mem.SameRows (s.flushPubs a).mem := by
  refine ⟨rfl, (s.mem.sameRows_mapLog (fun w => if w.goesAhead then w.spreadTo s.mem.arrivals _ else w) fun w => ⟨?_, ?_⟩).rows⟩ <;>
    split <;> rfl

/-! ## One row performed at its home (R334, R343) -/

/-- Of a row that is not uncorrectable, a write changes its own bytes alone, and no other write is concerned. -/
theorem Mem.perform_clean (m : Mem) (r : Nat) (v : Row) (h : m.uncorr.contains r = false) :
    (m.perform r v).cells = (m.setHome r v).cells ∧ (m.perform r v).log = m.log ∧ (m.perform r v).keys = m.keys := by
  unfold Mem.perform
  cases m.parityRow r with
  | none => exact ⟨rfl, rfl, rfl⟩
  | some p =>
    refine ⟨?_, ?_, ?_⟩ <;> simp only [h, Bool.false_eq_true, if_false] <;> rfl

theorem lastWrite_append_ne (l : List (Nat × Row)) (r q : Nat) (v : Row) (h : q ≠ r) :
    lastWrite (l ++ [(r, v)]) q = lastWrite l q := by
  have h : ¬ r = q := fun e => h e.symm
  simp [lastWrite, List.filter_append, h]

section StoreHome
variable (m : Mem) (a : Agent) (k : Option (BitVec 16)) (c : Bool) (r : Nat) (v : Row) (h : m.uncorr.contains r = false)
include h

theorem Mem.byte_storeHome (x : Nat) : (m.storeHome a k c r v).byte x = (m.setHome r v).byte x :=
  Mem.byte_congr (m := m.setHome r v) (m.perform_clean r v h).1 x

theorem Mem.byte_storeHome_ne (x : Nat) (hx : x / 64 ≠ r) : (m.storeHome a k c r v).byte x = m.byte x := by
  rw [m.byte_storeHome a k c r v h, Mem.byte_setHome, if_neg hx]

theorem Mem.home_storeHome : (m.storeHome a k c r v).home r = v :=
  (Mem.home_congr fun x _ => m.byte_storeHome a k c r v h x).trans (m.home_setHome r v)

theorem Mem.keys_storeHome : (m.storeHome a k c r v).keys = m.keys := (m.perform_clean r v h).2.2

/-- The write stands behind the others in the order of writes. -/
theorem Mem.rows_storeHome : (m.storeHome a k c r v).log.map (fun w => (w.row, w.val)) =
    (m.log.map fun w => (w.row, w.val)) ++ [(r, v)] := by
  unfold Mem.storeHome
  simp only [List.map_append, List.map_map, (m.perform_clean r v h).2.1]
  refine congrArg (· ++ _) (List.map_congr_left fun w _ => ?_)
  simp only [Function.comp_apply]
  split <;> split <;> rfl

theorem Mem.newest_storeHome_ne (x : Nat) (hx : x / 64 ≠ r) : (m.storeHome a k c r v).newest x = m.newest x := by
  have home : (m.storeHome a k c r v).home (x / 64) = m.home (x / 64) :=
    Mem.home_congr fun y hy => m.byte_storeHome_ne a k c r v h y (by omega)
  rw [Mem.newest, Mem.newest, Mem.latest_eq, Mem.latest_eq, home, m.rows_storeHome a k c r v h,
    lastWrite_append_ne _ _ _ _ hx]

end StoreHome

theorem Mem.decipher_encipher (m n : Mem) (ek r : Nat) (v : Row) (h : n.keys = m.keys) :
    n.decipher ek r (m.encipher ek r v) = v := by
  unfold Mem.decipher Mem.encipher Mem.key
  rw [h]
  split
  · rfl
  · exact Equiv.symm_apply_apply _ v

/-! ## A part of a row rewritten by the hub (R230, R282) -/

theorem Mem.opened_self (m : Mem) (pa : Nat) (h : m.stalls pa = false) : m.opened pa = m := by
  simp only [Mem.stalls, Bool.or_eq_false_iff] at h
  obtain ⟨⟨loading, uncorr⟩, blocked⟩ := h
  have correctable : pa / 64 ∉ m.uncorr := by simpa using uncorr
  simp [Mem.opened, loading, correctable, blocked]

theorem State.peek_home (s : State) (acc : Acc) (hub : isHubRow acc.row = false) (kind : acc.leaf.ms = true ∨ acc.leaf.c = false) :
    s.peek acc = s.mem.decipher acc.leaf.ek acc.row (s.mem.home acc.row) := by
  have home : (acc.leaf.ms || !acc.leaf.c) = true := by simpa using kind
  simp [State.peek, hub, home]

/-- R234: through a mapping that is not cached every agent reads the row at its home. -/
theorem State.hubSee_eq_peek (s : State) (a : Agent) (acc : Acc) (hub : isHubRow acc.row = false)
    (kind : acc.leaf.ms = true ∨ acc.leaf.c = false) : s.hubSee a acc = s.peek acc := by
  have home : (acc.leaf.ms || !acc.leaf.c) = true := by simpa using kind
  rw [s.peek_home acc hub kind]
  simp [State.hubSee, State.load, hub, home]

/-- A local row that the hub can rewrite at once: through a mapping that is not cached, not poisoned, and waiting for no load or
recovery. -/
structure State.Rewritable (s : State) (acc : Acc) : Prop where
  near : s.isRemote acc = false
  hub : isHubRow acc.row = false
  clean : acc.row ∉ s.mem.bad
  ready : s.mem.stalls acc.pa = false
  kind : acc.leaf.ms = true ∨ acc.leaf.c = false

section Rewrite
variable {s : State} {asid : BitVec 16} {va : Addr} {acc : Acc} (a : Agent) (v : Option (BitVec 16)) (f : Row → Row)
variable (found : s.translate asid.toNat .read (va.setWidth 64) = .ok acc) (h : s.Rewritable acc)
include found h

theorem State.hubRead_home (norecord : ∀ e ∈ s.disp.records, ¬ (e.1 = asid ∧ e.2.1 = va)) :
    s.hubRead asid va = some (s.peek acc) := by
  have none_ : (s.disp.records.find? fun e => e.1 = asid ∧ e.2.1 = va) = none :=
    List.find?_eq_none.2 fun e he => by simpa using norecord e he
  have clean : s.mem.bad.contains acc.row = false := by simpa using h.clean
  rw [State.hubRead, none_]
  simp only [found, State.hubAt, h.near, clean, Bool.false_eq_true, if_false]
  rw [s.hubSee_eq_peek _ acc h.hub h.kind]

theorem State.rewriteAs_home : s.rewriteAs a v asid va f =
    (((s.actFor v).writeHome a true acc.row (s.mem.encipher acc.leaf.ek acc.row (f (s.peek acc)))).actFor s.iss.acting) := by
  have clean : s.mem.bad.contains acc.row = false := by simpa using h.clean
  have opened : s.opened acc.pa = s := by rw [State.opened, Mem.opened_self _ _ h.ready]
  have peek : (s.actFor v).peek acc = s.peek acc := by
    rw [State.peek_home _ _ h.hub h.kind, State.peek_home _ _ h.hub h.kind]; rfl
  have put : (s.actFor v).putPart a acc (f (s.peek acc)) =
      (s.actFor v).writeHome a true acc.row (s.mem.encipher acc.leaf.ek acc.row (f (s.peek acc))) :=
    (if_neg (by rw [State.actFor, clean]; exact Bool.false_ne_true)).trans (if_neg (by simp [h.hub]))
  unfold State.rewriteAs
  simp only [found, h.near, Bool.false_eq_true, if_false, opened, State.serving, peek, put]

end Rewrite

theorem State.Rewritable.uncorr {s : State} {acc : Acc} (h : s.Rewritable acc) : s.mem.uncorr.contains acc.row = false := by
  have ready := h.ready
  simp only [Mem.stalls, Bool.or_eq_false_iff] at ready
  exact ready.1.2

theorem State.writeHome_mem (s : State) (a : Agent) (c : Bool) (r : Nat) (v : Row) :
    (s.writeHome a c r v).mem = (s.flushPubs a).mem.storeHome a (s.rankOf a) c r v := rfl

/-- What an agent publishes meanwhile changes no row; the row performed is the one that a rewrite finds next. -/
theorem State.peek_writeHome (s : State) (a : Agent) (c : Bool) (acc : Acc) (y : Row) (h : s.Rewritable acc) :
    (s.writeHome a c acc.row (s.mem.encipher acc.leaf.ek acc.row y)).peek acc = y := by
  have same := s.sameRows_flushPubs a
  have uncorr : (s.flushPubs a).mem.uncorr.contains acc.row = false := h.uncorr
  rw [State.peek_home _ _ h.hub h.kind, State.writeHome_mem, Mem.home_storeHome _ _ _ _ _ _ uncorr, ← same.encipher]
  exact Mem.decipher_encipher _ _ _ _ _ (Mem.keys_storeHome _ _ _ _ _ _ uncorr)

theorem State.writeHome_kept (s : State) (a : Agent) (c : Bool) (acc : Acc) (v : Row) (h : s.Rewritable acc) :
    MemoryKeptBut acc.row s (s.writeHome a c acc.row v) := by
  intro x hx
  have same := s.sameRows_flushPubs a
  have uncorr : (s.flushPubs a).mem.uncorr.contains acc.row = false := h.uncorr
  exact ⟨(Mem.byte_storeHome_ne _ _ _ _ _ _ uncorr x hx).trans (same.byte x),
    (Mem.newest_storeHome_ne _ _ _ _ _ _ uncorr x hx).trans (same.newest x)⟩

/-! ## What needs a rank's block (R282, R322) -/

section Rank
variable {s : State} {v : BitVec 16}

theorem State.withRank_waits {k : State → Res} (h : ¬ s.RowsHere (s.rankRows v)) :
    s.withRank v k = .wait (.hub (s.rankRows v)) := by
  have h : ¬ ((s.rankRows v).all fun e => (s.rowsRead (s.rankRows v)).rowReady e.1 e.2) = true :=
    fun all => h (List.all_eq_true.1 all)
  exact if_neg h

theorem State.withRank_ok {f : State → State} (h : s.RowsHere (s.rankRows v))
    (here : (s.rowsRead (s.rankRows v)).rankHere v = true) :
    s.withRank v (fun t => .ok (f t)) = .ok ((f (s.rowsRead (s.rankRows v))).dropAnswers (s.rankRows v)) := by
  have all : ((s.rankRows v).all fun e => (s.rowsRead (s.rankRows v)).rowReady e.1 e.2) = true := List.all_eq_true.2 h
  refine (if_pos all).trans ?_
  dsimp only
  rw [if_pos (show State.rankHere (List.foldl _ s _) v = true from here)]
  rfl

end Rank

/-- R225, R235: publishing at VRANK changes no row and no translation. -/
theorem State.sameRows_publishRank (s : State) (a b : Agent) : s.mem.SameRows (s.publish a b 6).mem :=
  s.mem.sameRows_publish a (s.scopeOf 6 b) rfl

/-- The word of a rank's block that counts the arrivals of its step, with one more. -/
def countArrival (w : Word) : Word := BitVec.ofNat 64 ((fld w 32 32 + 1) % 2 ^ 32 * 2 ^ 32 + fld w 0 32)

theorem countArrival_fields (w : Word) :
    bitsOf (countArrival w).toNat 32 32 = (bitsOf w.toNat 32 32 + 1) % 2 ^ 32 ∧
      bitsOf (countArrival w).toNat 0 32 = bitsOf w.toNat 0 32 := by
  have := w.isLt
  simp only [countArrival, BitVec.toNat_ofNat, fld_eq_bitsOf, bitsOf]
  omega

/-- R305: the rank's word 3 read and written by the hub, at a block that can be rewritten at once. -/
theorem State.arrive_eq (s : State) (v : BitVec 16) (b : Addr) (acc : Acc) (block : s.rankBlock v = some b)
    (found : s.translate 0 .read (b.setWidth 64) = .ok acc) (h : s.Rewritable acc)
    (norecord : ∀ e ∈ s.disp.records, ¬ (e.1 = 0 ∧ e.2.1 = b)) :
    s.setRankWord v 3 (countArrival (s.rankWord v 3)) =
      ((s.actFor (some v)).writeHome .queueController true acc.row (s.mem.encipher acc.leaf.ek acc.row
        (setRowWord (s.peek acc) 3 (countArrival (rowWord (s.peek acc) 3))))).actFor s.iss.acting := by
  have at_ : b + BitVec.ofNat 48 (64 * (3 / 8)) = b := by simp
  have word : s.rankWord v 3 = rowWord (s.peek acc) 3 := by
    rw [State.rankWord, block]
    simp only [at_, State.hubRead_home (asid := 0) found h norecord]
    rfl
  rw [State.setRankWord, block, word]
  simp only [at_]
  exact State.rewriteAs_home (asid := 0) _ _ _ found h

/-- What the publication keeps is all that the hub's rewrite rests on. -/
theorem State.rewritable_publish {s : State} {acc : Acc} (a b : Agent) (h : s.Rewritable acc) :
    (s.publish a b 6).Rewritable acc where
  near := h.near
  hub := h.hub
  clean := by rw [(s.sameRows_publishRank a b).bad]; exact h.clean
  ready := by rw [(s.sameRows_publishRank a b).stalls]; exact h.ready
  kind := h.kind

/-- A step arrival of the issuing context at a rank whose block is here. -/
def State.arriveStep (s : State) (v : BitVec 16) : State :=
  let p := s.publish s.agent s.agent 6
  p.setRankWord v 3 (countArrival (p.rankWord v 3))

theorem exec_sarv_eq (g : BitVec 4) (s : State) :
    exec (.sarv g) s = issue g s (s.withRank s.ctx.vrank fun t => .ok (t.arriveStep s.ctx.vrank)) := rfl

theorem stepArrival : Claims.StepArrival := by
  intro s g b acc hg block
  refine ⟨fun away => ?waits, fun here => ?counts⟩
  case waits =>
    rw [exec_sarv_eq, State.withRank_waits away]
    exact issue_wait g s _ hg
  intro r rank isBlock norecord found near hub clean ready kind w
  let p := r.publish r.agent r.agent 6
  let q := p.actFor (some s.ctx.vrank)
  let y := setRowWord (p.peek acc) 3 (countArrival (rowWord (p.peek acc) 3))
  let u := q.writeHome .queueController true acc.row (q.mem.encipher acc.leaf.ek acc.row y)
  have same : r.mem.SameRows p.mem := r.sameRows_publishRank _ _
  have hp : p.Rewritable acc := State.rewritable_publish _ _ ⟨near, hub, clean, ready, kind⟩
  have hq : q.Rewritable acc := ⟨hp.near, hp.hub, hp.clean, hp.ready, hp.kind⟩
  have run : exec (.sarv g) s = .next ((u.actFor p.iss.acting).dropAnswers block) := by
    have arrive := p.arrive_eq s.ctx.vrank b acc isBlock ((same.translate _ _ _ _).trans found) hp norecord
    rw [exec_sarv_eq, State.withRank_ok here rank]
    exact (issue_ok g s _ hg).trans (congrArg (fun t : State => Host.Outcome.next (t.dropAnswers block)) arrive)
  have before : p.peek acc = r.peek acc := by
    rw [State.peek_home _ _ hub kind, State.peek_home _ _ hub kind, same.home, same.decipher]
  have after : ((u.actFor p.iss.acting).dropAnswers block).peek acc = y := by
    rw [← q.peek_writeHome .queueController true acc y hq, State.peek_home _ _ hub kind, State.peek_home _ _ hub kind]
    rfl
  have word : w ((u.actFor p.iss.acting).dropAnswers block) = (countArrival (rowWord (r.peek acc) 3)).toNat := by
    simp only [w, after, y, before]
    exact congrArg BitVec.toNat (extract_setRowWord _ 3 3 _ (by decide))
  obtain ⟨arrived, others⟩ := countArrival_fields (rowWord (r.peek acc) 3)
  refine ⟨_, run, rfl, by rw [word]; exact arrived, by rw [word]; exact others, fun x hx => ?_⟩
  obtain ⟨byte, newest⟩ := q.writeHome_kept .queueController true acc (q.mem.encipher acc.leaf.ek acc.row y) hq x hx
  exact ⟨byte.trans (same.byte x), newest.trans (same.newest x)⟩

end Sys2Proof.Machine
end

section
/-! SUPPORT. What leaves the issue frame as it is: the hub's accesses, appends and machine checks, the operations that base dies
perform, and the loads of the issuing context that wait for them. -/

namespace Sys2Proof.Machine

/-! ## Which operations leave the issue frame: the hub's accesses and flits -/

@[simp] theorem State.opened_iss (s : State) (pa : Nat) : (s.opened pa).iss = s.iss := rfl
@[simp] theorem State.noteError_iss (s : State) (asid pa : Nat) : (s.noteError asid pa).iss = s.iss := rfl
@[simp] theorem State.mapLog_iss (s : State) (f : WriteRec → WriteRec) : (s.mapLog f).iss = s.iss := rfl
@[simp] theorem State.snapshot_iss (s : State) (a x : Agent) (sc : Nat) : (s.snapshot a x sc).iss = s.iss := rfl
@[simp] theorem State.shareView_iss (s : State) (a b : Agent) : (s.shareView a b).iss = s.iss := rfl
@[simp] theorem State.flushPubs_iss (s : State) (a : Agent) : (s.flushPubs a).iss = s.iss := rfl
@[simp] theorem State.writeHome_iss (s : State) (a : Agent) (c : Bool) (r : Nat) (v : Row) :
    (s.writeHome a c r v).iss = s.iss := rfl
@[simp] theorem State.raiseAsync_iss (s : State) (c : Nat) (e : Async) : (s.raiseAsync c e).iss = s.iss := rfl
@[simp] theorem State.bumpModule_iss (s : State) (w : Nat) (high : Bool) : (s.bumpModule w high).iss = s.iss := by
  simp only [State.bumpModule, State.bump]
@[simp] theorem State.onLink_iss (s : State) (p : Nat) (f : Flit) : (s.onLink p f).iss = s.iss := rfl
@[simp] theorem State.setRoute_iss (s : State) (r : Route) : (s.setRoute r).iss = s.iss := rfl
@[simp] theorem State.forgetHub_iss (s : State) (keys : List Nat) : (s.forgetHub keys).iss = s.iss := rfl
@[simp] theorem State.dropAnswers_iss (s : State) (l : List (BitVec 16 × Word)) : (s.dropAnswers l).iss = s.iss := rfl

/-- An agent that has acted for a rank acts again for the one before. -/
theorem State.actFor_back {s u : State} {v : Option (BitVec 16)} (h : u.iss = (s.actFor v).iss) :
    (u.actFor s.iss.acting).iss = s.iss := by
  rw [State.actFor, h]; rfl

/-- What is done for a rank leaves the frame, in which the rank is named meanwhile. -/
theorem State.serving_iss (s : State) (v : Option (BitVec 16)) (k : State → State) (h : ∀ t, (k t).iss = t.iss) :
    (s.serving v k).iss = s.iss :=
  State.actFor_back (h (s.actFor v))

@[simp] theorem State.load_iss (s : State) (a : Agent) (acc : Acc) (n : Nat) : (s.load a acc n).2.2.iss = s.iss := by
  unfold State.load; dsimp only; split
  · rfl
  · split <;> rfl

@[simp] theorem State.put_iss (s : State) (a : Agent) (acc : Acc) (v : Row) : (s.put a acc v).iss = s.iss := by
  unfold State.put; split <;> rfl

@[simp] theorem State.putPart_iss (s : State) (a : Agent) (acc : Acc) (v : Row) : (s.putPart a acc v).iss = s.iss := by
  unfold State.putPart; split
  · rfl
  · simp

@[simp] theorem State.routeFlit_iss (s : State) (dst cls : Nat) (f : Flit) : (s.routeFlit dst cls f).iss = s.iss := by
  unfold State.routeFlit; dsimp only; split
  · simp
  · split
    · rfl
    · split <;> simp

@[simp] theorem State.sendFlit_iss (s : State) (dst cls : Nat) (f : Flit) : (s.sendFlit dst cls f).iss = s.iss := by
  unfold State.sendFlit; split
  · split
    · rfl
    · simp
  · simp

@[simp] theorem State.askHub_iss (s : State) (acc : Acc) : (s.askHub acc).iss = s.iss := by
  unfold State.askHub; split <;> simp

@[simp] theorem State.askHubOnce_iss (s : State) (acc : Acc) (f : Flit) : (s.askHubOnce acc f).iss = s.iss := by
  unfold State.askHubOnce; dsimp only; split <;> simp

@[simp] theorem State.openWalk_iss (s : State) (k : AccKind) (asid : BitVec 16) (va : Word) (n : Nat) :
    (s.openWalk k asid va n).iss = s.iss := by
  induction n generalizing s with
  | zero => rfl
  | succ n ih =>
    unfold State.openWalk; split
    · rw [ih]; rfl
    · rfl

@[simp] theorem State.openedAt_iss (s : State) (asid : BitVec 16) (k : AccKind) (va : Word) :
    (s.openedAt asid k va).iss = s.iss := by
  unfold State.openedAt; dsimp only; split
  · split <;> simp
  · simp

@[simp] theorem State.touch_iss (s : State) (asid : BitVec 16) (va : Word) : (s.touch asid va).iss = s.iss := by
  unfold State.touch State.touchAs; dsimp only; split
  · split <;> simp
  · simp
  · simp

@[simp] theorem State.rewriteFar_iss (s : State) (acc : Acc) (old new : Row) : (s.rewriteFar acc old new).iss = s.iss := by
  unfold State.rewriteFar; dsimp only; split
  · simp
  · refine State.foldl_keeps State.iss _ (fun s j => ?_) _ _
    split <;> simp

@[simp] theorem State.rewriteAs_iss (s : State) (a : Agent) (v : Option (BitVec 16)) (asid : BitVec 16) (va : Addr)
    (f : Row → Row) : (s.rewriteAs a v asid va f).iss = s.iss := by
  unfold State.rewriteAs; split
  · split
    · split
      · exact State.serving_iss _ _ _ fun t => t.rewriteFar_iss _ _ _
      · rfl
    · exact State.serving_iss _ _ _ fun t => t.putPart_iss _ _ _
  · rfl
  · rfl

/-! ## Appends and machine checks -/

@[simp] theorem State.noteApp_iss (s : State) (asid : BitVec 16) (e : App) : (s.noteApp asid e).iss = s.iss := by
  unfold State.noteApp; split <;> rfl

@[simp] theorem State.headerOf_iss (s : State) (node : Nat) (asid : BitVec 16) (va : Addr) (row : Row) :
    (s.headerOf node asid va row).2.iss = s.iss := by
  unfold State.headerOf; dsimp only; split
  · rfl
  · split <;> rfl

@[simp] theorem State.queueHdr_iss (s : State) (asid : BitVec 16) (va : Addr) (acc : Acc) :
    (s.queueHdr asid va acc).2.iss = s.iss := by
  simp [State.queueHdr]

@[simp] theorem State.putSlot_iss (s : State) (a : Agent) (slot : Acc) (v : Row) : (s.putSlot a slot v).iss = s.iss := by
  unfold State.putSlot; split <;> simp [State.remoteRow]

@[simp] theorem State.owesMirror_iss (s : State) (asid : BitVec 16) (va : Addr) (row : Nat) (h : QHdr) (i : Nat)
    (who : Option PortMsg) : (s.owesMirror asid va row h i who).iss = s.iss := by
  unfold State.owesMirror; split <;> rfl

@[simp] theorem State.sendMirror_iss (s : State) (e : Mirror) (h : QHdr) (v : Row) : (s.sendMirror e h v).iss = s.iss := by
  unfold State.sendMirror; split <;> simp

@[simp] theorem State.mirror_iss (s : State) (asid : BitVec 16) (va : Addr) (row : Nat) (h : QHdr) (i : Nat) (v : Row)
    (who : Option PortMsg) : (s.mirror asid va row h i v who).iss = s.iss := by
  unfold State.mirror; dsimp only; split <;> simp

@[simp] theorem State.noteFirst_iss (s : State) (asid : BitVec 16) (va own : Addr) :
    (s.noteFirst asid va own).iss = s.iss := by
  unfold State.noteFirst; split <;> rfl

@[simp] theorem State.claim_iss (s : State) (a : Agent) (asid : BitVec 16) (va : Addr) (acc : Acc) (h : QHdr) (ri : Word) :
    (s.claim a asid va acc h ri).2.iss = s.iss := by
  unfold State.claim; split <;> simp

@[simp] theorem State.appendFar_iss (s : State) (a : Agent) (asid : BitVec 16) (va : Addr) (acc : Acc) (v : Row) :
    (s.appendFar a asid va acc v).2.iss = s.iss := by
  unfold State.appendFar; dsimp only; split
  · simp
  · split
    · simp
    · split
      · simp
      · split
        · simp
        · split
          · simp
          · split <;> simp

@[simp] theorem State.appendHere_iss (s : State) (a : Agent) (asid : BitVec 16) (va : Addr) (acc : Acc) (v : Row)
    (ri : Option Word) (who : Option PortMsg) : (s.appendHere a asid va acc v ri who).2.iss = s.iss := by
  unfold State.appendHere; dsimp only; split
  · simp
  · split
    · simp
    · split
      · simp
      · split
        · simp
        · rename_i ri _
          have e := State.claim_iss ((s.queueHdr asid va acc).2.openedAt asid .write
            ((s.queueHdr asid va acc).1.slot (s.queueHdr asid va acc).1.wi.toNat)) a asid va acc (s.queueHdr asid va acc).1 ri
          split <;> rename_i h <;> rw [h] at e <;> simpa using e

@[simp] theorem State.append_iss (s : State) (a : Agent) (asid : BitVec 16) (va : Addr) (v : Row) (who : Option PortMsg) :
    (s.append a asid va v who).2.iss = s.iss := by
  let t := (s.openedAt asid .atomic (va.setWidth 64)).actFor (s.asidRank asid)
  have back {u : State} (h : u.iss = t.iss) : (u.actFor s.iss.acting).iss = s.iss :=
    State.actFor_back (v := s.asidRank asid) (h.trans (by simp [t, State.actFor]))
  unfold State.append; dsimp only; split
  · exact back rfl
  · split
    · exact back (t.appendFar_iss ..)
    · exact back (t.appendHere_iss ..)

/-- R391: a machine check delivered, whether or not its record finds a place in the queue. -/
@[simp] theorem State.raiseMc_iss (s : State) (m : McReport) : (s.raiseMc m).iss = s.iss := by
  unfold State.raiseMc
  extract_lets m s1
  have e1 : s1.iss = s.iss := by
    unfold s1; split <;> simp
  have e := (s1.append_iss .queueController 0 mcQueueVa (mcRecord m s.hub.gtime s.hub.mcLost) none).trans e1
  split <;> rename_i h <;> rw [h] at e
  · exact e
  · exact ((State.bumpModule_iss _ 2 false).trans (State.noteApp_iss _ _ _)).trans e

/-! ## Stores and atomics performed at their home or in the hub -/

@[simp] theorem State.setFreq_iss (s : State) (c : Nat) (v : Word) : (s.setFreq c v).iss = s.iss := by
  unfold State.setFreq; dsimp only; split <;> rfl

@[simp] theorem State.handoverEnd_iss (s : State) : s.handoverEnd.iss = s.iss := by
  unfold State.handoverEnd; split <;> rfl

@[simp] theorem State.handOver_iss (s : State) (c : Nat) (f : Bool) : (s.handOver c f).iss = s.iss := by
  unfold State.handOver; dsimp only; split
  · simp
  · rfl

@[simp] theorem State.hubStore_iss (s : State) (c o : Nat) (v : Word) : (s.hubStore c o v).iss = s.iss := by
  simp only [State.hubStore, apply_ite State.iss, State.handOver_iss, State.setRamp, State.announce, ite_self]

@[simp] theorem State.hubPut_iss (s : State) (a : Agent) (o : Nat) (v : Word) : (s.hubPut a o v).iss = s.iss := by
  simp only [State.hubPut, apply_ite State.iss, State.setFreq_iss, State.hubStore_iss, ite_self]

@[simp] theorem State.store_iss (s : State) (a : Agent) (acc : Acc) (v : Row) : (s.store a acc v).iss = s.iss := by
  unfold State.store; dsimp only; split
  · exact State.foldl_keeps State.iss _ (fun s j => s.hubPut_iss _ _ _) _ _
  · split <;> rfl

@[simp] theorem State.storeWord_iss (s : State) (a : Agent) (acc : Acc) (v : Word) : (s.storeWord a acc v).1.iss = s.iss := by
  unfold State.storeWord; dsimp only; split
  · simp
  · split <;> simp

@[simp] theorem State.atomic_iss (s : State) (a : Agent) (acc : Acc) (op : MemOp) (w32 : Bool) (x cmp : Nat) :
    (s.atomic a acc op w32 x cmp).2.2.iss = s.iss := by
  unfold State.atomic; dsimp only; split
  · split
    · rfl
    · split <;> simp
  · split <;> simp

@[simp] theorem State.performAs_iss (s : State) (p : Posted) : (s.performAs p).iss = s.iss := by
  unfold State.performAs; extract_lets acc; split
  · simp
  · split
    · split
      · exact s.raiseMc_iss _
      · exact s.storeWord_iss _ _ _
    · split
      · exact s.raiseMc_iss _
      · exact s.atomic_iss _ _ _ _ _ _

@[simp] theorem State.perform_iss (s : State) (p : Posted) : (s.perform p).iss = s.iss := by
  simp [State.perform]

/-! ## Ordered adds -/

@[simp] theorem State.orderedMc_iss (s : State) (stack : Nat) (v : BitVec 16) (va : Addr) (det : Nat) :
    (s.orderedMc stack v va det).iss = s.iss := s.raiseMc_iss _

@[simp] theorem State.touchSpill_iss (s : State) (v : BitVec 16) (i : Nat) : (s.touchSpill v i).iss = s.iss := by
  unfold State.touchSpill; dsimp only; split <;> simp

@[simp] theorem State.spillWrite_iss (s : State) (v : BitVec 16) (i : Nat) (ws : List Word) (used : Nat) :
    (s.spillWrite v i ws used).iss = s.iss := by
  simp [State.spillWrite]

@[simp] theorem State.unspill_iss (s : State) (v : BitVec 16) (i : Nat) : (s.unspill v i).iss = s.iss := by
  unfold State.unspill; split <;> simp

@[simp] theorem State.freeRecord_iss (s : State) (q : OrdSeq) (i : Nat) : (s.freeRecord q i).iss = s.iss := by
  unfold State.freeRecord; split
  · simp
  · split <;> simp

@[simp] theorem State.spillScan_iss (v : BitVec 16) (n i left : Nat) (s : State) :
    (State.spillScan v n i left s).2.iss = s.iss := by
  induction n generalizing i left s with
  | zero => rfl
  | succ n ih =>
    cases left with
    | zero => rfl
    | succ left => unfold State.spillScan; dsimp only; split <;> simp [ih]

@[simp] theorem State.reloadSeqs_iss (s : State) (v : BitVec 16) : (s.reloadSeqs v).iss = s.iss := by
  unfold State.reloadSeqs; dsimp only; split
  · simp
  · split
    · simp
    · refine (State.foldl_keeps State.iss _ (fun s e => ?_) _ _).trans (by simp)
      split <;> simp

theorem State.spill_iss {s u : State} {v : BitVec 16} {q : OrdSeq} {n i : Nat} {op : Word}
    (h : s.spill v q n op = some (i, u)) : u.iss = s.iss := by
  unfold State.spill State.spillPut at h
  split at h
  · cases h
  · split at h
    · cases h
    · obtain ⟨j, _, e⟩ := Option.map_eq_some_iff.1 h
      cases e
      simp

@[simp] theorem State.applyAdd_iss (s : State) (q : OrdSeq) (n : Nat) (op : Word) : (s.applyAdd q n op).iss = s.iss := by
  unfold State.applyAdd; extract_lets r; split
  · simp [State.dropAdd]
  · exact State.actFor_back (v := some q.vrank) (State.atomic_iss ..)

@[simp] theorem State.applyHeld_iss (s : State) (n : Nat) (q : OrdSeq) : (s.applyHeld n q).1.iss = s.iss := by
  induction n generalizing s q with
  | zero => rfl
  | succ n ih =>
    unfold State.applyHeld; split
    · rfl
    · dsimp only; rw [ih, State.applyAdd_iss]; split <;> simp

@[simp] theorem State.arriveAdd_iss (s : State) (x : OrdAdd) : (s.arriveAdd x).iss = s.iss := by
  unfold State.arriveAdd
  extract_lets t
  have e : t.iss = s.iss := by unfold t; split <;> simp
  split
  · simp [e]
  · split
    · exact e
    · split
      · split
        · rename_i r found
          exact (State.spill_iss found).trans e
        · exact e
      · split
        · exact (State.sendFlit_iss ..).trans e
        · exact (State.applyHeld_iss ..).trans e

/-! ## Loads of the issuing context (R141, R245) -/

@[simp] theorem State.performAll_iss (s : State) (need : Way → Bool) : (s.performAll need).iss = s.iss := by
  unfold State.performAll
  refine State.foldl_keeps State.iss _ (fun s x => ?_) _ _
  split <;> simp

theorem State.drain_iss {s u : State} {a : Agent} {hit : Way → Bool} {write : Bool} (h : s.drain a hit write = some u) :
    u.iss = s.iss := by
  unfold State.drain at h
  dsimp only at h
  split at h
  · cases h
  · cases h
    exact s.performAll_iss _

theorem State.ctxLoad_iss {s : State} {k : AccKind} {va : Word} {acc : Acc} {x : Row × Bool × State}
    (h : s.ctxLoad k va acc = .ok x) : x.2.2.iss = s.iss := by
  unfold State.ctxLoad at h
  split at h
  · split at h
    · cases h; rfl
    · cases h
  · cases h
    exact s.load_iss _ _ _

theorem State.loadAt_iss {s : State} {va : Word} {acc : Acc} {x : Row × Bool × State} (h : s.loadAt va acc = .ok x) :
    x.2.2.iss = s.iss := by
  unfold State.loadAt at h
  split at h
  · split at h
    · cases h
    · exact State.ctxLoad_iss h
  · split at h
    · cases h
    · rename_i s1 drained
      exact (State.ctxLoad_iss h).trans (State.drain_iss drained)

end Sys2Proof.Machine
end

section
/-! SUPPORT. Proof of the claim on reductions, and of the statement on steps and reductions: a bred on the state in which its
engine has read the parameter block. -/

namespace Sys2Proof.Machine

/-! ## The parameter block of a reduction (R338) -/

/-- The bits [47:6] of a word in their place name its row's address. -/
theorem rowAddress_eq (x : Word) : x &&& 0x0000FFFFFFFFFFC0 = BitVec.ofNat 64 (bitsOf x.toNat 6 42 * 64) := by
  have mask : (0x0000FFFFFFFFFFC0 : Word) = BitVec.ofNat 64 (2 ^ 42 - 1) <<< 6 := rfl
  apply BitVec.eq_of_getLsbD_eq
  intro i hi
  rw [mask, show bitsOf x.toNat 6 42 * 64 = x.toNat / 2 ^ 6 % 2 ^ 42 * 2 ^ 6 from rfl]
  simp only [BitVec.getLsbD_and, BitVec.getLsbD_shiftLeft, BitVec.getLsbD_ofNat, Nat.testBit_two_pow_sub_one,
    Nat.testBit_mul_two_pow, Nat.testBit_mod_two_pow, Nat.testBit_div_two_pow, BitVec.testBit_toNat]
  by_cases low : i < 6
  · have low' : ¬ 6 ≤ i := by omega
    simp [low, low']
  · have low' : 6 ≤ i := by omega
    simp only [hi, low, low', Nat.sub_add_cancel]
    by_cases high : i - 6 < 42
    · have h64 : i - 6 < 64 := by omega
      simp [high, h64]
    · simp [high]

theorem State.paramRow_iss {s : State} {a : Agent} {va : Word} {x : Row × State} (h : s.paramRow a va = .ok x) :
    x.2.iss = s.iss := by
  unfold State.paramRow at h
  split at h
  · cases h
  · cases h
  · rename_i acc _
    extract_lets read at h
    have read_eq : read = if s.isRemote acc then s.loadAt va acc
      else match s.drain s.agent (fun p => p.row == acc.row) false with
        | none => .error (.wait (.ordered acc.page false))
        | some s1 => .ok (s1.load a acc s1.iss.pick) := rfl
    clear_value read
    split at h
    · cases h
    · cases h
    · rename_i row bad s1
      split at h
      · cases h
      cases h
      split at read_eq
      · exact State.loadAt_iss read_eq.symm
      · split at read_eq
        · cases read_eq
        · rename_i s2 drained
          have iss := s2.load_iss a acc s2.iss.pick
          rw [← Except.ok.inj read_eq] at iss
          exact iss.trans (State.drain_iss drained)

/-! ## A bred whose block has been read (R212, R225, R338) -/

/-- The transfer of a bred, with the rows of its parameter block. -/
def State.redXfer (s : State) (n : Nat) (aq rl : Bool) (sc : Nat) (rows : List Row) : Xfer :=
  { fw := s.iss.fw, chan := n, ident := s.nextIdent n, kind := .bred, aq := aq, rl := rl, sc := sc, asid := s.cmdAsid,
    data := rows, born := s.me.cycle, vrank := s.rankOf s.agent }

/-- The block that the engine of a stack takes for a transfer. -/
def State.redBlock (s : State) (x : Xfer) (stack : Nat) (w : List Word) : RedBlock :=
  { stack := stack, core := s.iss.core, fw := s.iss.fw, chan := x.chan, ident := x.ident, asid := s.cmdAsid, words := w,
    rl := x.rl, sc := x.sc }

/-- The state in which a transfer has begun and its block waits behind those of its stack. -/
def State.takeBlock (s : State) (x : Xfer) (d : BitVec 6) (b : RedBlock) : State :=
  let s1 := (s.drawId x.chan d).startXfer s.iss.core x
  { s1 with mem := { s1.mem with red := s1.mem.red ++ [b] } }

section Bred
variable {s : State} {x : Xfer} {d : BitVec 6} {named va : Word} {w : List Word} {acc : Acc} {held : Held}
variable (found : s.dataAcc .read va 0 = .ok acc)
include found

theorem State.bredIssue_fullChannel (full : 256 ≤ (s.chanAt x.chan).outstanding) :
    s.bredIssue x d named va w = s.cmdFault 5 named := by
  simp [State.bredIssue, found, full]

theorem State.bredIssue_badBlock (room : (s.chanAt x.chan).outstanding < 256) (bad : redBad w = true) :
    s.bredIssue x d named va w = s.cmdFault 9 named := by
  simp [State.bredIssue, found, room, bad]

variable (room : (s.chanAt x.chan).outstanding < 256) (good : redBad w = false)
variable (probed : s.probeAll s.ctxAsid (redSpans w) [] = .ok held) (busy : s.quiescing s.cmdAsid = false)
include room good probed busy

theorem State.bredIssue_fullStack (full : 64 ≤ (s.mem.red.filter fun b => b.stack = s.mem.stackOf acc.pa).length) :
    s.bredIssue x d named va w = .wait (.reduction (s.mem.stackOf acc.pa)) := by
  simp [State.bredIssue, found, Nat.not_le.2 room, good, probed, busy, full]

theorem State.bredIssue_taken (free : ¬ 64 ≤ (s.mem.red.filter fun b => b.stack = s.mem.stackOf acc.pa).length) :
    s.bredIssue x d named va w =
      .ok (s.takeBlock { x with held := held } d (s.redBlock x (s.mem.stackOf acc.pa) w)) := by
  simp [State.bredIssue, found, Nat.not_le.2 room, good, probed, busy, free, State.takeBlock, State.redBlock]

end Bred

theorem State.takeBlock_red (s : State) (x : Xfer) (d : BitVec 6) (b : RedBlock) :
    (s.takeBlock x d b).mem.red = s.mem.red ++ [b] := by
  obtain ⟨l, h⟩ := (s.drawId x.chan d).startXfer_mem s.iss.core x
  simp only [State.takeBlock, h, State.drawId_mem]

theorem State.takeBlock_xfers (s : State) (x : Xfer) (d : BitVec 6) (b : RedBlock) :
    (s.takeBlock x d b).me.xfers = s.me.xfers ++ [x] :=
  (s.begun_startXfer x.chan d x).xfers

/-- The engine that a bred on a channel starts, as an agent. -/
def State.redAgent (s : State) (n : Nat) : Agent := .engine s.iss.core s.iss.fw n (s.nextIdent n)

/-- The state in which that engine reads the parameter block: with the context's view, or with aq what it acquires too. -/
def State.redView (s : State) (n : Nat) (q : BitVec 1) (sc : Nat) : State :=
  if q = 1 then (s.shareView s.agent (s.redAgent n)).snapshot (s.redAgent n) s.agent sc else s.shareView s.agent (s.redAgent n)

@[simp] theorem State.redView_iss (s : State) (n : Nat) (q : BitVec 1) (sc : Nat) : (s.redView n q sc).iss = s.iss := by
  unfold State.redView; split <;> rfl

/-- The address of the block that a register names. -/
def redAddress (x : Word) : Word := BitVec.ofNat 64 (bitsOf x.toNat 6 42 * 64)

theorem exec_bred_eq (s : State) (g c : BitVec 4) (a d : BitVec 6) (q r : BitVec 1) (sc : BitVec 4) :
    exec (.bred g c a d q r sc) s = issue g s
      (if s.chanOk c.toNat = false then s.illegal 3
       else Res.andThen ((s.redView c.toNat q sc.toNat).paramRow (s.redAgent c.toNat) (redAddress (s.readS a))) fun r0 =>
         Res.andThen (r0.2.paramRow (s.redAgent c.toNat) (redAddress (s.readS a) + 64)) fun r1 =>
           r1.2.bredIssue (s.redXfer c.toNat (q == 1) (r == 1) sc.toNat [r0.1, r1.1]) d (s.readS a) (redAddress (s.readS a))
             (rowWords r0.1 ++ rowWords r1.1)) := by
  rw [exec_bred, execBred, rowAddress_eq]
  rfl

theorem reductionCommand : Claims.ReductionCommand := by
  intro s g c a d q r sc hg n va i e s1
  refine ⟨fun bad => ?_, ?_⟩
  · rw [exec_bred_eq, if_pos bad]
    exact issue_trap g s _ _ hg
  intro acc r0 r1 ok read0 read1 found t w ch stack full
  let x := s.redXfer n (q == 1) (r == 1) sc.toNat [r0.1, r1.1]
  have run : exec i s = issue g s (t.bredIssue x d (s.readS a) va w) := by
    have ok : ¬ s.chanOk c.toNat = false := by simpa using ok
    have read0 : (s.redView n q sc.toNat).paramRow (s.redAgent n) (redAddress (s.readS a)) = .ok r0 := read0
    have read1 : r0.2.paramRow (s.redAgent n) (redAddress (s.readS a) + 64) = .ok r1 := read1
    rw [exec_bred_eq, if_neg ok, read0, Res.andThen_ok, read1, Res.andThen_ok]
    rfl
  have iss : t.iss = s.iss :=
    (State.paramRow_iss read1).trans ((State.paramRow_iss read0).trans (s.redView_iss n q sc.toNat))
  have trap (k : Nat) : t.trapOf 0x0A k (s.readS a) = s.trapOf 0x0A k (s.readS a) := by
    simp only [State.trapOf, iss]
  refine ⟨fun outstanding => ?_, fun room bad => ?_, fun held room good probed busy => ⟨fun isFull => ?_, fun notFull => ?_⟩⟩
  · rw [run, State.bredIssue_fullChannel (x := x) found outstanding, ← trap]
    exact issue_trap g s _ _ hg
  · rw [run, State.bredIssue_badBlock (x := x) found room bad, ← trap]
    exact issue_trap g s _ _ hg
  · rw [run, State.bredIssue_fullStack (x := x) found room good probed busy isFull]
    exact issue_wait g s _ hg
  · rw [State.bredIssue_taken (x := x) found room good probed busy notFull] at run
    refine ⟨_, _, _, run.trans (issue_ok g s _ hg), State.takeBlock_red _ _ _ _, State.takeBlock_xfers _ _ _ _, rfl,
      congrArg Issue.core iss, congrArg Issue.fw iss, rfl, rfl, rfl, rfl, rfl, rfl⟩

/-- Settles O27, claim by claim. -/
theorem stepsAndReductions : Obligations.StepsAndReductions := ⟨stepArrival, reductionCommand⟩

end Sys2Proof.Machine
end

section
/-! SUPPORT. Proof of the statement on scalar integers: the words that the X slot computes, as exact arithmetic on the natural
and signed readings of the operands gives them. -/

namespace Sys2Proof.Machine

/-! ## A scalar result (R116) -/

/-- Under a true guard a scalar instruction completes with its result, written in any form that the same word has. -/
theorem scalar_next {s : State} {g : BitVec 4} {d : BitVec 6} {L : Nat} {v w : Word} (h : s.readP g = true) (e : v = w) :
    scalar g d L v s = .next (s.issueS d w L) := by
  rw [← e]; exact issue_ok g s _ h

/-! ## Words as numbers (R117) -/

theorem ofNat_toNat_word (x : Word) : BitVec.ofNat 64 x.toNat = x := by simp

/-- Equal modulo 2^64 is the same word. -/
theorem ofNat_toNat_congr {x : Word} {n : Nat} (h : x.toNat = n % 2 ^ 64) : x = BitVec.ofNat 64 n :=
  BitVec.eq_of_toNat_eq (h.trans (BitVec.toNat_ofNat n 64).symm)

theorem add_exact (x y : Word) : x + y = BitVec.ofNat 64 (x.toNat + y.toNat) := ofNat_toNat_congr (BitVec.toNat_add x y)

theorem mul_exact (x y : Word) : x * y = BitVec.ofNat 64 (x.toNat * y.toNat) := ofNat_toNat_congr (BitVec.toNat_mul x y)

theorem sub_exact (x y : Word) : x - y = BitVec.ofInt 64 (x.toInt - y.toInt) :=
  BitVec.eq_of_toInt_eq (BitVec.toInt_sub.trans (BitVec.toInt_ofInt _).symm)

theorem and_exact (x y : Word) : x &&& y = BitVec.ofNat 64 (x.toNat &&& y.toNat) := by
  rw [← BitVec.toNat_and, ofNat_toNat_word]

theorem or_exact (x y : Word) : x ||| y = BitVec.ofNat 64 (x.toNat ||| y.toNat) := by
  rw [← BitVec.toNat_or, ofNat_toNat_word]

theorem xor_exact (x y : Word) : x ^^^ y = BitVec.ofNat 64 (x.toNat ^^^ y.toNat) := by
  rw [← BitVec.toNat_xor, ofNat_toNat_word]

theorem andn_exact (x y : Word) : x &&& ~~~y = BitVec.ofNat 64 (x.toNat &&& (2 ^ 64 - 1 - y.toNat)) := by
  rw [← BitVec.toNat_not, ← BitVec.toNat_and, ofNat_toNat_word]

/-! ### Shifts -/

theorem fieldPos_eq (y : Word) : fieldPos y = y.toNat % 64 := by simp [fieldPos, fld]

theorem shl_exact (x : Word) (k : Nat) : x <<< k = BitVec.ofNat 64 (x.toNat * 2 ^ k) :=
  ofNat_toNat_congr (by rw [BitVec.toNat_shiftLeft, Nat.shiftLeft_eq])

theorem shr_exact (x : Word) (k : Nat) : x >>> k = BitVec.ofNat 64 (x.toNat / 2 ^ k) := by
  rw [← Nat.shiftRight_eq_div_pow, ← BitVec.toNat_ushiftRight, ofNat_toNat_word]

theorem sar_exact (x : Word) (k : Nat) : x.sshiftRight k = BitVec.ofInt 64 (x.toInt / 2 ^ k) := by
  rw [show (2 : Int) ^ k = ((2 ^ k : Nat) : Int) by simp, ← Int.shiftRight_eq_div_pow, ← BitVec.toInt_sshiftRight,
    BitVec.ofInt_toInt]

/-- The bits shifted out on the right and those that come in on the left do not overlap. -/
theorem ror_exact (x : Word) {k : Nat} (h : k < 64) :
    x.rotateRight k = BitVec.ofNat 64 (x.toNat / 2 ^ k + x.toNat * 2 ^ (64 - k)) := by
  have apart : x >>> k &&& x <<< (64 - k) = 0#64 := by
    apply BitVec.eq_of_getLsbD_eq
    intro i hi
    by_cases left : i < 64 - k
    · simp [left]
    · have out : x.getLsbD (k + i) = false := BitVec.getLsbD_of_ge _ _ (by omega)
      simp [out]
  rw [BitVec.rotateRight_def, Nat.mod_eq_of_lt h, ← BitVec.add_eq_or_of_and_eq_zero _ _ apart, shr_exact, shl_exact,
    ← BitVec.ofNat_add]

/-! ### Minima and maxima -/

theorem min_signed (x y : Word) : (if x.toInt ≤ y.toInt then x else y) = BitVec.ofInt 64 (min x.toInt y.toInt) := by
  rw [min_def, apply_ite (BitVec.ofInt 64), BitVec.ofInt_toInt, BitVec.ofInt_toInt]

theorem max_signed (x y : Word) : (if x.toInt ≤ y.toInt then y else x) = BitVec.ofInt 64 (max x.toInt y.toInt) := by
  rw [max_def, apply_ite (BitVec.ofInt 64), BitVec.ofInt_toInt, BitVec.ofInt_toInt]

theorem min_natural (x y : Word) : (if x.toNat ≤ y.toNat then x else y) = BitVec.ofNat 64 (min x.toNat y.toNat) := by
  rw [min_def, apply_ite (BitVec.ofNat 64), ofNat_toNat_word, ofNat_toNat_word]

theorem max_natural (x y : Word) : (if x.toNat ≤ y.toNat then y else x) = BitVec.ofNat 64 (max x.toNat y.toNat) := by
  rw [max_def, apply_ite (BitVec.ofNat 64), ofNat_toNat_word, ofNat_toNat_word]

theorem scalarArithmetic : Claims.ScalarArithmetic := by
  intro s g d a b hg x y X Y k
  have pos : fieldPos (s.readS b) = k := fieldPos_eq _
  have low : k < 64 := Nat.mod_lt _ (by decide)
  refine ⟨?add, ?sub, ?and, ?or, ?xor, ?andn, ?shl, ?shr, ?sar, ?ror, ?mul, ?mulh, ?mulhn, ?min, ?max, ?minn, ?maxn⟩
  case add => exact scalar_next hg (add_exact _ _)
  case sub => exact scalar_next hg (sub_exact _ _)
  case and => exact scalar_next hg (and_exact _ _)
  case or => exact scalar_next hg (or_exact _ _)
  case xor => exact scalar_next hg (xor_exact _ _)
  case andn => exact scalar_next hg (andn_exact _ _)
  case shl => exact scalar_next hg (pos ▸ shl_exact _ _)
  case shr => exact scalar_next hg (pos ▸ shr_exact _ _)
  case sar => exact scalar_next hg (pos ▸ sar_exact _ _)
  case ror => exact scalar_next hg (pos ▸ ror_exact _ (pos.symm ▸ low))
  case mul => exact scalar_next hg (mul_exact _ _)
  case mulh => exact scalar_next hg rfl
  case mulhn => exact scalar_next hg rfl
  case min => exact scalar_next hg (min_signed _ _)
  case max => exact scalar_next hg (max_signed _ _)
  case minn => exact scalar_next hg (min_natural _ _)
  case maxn => exact scalar_next hg (max_natural _ _)

/-! ## Division (R118) -/

theorem toInt_eq_zero_iff (y : Word) : y.toInt = 0 ↔ y = 0 := by
  rw [← BitVec.toInt_inj, show BitVec.toInt 0 = 0 from BitVec.toInt_zero]

theorem toNat_eq_zero_iff (y : Word) : y.toNat = 0 ↔ y = 0 := by
  rw [← BitVec.toNat_inj]; rfl

/-- The one quotient that a word does not hold wraps to the least word. -/
theorem divValue_exact (x y : Word) : divValue x y = BitVec.ofInt 64
    (if y.toInt = 0 then -1 else if x.toInt = -2 ^ 63 ∧ y.toInt = -1 then -2 ^ 63 else x.toInt.tdiv y.toInt) := by
  by_cases zero : y = 0
  · subst zero; rfl
  · have nonzero : ¬ y.toInt = 0 := fun h => zero ((toInt_eq_zero_iff y).1 h)
    rw [divValue, if_neg zero, if_neg nonzero]
    split
    case isTrue h => rw [h.1, h.2]; rfl
    case isFalse h => rfl

theorem remValue_exact (x y : Word) : remValue x y = BitVec.ofInt 64
    (if y.toInt = 0 then x.toInt else if x.toInt = -2 ^ 63 ∧ y.toInt = -1 then 0
      else x.toInt - y.toInt * x.toInt.tdiv y.toInt) := by
  by_cases zero : y = 0
  · subst zero; exact (BitVec.ofInt_toInt).symm
  · have nonzero : ¬ y.toInt = 0 := fun h => zero ((toInt_eq_zero_iff y).1 h)
    rw [remValue, if_neg zero, if_neg nonzero]
    split
    case isTrue h => rw [h.1, h.2]; rfl
    case isFalse h => rw [Int.tmod_def]

theorem divnValue_exact (x y : Word) : divnValue x y =
    BitVec.ofNat 64 (if y.toNat = 0 then 2 ^ 64 - 1 else x.toNat / y.toNat) := by
  simp only [divnValue, ← toNat_eq_zero_iff, apply_ite (BitVec.ofNat 64)]
  rfl

theorem remnValue_exact (x y : Word) : remnValue x y =
    BitVec.ofNat 64 (if y.toNat = 0 then x.toNat else x.toNat - y.toNat * (x.toNat / y.toNat)) := by
  simp only [remnValue, ← toNat_eq_zero_iff, apply_ite (BitVec.ofNat 64), ofNat_toNat_word, Nat.mod_eq_sub]

theorem scalarDivision : Claims.ScalarDivision := fun _ _ _ _ _ hg =>
  ⟨scalar_next hg (divValue_exact _ _), scalar_next hg (remValue_exact _ _), scalar_next hg (divnValue_exact _ _),
    scalar_next hg (remnValue_exact _ _)⟩

/-- Settles O1: arithmetic and logic, then division. -/
theorem scalarIntegers : Obligations.ScalarIntegers := ⟨scalarArithmetic, scalarDivision⟩

end Sys2Proof.Machine
end

section
/-! SUPPORT. Proof of the statements on bit fields and on address generators: the bits of the words that the field and counting
instructions deliver, and what one generator written leaves of the context. -/

namespace Sys2Proof.Machine

/-! ## Fields (R119) -/

theorem fieldPos_eq_bitsOf (y : Word) : fieldPos y = bitsOf y.toNat 0 6 := fld_eq_bitsOf y 0 6

theorem fieldLen_eq_bitsOf (y : Word) : fieldLen y = bitsOf y.toNat 6 6 + 1 := congrArg (· + 1) (fld_eq_bitsOf y 6 6)

/-- R76: a sign extension is that of a bit vector of n bits. -/
theorem signNat_eq_toInt (x n : Nat) (h : 0 < n) : signNat x n = (BitVec.ofNat n x).toInt := by
  have half : 2 ^ n = 2 * 2 ^ (n - 1) := by rw [← Nat.pow_succ', Nat.succ_eq_add_one, Nat.sub_add_cancel h]
  have nonzero : n ≠ 0 := by omega
  have bound : x % 2 ^ n < 2 ^ (n - 1) ↔ 2 * (x % 2 ^ n) < 2 ^ n := by omega
  simp only [signNat, nonzero, if_false, BitVec.toInt_eq_toNat_cond, BitVec.toNat_ofNat, bound]

/-- Above its field a sign-extended value repeats the field's last bit. -/
theorem getLsbD_signNat (x n i : Nat) (h : 0 < n) (hi : i < 64) :
    (BitVec.ofInt 64 (signNat x n)).getLsbD i = x.testBit (min i (n - 1)) := by
  rw [signNat_eq_toInt x n h, show BitVec.ofInt 64 (BitVec.ofNat n x).toInt = (BitVec.ofNat n x).signExtend 64 from rfl,
    BitVec.getLsbD_signExtend, BitVec.msb_eq_getLsbD_last, BitVec.getLsbD_ofNat, BitVec.getLsbD_ofNat]
  by_cases inside : i < n
  · have : min i (n - 1) = i := by omega
    simp [hi, inside, this]
  · have : min i (n - 1) = n - 1 := by omega
    simp [hi, inside, this, h]

/-- A field of a word, by the bits of the word. -/
theorem testBit_field (x : Word) (pos i : Nat) : (x.toNat / 2 ^ pos).testBit i = x.getLsbD (pos + i) := by
  rw [Nat.testBit_div_two_pow, BitVec.testBit_toNat, Nat.add_comm]

theorem getLsbD_extract (x : Word) (pos len i : Nat) (hi : i < 64) :
    (BitVec.ofNat 64 (x.toNat / 2 ^ pos % 2 ^ len)).getLsbD i = (decide (i < len) && x.getLsbD (pos + i)) := by
  rw [BitVec.getLsbD_ofNat, Nat.testBit_mod_two_pow, testBit_field]
  simp [hi]

theorem getLsbD_insert (old x : Word) (pos len i : Nat) (hi : i < 64) :
    ((old &&& ~~~BitVec.ofNat 64 ((2 ^ len - 1) * 2 ^ pos)) ||| BitVec.ofNat 64 (x.toNat % 2 ^ len * 2 ^ pos)).getLsbD i =
      if pos ≤ i ∧ i < pos + len then x.getLsbD (i - pos) else old.getLsbD i := by
  simp only [BitVec.getLsbD_or, BitVec.getLsbD_and, BitVec.getLsbD_not, BitVec.getLsbD_ofNat, Nat.testBit_mul_two_pow,
    Nat.testBit_two_pow_sub_one, Nat.testBit_mod_two_pow, BitVec.testBit_toNat, hi, decide_true, Bool.true_and]
  by_cases low : pos ≤ i
  · by_cases high : i - pos < len
    · have inside : i < pos + len := by omega
      simp [low, high, inside]
    · have outside : ¬ i < pos + len := by omega
      simp [high, outside]
  · simp [low]

/-! ## Counts (R119) -/

theorem clzWord_spec (x : Word) : clzWord x ≤ 64 ∧ (∀ i, i < clzWord x → x.getLsbD (63 - i) = false) ∧
    (clzWord x < 64 → x.getLsbD (63 - clzWord x) = true) := by
  by_cases zero : x = 0
  · subst zero; exact ⟨by decide, fun i _ => BitVec.getLsbD_zero, fun h => absurd h (by decide)⟩
  · have nonzero : x.toNat ≠ 0 := fun h => zero (BitVec.eq_of_toNat_eq h)
    have top : x.toNat.log2 < 64 := (Nat.log2_lt nonzero).2 x.isLt
    have first : clzWord x = 63 - x.toNat.log2 := if_neg zero
    refine ⟨by omega, fun i hi => ?above, fun _ => ?here⟩
    case above =>
      have beyond : x.toNat < 2 ^ (63 - i) := (Nat.log2_lt nonzero).1 (by omega)
      exact Nat.testBit_lt_two_pow beyond
    case here =>
      rw [first, show 63 - (63 - x.toNat.log2) = x.toNat.log2 by omega]
      exact Nat.testBit_log2 nonzero

theorem ctzWord_spec (x : Word) : ctzWord x ≤ 64 ∧ (∀ i, i < ctzWord x → x.getLsbD i = false) ∧
    (ctzWord x < 64 → x.getLsbD (ctzWord x) = true) := by
  unfold ctzWord
  cases found : (List.range 64).find? fun i => x.getLsbD i with
  | none =>
    have all := List.find?_range_eq_none.1 found
    exact ⟨le_rfl, fun i hi => by simpa using all i hi, fun h => absurd h (lt_irrefl 64)⟩
  | some n =>
    obtain ⟨bit, low, below⟩ := List.find?_range_eq_some.1 found
    exact ⟨(List.mem_range.1 low).le, fun i hi => by simpa using below i hi, fun _ => bit⟩

/-- Settles O2, instruction by instruction. -/
theorem scalarBitFields : Obligations.ScalarBitFields := by
  intro s g d a b hg x pos len
  have hpos : fieldPos (s.readS b) = pos := fieldPos_eq_bitsOf _
  have hlen : fieldLen (s.readS b) = len := fieldLen_eq_bitsOf _
  refine ⟨⟨_, scalar_next hg rfl, fun i hi => ?ext⟩, ⟨_, scalar_next hg rfl, fun i hi => ?extn⟩,
    ⟨_, scalar_next hg rfl, fun i hi => ?ins⟩, ⟨_, scalar_next hg rfl, clzWord_spec x⟩, ⟨_, scalar_next hg rfl, ctzWord_spec x⟩,
    scalar_next hg (congrArg _ List.countP_eq_length_filter)⟩
  case ext => rw [hpos, hlen, getLsbD_signNat _ _ _ (Nat.succ_pos _) hi, testBit_field]
  case extn => rw [hpos, hlen]; exact getLsbD_extract x pos len i hi
  case ins => rw [hpos, hlen]; exact getLsbD_insert _ x pos len i hi

/-! ## Address generators (R125) -/

/-- A generator written: the context's other registers and every other generator stand. -/
theorem exec_setAg {s : State} {g : BitVec 4} {n : Nat} {x : AddrGen} (h : s.readP g = true) :
    ∃ t, issue g s (.ok (s.setAg n x)) = .next t ∧ OnlyCore s.iss.core s t ∧ t.ctx = { s.ctx with ags := t.ctx.ags } ∧
      Tab.get {} t.ctx.ags n = x ∧ ∀ i, i ≠ n → Tab.get {} t.ctx.ags i = Tab.get {} s.ctx.ags i := by
  have ctx : (s.setAg n x).ctx = { s.ctx with ags := Tab.put s.ctx.ags n x } := s.ctx_setCtx _
  refine ⟨_, issue_ok g s _ h, s.onlyCore_setMe _, ?_, ?_, fun i hi => ?_⟩ <;> rw [ctx]
  · exact Tab.get_put_self _ _ _ _
  · exact Tab.get_put_ne _ _ _ _ _ hi

/-- Settles O4: a base, a stride, and the read of a generator. -/
theorem addressGenerators : Obligations.AddressGenerators := by
  intro s g n a hg old
  refine ⟨exec_setAg hg, fun k => ?_, fun d => scalar_next hg rfl⟩
  obtain ⟨t, run, core, ctx, here, others⟩ := exec_setAg (s := s) (n := n.toNat)
    (x := { old n.toNat with strides := Tab.set 0 (old n.toNat).strides k.toNat (s.readS a) }) hg
  refine ⟨t, run, core, ctx, ?_, ?_, fun j hj => ?_, others⟩ <;> rw [here]
  · exact (Tab.get_set ..).trans (if_pos rfl)
  · exact (Tab.get_set ..).trans (if_neg hj)

end Sys2Proof.Machine
end

section
/-! SUPPORT. Proof of the statement on the words of the worked example. -/

namespace Sys2Proof.Machine

/-- Settles O56: each word read by the decoder, field by field. -/
theorem exampleWords : Obligations.ExampleWords :=
  ⟨by decide, by decide, by decide, by decide, by decide, by decide, by decide, by decide, by decide⟩

end Sys2Proof.Machine
end

section
/-! SUPPORT. Proof of the statement on loops: what a setup, a break and a taken transfer leave of the levels, and the boundary's
examination from the innermost level outwards. -/

namespace Sys2Proof.Machine

/-! ## Tables changed entry by entry -/

/-- A change of every value by its key, which leaves the default, is seen by every read. -/
theorem Tab.get_map_values {α : Type} (d : α) (f : Nat → α → α) (hd : ∀ i, f i d = d) (t : Tab α) (i : Nat) :
    Tab.get d (t.map fun e => (e.1, f e.1 e.2)) i = f i (Tab.get d t i) := by
  induction t with
  | nil => exact (hd i).symm
  | cons e t ih =>
    obtain ⟨k, v⟩ := e
    by_cases h : i = k
    · subst h; simp [Tab.get]
    · simp [Tab.get, h, ih]

/-! ## Levels left (R104, R106) -/

/-- A level once the bundle b has been left: inactive where it ends there. -/
def LoopLevel.leave (b : Addr) (l : LoopLevel) : LoopLevel := { l with act := l.act && l.fin != b }

theorem get_leaveLevels (b : Addr) (t : Tab LoopLevel) (i : Nat) :
    Tab.get {} (leaveLevels b t) i = (Tab.get {} t i : LoopLevel).leave b := by
  have same : leaveLevels b t = t.map fun e => (e.1, e.2.leave b) := by
    refine List.map_congr_left fun e _ => ?_
    obtain ⟨k, act, count, start, fin⟩ := e
    cases act <;> by_cases h : fin = b <;> simp [LoopLevel.leave, h]
  rw [same]
  exact Tab.get_map_values {} (fun _ l => l.leave b) (fun _ => rfl) t i

/-- A level once the levels from k on have been left. -/
def LoopLevel.break_ (k i : Nat) (l : LoopLevel) : LoopLevel := { l with act := l.act && decide (i < k) }

theorem get_breakLevels (k : Nat) (t : Tab LoopLevel) (i : Nat) :
    Tab.get {} (breakLevels k t) i = (Tab.get {} t i : LoopLevel).break_ k i := by
  have same : breakLevels k t = t.map fun e => (e.1, e.2.break_ k e.1) := by
    refine List.map_congr_left fun e _ => ?_
    obtain ⟨j, act, count, start, fin⟩ := e
    by_cases h : k ≤ j
    · simp [LoopLevel.break_, h, Nat.not_lt.2 h]
    · simp [LoopLevel.break_, h, Nat.lt_of_not_le h]
  rw [same]
  exact Tab.get_map_values {} (fun i l => l.break_ k i) (fun _ => rfl) t i

/-- R97, R106: a taken transfer moves the pc, and leaves the levels that end at its bundle. -/
theorem State.transfer_ctx (s : State) (a : Addr) : (s.transfer a).ctx =
    { s.ctx with pc := alignPc a, jumped := true, looped := false, loops := leaveLevels s.iss.pc s.ctx.loops } :=
  s.ctx_setCtx _

/-! ## Setup (R100, R101) -/

/-- The level that a setup writes. -/
def State.loopLevel (s : State) (n : Word) (e : Nat) : LoopLevel :=
  { act := n != 0, count := n, start := s.iss.pc + 32, fin := s.iss.pc + BitVec.ofNat 48 (32 * e) }

/-- What a setup of level k writes, as the statement says it. -/
def State.LoopWritten (s : State) (k : Nat) (t : State) (n : Word) (e : Nat) : Prop :=
  let l : LoopLevel := Tab.get {} t.ctx.loops k
  l.count = n ∧ l.start = s.iss.pc + 32 ∧ l.fin = s.iss.pc + BitVec.ofNat 48 (32 * e) ∧
  t.ctx.ags = s.ctx.ags ∧
  (n ≠ 0 → l.act = true ∧ t.ctx.pc = s.ctx.pc ∧ t.iss = s.iss ∧
    ∀ j, j ≠ k → Tab.get {} t.ctx.loops j = Tab.get {} s.ctx.loops j) ∧
  (n = 0 → l.act = false ∧ t.iss.xfer = true ∧ t.ctx.pc = alignPc (s.iss.pc + BitVec.ofNat 48 (32 * e) + 32))

theorem State.setLoop_written (s : State) (k : Nat) (n : Word) (e : Nat) : s.LoopWritten k (s.setLoop k n e) n e := by
  let s1 := s.setCtx { s.ctx with loops := Tab.put s.ctx.loops k (s.loopLevel n e) }
  have ctx1 : s1.ctx = { s.ctx with loops := Tab.put s.ctx.loops k (s.loopLevel n e) } := s.ctx_setCtx _
  by_cases zero : n = 0
  · have eq : s.setLoop k n e = s1.transfer (s.iss.pc + BitVec.ofNat 48 (32 * e) + 32) := if_pos zero
    have ctx := s1.transfer_ctx (s.iss.pc + BitVec.ofNat 48 (32 * e) + 32)
    have level : Tab.get {} (s1.transfer (s.iss.pc + BitVec.ofNat 48 (32 * e) + 32)).ctx.loops k =
        (s.loopLevel n e).leave s.iss.pc := by
      rw [ctx, ctx1, get_leaveLevels, Tab.get_put_self]; rfl
    rw [eq]
    simp only [State.LoopWritten, level]
    refine ⟨rfl, rfl, rfl, by rw [ctx, ctx1], fun h => absurd zero h, fun _ => ⟨?_, rfl, by rw [ctx]⟩⟩
    simp [LoopLevel.leave, State.loopLevel, zero]
  · have eq : s.setLoop k n e = s1 := if_neg zero
    have level : Tab.get {} s1.ctx.loops k = s.loopLevel n e := by rw [ctx1, Tab.get_put_self]
    rw [eq]
    simp only [State.LoopWritten, level]
    refine ⟨rfl, rfl, rfl, by rw [ctx1], fun _ => ⟨bne_iff_ne.2 zero, by rw [ctx1], rfl, fun j hj => ?_⟩,
      fun h => absurd h zero⟩
    rw [ctx1, Tab.get_put_ne _ _ _ _ _ hj]

theorem loopSetup : Claims.LoopSetup := by
  intro s g k hg _
  refine ⟨fun a e => ⟨_, issue_ok g s _ hg, s.setLoop_written k.toNat _ _⟩, fun n e => ⟨_, issue_ok g s _ hg, ?_⟩⟩
  rw [show BitVec.ofNat 64 n.toNat = n.setWidth 64 from BitVec.ofNat_toNat 64 n]
  exact s.setLoop_written k.toNat _ _

/-! ## Break (R104) -/

theorem loopBreak : Claims.LoopBreak := by
  intro s g k hg l
  refine ⟨fun inactive => ?_, fun active => ?_⟩
  · rw [exec_lbrk, execLbrk, if_neg (by rw [show (Tab.get {} s.ctx.loops k.toNat : LoopLevel).act = false from inactive]; decide)]
    exact issue_ok g s _ hg
  let s1 := s.setCtx { s.ctx with loops := breakLevels k.toNat s.ctx.loops }
  have ctx1 : s1.ctx = { s.ctx with loops := breakLevels k.toNat s.ctx.loops } := s.ctx_setCtx _
  have ctx := s1.transfer_ctx (l.fin + 32)
  have level (j : Nat) : Tab.get {} (s1.transfer (l.fin + 32)).ctx.loops j =
      ((Tab.get {} s.ctx.loops j : LoopLevel).break_ k.toNat j).leave s.iss.pc := by
    rw [ctx, ctx1, get_leaveLevels, get_breakLevels]; rfl
  refine ⟨s1.transfer (l.fin + 32), ?_, rfl, by rw [ctx], by rw [ctx, ctx1], fun j => ?_⟩
  · rw [exec_lbrk, execLbrk, if_pos active]
    exact issue_ok g s _ hg
  rw [level]
  refine ⟨rfl, fun above => ?_, fun below => ?_⟩
  · simp [LoopLevel.leave, LoopLevel.break_, Nat.not_lt.2 above]
  · simp [LoopLevel.leave, LoopLevel.break_, below]

/-! ## The boundary (R102) -/

/-- Whether a level ends with the bundle b. -/
def LoopLevel.EndsAt (b : Addr) (l : LoopLevel) : Prop := l.act = true ∧ l.fin = b

/-- A level in its last iteration, once its end has been examined. -/
def LoopLevel.spent (l : LoopLevel) : LoopLevel := { l with count := 0, act := false }

/-- The context in which the levels of a list have been examined, each in its last iteration or elsewhere: those that end at
the bundle are spent, and nothing else has changed. -/
structure Ctx.Spent (b : Addr) (l : List Nat) (c d : Ctx) : Prop where
  rest : d = { c with loops := d.loops }
  ended : ∀ j ∈ l, (Tab.get {} c.loops j : LoopLevel).EndsAt b →
    Tab.get {} d.loops j = (Tab.get {} c.loops j : LoopLevel).spent
  other : ∀ j, (j ∈ l → ¬ (Tab.get {} c.loops j : LoopLevel).EndsAt b) → Tab.get {} d.loops j = (Tab.get {} c.loops j : LoopLevel)

/-- R102: the examination goes on past levels that end elsewhere or with their last iteration. -/
theorem loopScan_spent (b : Addr) (l l' : List Nat) (c : Ctx) (nodup : l.Nodup)
    (last : ∀ j ∈ l, (Tab.get {} c.loops j : LoopLevel).EndsAt b → (Tab.get {} c.loops j : LoopLevel).count = 1) :
    ∃ d, c.Spent b l d ∧ loopScan b (l ++ l') c = loopScan b l' d := by
  induction l generalizing c with
  | nil => exact ⟨c, ⟨rfl, nofun, fun _ _ => rfl⟩, rfl⟩
  | cons k t ih =>
    obtain ⟨fresh, nodup⟩ := List.nodup_cons.1 nodup
    by_cases ends : (Tab.get {} c.loops k : LoopLevel).EndsAt b
    case pos =>
      let c1 : Ctx := { c with loops := Tab.put c.loops k (Tab.get {} c.loops k : LoopLevel).spent }
      have here : Tab.get {} c1.loops k = (Tab.get {} c.loops k : LoopLevel).spent := Tab.get_put_self _ _ _ _
      have elsewhere (j : Nat) (h : j ≠ k) : Tab.get {} c1.loops j = (Tab.get {} c.loops j : LoopLevel) :=
        Tab.get_put_ne _ _ _ _ _ h
      have apart (j : Nat) (h : j ∈ t) : j ≠ k := fun e => fresh (e ▸ h)
      obtain ⟨d, spent, scan⟩ := ih c1 nodup fun j hj => by
        rw [elsewhere j (apart j hj)]; exact last j (List.mem_cons_of_mem _ hj)
      have one : (Tab.get {} c.loops k : LoopLevel).count = 1 := last k List.mem_cons_self ends
      have step : loopScan b (k :: (t ++ l')) c = loopScan b (t ++ l') c1 := by
        simp only [loopScan, if_pos (show _ ∧ _ from ends), one]
        rfl
      refine ⟨d, ⟨spent.rest, fun j hj endsj => ?_, fun j hj => ?_⟩, step.trans scan⟩
      · rcases List.mem_cons.1 hj with rfl | hj
        · exact (spent.other j fun h => absurd h fresh).trans here
        · have e := elsewhere j (apart j hj)
          exact (spent.ended j hj (e ▸ endsj)).trans (congrArg LoopLevel.spent e)
      · by_cases h : j = k
        · subst h; exact absurd ends (hj List.mem_cons_self)
        · have e := elsewhere j h
          exact (spent.other j fun ht => e ▸ hj (List.mem_cons_of_mem _ ht)).trans e
    case neg =>
      obtain ⟨d, spent, scan⟩ := ih c nodup fun j hj => last j (List.mem_cons_of_mem _ hj)
      have step : loopScan b (k :: (t ++ l')) c = loopScan b (t ++ l') c := by
        simp only [loopScan, if_neg (show ¬ (_ ∧ _) from ends)]
      refine ⟨d, ⟨spent.rest, fun j hj endsj => ?_, fun j hj => ?_⟩, step.trans scan⟩
      · rcases List.mem_cons.1 hj with rfl | hj
        · exact absurd endsj ends
        · exact spent.ended j hj endsj
      · exact spent.other j fun ht => hj (List.mem_cons_of_mem _ ht)

/-- A level that ends here with more than its last iteration goes back. -/
theorem loopScan_back (b : Addr) (k : Nat) (l : List Nat) (c : Ctx) (ends : (Tab.get {} c.loops k : LoopLevel).EndsAt b)
    (more : (Tab.get {} c.loops k : LoopLevel).count ≠ 1) :
    loopScan b (k :: l) c =
      ({ c with loops := Tab.put c.loops k { (Tab.get {} c.loops k : LoopLevel) with
                  count := (Tab.get {} c.loops k : LoopLevel).count - 1 },
                ags := strideAll k c.ags, pc := (Tab.get {} c.loops k : LoopLevel).start, jumped := true, looped := true },
        true) := by
  have left : (Tab.get {} c.loops k : LoopLevel).count - 1 ≠ 0 := fun h => more (sub_eq_zero.1 h)
  simp only [loopScan, if_pos (show _ ∧ _ from ends), if_pos left]

/-- The levels inside level k, innermost first, and those outside it. -/
def innerLevels (k : Nat) : List Nat := [5, 4, 3, 2, 1, 0].takeWhile fun j => decide (k < j)

def outerLevels (k : Nat) : List Nat := [5, 4, 3, 2, 1, 0].dropWhile fun j => decide (k ≤ j)

theorem levels_split : ∀ k < 6, [5, 4, 3, 2, 1, 0] = innerLevels k ++ k :: outerLevels k ∧ (innerLevels k).Nodup ∧
    (∀ j ∈ innerLevels k, k < j ∧ j < 6) ∧ ∀ j < 6, k < j → j ∈ innerLevels k := by decide

theorem mem_levels : ∀ j < 6, j ∈ [5, 4, 3, 2, 1, 0] := by decide

theorem levels_lt : ∀ j ∈ [5, 4, 3, 2, 1, 0], j < 6 := by decide

/-- A boundary that is due is examined, and concerns its core alone. -/
theorem State.loopBoundary_due (s : State) (c : Nat) (fw : Bool) (b : Addr) (due : ((s.core c).ctx fw).boundary = some b) :
    ∃ t, exec (.loopBoundary c fw) s = .next t ∧ OnlyCore c s t ∧
      (t.core c).ctx fw = { ((s.core c).ctx fw).boundaryAt b with boundary := none } := by
  refine ⟨s.setCore c ((s.core c).setCtx fw { ((s.core c).ctx fw).boundaryAt b with boundary := none }), ?_,
    ⟨rfl, fun d h => s.core_setCore_ne c d _ h⟩, by simp⟩
  rw [exec_loopBoundary, execLoopBoundary, State.boundaryOf, due]

theorem loopBoundary : Claims.LoopBoundary := by
  intro s c fw b due x level
  obtain ⟨t, run, core, ctx⟩ := s.loopBoundary_due c fw b due
  refine ⟨fun elsewhere => ⟨t, run, core, ?_⟩, ?_⟩
  · rw [ctx, Ctx.boundaryAt_plain _ _ fun j hj ends => elsewhere j hj ends.1 ends.2]
  intro ends spent
  refine ⟨fun last => ⟨t, run, core, ?last⟩, fun k hk endsk more inner => ⟨t, run, core, ?back⟩⟩
  case last =>
    obtain ⟨d, sp, scan⟩ := loopScan_spent b [5, 4, 3, 2, 1, 0] [] x (by decide) fun j hj => last j (levels_lt j hj)
    have at_ : x.boundaryAt b = { d with pc := b + 32, jumped := false, looped := false } := by
      rw [Ctx.boundaryAt, show loopScan b [5, 4, 3, 2, 1, 0] x = (d, false) from scan]; rfl
    rw [ctx, at_]
    refine ⟨rfl, by rw [sp.rest], rfl, fun j hj => ⟨fun e => ?_, fun e => ?_⟩⟩ <;> rw [ctx, at_]
    · exact sp.ended j (mem_levels j hj) e
    · exact sp.other j fun _ => e
  case back =>
    obtain ⟨split, nodup, bounds, complete⟩ := levels_split k hk
    obtain ⟨d, sp, scan⟩ := loopScan_spent b (innerLevels k) (k :: outerLevels k) x nodup fun j hj =>
      inner j (bounds j hj).1 (bounds j hj).2
    have self : Tab.get {} d.loops k = level k := sp.other k fun h => absurd (bounds k h).1 (lt_irrefl k)
    have back := loopScan_back b k (outerLevels k) d (self ▸ endsk) (self ▸ more)
    rw [self] at back
    have at_ : x.boundaryAt b = { d with
        loops := Tab.put d.loops k { level k with count := (level k).count - 1 }, ags := strideAll k d.ags,
        pc := (level k).start, jumped := true, looped := true } := by
      rw [Ctx.boundaryAt, split, scan, back]; rfl
    have other (j : Nat) (h : j ≠ k) : Tab.get {} (Tab.put d.loops k { level k with count := (level k).count - 1 }) j =
        Tab.get {} d.loops j := Tab.get_put_ne _ _ _ _ _ h
    rw [ctx, at_]
    refine ⟨rfl, Tab.get_put_self _ _ _ _, fun j hj => ?_, fun j above hj => ⟨fun e => ?_, fun e => ?_⟩, ?_⟩
    · have outside : j ∉ innerLevels k := fun h => by have := bounds j h; omega
      exact (other j (by omega)).trans (sp.other j fun h => absurd h outside)
    · rw [ctx, at_]; exact (other j (by omega)).trans (sp.ended j (complete j hj above) e)
    · rw [ctx, at_]; exact (other j (by omega)).trans (sp.other j fun _ => e)
    · show strideAll k d.ags = _
      rw [sp.rest]; rfl

/-- Settles O8: setup, break and boundary. -/
theorem loops : Obligations.Loops := ⟨loopSetup, loopBreak, loopBoundary⟩

end Sys2Proof.Machine
end

section
/-! SUPPORT. What leaves the cores as they are: the hub's accesses, its flits, appends and rewrites; and what leaves the strand
that a core holds, which are these, machine checks and the landing of results. -/

namespace Sys2Proof.Machine

/-! ## What leaves the cores: the hub's accesses and flits -/

@[simp] theorem State.opened_cores (s : State) (pa : Nat) : (s.opened pa).cores = s.cores := rfl
@[simp] theorem State.noteError_cores (s : State) (asid pa : Nat) : (s.noteError asid pa).cores = s.cores := rfl
@[simp] theorem State.actFor_cores (s : State) (v : Option (BitVec 16)) : (s.actFor v).cores = s.cores := rfl
@[simp] theorem State.publish_cores (s : State) (a b : Agent) (sc : Nat) : (s.publish a b sc).cores = s.cores := rfl
@[simp] theorem State.writeHome_cores (s : State) (a : Agent) (c : Bool) (r : Nat) (v : Row) :
    (s.writeHome a c r v).cores = s.cores := rfl
@[simp] theorem State.flushPubs_cores (s : State) (a : Agent) : (s.flushPubs a).cores = s.cores := rfl
@[simp] theorem State.bumpModule_cores (s : State) (w : Nat) (high : Bool) : (s.bumpModule w high).cores = s.cores := by
  simp only [State.bumpModule, State.bump]
@[simp] theorem State.onLink_cores (s : State) (p : Nat) (f : Flit) : (s.onLink p f).cores = s.cores := rfl
@[simp] theorem State.setRoute_cores (s : State) (r : Route) : (s.setRoute r).cores = s.cores := rfl
@[simp] theorem State.forgetHub_cores (s : State) (keys : List Nat) : (s.forgetHub keys).cores = s.cores := rfl
@[simp] theorem State.dropAnswers_cores (s : State) (l : List (BitVec 16 × Word)) : (s.dropAnswers l).cores = s.cores := rfl

@[simp] theorem State.load_cores (s : State) (a : Agent) (acc : Acc) (n : Nat) : (s.load a acc n).2.2.cores = s.cores := by
  unfold State.load; dsimp only; split
  · rfl
  · split <;> rfl

@[simp] theorem State.put_cores (s : State) (a : Agent) (acc : Acc) (v : Row) : (s.put a acc v).cores = s.cores := by
  unfold State.put; split <;> rfl

@[simp] theorem State.putPart_cores (s : State) (a : Agent) (acc : Acc) (v : Row) : (s.putPart a acc v).cores = s.cores := by
  unfold State.putPart; split
  · rfl
  · simp

@[simp] theorem State.routeFlit_cores (s : State) (dst cls : Nat) (f : Flit) : (s.routeFlit dst cls f).cores = s.cores := by
  unfold State.routeFlit; dsimp only; split
  · simp
  · split
    · rfl
    · split <;> simp

@[simp] theorem State.sendFlit_cores (s : State) (dst cls : Nat) (f : Flit) : (s.sendFlit dst cls f).cores = s.cores := by
  unfold State.sendFlit; split
  · split
    · rfl
    · simp
  · simp

@[simp] theorem State.askHub_cores (s : State) (acc : Acc) : (s.askHub acc).cores = s.cores := by
  unfold State.askHub; split <;> simp

@[simp] theorem State.askHubOnce_cores (s : State) (acc : Acc) (f : Flit) : (s.askHubOnce acc f).cores = s.cores := by
  unfold State.askHubOnce; dsimp only; split <;> simp

@[simp] theorem State.openWalk_cores (s : State) (k : AccKind) (asid : BitVec 16) (va : Word) (n : Nat) :
    (s.openWalk k asid va n).cores = s.cores := by
  induction n generalizing s with
  | zero => rfl
  | succ n ih =>
    unfold State.openWalk; split
    · rw [ih]; rfl
    · rfl

@[simp] theorem State.openedAt_cores (s : State) (asid : BitVec 16) (k : AccKind) (va : Word) :
    (s.openedAt asid k va).cores = s.cores := by
  unfold State.openedAt; dsimp only; split
  · split <;> simp
  · simp

@[simp] theorem State.touch_cores (s : State) (asid : BitVec 16) (va : Word) : (s.touch asid va).cores = s.cores := by
  unfold State.touch State.touchAs; dsimp only; split
  · split <;> simp
  · simp
  · simp

/-- R322: reading rows concerns no core, and leaves the issue frame. -/
@[simp] theorem State.rowsRead_cores (s : State) (l : List (BitVec 16 × Word)) : (s.rowsRead l).cores = s.cores :=
  State.foldl_keeps State.cores (fun s (e : BitVec 16 × Word) => s.touch e.1 e.2) (fun s e => s.touch_cores e.1 e.2) l s

@[simp] theorem State.rowsRead_iss (s : State) (l : List (BitVec 16 × Word)) : (s.rowsRead l).iss = s.iss :=
  State.foldl_keeps State.iss (fun s (e : BitVec 16 × Word) => s.touch e.1 e.2) (fun s e => s.touch_iss e.1 e.2) l s

@[simp] theorem State.rewriteFar_cores (s : State) (acc : Acc) (old new : Row) :
    (s.rewriteFar acc old new).cores = s.cores := by
  unfold State.rewriteFar; dsimp only; split
  · simp
  · refine State.foldl_keeps State.cores _ (fun s j => ?_) _ _
    split <;> simp

@[simp] theorem State.rewriteAs_cores (s : State) (a : Agent) (v : Option (BitVec 16)) (asid : BitVec 16) (va : Addr)
    (f : Row → Row) : (s.rewriteAs a v asid va f).cores = s.cores := by
  unfold State.rewriteAs; split
  · split
    · split <;> simp [State.serving]
    · simp [State.serving]
  · rfl
  · rfl

/-- R230, R287: neither does a row that the hub rewrites. -/
@[simp] theorem State.hubRewrite_cores (s : State) (asid : BitVec 16) (va : Addr) (f : Row → Row) :
    (s.hubRewrite asid va f).cores = s.cores := by
  unfold State.hubRewrite; split <;> simp

/-! ## Appends -/

@[simp] theorem State.noteApp_cores (s : State) (asid : BitVec 16) (e : App) : (s.noteApp asid e).cores = s.cores := by
  unfold State.noteApp; split <;> rfl

@[simp] theorem State.headerOf_cores (s : State) (node : Nat) (asid : BitVec 16) (va : Addr) (row : Row) :
    (s.headerOf node asid va row).2.cores = s.cores := by
  unfold State.headerOf; dsimp only; split
  · rfl
  · split <;> rfl

@[simp] theorem State.queueHdr_cores (s : State) (asid : BitVec 16) (va : Addr) (acc : Acc) :
    (s.queueHdr asid va acc).2.cores = s.cores := by
  simp [State.queueHdr]

@[simp] theorem State.putSlot_cores (s : State) (a : Agent) (slot : Acc) (v : Row) :
    (s.putSlot a slot v).cores = s.cores := by
  unfold State.putSlot; split <;> simp [State.remoteRow]

@[simp] theorem State.owesMirror_cores (s : State) (asid : BitVec 16) (va : Addr) (row : Nat) (h : QHdr) (i : Nat)
    (who : Option PortMsg) : (s.owesMirror asid va row h i who).cores = s.cores := by
  unfold State.owesMirror; split <;> rfl

@[simp] theorem State.sendMirror_cores (s : State) (e : Mirror) (h : QHdr) (v : Row) :
    (s.sendMirror e h v).cores = s.cores := by
  unfold State.sendMirror; split <;> simp

@[simp] theorem State.mirror_cores (s : State) (asid : BitVec 16) (va : Addr) (row : Nat) (h : QHdr) (i : Nat) (v : Row)
    (who : Option PortMsg) : (s.mirror asid va row h i v who).cores = s.cores := by
  unfold State.mirror; dsimp only; split <;> simp

@[simp] theorem State.noteFirst_cores (s : State) (asid : BitVec 16) (va own : Addr) :
    (s.noteFirst asid va own).cores = s.cores := by
  unfold State.noteFirst; split <;> rfl

@[simp] theorem State.claim_cores (s : State) (a : Agent) (asid : BitVec 16) (va : Addr) (acc : Acc) (h : QHdr) (ri : Word) :
    (s.claim a asid va acc h ri).2.cores = s.cores := by
  unfold State.claim; split <;> simp

@[simp] theorem State.appendFar_cores (s : State) (a : Agent) (asid : BitVec 16) (va : Addr) (acc : Acc) (v : Row) :
    (s.appendFar a asid va acc v).2.cores = s.cores := by
  unfold State.appendFar; dsimp only; split
  · simp
  · split
    · simp
    · split
      · simp
      · split
        · simp
        · split
          · simp
          · split <;> simp

@[simp] theorem State.appendHere_cores (s : State) (a : Agent) (asid : BitVec 16) (va : Addr) (acc : Acc) (v : Row)
    (ri : Option Word) (who : Option PortMsg) : (s.appendHere a asid va acc v ri who).2.cores = s.cores := by
  unfold State.appendHere; dsimp only; split
  · simp
  · split
    · simp
    · split
      · simp
      · split
        · simp
        · rename_i ri _
          have e := State.claim_cores ((s.queueHdr asid va acc).2.openedAt asid .write
            ((s.queueHdr asid va acc).1.slot (s.queueHdr asid va acc).1.wi.toNat)) a asid va acc (s.queueHdr asid va acc).1 ri
          split <;> rename_i h <;> rw [h] at e <;> simpa using e

/-- R223: an append concerns no core. -/
@[simp] theorem State.append_cores (s : State) (a : Agent) (asid : BitVec 16) (va : Addr) (v : Row) (who : Option PortMsg) :
    (s.append a asid va v who).2.cores = s.cores := by
  unfold State.append; dsimp only; split
  · simp
  · split <;> simp

@[simp] theorem State.takeAt_cores (s : State) (a : Agent) (acc : Acc) (h : QHdr) : (s.takeAt a acc h).cores = s.cores := by
  simp [State.takeAt]

/-- R450: neither does a ready packet, appended or held. -/
@[simp] theorem State.appendReady_cores (s : State) (asid : BitVec 16) (rcb rec : Addr) :
    (s.appendReady asid rcb rec).2.cores = s.cores := by
  unfold State.appendReady
  extract_lets rows t pkt
  have e : t.cores = s.cores := by simp [t, rows]
  split
  · simpa [State.holdUnread] using e
  · rename_i q _
    split
    · simpa [State.holdReady] using e
    · have e := (t.append_cores .queueController asid q pkt none).trans e
      split <;> rename_i h <;> rw [h] at e <;> simpa [State.setAge, State.holdReady, State.setStop] using e

@[simp] theorem State.countLive_cores (s : State) (asid : BitVec 16) (rcb : Addr) (x : Int) :
    (s.countLive asid rcb x).cores = s.cores := s.hubRewrite_cores _ _ _

@[simp] theorem State.countCore_cores (s : State) (asid : BitVec 16) (rcb : Addr) (x : Int) :
    (s.countCore asid rcb x).cores = s.cores :=
  State.foldl_keeps State.cores _ (fun s b => s.hubRewrite_cores asid b _) _ s

/-! ## What leaves the strand of a core -/

theorem State.core_congr {s t : State} (h : t.cores = s.cores) (c : Nat) : t.core c = s.core c := by
  rw [State.core, State.core, h]

/-- A core whose new value holds the same strand. -/
theorem State.setCore_strand (s : State) (c d : Nat) (k : Core) (h : k.strand = (s.core c).strand) :
    ((s.setCore c k).core d).strand = (s.core d).strand := by
  by_cases e : d = c
  · subst e; rw [State.core_setCore, h]
  · rw [State.core_setCore_ne _ _ _ _ e]

@[simp] theorem State.raiseAsync_strand (s : State) (c d : Nat) (e : Async) :
    ((s.raiseAsync c e).core d).strand = (s.core d).strand := s.setCore_strand c d _ rfl

/-- R390: a machine check concerns the firmware of the core that takes it. -/
@[simp] theorem State.raiseMc_strand (s : State) (m : McReport) (d : Nat) :
    ((s.raiseMc m).core d).strand = (s.core d).strand := by
  unfold State.raiseMc
  extract_lets m s1
  have e1 : (s1.core d).strand = (s.core d).strand := by
    unfold s1; split <;> simp
  have e := s1.append_cores .queueController 0 mcQueueVa (mcRecord m s.hub.gtime s.hub.mcLost) none
  split <;> rename_i h <;> rw [h] at e
  · exact (congrArg Core.strand (State.core_congr e d)).trans e1
  · refine (congrArg Core.strand (State.core_congr ?_ d)).trans e1
    exact ((State.bumpModule_cores _ 2 false).trans (State.noteApp_cores _ _ _)).trans e

@[simp] theorem State.makeReady_strand (s : State) (die : Nat) (asid : BitVec 16) (rcb rec : Addr) (d : Nat) :
    ((s.makeReady die asid rcb rec).core d).strand = (s.core d).strand := by
  have e : ((s.appendReady asid rcb rec).2.core d).strand = (s.core d).strand :=
    congrArg Core.strand (State.core_congr (s.appendReady_cores asid rcb rec) d)
  unfold State.makeReady; dsimp only; split
  · exact (State.raiseMc_strand _ _ _).trans e
  · exact e

/-- R288: a record written changes no core's strand. -/
@[simp] theorem State.suspendRecord_strand (s : State) (c : Nat) (t : Strand) (pc : Addr) (st d : Nat) :
    ((s.suspendRecord c t pc st).core d).strand = (s.core d).strand := by
  have e (f : Row → Row) : ((s.hubRewrite t.asid t.record f).core d).strand = (s.core d).strand :=
    congrArg Core.strand (State.core_congr (s.hubRewrite_cores _ _ f) d)
  unfold State.suspendRecord; extract_lets wk st' s1; split
  · exact (State.makeReady_strand _ _ _ _ _ _).trans (e _)
  · exact e _

/-- A core that a gang no longer holds. -/
def State.freeHeld (s : State) (i : Nat) : State := s.setCore i { s.core i with held := none, code := [] }

@[simp] theorem State.leaveGang_strand (s : State) (c : Nat) (t : Strand) (d : Nat) :
    ((s.leaveGang c t).core d).strand = (s.core d).strand := by
  unfold State.leaveGang; split
  · rfl
  · rename_i g _
    dsimp only; split
    · exact State.foldl_keeps (fun s => (s.core d).strand) State.freeHeld (fun s i => s.setCore_strand i d _ rfl) g.cores s
    · rfl

@[simp] theorem Core.landWrite_strand (k : Core) (fw : Bool) (e : Pend) : (k.landWrite fw e).strand = k.strand := by
  unfold Core.landWrite
  extract_lets px k1 c px' whole sp
  have e1 : k1.strand = k.strand := by unfold k1; split <;> rfl
  split
  · exact e1
  · split <;> simp [e1]

theorem landDueList_strand (fw : Bool) (now : Nat) (l : List Pend) (k : Core) (kept : List Pend) :
    (landDueList fw now l k kept).1.strand = k.strand := by
  induction l generalizing k kept with
  | nil => rfl
  | cons e t ih => unfold landDueList; split <;> simp [ih]

/-- R112: results that land leave the strand. -/
@[simp] theorem Core.landAll_strand (k : Core) (fw : Bool) : (k.landAll fw).strand = k.strand := by
  simp [Core.landAll, Core.landDue, Core.toCycle, landDueList_strand]

end Sys2Proof.Machine
end

section
/-! SUPPORT. Proof of the statements on suspension and on the ends of strands: what a syllable that suspends waits for, the state
in which its results have landed and been published, and how its core is released. -/

namespace Sys2Proof.Machine

/-! ## Rows that a syllable waits for (R322) -/

theorem State.withRows_waits {s : State} {l : List (BitVec 16 × Word)} {k : State → Res} (h : ¬ s.RowsHere l) :
    s.withRows l k = .wait (.hub l) := by
  have h : ¬ (l.all fun e => (s.rowsRead l).rowReady e.1 e.2) = true := fun all => h (List.all_eq_true.1 all)
  exact if_neg h

theorem State.withRows_ok {s t : State} {l : List (BitVec 16 × Word)} {k : State → Res} (h : s.RowsHere l)
    (run : k (s.rowsRead l) = .ok t) : s.withRows l k = .ok (t.dropAnswers l) := by
  refine (if_pos (List.all_eq_true.2 h)).trans ?_
  rw [show k (List.foldl _ s l) = _ from run]

theorem State.withRows_trap {s : State} {l : List (BitVec 16 × Word)} {k : State → Res} {t : Trap} {e : List Nat}
    (h : s.RowsHere l) (run : k (s.rowsRead l) = .trap t e) : s.withRows l k = .trap t e := by
  refine (if_pos (List.all_eq_true.2 h)).trans ?_
  rw [show k (List.foldl _ s l) = _ from run]

/-! ## The next bundle (R102) -/

theorem loopScan_run (b : Addr) (l : List Nat) (c : Ctx) : (loopScan b l c).1.run = c.run := by
  induction l generalizing c with
  | nil => rfl
  | cons k t ih =>
    unfold loopScan; dsimp only; split
    · split
      · rfl
      · exact ih _
    · exact ih c

theorem Ctx.boundaryAt_run (c : Ctx) (b : Addr) : (c.boundaryAt b).run = c.run := by
  unfold Ctx.boundaryAt; dsimp only; split
  · exact loopScan_run b _ c
  · exact loopScan_run b _ c

@[simp] theorem State.advance_ctx (s : State) : s.advance.ctx = s.ctx.boundaryAt s.iss.pc := s.ctx_setCtx _
@[simp] theorem State.advance_fx (s : State) : s.advance.fx = s.fx := s.fx_setCtx _
@[simp] theorem State.advance_mem (s : State) : s.advance.mem = s.mem := rfl
@[simp] theorem State.advance_core (s : State) : s.advance.iss.core = s.iss.core := rfl

@[simp] theorem State.advance_strand (s : State) (d : Nat) : (s.advance.core d).strand = (s.core d).strand :=
  s.setCore_strand _ d _ (Core.setCtx_strand _ _ _)

/-! ## The firmware context (R115) -/

/-- The firmware context asleep at its next bundle, unless an event is pending. -/
theorem State.firmwareSleep_spec (s : State) : s.firmwareSleep.ctx.pc = (s.ctx.boundaryAt s.iss.pc).pc ∧
    (s.fx.events = [] → s.firmwareSleep.ctx.run = .sleeping) ∧ (s.fx.events ≠ [] → s.firmwareSleep.ctx.run = s.ctx.run) ∧
    s.firmwareSleep.mem = s.mem := by
  by_cases none_ : s.fx.events = []
  · have e : s.firmwareSleep = s.advance.setCtx { s.advance.ctx with run := .sleeping } :=
      if_pos (s.advance_fx ▸ none_)
    simp [e, none_]
  · have e : s.firmwareSleep = s.advance := if_neg (s.advance_fx ▸ none_)
    simp [e, none_, Ctx.boundaryAt_run]

theorem firmwareSuspension : Claims.FirmwareSuspension := by
  intro s g hg fw sleeps
  have quiet {x : Res} (e : x = .ok s) : issue g s x = .next s := by rw [e]; exact issue_ok g s s hg
  have passes (f : State → Strand → Res) : s.suspending f = .ok s := if_pos fw
  have sleep : sleeps (.susp g) ∧ sleeps (.yield g) := by
    constructor <;> refine ⟨s.firmwareSleep, ?_, s.firmwareSleep_spec⟩
    · rw [exec_susp, execSusp, if_pos fw]; exact issue_ok g s _ hg
    · rw [exec_yield, execYield, if_pos fw]; exact issue_ok g s _ hg
  refine ⟨sleep.1, sleep.2, fun a => quiet (passes _), quiet ?_, quiet (if_pos fw)⟩
  rw [fw]

/-! ## The waits of a strand that suspends (R112) -/

/-- The state in which the results of the issuing program context have landed, and its view is published at VRANK. -/
def State.landed (s : State) : State := (s.setMe (s.me.landAll false)).publish s.agent s.agent 6

@[simp] theorem State.landed_iss (s : State) : s.landed.iss = s.iss := rfl

@[simp] theorem State.landed_strand (s : State) (d : Nat) : (s.landed.core d).strand = (s.core d).strand :=
  s.setCore_strand _ d _ (Core.landAll_strand _ _)

section Suspending
variable {s : State} {k : Strand} {f : State → Strand → Res} (fw : s.iss.fw = false) (held : s.me.strand = some k)
include fw held

theorem State.suspending_landing (landing : s.me.landing false = true) : s.suspending f = .wait .landed := by
  simp [State.suspending, fw, held, landing]

variable (landed : s.me.landing false = false)
include landed

theorem State.suspending_outstanding (out : s.outstanding = true) : s.suspending f = .wait .drain := by
  simp [State.suspending, fw, held, landed, out]

variable (out : s.outstanding = false)
include out

theorem State.suspending_eq : s.suspending f = s.withRows (s.strandRows k) fun s => f s.landed k := by
  simp only [State.suspending, fw, held, landed, out, Bool.false_eq_true, if_false]
  rfl

theorem State.suspending_away (away : ¬ s.RowsHere (s.strandRows k)) :
    s.suspending f = .wait (.hub (s.strandRows k)) := by
  rw [State.suspending_eq fw held landed out, State.withRows_waits away]

theorem State.suspending_ok {t : State} (here : s.RowsHere (s.strandRows k))
    (run : f (s.rowsRead (s.strandRows k)).landed k = .ok t) : s.suspending f = .ok (t.dropAnswers (s.strandRows k)) := by
  rw [State.suspending_eq fw held landed out, State.withRows_ok here run]

end Suspending

/-! ## The core released (R112, R290) -/

theorem State.freeCore_idle (s : State) (c : Nat) {t : Strand} (held : (s.core c).strand = some t) :
    ((s.freeCore c).core c).strand = none ∧ ((s.freeCore c).core c).prog.run = .idle := by
  unfold State.freeCore
  rw [held]
  simp [Ctx.settle]

theorem State.parkStrand_unpinned (s : State) (c : Nat) (k : Strand) (w : Option (Nat × Word × Bool)) {t : Strand}
    (pin : k.pin = 0) (held : (s.core c).strand = some t) :
    ((s.parkStrand c k w).core c).strand = none ∧ ((s.parkStrand c k w).core c).prog.run = .idle := by
  rw [State.parkStrand, if_pos pin]
  exact s.freeCore_idle c held

theorem State.parkStrand_pinned (s : State) (c : Nat) (k : Strand) (w : Option (Nat × Word × Bool)) (pin : k.pin ≠ 0) :
    ((s.parkStrand c k w).core c).strand = some { k with asleep := true, wake := w } ∧
      ((s.parkStrand c k w).core c).prog.run = .sleeping := by
  rw [State.parkStrand, if_neg pin]
  simp

/-- The strand suspended once nothing of it is outstanding: its record written, its core released. -/
def State.suspended (s : State) (k : Strand) (st : Nat) : State :=
  let s1 := s.landed.advance
  (s1.suspendRecord s1.iss.core k s1.ctx.pc st).parkStrand s1.iss.core k none

theorem strandSuspends : Claims.StrandSuspends := by
  intro s g k hg fw held
  have waits {w : Wait} (h : ∀ f, s.suspending f = .wait w) :
      exec (.susp g) s = .next (s.waiting w) ∧ exec (.yield g) s = .next (s.waiting w) := by
    have nofw : ¬ s.iss.fw = true := by simp [fw]
    rw [exec_susp, execSusp, exec_yield, execYield, if_neg nofw, if_neg nofw, State.suspend, State.suspend, h, h]
    exact ⟨issue_wait g s w hg, issue_wait g s w hg⟩
  refine ⟨fun landing => waits fun f => State.suspending_landing fw held landing,
    fun landed out => waits fun f => State.suspending_outstanding fw held landed out, ?_⟩
  intro rows
  refine ⟨fun landed out away => waits fun f => State.suspending_away fw held landed out away, ?_⟩
  intro landed out here s0 s1 written released
  have core : s1.iss.core = s.iss.core := (congrArg Issue.core (s.rowsRead_iss rows) : s0.iss.core = s.iss.core)
  have strand (st : Nat) : ((written st).core s.iss.core).strand = some k := by
    rw [show written st = s1.suspendRecord s1.iss.core k s1.ctx.pc st from rfl, State.suspendRecord_strand,
      show s1 = s0.landed.advance from rfl, State.advance_strand, State.landed_strand,
      State.core_congr (s.rowsRead_cores rows)]
    exact held
  have run (st : Nat) : s.suspend st = .ok ((s0.suspended k st).dropAnswers rows) :=
    State.suspending_ok fw held landed out here rfl
  have nofw : ¬ s.iss.fw = true := by simp [fw]
  have ends (i : Instr) (st : Nat) (e : exec i s = issue g s (s.suspend st)) : released i st := by
    refine ⟨(s0.suspended k st).dropAnswers rows, by rw [e, run]; exact issue_ok g s _ hg, rfl, fun unpinned => ?_,
      fun pinned => ?_⟩
    · rw [← core] at strand ⊢
      exact State.parkStrand_unpinned _ _ k none unpinned (strand st)
    · rw [← core]
      exact State.parkStrand_pinned _ _ k none pinned
  exact ⟨ends _ 1 (by rw [exec_susp, execSusp, if_neg nofw]), ends _ 2 (by rw [exec_yield, execYield, if_neg nofw])⟩

/-- Settles O13: the firmware context, then a strand. -/
theorem suspension : Obligations.Suspension := ⟨firmwareSuspension, strandSuspends⟩

/-! ## exit and step (R112, R113, R287) -/

theorem strandExits : Claims.StrandExits := by
  intro s g a k hg fw held landed out rows here s0 s1 s2
  have core : s0.iss.core = s.iss.core := congrArg Issue.core (s.rowsRead_iss rows)
  have strand : (((s2.countLive k.asid k.rcb (-1)).leaveGang s0.iss.core k).core s.iss.core).strand = some k := by
    rw [State.leaveGang_strand, State.core_congr (State.countLive_cores _ _ _ _),
      State.core_congr (State.hubRewrite_cores _ _ _ _), show s1 = s0.landed.advance from rfl, State.advance_strand,
      State.landed_strand, State.core_congr (s.rowsRead_cores rows)]
    exact held
  refine ⟨_, ?_, rfl, ?_⟩
  · rw [exec_exitS, execExitS, State.suspending_ok fw held landed out here rfl]
    exact issue_ok g s _ hg
  · rw [← core] at strand ⊢
    exact State.freeCore_idle _ _ strand

/-- What step does once the block of the strand's rank is here. -/
def State.stepOf (k : Strand) (s : State) : Res :=
  if s.rankRoot k.vrank ≠ k.rcb then s.cmdFault 10 0
  else match s.suspend 4 with
    | .ok s1 => .ok (s1.markStepped k.vrank)
    | r => r

theorem exec_stepB_eq {s : State} {k : Strand} (g : BitVec 4) (fw : s.iss.fw = false) (held : s.me.strand = some k) :
    exec (.stepB g) s = issue g s (s.withRank k.vrank (State.stepOf k)) := by
  rw [exec_stepB, execStepB, fw, held]
  rfl

theorem strandSteps : Claims.StrandSteps := by
  intro s g k hg fw held block
  rw [exec_stepB_eq g fw held]
  refine ⟨fun away => ?_, fun here => ?_⟩
  · rw [State.withRank_waits away]
    exact issue_wait g s _ hg
  intro r
  have iss : r.iss = s.iss := s.rowsRead_iss block
  refine ⟨fun rank other => ?_, fun rank root same landed out => ?_⟩
  · have run : State.stepOf k r = .trap (s.trapOf 0x0A 10 0) [] := by
      rw [State.stepOf, if_pos other, State.cmdFault, State.fault, State.trapOf, State.trapOf, iss]
    rw [State.withRank, State.withRows_trap here ((if_pos rank).trans run)]
    exact issue_trap g s _ _ hg
  · intro rows rowsHere s0 s1
    have run : State.stepOf k r = .ok (((s0.suspended k 4).dropAnswers rows).markStepped k.vrank) := by
      have suspend : r.suspend 4 = .ok ((s0.suspended k 4).dropAnswers rows) :=
        State.suspending_ok (iss ▸ fw) same landed out rowsHere rfl
      rw [State.stepOf, if_neg (not_not.2 root), suspend]
    rw [State.withRank, State.withRows_ok here ((if_pos rank).trans run)]
    exact issue_ok g s _ hg

/-! ## The gang barrier (R114) -/

theorem exec_grel_member {s : State} {g : BitVec 4} {k : Strand} {n : Nat} {x : Gang} (fw : s.iss.fw = false)
    (held : s.me.strand = some k) (member : k.gang = some n) (found : s.findGang n = some x) :
    exec (.grel g) s = issue g s
      (if x.grel.contains s.iss.core then .ok (s.setGang { x with grel := removeNat x.grel s.iss.core })
       else .wait (.gang x.ident)) := by
  rw [exec_grel, execGrel, if_neg (by simp [fw]), held]
  simp [member, found]

/-- R114: the time that a dispatcher chooses lies at least 64 ns ahead. -/
theorem releaseTime_ahead (now fresh : Nat) : now + 64 ≤ releaseTime now fresh := by
  unfold releaseTime; omega

theorem gangBarrier : Claims.GangBarrier := by
  intro s g k hg fw held
  refine ⟨fun alone => ?_, fun n x member found => ⟨fun stays => ?_, fun passes => ?_⟩, fun n x found none_ stalled => ?_⟩
  · rw [exec_grel, execGrel, if_neg (by simp [fw]), held]
    simp [alone, hg]
  · rw [exec_grel_member fw held member found, if_neg (by simpa using stays)]
    exact issue_wait g s _ hg
  · rw [exec_grel_member fw held member found, if_pos (by simpa using passes)]
    exact issue_ok g s _ hg
  · have waiting : (x.grel.isEmpty && x.cores.all fun c => (s.core c).prog.waits.contains (.gang n)) = true := by
      simpa [none_] using stalled
    refine ⟨fun unset => ⟨releaseTime s.hub.gtime s.fresh, releaseTime_ahead _ _, ?_⟩, fun T set due => ?_⟩
    · rw [exec_grelRelease, execGrelRelease, found]
      simp only [unset, waiting, if_true]
    · rw [exec_grelRelease, execGrelRelease, found]
      simp only [set, waiting, due, and_self, if_true]

/-- Settles O14: exit, step and the gang barrier. -/
theorem strandEnds : Obligations.StrandEnds := ⟨strandExits, strandSteps, gangBarrier⟩

end Sys2Proof.Machine
end

section
/-! SUPPORT. Proof of the claim on enq and deq: what each of the two does with the header of its queue, case by case in the
order of their tests, and what a dequeue without a packet waits for. -/

namespace Sys2Proof.Machine

/-! ## The header of the queue (R140, R223, R224) -/

/-- A translated access to another module waits for nothing here. -/
theorem State.dataAcc_remote {s : State} {k : AccKind} {va : Word} {acc : Acc} (info : Nat) (found : s.xlate k va = .ok acc)
    (far : s.isRemote acc = true) : s.dataAcc k va info = .ok acc := by
  unfold State.xlate at found
  simp [State.dataAcc, State.dataAccAs, found, far]

/-- R322: a row of another module that has not come is asked for. -/
theorem State.ctxLoad_asks {s : State} {acc : Acc} (k : AccKind) (va : Word) (far : s.isRemote acc = true)
    (new : ∀ e ∈ s.ctx.answers, e.1 ≠ acc.key) :
    s.ctxLoad k va acc = .error (.wait (.remote k va acc .load 0 false 0 0 none)) := by
  have none_ : (s.ctx.answers.find? fun e => e.1 = acc.key) = none :=
    List.find?_eq_none.2 fun e he => by simpa using new e he
  simp [State.ctxLoad, far, none_]

section Header
variable {s : State} {acc : Acc} (g : BitVec 4) (a : BitVec 6) (found : s.xlate .atomic (s.queueVa a) = .ok acc)
include found

theorem exec_enq_far (p : BitVec 4) (v : BitVec 6) (far : s.isRemote acc = true) : exec (.enq g p a v) s =
    issue g s (s.enqRemote (s.queueVa a) acc (s.readS a) p.toNat (s.readV v.toNat)) := by
  rw [exec_enq, execEnq]
  simp only [State.dataAcc_remote 1 found far, Res.andThen_ok, far, if_true]

theorem exec_enq_near (p : BitVec 4) (v : BitVec 6) (ready : s.mem.stalls acc.pa = false) (near : s.isRemote acc = false) :
    exec (.enq g p a v) s = issue g s (s.enqLocal (s.queueVa a) acc (s.readS a) p.toNat (s.readV v.toNat)) := by
  rw [exec_enq, execEnq]
  simp only [State.dataAcc_ok s _ _ 1 acc found ready, Res.andThen_ok, near, Bool.false_eq_true, if_false]

theorem exec_deq_far (v : BitVec 6) (u : BitVec 1) (far : s.isRemote acc = true) (posted : ∀ x ∈ s.mem.posted, x.by_ ≠ s.agent)
    (adds : ∀ x ∈ s.mem.adds, x.by_ ≠ s.agent) : exec (.deq g v a u) s =
      issue g s (s.deqRemote (s.queueVa a) acc (s.readS a) v.toNat (u == 1)) := by
  have none_ : (s.mem.ways.any fun p => p.by_ == s.agent && p.page == acc.page && !p.sent) = false := by
    rw [List.any_eq_false]
    intro w hw
    have other : w.by_ ≠ s.agent := by
      rcases List.mem_append.1 hw with hw | hw <;> obtain ⟨x, hx, rfl⟩ := List.mem_map.1 hw
      · exact posted x hx
      · exact adds x hx
    simp [other]
  rw [exec_deq, execDeq]
  simp only [State.dataAcc_remote 1 found far, Res.andThen_ok, far, none_, if_true, Bool.false_eq_true, if_false]

section Near
variable (v : BitVec 6) (u : BitVec 1) (ready : s.mem.stalls acc.pa = false) (near : s.isRemote acc = false)
include ready near

theorem exec_deq_ordered (busy : s.drain s.agent (fun p => p.page == acc.page) true = none) :
    exec (.deq g v a u) s = issue g s (.wait (.ordered acc.page true)) := by
  rw [exec_deq, execDeq]
  simp only [State.dataAcc_ok s _ _ 1 acc found ready, Res.andThen_ok, near, Bool.false_eq_true, if_false, busy]

theorem exec_deq_near {s1 : State} (drained : s.drain s.agent (fun p => p.page == acc.page) true = some s1) :
    exec (.deq g v a u) s = issue g s (s1.deqLocal (s.queueVa a) acc (s.readS a) v.toNat (u == 1)) := by
  rw [exec_deq, execDeq]
  simp only [State.dataAcc_ok s _ _ 1 acc found ready, Res.andThen_ok, near, Bool.false_eq_true, if_false, drained]

end Near

end Header

/-! ## enq to a queue of this module (R223, R228) -/

section Enq
variable {s s0 : State} {va : Word} {acc : Acc} (named : Word) (p : Nat) (v : Row)

theorem State.enqLocal_ordered (busy : s.drain s.agent (fun q => q.page == acc.page) true = none) :
    s.enqLocal va acc named p v = .wait (.ordered acc.page true) := by
  simp [State.enqLocal, busy]

variable (drained : s.drain s.agent (fun q => q.page == acc.page) true = some s0)
variable {h : QHdr} {q : State} (reads : s0.queueHdr s.cmdAsid (va.setWidth 48) acc = (h, q))
include drained reads

theorem State.enqLocal_poisoned (bad : acc.row ∈ q.mem.bad) : s.enqLocal va acc named p v = s.fault 0x09 0 va := by
  simp [State.enqLocal, drained, reads, bad]

variable (clean : acc.row ∉ q.mem.bad)
include clean

theorem State.enqLocal_badHeader (bad : h.bad = true) : s.enqLocal va acc named p v = s.cmdFault 7 named := by
  simp [State.enqLocal, drained, reads, clean, bad]

variable (good : h.bad = false)
include good

theorem State.enqLocal_quiescing (quiet : s.quiescing s.cmdAsid = true) :
    s.enqLocal va acc named p v = .ok (q.issueP p true 1) := by
  simp [State.enqLocal, drained, reads, clean, good, quiet]

variable (live : s.quiescing s.cmdAsid = false)
include live

theorem State.enqLocal_unread (unread : q.boundRi s.cmdAsid h = none) :
    s.enqLocal va acc named p v = .wait (.hub [(s.cmdAsid, h.mra.setWidth 64)]) := by
  simp [State.enqLocal, drained, reads, clean, good, live, unread]

variable (bound : q.boundRi s.cmdAsid h ≠ none)
include bound

theorem State.enqLocal_unpublished (unsent : q.release h.qsc = none) :
    s.enqLocal va acc named p v = .wait (.ordered acc.page true) := by
  simp [State.enqLocal, drained, reads, clean, good, live, bound, unsent]

/-- R223: how an append has ended is how the enq ends. -/
def State.enqEnds (s : State) (h : QHdr) (named : Word) (p : Nat) (r : App × State) : Res :=
  match r with
  | (.done _, s2) => .ok ((s2.moveWaiter s.cmdAsid h.wq).issueP p false 1)
  | (.full, s2) => .ok (s2.issueP p true 1)
  | (.later, _) => .wait (.hub [(s.cmdAsid, h.mra.setWidth 64)])
  | (e, _) => s.appTrap e named

theorem State.enqLocal_appends {s1 : State} (released : q.release h.qsc = some s1) :
    s.enqLocal va acc named p v = s.enqEnds h named p (s1.append s.agent s.cmdAsid (va.setWidth 48) v none) := by
  simp only [State.enqLocal, drained, reads, released]
  rw [if_neg (by simpa using clean), if_neg (by simp [good]), if_neg (by simp [live]), if_neg (by simpa using bound)]
  rfl

end Enq

/-! ## A dequeue that finds no packet (R224, R291, R294) -/

@[simp] theorem State.deqWait_stalls (s : State) (h : QHdr) (named : Word) (plain : Wait) (again : Nat) :
    s.deqWait h named false plain again = .wait plain := by
  simp [State.deqWait]

section Suspends
variable {s : State} {h : QHdr} {k : Strand} (named : Word) (plain : Wait) (again : Nat)
variable (prog : s.iss.fw = false) (strand : s.me.strand = some k) (queue : h.wq ≠ 0#48) (fresh : s.ctx.waits = [])
include prog strand

theorem State.not_drains (ready : k.pin ≠ 0 ∨ s.outstanding = false) : (!s.pinned && s.outstanding) = false := by
  rcases ready with pin | out
  · simp [State.pinned, prog, strand, pin]
  · simp [out]

include queue fresh

theorem State.deqWait_drains (pin : k.pin = 0) (out : s.outstanding = true) :
    s.deqWait h named true plain again = .wait (.packetDrain ((named &&& ~~~63#64).setWidth 48)) := by
  simp [State.deqWait, State.pinned, Ctx.registered, prog, strand, queue, fresh, pin, out]

variable (ready : k.pin ≠ 0 ∨ s.outstanding = false)
include ready

theorem State.deqWait_performs (adds : s.addsOut = true) : s.deqWait h named true plain again = .wait .performed := by
  simp [State.deqWait, Ctx.registered, State.not_drains prog strand ready, prog, strand, queue, fresh, adds]

variable (none_ : s.addsOut = false)
include none_

theorem State.deqWait_reads {l : List (BitVec 16 × Word)} (rows : s.strandWaits = some l) :
    s.deqWait h named true plain again = .wait (.hub l) := by
  simp [State.deqWait, Ctx.registered, State.not_drains prog strand ready, prog, strand, queue, fresh, none_, rows]

variable {w : Acc} (here : s.strandWaits = none) (found : s.dataAcc .atomic (h.wq.setWidth 64) 1 = .ok w)
variable (near : s.isRemote w = false)
include here found near

theorem State.deqWait_suspends : s.deqWait h named true plain again =
    if s.mem.bad.contains w.row then s.fault 0x09 0 (h.wq.setWidth 64)
    else if (s.queueHdr s.cmdAsid h.wq w).1.bad then s.cmdFault 7 named
    else Res.andThen (s.dataAcc .write ((s.queueHdr s.cmdAsid h.wq w).1.slot (s.queueHdr s.cmdAsid h.wq w).1.wi.toNat) 1)
      fun _ => .wait (.packetSusp ((named &&& ~~~63#64).setWidth 48) h.wq) := by
  simp [State.deqWait, Ctx.registered, State.not_drains prog strand ready, prog, strand, queue, fresh, none_, here,
    found, near]

end Suspends

/-- R112, R150, R224, R294: what an instruction waits for that finds no packet in the queue of a header. -/
def State.WaitsForPacket (s : State) (i : Instr) (u : BitVec 1) (h : QHdr) (named : Word) : Prop :=
  let hdr : Addr := (named &&& ~~~63#64).setWidth 48
  let reason7 : Prop := exec i s = .next (s.trapped (s.trapOf 0x0A 7 named) [])
  let poisoned (x : Word) : Prop := exec i s = .next (s.trapped (s.trapOf 0x09 0 x) [])
  (u = 0 → exec i s = .next (s.waiting (.packet hdr))) ∧
  (u = 1 → s.iss.fw = false → ∀ k, s.me.strand = some k → h.wq ≠ 0 → s.ctx.waits = [] →
    (k.pin = 0 → s.outstanding = true → exec i s = .next (s.waiting (.packetDrain hdr))) ∧
    (k.pin ≠ 0 ∨ s.outstanding = false →
      (s.addsOut = true → exec i s = .next (s.waiting .performed)) ∧
      (s.addsOut = false → ∀ l, s.strandWaits = some l → exec i s = .next (s.waiting (.hub l))) ∧
      ∀ w, s.addsOut = false → s.strandWaits = none →
        s.dataAcc .atomic (h.wq.setWidth 64) 1 = .ok w → s.isRemote w = false →
        let x := (s.queueHdr s.cmdAsid h.wq w).1
        (w.row ∈ s.mem.bad → poisoned (h.wq.setWidth 64)) ∧
        (w.row ∉ s.mem.bad → x.bad = true → reason7) ∧
        (w.row ∉ s.mem.bad → x.bad = false → ∀ y, s.dataAcc .write (x.slot x.wi.toNat) 1 = .ok y →
          exec i s = .next (s.waiting (.packetSusp hdr h.wq)))))

theorem State.waitsForPacket {s : State} {g : BitVec 4} {i : Instr} {u : BitVec 1} {h : QHdr} {named : Word} {again : Nat}
    (guard : s.readP g = true)
    (e : exec i s = issue g s (s.deqWait h named (u == 1) (.packet ((named &&& ~~~63#64).setWidth 48)) again)) :
    s.WaitsForPacket i u h named := by
  refine ⟨?_, ?_⟩
  · rintro rfl
    rw [e, show ((0 : BitVec 1) == 1) = false from rfl, s.deqWait_stalls, issue_wait _ _ _ guard]
  rintro rfl prog k strand queue fresh
  rw [show ((1 : BitVec 1) == 1) = true from rfl] at e
  refine ⟨fun pin out => ?_, fun ready => ⟨fun adds => ?_, fun none_ l rows => ?_, fun w none_ here found near => ?_⟩⟩
  · rw [e, State.deqWait_drains _ _ _ prog strand queue fresh pin out, issue_wait _ _ _ guard]
  · rw [e, State.deqWait_performs _ _ _ prog strand queue fresh ready adds, issue_wait _ _ _ guard]
  · rw [e, State.deqWait_reads _ _ _ prog strand queue fresh ready none_ rows, issue_wait _ _ _ guard]
  · have suspends := State.deqWait_suspends named (.packet ((named &&& ~~~63#64).setWidth 48)) again prog strand queue fresh
      ready none_ here found near
    dsimp only
    refine ⟨fun bad => ?_, fun clean bad => ?_, fun clean good y slot => ?_⟩
    · rw [e, suspends, if_pos (by simpa using bad)]
      exact issue_trap _ _ _ _ guard
    · rw [e, suspends, if_neg (by simpa using clean), if_pos bad]
      exact issue_trap _ _ _ _ guard
    · rw [e, suspends, if_neg (by simpa using clean), if_neg (by simp [good]), slot]
      exact issue_wait _ _ _ guard

/-! ## deq from a queue of this module (R224, R228) -/

section Deq
variable {s : State} {va : Word} {acc : Acc} (named : Word) (d : Nat) (susp : Bool) (new : s.ctx.acted = false)
variable {h : QHdr} {q : State} (reads : s.queueHdr s.cmdAsid (va.setWidth 48) acc = (h, q))
include new reads

theorem State.deqLocal_poisoned (bad : acc.row ∈ q.mem.bad) : s.deqLocal va acc named d susp = s.fault 0x09 0 va := by
  simp [State.deqLocal, new, reads, bad]

variable (clean : acc.row ∉ q.mem.bad)
include clean

theorem State.deqLocal_badHeader (bad : h.bad = true) : s.deqLocal va acc named d susp = s.cmdFault 7 named := by
  simp [State.deqLocal, new, reads, clean, bad]

variable (good : h.bad = false)
include good

theorem State.deqLocal_empty (empty : s.quiescing s.cmdAsid = true ∨ h.ri = h.wi) :
    s.deqLocal va acc named d susp = s.deqWait h named susp (.packet (va.setWidth 48)) (answerKey acc.key) := by
  simp [State.deqLocal, new, reads, clean, good, empty]

variable (live : s.quiescing s.cmdAsid = false) (some_ : h.ri ≠ h.wi)
variable {slot : Acc} {r : Row × State} (found : s.dataAcc .read (h.slot h.ri.toNat) 0 = .ok slot)
variable (read : q.slotRow (h.slot h.ri.toNat) slot = .ok r)
include live some_ found read

theorem State.deqLocal_absent (absent : r.2.packetIn acc.row h r.1 = false) (near : s.isRemote slot = false) :
    s.deqLocal va acc named d susp = s.deqWait h named susp (.packet (va.setWidth 48)) (answerKey acc.key) := by
  simp [State.deqLocal, new, reads, clean, good, live, some_, found, read, absent, near]

theorem State.deqLocal_takes (present : r.2.packetIn acc.row h r.1 = true) :
    s.deqLocal va acc named d susp =
      .ok (((r.2.takeAt s.agent acc h).issueRow d r.1 1 0).snapshot s.agent s.agent h.qsc) := by
  simp [State.deqLocal, new, reads, clean, good, live, some_, found, read, present]

end Deq

/-! ## The claim on enq and deq -/

/-- R146, R212, R223: how the issue of an enq ends whose append has been tried. -/
theorem State.issue_enqEnds {s : State} {g : BitVec 4} (h : QHdr) (a : BitVec 6) (p : Nat) (r : App × State)
    (guard : s.readP g = true) :
    let ends := issue g s (s.enqEnds h (s.readS a) p r)
    (r.1 = .full → ends = .next (r.2.issueP p true 1)) ∧
    (r.1 = .bad → ends = .next (s.trapped (s.trapOf 0x0A 7 (s.readS a)) [])) ∧
    (r.1 = .poison → ends = .next (s.trapped (s.trapOf 0x09 0 (s.queueVa a)) [])) ∧
    (r.1 = .later → ends = .next (s.waiting (.hub [(s.cmdAsid, h.mra.setWidth 64)]))) ∧
    (∀ denied x err, r.1 = .fault denied x err → ends = .next
      (s.trapped (s.trapOf (if denied then 0x05 else 0x04) 1 x) err.toList)) ∧
    ∀ i, r.1 = .done i → ends = .next ((r.2.moveWaiter s.cmdAsid h.wq).issueP p false 1) := by
  obtain ⟨app, t⟩ := r
  refine ⟨?_, ?_, ?_, ?_, ?_, ?_⟩
  · rintro rfl; exact issue_ok _ _ _ guard
  · rintro rfl; exact issue_trap _ _ _ _ guard
  · rintro rfl; exact issue_trap _ _ _ _ guard
  · rintro rfl; exact issue_wait _ _ _ guard
  · rintro denied x err rfl
    cases err <;> exact issue_trap _ _ _ _ guard
  · rintro i rfl; exact issue_ok _ _ _ guard

theorem queueInstructions : Claims.QueueInstructions := by
  intro s g p a v u acc guard va hdr asid reason7 poisoned found
  refine ⟨fun far new => ?_, fun ready near => ?_⟩
  · intro asks
    have asked (k : Row × Bool × State → Res) : issue g s (Res.andThen (s.ctxLoad .atomic (s.queueVa a) acc) k) =
        .next (s.waiting (.remote .atomic va acc .load 0 false 0 0 none)) := by
      rw [State.ctxLoad_asks .atomic _ far new]
      exact issue_wait _ _ _ guard
    refine ⟨?_, fun posted adds => ?_⟩
    · exact (exec_enq_far g a found p v far).trans (asked _)
    · exact (exec_deq_far g a found v u far posted adds).trans (asked _)
  have enq {r : Res} (e : s.enqLocal (s.queueVa a) acc (s.readS a) p.toNat (s.readV v.toNat) = r) :
      exec (.enq g p a v) s = issue g s r := (exec_enq_near g a found p v ready near).trans (congrArg _ e)
  intro earlier
  refine ⟨fun busy => ⟨?_, ?_⟩, fun s0 drained => ?_⟩
  · exact (enq (State.enqLocal_ordered _ _ _ busy)).trans (issue_wait _ _ _ guard)
  · exact (exec_deq_ordered g a found v u ready near busy).trans (issue_wait _ _ _ guard)
  intro q h
  have reads : s0.queueHdr asid hdr acc = (h, q) := rfl
  refine ⟨fun bad => ?_, fun clean bad => ?_, fun clean good quiet => ?_, fun clean good live => ⟨fun unread => ?_,
    fun bound unsent => ?_, fun s1 bound released => ?_⟩, ?_⟩
  · exact (enq (State.enqLocal_poisoned _ _ _ drained reads bad)).trans (issue_trap _ _ _ _ guard)
  · exact (enq (State.enqLocal_badHeader _ _ _ drained reads clean bad)).trans (issue_trap _ _ _ _ guard)
  · exact (enq (State.enqLocal_quiescing _ _ _ drained reads clean good quiet)).trans (issue_ok _ _ _ guard)
  · exact (enq (State.enqLocal_unread _ _ _ drained reads clean good live unread)).trans (issue_wait _ _ _ guard)
  · exact (enq (State.enqLocal_unpublished _ _ _ drained reads clean good live bound unsent)).trans (issue_wait _ _ _ guard)
  · simp only [enq (State.enqLocal_appends _ _ _ drained reads clean good live bound released), reason7, poisoned]
    exact State.issue_enqEnds _ _ _ _ guard
  intro same new from_ waits
  subst same
  have deq {r : Res} (e : s0.deqLocal (s0.queueVa a) acc (s0.readS a) v.toNat (u == 1) = r) :
      exec (.deq g v a u) s0 = issue g s0 r :=
    (exec_deq_near g a found v u ready near drained).trans (congrArg _ e)
  refine ⟨fun bad => ?_, fun clean bad => ?_, fun clean good empty => ?_, fun slot r clean good live some_ seen read =>
    ⟨fun absent local_ => ?_, fun present => ?_⟩⟩
  · exact (deq (State.deqLocal_poisoned _ _ _ new reads bad)).trans (issue_trap _ _ _ _ guard)
  · exact (deq (State.deqLocal_badHeader _ _ _ new reads clean bad)).trans (issue_trap _ _ _ _ guard)
  · exact State.waitsForPacket guard (deq (State.deqLocal_empty _ _ _ new reads clean good empty))
  · exact State.waitsForPacket guard (deq (State.deqLocal_absent _ _ _ new reads clean good live some_ seen read absent local_))
  · exact (deq (State.deqLocal_takes _ _ _ new reads clean good live some_ seen read present)).trans (issue_ok _ _ _ guard)

end Sys2Proof.Machine
end

section
/-! SUPPORT. Queues in memory: what reading a header leaves, one row performed at its home, and the steps of an append and of a
take. -/

namespace Sys2Proof.Machine

/-! ## A header that is read (R234, R295) -/

theorem Mem.SameRows.refl (m : Mem) : m.SameRows m := ⟨rfl, rfl⟩

theorem Mem.sameRows_see (m : Mem) (a : Agent) (r ident : Nat) : m.SameRows (m.see a r ident) := by
  unfold Mem.see
  split
  · refine m.sameRows_mapLog _ fun w => ⟨?_, ?_⟩ <;> split <;> rfl
  · exact .refl m

theorem Mem.sameRows_seeHome (m : Mem) (a : Agent) (r : Nat) : m.SameRows (m.seeHome a r) := by
  unfold Mem.seeHome
  split
  · exact m.sameRows_see a r _
  · exact .refl m

theorem Mem.see_log (m : Mem) (a : Agent) (r ident : Nat) : m.see a r ident = { m with log := (m.see a r ident).log } := by
  unfold Mem.see
  split <;> rfl

theorem Mem.seeHome_log (m : Mem) (a : Agent) (r : Nat) : m.seeHome a r = { m with log := (m.seeHome a r).log } := by
  unfold Mem.seeHome
  split
  · exact m.see_log a r _
  · rfl

/-- What the reading of a header changes: an agent's view, and the cached headers. -/
structure State.HeaderRead (s t : State) : Prop where
  rest : t = { s with mem := t.mem, hub := { s.hub with queueTable := t.hub.queueTable } }
  rows : s.mem.SameRows t.mem
  log : t.mem = { s.mem with log := t.mem.log }

theorem State.load_read (s : State) (a : Agent) (acc : Acc) (n : Nat) : s.HeaderRead (s.load a acc n).2.2 := by
  unfold State.load
  dsimp only
  split
  · exact ⟨rfl, .refl _, rfl⟩
  split
  · exact ⟨rfl, s.mem.sameRows_seeHome a _, s.mem.seeHome_log a _⟩
  · exact ⟨rfl, s.mem.sameRows_see a _ _, s.mem.see_log a _ _⟩

theorem State.HeaderRead.trans {s t u : State} (h : s.HeaderRead t) (h' : t.HeaderRead u) : s.HeaderRead u :=
  ⟨by rw [h'.rest, h.rest], h.rows.trans h'.rows, by rw [h'.log, h.log]⟩

theorem State.headerOf_read (s : State) (node : Nat) (asid : BitVec 16) (va : Addr) (row : Row) :
    s.HeaderRead (s.headerOf node asid va row).2 := by
  unfold State.headerOf
  dsimp only
  split
  · exact ⟨rfl, .refl _, rfl⟩
  · split <;> exact ⟨rfl, .refl _, rfl⟩

theorem State.queueHdr_read (s : State) (asid : BitVec 16) (va : Addr) (acc : Acc) :
    s.HeaderRead (s.queueHdr asid va acc).2 :=
  (s.load_read _ _ _).trans (State.headerOf_read _ _ _ _ _)

namespace State.HeaderRead
variable {s t : State} (h : s.HeaderRead t)
include h

theorem translate (asid : Nat) (k : AccKind) (va : Word) : t.translate asid k va = s.translate asid k va := by
  have node : t.hub.tnode = s.hub.tnode := by rw [h.rest]
  rw [State.translate, State.translate, h.rows.translate, node]

theorem isRemote (acc : Acc) : t.isRemote acc = s.isRemote acc := by rw [h.rest]; rfl
theorem quiescing (asid : BitVec 16) : t.quiescing asid = s.quiescing asid := by rw [h.rest]; rfl
theorem mirrors : t.hub.mirrors = s.hub.mirrors := by rw [h.rest]
theorem iss : t.iss = s.iss := by rw [h.rest]
theorem posted : t.mem.posted = s.mem.posted := by rw [h.log]
theorem adds : t.mem.adds = s.mem.adds := by rw [h.log]

theorem peek (acc : Acc) (hub : isHubRow acc.row = false) : t.peek acc = s.peek acc := by
  simp only [State.peek, hub, Bool.false_eq_true, if_false, h.rows.decipher, h.rows.home, h.rows.latest]

end State.HeaderRead

/-- Word j of a header, whether it is cached or not, is memory's for its two indices. -/
theorem State.headerOf_indices (s : State) (node : Nat) (asid : BitVec 16) (va : Addr) (row : Row) :
    (s.headerOf node asid va row).1.wi = rowWord row 0 ∧ (s.headerOf node asid va row).1.ri = rowWord row 1 := by
  unfold State.headerOf
  dsimp only
  split
  · exact ⟨rfl, rfl⟩
  · split <;> exact ⟨rfl, rfl⟩

theorem State.queueHdr_indices (s : State) (asid : BitVec 16) (va : Addr) (acc : Acc) (hub : isHubRow acc.row = false)
    (kind : acc.leaf.ms = true ∨ acc.leaf.c = false) :
    (s.queueHdr asid va acc).1.wi = rowWord (s.peek acc) 0 ∧ (s.queueHdr asid va acc).1.ri = rowWord (s.peek acc) 1 := by
  rw [← s.hubSee_eq_peek .queueController acc hub kind]
  exact State.headerOf_indices _ _ _ _ _

/-! ## The sequence bit (R293) -/

theorem QHdr.seqBit_iff (h : QHdr) (i : Nat) : h.seqBit i = true ↔ i / 2 ^ h.lc % 2 = 0 := by
  simp only [QHdr.seqBit, decide_eq_true_eq]
  omega

theorem QHdr.getLsbD_stamp (h : QHdr) (i : Nat) (v : Row) {j : Nat} (hj : j < 511) :
    (h.stamp i v).getLsbD j = v.getLsbD j := by
  rw [QHdr.stamp, getLsbD_setBits _ _ _ _ _ (by omega), if_neg (by omega)]

theorem QHdr.stamp_seqBit (h : QHdr) (i : Nat) (v : Row) : (h.stamp i v).getLsbD 511 = h.seqBit i := by
  rw [QHdr.stamp, getLsbD_setBits _ _ _ _ _ (by omega), if_pos (by omega)]
  cases h.seqBit i <;> rfl

/-! ## One row performed at its home (R244, R334) -/

theorem lastWrite_append (l : List (Nat × Row)) (r : Nat) (v : Row) : lastWrite (l ++ [(r, v)]) r = some v := by
  simp [lastWrite, List.filter_append]

/-- A state of memory in which a row has been performed at its home: it stands there, newest in its coherence order, and no
other byte has changed. -/
structure Mem.RowPut (m n : Mem) (r : Nat) (v : Row) : Prop where
  home : n.home r = v
  latest : n.latest r = v
  keys : n.keys = m.keys
  byte : ∀ x, x / 64 ≠ r → n.byte x = m.byte x
  uncorr : ∀ x ∈ n.uncorr, x ∈ m.uncorr

theorem Mem.uncorr_perform (m : Mem) (r : Nat) (v : Row) (h : m.uncorr.contains r = false) :
    ∀ x ∈ (m.perform r v).uncorr, x ∈ m.uncorr := by
  unfold Mem.perform
  cases m.parityRow r with
  | none => exact fun x hx => (List.mem_filter.1 hx).1
  | some p => simp only [h, Bool.false_eq_true, if_false]; exact fun x hx => hx

theorem State.rowPut_writeHome (s : State) (a : Agent) (c : Bool) (r : Nat) (v : Row) (h : s.mem.uncorr.contains r = false) :
    s.mem.RowPut (s.writeHome a c r v).mem r v := by
  have same := s.sameRows_flushPubs a
  have h : (s.flushPubs a).mem.uncorr.contains r = false := h
  have home := (s.flushPubs a).mem.home_storeHome a (s.rankOf a) c r v h
  refine ⟨home, ?_, ?_, fun x hx => ?_, ?_⟩
  · rw [State.writeHome_mem, Mem.latest_eq, Mem.rows_storeHome _ _ _ _ _ _ h, lastWrite_append]
    rfl
  · exact Mem.keys_storeHome _ _ _ _ _ _ h
  · exact (Mem.byte_storeHome_ne _ _ _ _ _ _ h x hx).trans (same.byte x)
  · exact (s.flushPubs a).mem.uncorr_perform r v h

section Put
variable {s t : State} {acc : Acc} {v : Row}

theorem State.put_rowPut (a : Agent) (hub : isHubRow acc.row = false) (h : s.mem.uncorr.contains acc.row = false) :
    s.mem.RowPut (s.put a acc v).mem acc.row (s.mem.encipher acc.leaf.ek acc.row v) := by
  rw [State.put, if_neg (by simp [hub])]
  exact s.rowPut_writeHome a true _ _ h

theorem State.peek_memory (hub : isHubRow acc.row = false) : s.peek acc = s.mem.decipher acc.leaf.ek acc.row
    (if acc.leaf.ms || !acc.leaf.c then s.mem.home acc.row else s.mem.latest acc.row) := by
  rw [State.peek, if_neg (by simp [hub])]
  split <;> rfl

theorem State.peek_actFor {v : Option (BitVec 16)} (hub : isHubRow acc.row = false) : (s.actFor v).peek acc = s.peek acc :=
  (State.peek_memory hub).trans (State.peek_memory hub).symm

theorem State.peek_put (h : s.mem.RowPut t.mem acc.row (s.mem.encipher acc.leaf.ek acc.row v))
    (hub : isHubRow acc.row = false) : t.peek acc = v := by
  rw [State.peek_memory hub, h.home, h.latest, ite_self]
  exact Mem.decipher_encipher _ _ _ _ _ h.keys

theorem State.peek_put_ne {r : Nat} (h : s.mem.RowPut t.mem r v) (hub : isHubRow acc.row = false)
    (kind : acc.leaf.ms = true ∨ acc.leaf.c = false) (other : acc.row ≠ r) : t.peek acc = s.peek acc := by
  have home : t.mem.home acc.row = s.mem.home acc.row := Mem.home_congr fun x hx => h.byte x (by omega)
  rw [State.peek_home _ _ hub kind, State.peek_home _ _ hub kind, home]
  unfold Mem.decipher Mem.key
  rw [h.keys]

theorem State.putPart_clean (a : Agent) (clean : acc.row ∉ s.mem.bad) : s.putPart a acc v = s.put a acc v :=
  if_neg (by simpa using clean)

theorem State.putSlot_near (a : Agent) (near : s.isRemote acc = false) : s.putSlot a acc v = s.put a acc v :=
  if_neg (by simp [near])

end Put

/-- A row that does not wait is not uncorrectable (R343). -/
theorem Mem.uncorr_of_ready {m : Mem} {acc : Acc} (ready : m.stalls acc.pa = false) : m.uncorr.contains acc.row = false := by
  simp only [Mem.stalls, Bool.or_eq_false_iff] at ready
  exact ready.1.2

/-! ## What a flit that is sent leaves (R366, R367) -/

@[simp] theorem State.bumpModule_mem (s : State) (w : Nat) (high : Bool) : (s.bumpModule w high).mem = s.mem := by
  simp only [State.bumpModule, State.bump]
@[simp] theorem State.onLink_mem (s : State) (p : Nat) (f : Flit) : (s.onLink p f).mem = s.mem := rfl
@[simp] theorem State.setRoute_mem (s : State) (r : Route) : (s.setRoute r).mem = s.mem := rfl

@[simp] theorem State.bumpModule_mirrors (s : State) (w : Nat) (high : Bool) :
    (s.bumpModule w high).hub.mirrors = s.hub.mirrors := by
  simp only [State.bumpModule, State.bump]
@[simp] theorem State.onLink_hub (s : State) (p : Nat) (f : Flit) : (s.onLink p f).hub = s.hub := rfl
@[simp] theorem State.setRoute_hub (s : State) (r : Route) : (s.setRoute r).hub = s.hub := rfl

theorem State.routeFlit_kept (s : State) (dst cls : Nat) (f : Flit) :
    (s.routeFlit dst cls f).mem = s.mem ∧ (s.routeFlit dst cls f).hub.mirrors = s.hub.mirrors := by
  unfold State.routeFlit
  dsimp only
  split
  · simp
  split
  · exact ⟨rfl, rfl⟩
  · split <;> simp

theorem State.sendFlit_kept (s : State) (dst cls : Nat) (f : Flit) :
    (s.sendFlit dst cls f).mem = s.mem ∧ (s.sendFlit dst cls f).hub.mirrors = s.hub.mirrors := by
  unfold State.sendFlit
  split
  · split
    · exact ⟨rfl, rfl⟩
    · exact State.routeFlit_kept _ _ _ _
  · exact State.routeFlit_kept _ _ _ _

/-! ## The mirror of a packet (R406) -/

theorem State.sendMirror_mem (s : State) (e : Mirror) (h : QHdr) (v : Row) : (s.sendMirror e h v).mem = s.mem := by
  unfold State.sendMirror
  split
  · exact (State.sendFlit_kept _ _ _ _).1
  · rfl

theorem State.owesMirror_mem (s : State) (asid : BitVec 16) (va : Addr) (row : Nat) (h : QHdr) (i : Nat)
    (who : Option PortMsg) : (s.owesMirror asid va row h i who).mem = s.mem := by
  unfold State.owesMirror
  split <;> rfl

section Mirror
variable (s : State) (asid : BitVec 16) (va : Addr) (row : Nat) (h : QHdr) (i : Nat) (v : Row) (who : Option PortMsg)

theorem State.mirror_mem : (s.mirror asid va row h i v who).mem = s.mem := by
  unfold State.mirror
  dsimp only
  split
  · rw [State.sendMirror_mem, State.owesMirror_mem]
  · exact s.owesMirror_mem _ _ _ _ _ _

theorem State.mirror_self (none_ : h.mir = false) : s.mirror asid va row h i v who = s := by
  simp [State.mirror, State.owesMirror, none_]

/-- The note of a packet that waits to be accepted. -/
def Mirror.Notes (e : Mirror) (asid : BitVec 16) (va : Addr) (row : Nat) (h : QHdr) (i : Nat) (who : Option PortMsg) : Prop :=
  e.asid = asid ∧ e.va = va ∧ e.row = row ∧ e.index = i ∧ e.bud = h.bud ∧ e.who = who ∧ e.acked = false

theorem State.owesMirror_adds (mir : h.mir = true) : ∃ e : Mirror, e.Notes asid va row h i who ∧
    (s.owesMirror asid va row h i who).hub.mirrors = s.hub.mirrors ++ [e] := by
  unfold State.owesMirror
  rw [mir]
  split
  · exact ⟨_, ⟨rfl, rfl, rfl, rfl, rfl, rfl, rfl⟩, rfl⟩
  · exact ⟨_, ⟨rfl, rfl, rfl, rfl, rfl, rfl, rfl⟩, rfl⟩
  · contradiction

variable {asid va row h i who} in
theorem State.sendMirror_notes {e : Mirror} (notes : e.Notes asid va row h i who) (mine : e ∈ s.hub.mirrors) :
    (s.sendMirror e h v).hub.mirrors.length = s.hub.mirrors.length ∧
      ∃ x ∈ (s.sendMirror e h v).hub.mirrors, x.Notes asid va row h i who := by
  unfold State.sendMirror
  split
  · rw [(State.sendFlit_kept _ _ _ _).2]
    obtain ⟨hasid, hva, hrow, hindex, -, hwho, hacked⟩ := notes
    exact ⟨List.length_map .., _, List.mem_map.2 ⟨e, mine, if_pos rfl⟩, hasid, hva, hrow, hindex, rfl, hwho, hacked⟩
  · exact ⟨rfl, e, mine, notes⟩

theorem State.mirror_adds (mir : h.mir = true) :
    (s.mirror asid va row h i v who).hub.mirrors.length = s.hub.mirrors.length + 1 ∧
      ∃ e ∈ (s.mirror asid va row h i v who).hub.mirrors, e.Notes asid va row h i who := by
  obtain ⟨e, notes, owes⟩ := s.owesMirror_adds asid va row h i who mir
  have sent : s.mirror asid va row h i v who = (s.owesMirror asid va row h i who).sendMirror e h (h.stamp i v) := by
    simp [State.mirror, mir, owes]
  obtain ⟨length, found⟩ := (s.owesMirror asid va row h i who).sendMirror_notes (h.stamp i v) notes (by simp [owes])
  rw [sent]
  exact ⟨by rw [length, owes, List.length_append]; rfl, found⟩

end Mirror

/-! ## An append, step by step (R223, R293, R407) -/

/-- R332, R343: an access that waits for nothing takes place in the state as it is. -/
theorem State.openedAt_self {s : State} {asid : BitVec 16} {k : AccKind} {va : Word} {acc : Acc}
    (found : s.translate asid.toNat k va = .ok acc) (ready : s.mem.stalls acc.pa = false) : s.openedAt asid k va = s := by
  have walk (n : Nat) : s.openWalk k asid va n = s := by
    cases n with
    | zero => rfl
    | succ n => simp [State.openWalk, found]
  have opened : s.opened acc.pa = s := by rw [State.opened, Mem.opened_self _ _ ready]
  simp [State.openedAt, walk, found, opened]

theorem State.append_near {s : State} {asid : BitVec 16} {va : Addr} {acc : Acc} (a : Agent) (v : Row) (who : Option PortMsg)
    (found : s.translate asid.toNat .atomic (va.setWidth 64) = .ok acc) (ready : s.mem.stalls acc.pa = false)
    (near : s.isRemote acc = false) : s.append a asid va v who =
      (((s.actFor (s.asidRank asid)).appendHere a asid va acc v none who).1,
        ((s.actFor (s.asidRank asid)).appendHere a asid va acc v none who).2.actFor s.iss.acting) := by
  have found' : (s.actFor (s.asidRank asid)).translate asid.toNat .atomic (va.setWidth 64) = .ok acc := found
  have near' : (s.actFor (s.asidRank asid)).isRemote acc = false := near
  simp [State.append, State.openedAt_self found ready, State.queueAcc, found', near']

theorem State.boundRi_own (s : State) (asid : BitVec 16) {h : QHdr} (none_ : h.mir = false) : s.boundRi asid h = some h.ri := by
  simp [State.boundRi, none_]

theorem State.claim_full {s : State} {asid : BitVec 16} {h : QHdr} {ri : Word} (a : Agent) (va : Addr) (acc : Acc)
    (full : 2 ^ h.lc ≤ (h.wi - ri).toNat) : s.claim a asid va acc h ri = (none, s) :=
  if_pos (by rw [decide_eq_true full, Bool.or_true])

/-- The state in which the slot of the write index has been claimed. -/
def State.claimed (s : State) (a : Agent) (asid : BitVec 16) (va : Addr) (acc : Acc) (h : QHdr) : State :=
  (s.noteFirst asid va h.own).putPart a acc (setRowWord (s.peek acc) 0 (h.wi + 1))

theorem State.claim_room {s : State} {asid : BitVec 16} {h : QHdr} {ri : Word} (a : Agent) (va : Addr) (acc : Acc)
    (live : s.quiescing asid = false) (room : (h.wi - ri).toNat < 2 ^ h.lc) :
    s.claim a asid va acc h ri = (some h.wi.toNat, s.claimed a asid va acc h) :=
  if_neg (by rw [live, decide_eq_false (by omega)]; exact Bool.false_ne_true)

/-- The state once the packet stands in the slot claimed. -/
def State.filled (s : State) (a : Agent) (asid : BitVec 16) (va : Addr) (acc slot : Acc) (h : QHdr) (v : Row)
    (who : Option PortMsg) (i : Nat) : State :=
  ((s.putSlot a slot (h.stamp i v)).mirror asid va acc.row h i v who).dropAnswers [(asid, h.mra.setWidth 64)]

/-- How an append ends whose claim has been tried. -/
def State.claimEnds (a : Agent) (asid : BitVec 16) (va : Addr) (acc slot : Acc) (h : QHdr) (v : Row) (who : Option PortMsg)
    (c : Option Nat × State) : App × State :=
  match c with
  | (none, s) => (.full, s)
  | (some i, s) => (.done i, s.filled a asid va acc slot h v who i)

section AppendHere
variable {s : State} {asid : BitVec 16} {va : Addr} {acc slot : Acc} (a : Agent) (v : Row) (who : Option PortMsg)
variable {h : QHdr} {q : State} (reads : s.queueHdr asid va acc = (h, q))
include reads

theorem State.headerRead : s.HeaderRead q := by
  have read := s.queueHdr_read asid va acc
  rwa [reads] at read

theorem State.appendHere_poisoned (bad : acc.row ∈ s.mem.bad) : (s.appendHere a asid va acc v none who).1 = .poison := by
  rw [← (State.headerRead reads).rows.bad] at bad
  simp [State.appendHere, reads, bad]

variable (clean : acc.row ∉ s.mem.bad)
include clean

theorem State.queueHdr_clean : acc.row ∉ q.mem.bad := by
  rwa [(State.headerRead reads).rows.bad]

theorem State.appendHere_badHeader (bad : h.bad = true) : (s.appendHere a asid va acc v none who).1 = .bad := by
  simp [State.appendHere, reads, State.queueHdr_clean reads clean, bad]

variable (good : h.bad = false)
variable (found : s.translate asid.toNat .write (h.slot h.wi.toNat) = .ok slot)
variable (ready : s.mem.stalls slot.pa = false)
include good found ready

/-- With its header and slot there, an append turns on the read index that bounds it. -/
theorem State.appendHere_slot : s.appendHere a asid va acc v none who =
    (q.boundRi asid h).elim (.later, q.touch asid (h.mra.setWidth 64)) fun ri =>
      State.claimEnds a asid va acc slot h v who (q.claim a asid va acc h ri) := by
  have read := State.headerRead reads
  have found' := (read.translate asid.toNat .write _).trans found
  have ready' := (read.rows.stalls slot.pa).trans ready
  simp only [State.appendHere, reads, List.contains_eq_mem, State.queueHdr_clean reads clean, decide_false, good,
    Bool.false_eq_true, if_false, State.openedAt_self found' ready', State.queueAcc, found', Option.none_or]
  cases q.boundRi asid h <;> rfl

theorem State.appendHere_unread (unread : q.boundRi asid h = none) :
    (s.appendHere a asid va acc v none who).1 = .later := by
  rw [State.appendHere_slot a v who reads clean good found ready, unread]
  rfl

variable {ri : Word} (bound : q.boundRi asid h = some ri)
include bound

theorem State.appendHere_full (full : 2 ^ h.lc ≤ (h.wi - ri).toNat) :
    s.appendHere a asid va acc v none who = (.full, q) := by
  rw [State.appendHere_slot a v who reads clean good found ready, bound, Option.elim_some, State.claim_full a va acc full]
  rfl

theorem State.appendHere_done (live : s.quiescing asid = false) (room : (h.wi - ri).toNat < 2 ^ h.lc) :
    s.appendHere a asid va acc v none who = (.done h.wi.toNat,
      (q.claimed a asid va acc h).filled a asid va acc slot h v who h.wi.toNat) := by
  have live := ((State.headerRead reads).quiescing asid).trans live
  rw [State.appendHere_slot a v who reads clean good found ready, bound, Option.elim_some, State.claim_room a va acc live room]
  rfl

end AppendHere

/-! ## What an append leaves in memory (R223, R293) -/

theorem State.noteFirst_kept (s : State) (asid : BitVec 16) (va own : Addr) :
    (s.noteFirst asid va own).mem = s.mem ∧ (s.noteFirst asid va own).hub = s.hub := by
  unfold State.noteFirst
  split <;> exact ⟨rfl, rfl⟩

theorem State.put_hub (s : State) (a : Agent) (acc : Acc) (v : Row) : (s.put a acc v).hub = s.hub := by
  unfold State.put
  split <;> rfl

section Claimed
variable {s : State} {acc : Acc} (a : Agent) (asid : BitVec 16) (va : Addr) (h : QHdr) (clean : acc.row ∉ s.mem.bad)
include clean

theorem State.claimed_eq : s.claimed a asid va acc h =
    (s.noteFirst asid va h.own).put a acc (setRowWord (s.peek acc) 0 (h.wi + 1)) :=
  State.putPart_clean a (by rwa [(s.noteFirst_kept asid va h.own).1])

theorem State.claimed_hub : (s.claimed a asid va acc h).hub = s.hub := by
  rw [State.claimed_eq a asid va h clean, State.put_hub, (s.noteFirst_kept asid va h.own).2]

theorem State.claimed_isRemote (slot : Acc) : (s.claimed a asid va acc h).isRemote slot = s.isRemote slot := by
  rw [State.isRemote, State.isRemote, State.node, State.node, State.claimed_hub a asid va h clean]

theorem State.claimed_rowPut (hub : isHubRow acc.row = false) (ready : s.mem.stalls acc.pa = false) :
    s.mem.RowPut (s.claimed a asid va acc h).mem acc.row
      (s.mem.encipher acc.leaf.ek acc.row (setRowWord (s.peek acc) 0 (h.wi + 1))) := by
  have kept := (s.noteFirst_kept asid va h.own).1
  have put := (s.noteFirst asid va h.own).put_rowPut (acc := acc) (v := setRowWord (s.peek acc) 0 (h.wi + 1)) a hub
    (by rw [kept]; exact Mem.uncorr_of_ready ready)
  rw [kept] at put
  rwa [State.claimed_eq a asid va h clean]

end Claimed

section Filled
variable {s : State} {slot : Acc} (a : Agent) (asid : BitVec 16) (va : Addr) (acc : Acc) (h : QHdr) (v : Row)
  (who : Option PortMsg) (i : Nat) (near : s.isRemote slot = false)
include near

theorem State.filled_rowPut (hub : isHubRow slot.row = false) (uncorr : s.mem.uncorr.contains slot.row = false) :
    s.mem.RowPut (s.filled a asid va acc slot h v who i).mem slot.row
      (s.mem.encipher slot.leaf.ek slot.row (h.stamp i v)) := by
  have mem : (s.filled a asid va acc slot h v who i).mem = (s.put a slot (h.stamp i v)).mem :=
    (State.mirror_mem _ asid va acc.row h i v who).trans (congrArg State.mem (State.putSlot_near a near))
  rw [mem]
  exact State.put_rowPut a hub uncorr

theorem State.filled_unmirrored (none_ : h.mir = false) :
    (s.filled a asid va acc slot h v who i).hub.mirrors = s.hub.mirrors := by
  have mirrors : (s.putSlot a slot (h.stamp i v)).hub.mirrors = s.hub.mirrors := by
    rw [State.putSlot_near a near, State.put_hub]
  rw [State.filled, State.mirror_self _ _ _ _ _ _ _ _ none_]
  exact mirrors

theorem State.filled_mirrored (mir : h.mir = true) :
    (s.filled a asid va acc slot h v who i).hub.mirrors.length = s.hub.mirrors.length + 1 ∧
      ∃ e ∈ (s.filled a asid va acc slot h v who i).hub.mirrors, e.Notes asid va acc.row h i who := by
  have mirrors : (s.putSlot a slot (h.stamp i v)).hub.mirrors = s.hub.mirrors := by
    rw [State.putSlot_near a near, State.put_hub]
  obtain ⟨length, found⟩ := (s.putSlot a slot (h.stamp i v)).mirror_adds asid va acc.row h i v who mir
  exact ⟨length.trans (by rw [mirrors]), found⟩

end Filled

/-- What a claim and the write of the packet leave, as the queue's header and slot are read next. -/
structure State.Appended (s t : State) (acc slot : Acc) (h : QHdr) (v : Row) : Prop where
  header : t.peek acc = setRowWord (s.peek acc) 0 (h.wi + 1)
  packet : t.peek slot = h.stamp h.wi.toNat v
  byte : ∀ b, b / 64 ≠ acc.row → b / 64 ≠ slot.row → t.mem.byte b = s.mem.byte b

theorem State.appended {s : State} {acc slot : Acc} (a : Agent) (asid : BitVec 16) (va : Addr) (h : QHdr) (v : Row)
    (who : Option PortMsg) (home : s.Rewritable acc) (near : s.isRemote slot = false) (hub : isHubRow slot.row = false)
    (ready : s.mem.stalls slot.pa = false) (other : slot.row ≠ acc.row) :
    s.Appended ((s.claimed a asid va acc h).filled a asid va acc slot h v who h.wi.toNat) acc slot h v := by
  have claims := State.claimed_rowPut a asid va h home.clean home.hub home.ready
  have near' := (State.claimed_isRemote a asid va h home.clean slot).trans near
  have correctable : slot.row ∉ s.mem.uncorr := by simpa using Mem.uncorr_of_ready ready
  have fills := State.filled_rowPut a asid va acc h v who h.wi.toNat near' hub
    (by simpa using fun e => correctable (claims.uncorr _ e))
  refine ⟨?_, State.peek_put fills hub, fun b hacc hslot => (fills.byte b hslot).trans (claims.byte b hacc)⟩
  exact (State.peek_put_ne fills home.hub home.kind other.symm).trans (State.peek_put claims home.hub)

/-! ## The claim on an append -/

theorem queueAppend : Claims.QueueAppend := by
  intro s0 a asid va v acc slot s plain found local_ kind q h r index
  have reads : s.queueHdr asid va acc = (h, q.2) := rfl
  obtain ⟨ready, near, hub⟩ := local_
  have read := s.queueHdr_read asid va acc
  have e : r = ((s.appendHere a asid va acc v none none).1, (s.appendHere a asid va acc v none none).2.actFor s0.iss.acting) :=
    State.append_near a v none found ready near
  obtain ⟨wi, ri⟩ := s.queueHdr_indices asid va acc hub kind
  refine ⟨wi, ri, fun bad => ?_, fun clean bad => ?_, fun clean good live slotFound slotLocal other => ?_⟩
  · exact (congrArg Prod.fst e).trans (State.appendHere_poisoned a v none reads bad)
  · exact (congrArg Prod.fst e).trans (State.appendHere_badHeader a v none reads clean bad)
  obtain ⟨slotReady, slotNear, slotHub⟩ := slotLocal
  refine ⟨fun unread => ?_, fun ri bound => ⟨fun none_ => ?_, fun full => ?_, fun room => ?_⟩⟩
  · exact (congrArg Prod.fst e).trans (State.appendHere_unread a v none reads clean good slotFound slotReady unread)
  · exact (Option.some.inj ((State.boundRi_own _ asid none_).symm.trans bound)).symm
  · rw [e, State.appendHere_full a v none reads clean good slotFound slotReady bound full]
    exact ⟨rfl, read.rows.byte⟩
  have appends := State.appendHere_done a v none reads clean good slotFound slotReady bound live room
  have home : q.2.Rewritable acc := ⟨(read.isRemote acc).trans near, hub, State.queueHdr_clean reads clean,
    (read.rows.stalls _).trans ready, kind⟩
  have slotNear' := (read.isRemote slot).trans slotNear
  obtain ⟨header, packet, bytes⟩ := State.appended a asid va h v none home slotNear' slotHub
    ((read.rows.stalls _).trans slotReady) other
  rw [read.peek acc hub] at header
  have mirrors : (q.2.claimed a asid va acc h).hub.mirrors = s.hub.mirrors := by
    rw [State.claimed_hub a asid va h home.clean, read.mirrors]
  have slotNear' := (State.claimed_isRemote a asid va h home.clean slot).trans slotNear'
  have unmirrored := State.filled_unmirrored a asid va acc h v none h.wi.toNat slotNear'
  have mirrored := State.filled_mirrored a asid va acc h v none h.wi.toNat slotNear'
  rw [appends] at e
  generalize (q.2.claimed a asid va acc h).filled a asid va acc slot h v none h.wi.toNat = t
    at header packet bytes unmirrored mirrored e
  rw [← State.peek_actFor (v := s0.iss.acting) hub] at header
  rw [← State.peek_actFor (v := s0.iss.acting) slotHub] at packet
  have words (j : Nat) : index (t.actFor s0.iss.acting) j = if j = 0 then h.wi + 1 else index s j := by
    dsimp only [index]
    rw [header, extract_setRowWord _ 0 j _ (by omega)]
  rw [e]
  refine ⟨rfl, words 0, fun j hj _ => (words j).trans (if_neg (by omega)), fun i hi => ?_, ?_, fun none_ => ?_, fun mir => ?_,
    fun b hacc hslot => (bytes b hacc hslot).trans (read.rows.byte b)⟩
  · rw [packet, h.getLsbD_stamp _ v hi]
  · rw [packet, h.stamp_seqBit]
    exact h.seqBit_iff _
  · exact (unmirrored none_).trans mirrors
  · rw [← mirrors]
    exact mirrored mir

end Sys2Proof.Machine
end

section
/-! SUPPORT. Proof of the statement on queues: a publication leaves no operation of its context on its way, and with room, or
with a packet there, enq and deq complete. -/

namespace Sys2Proof.Machine

/-! ## Operations on their way stay with their issuers (R152, R235) -/

/-- The issuers of the operations on their way. -/
def Mem.issuers (m : Mem) : List Agent × List Agent := (m.posted.map Posted.by_, m.adds.map OrdAdd.by_)

/-- A run over a list of steps each of which keeps a part of memory keeps it. -/
theorem Mem.foldl_keeps {α β : Type} (part : Mem → β) (f : Mem → α → Mem) (h : ∀ m x, part (f m x) = part m)
    (l : List α) (m : Mem) : part (l.foldl f m) = part m := by
  induction l generalizing m with
  | nil => rfl
  | cons x t ih => exact (ih (f m x)).trans (h m x)

theorem Mem.issuers_recovered (m : Mem) (r : Nat) (v : Row) : (m.recovered r v).issuers = m.issuers := by
  unfold Mem.recovered Mem.remap
  dsimp only
  split <;> rfl

theorem Mem.issuers_settleGroup (m : Mem) (g : List Nat) : (m.settleGroup g).issuers = m.issuers :=
  Mem.foldl_keeps Mem.issuers Mem.applyDiff (fun _ _ => rfl) _ _

theorem Mem.issuers_recover (m : Mem) (r : Nat) : (m.recover r).issuers = m.issuers := by
  unfold Mem.recover
  dsimp only
  split
  · split
    · exact Mem.issuers_settleGroup _ _
    · exact (Mem.issuers_recovered _ _ _).trans (Mem.issuers_settleGroup _ _)
  · split
    · split
      · rfl
      · exact Mem.issuers_recovered _ _ _
    · rfl

theorem Mem.issuers_perform (m : Mem) (r : Nat) (v : Row) : (m.perform r v).issuers = m.issuers := by
  unfold Mem.perform
  split
  · dsimp only
    split
    · exact m.issuers_recover r
    · rfl
  · rfl

theorem Mem.issuers_writeBack (m : Mem) (r : Nat) : (m.writeBack r).issuers = m.issuers := by
  unfold Mem.writeBack
  split
  · rfl
  · exact m.issuers_perform r _

/-- A publication marks what its publisher has on its way, and adds nothing. -/
theorem Mem.issuers_publish (m : Mem) (a : Agent) (sc : Scope) : (m.publish a sc).issuers = m.issuers := by
  have backs (m : Mem) : ((m.dirtySeen a).foldl Mem.writeBack m).issuers = m.issuers :=
    Mem.foldl_keeps Mem.issuers _ Mem.issuers_writeBack _ _
  have hardens (m : Mem) : ((m.tierRows a).foldl Mem.harden m).issuers = m.issuers :=
    Mem.foldl_keeps Mem.issuers Mem.harden (fun _ _ => rfl) _ _
  unfold Mem.publish
  simp only [apply_ite Mem.issuers, backs, hardens, ite_self]
  simp [Mem.issuers, Function.comp_def]

/-- An agent has no operation of its own on its way. -/
def Mem.Idle (m : Mem) (a : Agent) : Prop := (∀ x ∈ m.posted, x.by_ ≠ a) ∧ ∀ x ∈ m.adds, x.by_ ≠ a

theorem Mem.idle_iff (m : Mem) (a : Agent) : m.Idle a ↔ a ∉ m.issuers.1 ∧ a ∉ m.issuers.2 := by
  simp [Mem.Idle, Mem.issuers]

theorem Mem.idle_publish {m : Mem} {b : Agent} (a : Agent) (sc : Scope) (h : m.Idle b) : (m.publish a sc).Idle b := by
  rwa [Mem.idle_iff, Mem.issuers_publish, ← Mem.idle_iff]

/-! ## An enq that completes (R223, R293) -/

/-- R245: with nothing of its own on its way, a context that releases has only its view to publish. -/
theorem State.release_publishes {s : State} (scope : Nat) (idle : s.mem.Idle s.agent) :
    s.release scope = some (s.publish s.agent s.agent scope) := by
  obtain ⟨posted, adds⟩ := Mem.idle_publish s.agent (s.scopeOf scope s.agent) idle
  exact State.drain_none _ _ _ _ posted adds

/-- With nothing of its own on its way and no mirror, a context that enqueues publishes its view and appends. -/
theorem State.enqLocal_publishes {s q : State} {va : Word} {acc : Acc} {h : QHdr} (named : Word) (p : Nat) (v : Row)
    (idle : s.mem.Idle s.agent) (reads : s.queueHdr s.cmdAsid (va.setWidth 48) acc = (h, q)) (clean : acc.row ∉ s.mem.bad)
    (good : h.bad = false) (none_ : h.mir = false) (live : s.quiescing s.cmdAsid = false) :
    s.enqLocal va acc named p v = s.enqEnds h named p
      ((q.publish s.agent s.agent h.qsc).append s.agent s.cmdAsid (va.setWidth 48) v none) := by
  have read := State.headerRead reads
  have drained := s.drain_none s.agent (fun q => q.page == acc.page) true idle.1 idle.2
  have bound : q.boundRi s.cmdAsid h ≠ none := by simp [State.boundRi_own q s.cmdAsid none_]
  have agent : q.agent = s.agent := by rw [State.agent, read.iss]; rfl
  have released := State.release_publishes (s := q) h.qsc (by rwa [agent, Mem.Idle, read.posted, read.adds])
  rw [agent] at released
  exact State.enqLocal_appends named p v drained reads (State.queueHdr_clean reads clean) good live bound released

/-! ## A deq that completes (R224, R293) -/

/-- A readable packet is what its slot holds. -/
theorem State.slotRow_home {s : State} {slot : Acc} (va : Word) (home : s.Rewritable slot) :
    s.slotRow va slot = .ok (s.peek slot, (s.load s.agent slot s.iss.pick).2.2) := by
  have clean : s.mem.bad.contains slot.row = false := by simpa using home.clean
  have loads : s.load s.agent slot s.iss.pick = (s.peek slot, false, (s.load s.agent slot s.iss.pick).2.2) := by
    refine Prod.ext (s.hubSee_eq_peek s.agent slot home.hub home.kind) (Prod.ext ?_ rfl)
    unfold State.load
    dsimp only
    split
    · rfl
    · split <;> exact clean
  have reads : s.ctxLoad .read va slot = .ok (s.load s.agent slot s.iss.pick) := if_neg (by simp [home.near])
  rw [State.slotRow, reads, loads]
  rfl

theorem State.packetIn_unmirrored (s : State) (row : Nat) {h : QHdr} {v : Row} (none_ : h.mir = false)
    (bit : v.getLsbD 511 = true ↔ h.ri.toNat / 2 ^ h.lc % 2 = 0) : s.packetIn row h v = true := by
  have same : v.getLsbD 511 = h.seqBit h.ri.toNat := Bool.eq_iff_iff.2 (bit.trans (h.seqBit_iff _).symm)
  rw [State.packetIn, same, none_, beq_self_eq_true]
  rfl

theorem State.takeAt_rowPut {s : State} {acc : Acc} (a : Agent) (h : QHdr) (home : s.Rewritable acc) :
    s.mem.RowPut (s.takeAt a acc h).mem acc.row
      (s.mem.encipher acc.leaf.ek acc.row (setRowWord (s.peek acc) 1 (h.ri + 1))) := by
  rw [State.takeAt, State.putPart_clean a home.clean]
  exact State.put_rowPut a home.hub (Mem.uncorr_of_ready home.ready)

theorem State.HeaderRead.rewritable {s t : State} (h : s.HeaderRead t) {acc : Acc} (home : s.Rewritable acc) :
    t.Rewritable acc :=
  ⟨(h.isRemote acc).trans home.near, home.hub, by rw [h.rows.bad]; exact home.clean,
    (h.rows.stalls _).trans home.ready, home.kind⟩

/-! ## The claim on completion -/

theorem queueCompletion : Claims.QueueCompletion := by
  intro s g p a v u acc slot guard posted adds new va hdr asid plain index h found local_ good none_ live other
  obtain ⟨ready, near, hub, kind, clean⟩ := local_
  have drained := s.drain_none s.agent (fun x => x.page == acc.page) true posted adds
  have reads : s.queueHdr asid hdr acc = (h, (s.queueHdr asid hdr acc).2) := rfl
  have read := State.headerRead reads
  refine ⟨?_, ?_⟩
  · intro s1 h1 found1 local1 good1 none1 slotFound slotLocal
    obtain ⟨ready1, near1, -, -, clean1⟩ := local1
    obtain ⟨slotReady, slotNear, slotHub, -, -⟩ := slotLocal
    have enq := (exec_enq_near g a found p v ready near).trans (congrArg (issue g s)
      (State.enqLocal_publishes (s.readS a) p.toNat (s.readV v.toNat) ⟨posted, adds⟩ reads clean good none_ live))
    have rank : ((s.queueHdr asid hdr acc).2.publish s.agent s.agent h.qsc).asidRank asid = s.asidRank asid := by
      rw [State.asidRank, State.publish_disp, State.queueHdr_disp, State.asidRank]
    have live1 : s1.quiescing asid = false := (read.quiescing asid).trans live
    have appends := queueAppend ((s.queueHdr asid hdr acc).2.publish s.agent s.agent h.qsc) s.agent asid hdr (s.readV v.toNat)
      acc slot
    rw [rank] at appends
    obtain ⟨-, -, -, -, tries⟩ := appends found1 ⟨ready1, near1, hub⟩ kind
    obtain ⟨-, tries⟩ := tries clean1 good1 live1 slotFound ⟨slotReady, slotNear, slotHub⟩ other
    obtain ⟨-, full, room⟩ := tries h1.ri (State.boundRi_own _ asid none1)
    obtain ⟨fails, -, -, -, -, succeeds⟩ := State.issue_enqEnds h a p.toNat (State.append _ s.agent asid hdr _ none) guard
    refine ⟨fun taken => ?_, fun free => ?_⟩
    · obtain ⟨ends, byte⟩ := full taken
      exact ⟨_, enq.trans (fails ends), byte⟩
    · obtain ⟨ends, wi, -, packet, bit, -⟩ := room free
      exact ⟨_, enq.trans (succeeds _ ends), wi, packet, bit⟩
  · intro some_ slotFound slotLocal bit
    obtain ⟨slotReady, slotNear, slotHub, slotKind, slotClean⟩ := slotLocal
    have home : s.Rewritable acc := ⟨near, hub, clean, ready, kind⟩
    have slotHome : s.Rewritable slot := ⟨slotNear, slotHub, slotClean, slotReady, slotKind⟩
    have slotRead := State.slotRow_home (h.slot h.ri.toNat) (read.rewritable slotHome)
    rw [read.peek slot slotHub] at slotRead
    have all := read.trans (State.load_read (s.queueHdr asid hdr acc).2 (s.queueHdr asid hdr acc).2.agent slot
      (s.queueHdr asid hdr acc).2.iss.pick)
    have deq := (exec_deq_near g a found v u ready near drained).trans (congrArg (issue g s)
      (State.deqLocal_takes (s.readS a) v.toNat (u == 1) new reads (State.queueHdr_clean reads clean) good live some_
        (s.dataAcc_ok _ _ _ _ slotFound slotReady) slotRead (State.packetIn_unmirrored _ acc.row none_ bit)))
    have takes := State.takeAt_rowPut s.agent h (all.rewritable home)
    have row := State.peek_put takes hub
    rw [all.peek acc hub] at row
    have words (j : Nat) : (State.peek _ acc).extractLsb' (64 * j) 64 = if j = 1 then h.ri + 1 else index s j :=
      (congrArg _ row).trans (extract_setRowWord _ 1 j _ (by omega))
    refine ⟨_, deq.trans (issue_ok _ _ _ guard), words 1, fun j _ other => (words j).trans (if_neg other), ?_,
      fun b hb => (takes.byte b hb).trans (all.rows.byte b)⟩
    rw [State.takeAt_cores, State.load_cores, State.queueHdr_cores]

/-- Settles O26, claim by claim: enq and deq follow the tests of their header, an append is a claim and the write of one row,
and with nothing of the context on its way both go through. -/
theorem queues : Obligations.Queues := ⟨queueInstructions, queueAppend, queueCompletion⟩

end Sys2Proof.Machine
end

section
/-! SUPPORT. Refutations of O20, O22 and O42: states in which the model does not do what the statement says. -/

namespace Sys2Proof.Machine

/-! ## An ordered add whose rank block has no translation (O20) -/

/-- Firmware's context, where the block of the rank in vrank has no translation. -/
def rankUnread : State :=
  { State.reset with
    iss := { State.reset.iss with fw := true },
    disp := { State.reset.disp with ranks := [{ vrank := 0, asid := 0, block := 0 }] } }

/-- Whether an outcome is that of a trap. -/
def hasTrapped : Host.Outcome State Fault Refusal → Bool
  | .next u => u.iss.trap.isSome
  | _ => false

theorem rankUnread_aoadd_waits : hasTrapped (exec (.aoadd 0 0 0 0 0 0 0) rankUnread) = false := by decide

/-- Refutes O20: in the firmware context aoadd first waits for the block of its rank (R149, log 79), so that with the block
and the operand both without a translation it waits, where the statement has it trap. -/
theorem not_accessFaults : ¬ Obligations.AccessFaults := by
  unfold Obligations.AccessFaults
  intro h
  obtain ⟨-, atomics, -⟩ := h rankUnread 0 rfl
  obtain ⟨-, -, -, -, -, -, -, aoadd, -⟩ := atomics 0 0 0 0 0 0
  have traps := aoadd.2.1 (by decide)
  have waits := rankUnread_aoadd_waits
  rw [traps] at waits
  exact absurd waits (by decide)

/-! ## An ordered add whose request names a row beyond 38 bits (O22) -/

/-- The row that a flit names has 38 bits. -/
theorem Flit.row_lt (f : Flit) : f.row < 2 ^ 38 := Nat.mod_lt _ (by decide)

/-- An access to row `2 ^ 38` of module 1. -/
def farAccess : Acc :=
  { pa := 2 ^ 44,
    leaf := { r := true, w := true, x := false, c := false, ms := false, sh := false, ek := 0, frame := 0, home := 1, own := 0 } }

/-- A program whose stalled bundle has found that access at address 0. -/
def farAsked : State :=
  { State.reset with cores := [(0, { prog := { sentAs := [(.atomic, 0, farAccess)] } })] }

/-- Refutes O22: the request of an ordered add carries 38 bits of the row, and the access that a stalled bundle has kept may
name a row beyond them; the statement has the flit name the access's row. -/
theorem not_atomicOperations : ¬ Obligations.AtomicOperations := by
  rintro ⟨-, -, ordered⟩
  obtain ⟨-, meets⟩ := ordered farAsked 0 0 0 0 0 0 0 farAccess (by decide)
  obtain ⟨remote, -⟩ := meets (fun firmware => absurd firmware (by decide)) (by decide)
  obtain ⟨u, p, -, -, -, -, -, -, f, -, -, row, -⟩ := remote (by decide)
  have fits := Flit.row_lt f
  rw [row] at fits
  exact absurd fits (by decide)

/-! ## A retry whose hint reaches into the tag (O42) -/

/-- A read request of node 0 for row 0, with tag 0. -/
def readOfRow0 : Flit := ⟨2 ^ 36, 0, 0, 0, 0⟩

/-- That request at its home, while the bank of the row is refreshed with a hint of `2 ^ 32`. -/
def refreshing : State :=
  { State.reset with
    mem := { State.reset.mem with refresh := [(State.reset.mem.bankOf 0, 2 ^ 32)] },
    fab := { State.reset.fab with inbox := [readOfRow0] } }

/-- The tags of the flits of class 1 that wait for node 0's acknowledgement. -/
def tagsToNode0 : Host.Outcome State Fault Refusal → List Nat
  | .next u => (u.route 0 1).unacked.map fun e => e.1.tag
  | _ => []

theorem refreshing_first :
    refreshing.fab.inbox.find? (fun x => x.src == readOfRow0.src && x.cls == readOfRow0.cls) = some readOfRow0 :=
  List.find?_cons_of_pos (by decide)

theorem refreshing_tag (k : State → State) :
    tagsToNode0 (.next ((refreshing.takeIn readOfRow0).serveFlit readOfRow0 k)) = [1] := by
  rfl

theorem readRequest_refreshing_tag : tagsToNode0 (exec (.readRequest readOfRow0) refreshing) = [1] := by
  rw [exec_readRequest, execReadRequest, State.receive, State.receiving, if_pos ⟨refreshing_first, rfl, rfl⟩, refreshing_tag]

/-- Refutes O42: the hint of a bank's refresh goes into the answer's third word as it is, and one of `2 ^ 32` changes the
tag that stands above it. -/
theorem not_requestsServed : ¬ Obligations.RequestsServed := by
  unfold Obligations.RequestsServed
  intro h
  obtain ⟨retries, -⟩ := h refreshing readOfRow0 refreshing_first (by decide) (by decide) (by decide) (by decide) (by decide)
  obtain ⟨u, served, -, g, unacked, -, -, tag, -⟩ := retries (2 ^ 32) (by decide) (.readRequest readOfRow0) (.inl ⟨rfl, by decide⟩)
  have tags := readRequest_refreshing_tag
  rw [served, tagsToNode0] at tags
  have node : (0 : BitVec 12) = BitVec.ofNat 12 readOfRow0.src := by decide
  rw [node, unacked, List.map_append, List.map_cons, tag] at tags
  exact absurd tags (by decide)

end Sys2Proof.Machine
end

section
/-! SUPPORT. Proof of the statement on tiles and barrier words (O19). -/

namespace Sys2Proof.Machine

/-! ## Reading a tile (R134) -/

theorem State.issueS_congr {s t : State} (d : BitVec 6) (v : Word) (L : Nat) (cores : t.cores = s.cores) (iss : t.iss = s.iss) :
    (t.issueS d v L).cores = (s.issueS d v L).cores := by
  unfold State.issueS
  split
  · exact cores
  · exact State.issueBits_congr _ _ _ _ _ _ cores iss

@[simp] theorem State.issueS_px (s : State) (d : BitVec 6) (v : Word) (L : Nat) : (s.issueS d v L).px = s.px := by
  obtain ⟨p, n, me⟩ := s.issueS_me d v L
  rw [State.px, me]
  simp [State.px]

theorem State.tileCfg_iff (s : State) (e : Tile) : s.tileCfg e = true ↔ e.rows ≠ 0 ∧ 64 * (e.first + e.rows) ≤ s.sp.part := by
  simp [State.tileCfg]

/-- What tlr leaves: its result on its way, from a state with the same cores. -/
theorem exec_tlr_delivers (s : State) (g : BitVec 4) (d t : BitVec 6) (guard : s.readP g = true) :
    let e := s.px.tile t.toNat
    ∃ u, exec (.tlr g d t) s = .next u ∧ u.px = s.px ∧ u.sp = s.sp ∧
      u.ctx = (s.issueS d (BitVec.ofNat 64 ((if s.tileCfg e then 4 else 0) + tileCode e.st)) 2).ctx := by
  intro e
  let s1 := if e.st = .ready then s.observeMark (2 ^ 22 + t.toNat) else s
  have cores : s1.cores = s.cores := by unfold s1; split <;> simp
  have iss : s1.iss = s.iss := by unfold s1; split <;> simp
  refine ⟨_, issue_ok g s _ guard, ?_, ?_, ?_⟩
  · exact (s1.issueS_px ..).trans (congrArg Core.px (State.me_congr cores iss))
  · exact (s1.issueS_sp ..).trans (State.sp_congr cores iss)
  · exact State.ctx_congr (State.issueS_congr d _ 2 cores iss) (by rw [State.issueS_iss, State.issueS_iss, iss])

/-! ## A binding that fires (R135, R304) -/

/-- A binding of a core's tile that is not in an image, unless that image is being saved. -/
def State.Fireable (s : State) (c t : Nat) (b : Binding) : Prop :=
  b.core = c ∧ b.tile = t ∧ ∀ va, b.image = some va →
    ∃ x ∈ (s.core c).xfers, x.kind = .ctxs ∧ (x.desc.getD 1 0).setWidth 48 = va

/-- The model's test of a binding that fires. -/
theorem State.fireable_iff (s : State) (c t : Nat) (b : Binding) :
    (b.core == c && b.tile == t && b.fired.isNone && b.image.all fun va =>
      (s.core c).xfers.any fun x => x.kind == .ctxs && (x.desc.getD 1 0).setWidth 48 == va) = true ↔
      s.Fireable c t b ∧ b.fired = none := by
  simp only [State.Fireable, Bool.and_eq_true, beq_iff_eq, Option.isNone_iff_eq_none, Option.all_eq_true, List.any_eq_true]
  constructor
  · rintro ⟨⟨⟨core, tile⟩, unfired⟩, image⟩
    exact ⟨⟨core, tile, image⟩, unfired⟩
  · rintro ⟨⟨core, tile, image⟩, unfired⟩
    exact ⟨⟨⟨core, tile⟩, unfired⟩, image⟩

theorem State.fireTile_none {s : State} {c t : Nat} (h : ¬ ∃ b ∈ s.binds, s.Fireable c t b ∧ b.fired = none) :
    s.fireTile c t = s := by
  simp only [← s.fireable_iff, ← List.any_eq_true] at h
  exact if_neg h

/-- A tile with a binding that has not fired becomes draining, and its bindings have then all fired. -/
theorem State.fireTile_fires {s : State} {t : Nat} (h : ∃ b ∈ s.binds, s.Fireable s.iss.core t b ∧ b.fired = none) :
    (s.fireTile s.iss.core t).px.tile t = { s.px.tile t with st := .draining } ∧
      ∀ b ∈ (s.fireTile s.iss.core t).binds, s.Fireable s.iss.core t b → b.fired ≠ none := by
  simp only [← s.fireable_iff, ← List.any_eq_true] at h
  rw [State.fireTile, if_pos h]
  have own := s.core_setCore s.iss.core
    { s.me with px := { s.px with tiles := Tab.put s.px.tiles t { s.px.tile t with st := .draining } } }
  refine ⟨(congrArg (fun k : Core => k.px.tile t) own).trans (Tab.get_put_self ..), fun b member able => ?_⟩
  obtain ⟨a, -, rfl⟩ := List.mem_map.1 member
  split
  · simp
  next other =>
    rw [if_neg other] at able
    exact fun unfired => other ((s.fireable_iff _ _ _).2 ⟨able, unfired⟩)

/-! ## Writing a tile (R135) -/

/-- The model's test of a tile that an outstanding transfer or a fired binding holds (R135, log 36). -/
def State.tileHeld (s : State) (i : Nat) : Bool :=
  (s.me.xfers.any fun f => f.tiles.contains i) ||
    s.binds.any fun b => b.core == s.iss.core && b.tile == i && b.fired.isSome && !b.fin && b.image.isNone

theorem State.tileHeld_iff (s : State) (i : Nat) : s.tileHeld i = true ↔
    (∃ f ∈ s.me.xfers, i ∈ f.tiles) ∨
      ∃ b ∈ s.binds, b.core = s.iss.core ∧ b.tile = i ∧ b.fired ≠ none ∧ b.fin = false ∧ b.image = none := by
  simp [State.tileHeld, Option.isSome_iff_ne_none, and_assoc]

@[simp] theorem State.fireable_setPx (s : State) (x : ProgX) (c t : Nat) (b : Binding) :
    (s.setPx x).Fireable c t b ↔ s.Fireable c t b := by
  unfold State.Fireable State.setPx
  by_cases own : c = s.iss.core
  · rw [own]
    simp [State.setMe, State.me]
  · rw [State.core_setMe_ne _ _ _ own]

theorem tileStates : Claims.TileStates := by
  intro s g guard cfg code
  have codes : ∀ x, code x = tileCode x := fun x => by cases x <;> rfl
  have configured (e : Tile) : s.tileCfg e = true ↔ cfg e := s.tileCfg_iff e
  refine ⟨?tlr, ?tls⟩
  case tlr =>
    intro d t e
    obtain ⟨u, run, px, sp, ctx⟩ := exec_tlr_delivers s g d t guard
    refine ⟨u, run, px, sp, fun yes => ?_, fun no => ?_⟩
    · rw [ctx, if_pos ((configured e).2 yes), codes]
    · rw [ctx, if_neg (no ∘ (configured e).1), codes, Nat.zero_add]
  case tls =>
    intro t x st named i e held busy able fires vr
    have state : tileStateOf x.toNat = st := by rw [← named]; cases st <;> rfl
    have outcome : exec (.tls g t x) s = issue g s
        (if s.tileCfg e = false then s.fault 0x07 (tileInfo i 0) 0
          else if (e.st = .filling ∨ e.st = .draining) ∧ s.tileHeld i = true ∧ s.ctx.acted = false then s.fault 0x07 (tileInfo i e.ringOf) 0
          else .ok (if e.st ≠ .ready ∧ st = .ready ∧ e.bnd = true then (s.setPx (s.px.setTile i st vr)).fireTile s.iss.core i
            else s.setPx (s.px.setTile i st vr))) := by
      rw [exec_tls, execTls, state]
      rfl
    have holds : (e.st = .filling ∨ e.st = .draining) ∧ s.tileHeld i = true ∧ s.ctx.acted = false ↔ busy :=
      and_congr_right' (and_congr_left' (s.tileHeld_iff i))
    have tile : (s.setPx (s.px.setTile i st vr)).px.tile i = { e with st := st, vr := vr } := by
      rw [State.px_setPx, ProgX.tile_setTile]
    have same (b : Binding) : (s.setPx (s.px.setTile i st vr)).Fireable s.iss.core i b ↔ able b := s.fireable_setPx ..
    refine ⟨fun no => ?_, fun yes isBusy => ?_, fun yes notBusy quiet => ?_, fun yes notBusy fire => ?_⟩
    · rw [outcome, if_pos (by simpa using no ∘ (configured e).1)]
      exact issue_trap g s _ _ guard
    · rw [outcome, if_neg (by simpa using (configured e).2 yes), if_pos (holds.2 isBusy)]
      exact issue_trap g s _ _ guard
    · rw [outcome, if_neg (by simpa using (configured e).2 yes), if_neg (mt holds.1 notBusy), issue_ok g s _ guard]
      refine ⟨_, rfl, ?_⟩
      split
      next becomes =>
        obtain ⟨was, now, bound⟩ := becomes
        rw [State.fireTile_none fun ⟨b, member, ready, unfired⟩ =>
          quiet ⟨was, now, bound, b, member, (same b).1 ready, unfired⟩]
        exact ⟨tile, rfl, s.sp_setPx _⟩
      next => exact ⟨tile, rfl, s.sp_setPx _⟩
    · obtain ⟨was, now, bound, b, member, ready, unfired⟩ := fire
      rw [outcome, if_neg (by simpa using (configured e).2 yes), if_neg (mt holds.1 notBusy), issue_ok g s _ guard, if_pos ⟨was, now, bound⟩]
      obtain ⟨draining, fired⟩ := State.fireTile_fires (s := s.setPx (s.px.setTile i st vr))
        ⟨b, member, (same b).2 ready, unfired⟩
      refine ⟨_, rfl, draining.trans (by rw [tile]), fun b member ready => fired b member ((same b).2 ready)⟩

/-! ## Barrier words (R136 to R138) -/

/-- The fields of a word laid out as a barrier word: phase, count of arrivals, and the 32 bits below. -/
theorem bitsOf_barrier {p c l : Nat} (hp : p < 2 ^ 16) (hc : c < 2 ^ 16) (hl : l < 2 ^ 32) :
    let w := (BitVec.ofNat 64 (p * 2 ^ 48 + c * 2 ^ 32 + l)).toNat
    bitsOf w 48 16 = p ∧ bitsOf w 32 16 = c ∧ bitsOf w 0 32 = l := by
  simp only [BitVec.toNat_ofNat, bitsOf]
  omega

theorem bitsOf_lt (x lo n : Nat) : bitsOf x lo n < 2 ^ n := Nat.mod_lt _ (Nat.two_pow_pos n)

/-- R137: an arrival of weight n. -/
theorem barrierArrive_fields (w : Word) (n : Nat) :
    let v := (barrierArrive w n).toNat
    let arrived := bitsOf w.toNat 32 16
    let need := bitsOf w.toNat 16 16
    let phase := bitsOf w.toNat 48 16
    bitsOf v 0 32 = bitsOf w.toNat 0 32 ∧ (n = 0 → v = w.toNat) ∧
      (n ≠ 0 → need ≤ arrived + n → bitsOf v 48 16 = (phase + 1) % 2 ^ 16 ∧ bitsOf v 32 16 = 0) ∧
      (n ≠ 0 → arrived + n < need → bitsOf v 48 16 = phase ∧ bitsOf v 32 16 = arrived + n) := by
  intro v arrived need phase
  have low := bitsOf_lt w.toNat 0 32
  have old := bitsOf_lt w.toNat 48 16
  have most := bitsOf_lt w.toNat 16 16
  by_cases none_ : n = 0
  · have v_eq : v = w.toNat := by simp [v, barrierArrive, none_]
    exact ⟨by rw [v_eq], fun _ => v_eq, fun h => absurd none_ h, fun h => absurd none_ h⟩
  · by_cases full : need ≤ arrived + n
    · have v_eq : v = (BitVec.ofNat 64 ((phase + 1) % 65536 * 2 ^ 48 + 0 * 2 ^ 32 + bitsOf w.toNat 0 32)).toNat := by
        simp only [v, barrierArrive, fld_eq_bitsOf]
        rw [if_neg none_, if_pos full, Nat.zero_mul, Nat.add_zero (_ * _)]
      obtain ⟨h48, h32, h0⟩ := bitsOf_barrier (Nat.mod_lt (phase + 1) (by decide)) (by decide : 0 < 2 ^ 16) low
      rw [v_eq]
      exact ⟨h0, fun h => absurd h none_, fun _ _ => ⟨h48, h32⟩, fun _ h => absurd full (Nat.not_le.2 h)⟩
    · have v_eq : v = (BitVec.ofNat 64 (phase * 2 ^ 48 + (arrived + n) * 2 ^ 32 + bitsOf w.toNat 0 32)).toNat := by
        simp only [v, barrierArrive, fld_eq_bitsOf]
        rw [if_neg none_, if_neg full]
      obtain ⟨h48, h32, h0⟩ := bitsOf_barrier old ((Nat.not_le.1 full).trans most) low
      rw [v_eq]
      exact ⟨h0, fun h => absurd h none_, fun _ h => absurd h full, fun _ _ => ⟨h48, h32⟩⟩

/-- R137: what an arrival leaves of the row. -/
@[simp] theorem Scratch.row_arrive (p : Scratch) (i j n : Nat) :
    (p.arrive i j n).row i = setRowWord (p.row i) j (barrierArrive (rowWord (p.row i) j) n) := by
  unfold Scratch.arrive
  dsimp only
  split <;> simp [Scratch.row]

theorem Scratch.arrive_others (p : Scratch) (i j n k : Nat) (other : k ≠ i) :
    (p.arrive i j n).row k = p.row k ∧ (p.arrive i j n).isFull k = p.isFull k ∧
      (p.arrive i j n).bad.contains k = p.bad.contains k := by
  unfold Scratch.arrive
  dsimp only
  split <;> simp [Scratch.row, Scratch.isFull, other]

@[simp] theorem Scratch.part_arrive (p : Scratch) (i j n : Nat) : (p.arrive i j n).part = p.part := by
  unfold Scratch.arrive
  dsimp only
  split <;> rfl

@[simp] theorem Scratch.isFull_arrive (p : Scratch) (i j n k : Nat) : (p.arrive i j n).isFull k = p.isFull k := by
  unfold Scratch.arrive
  dsimp only
  split <;> rfl

theorem State.onlyScratch_arrive (s : State) (i j n : Nat) : OnlyScratch [i] s (s.setSp (s.sp.arrive i j n)) :=
  s.onlyScratch_setSp _ _ (s.sp.part_arrive i j n) fun k other => s.sp.arrive_others i j n k (by simpa using other)

theorem phaseReached_iff (w : Word) (n : Nat) :
    phaseReached w n = true ↔ (bitsOf w.toNat 48 16 + 2 ^ 16 - n) % 2 ^ 16 < 2 ^ 15 := by
  simp [phaseReached, fld_eq_bitsOf]

theorem barrierWords : Claims.BarrierWords := by
  intro s g t a guard firmware off i j here clean word w need arrived phase n
  have row : s.spClean (s.lAddr a 64) = .ok i := State.spClean_in firmware here clean
  have offWord_eq : offWord (s.lAddr a 64) = j := fld_eq_bitsOf _ 3 3
  have hj : j < 8 := bitsOf_lt _ 3 3
  have weight : fld (s.readS t) 0 16 = n := fld_eq_bitsOf _ 0 16
  have barv : exec (.barv g t a) s = .next (s.setSp (s.sp.arrive i j n)) := by
    rw [exec_barv, execBarv, row, Res.andThen_ok, offWord_eq, weight]
    exact issue_ok g s _ guard
  have barw : exec (.barw g t a) s = issue g s (if phaseReached (rowWord (s.sp.row i) j) n then
      .ok (s.observeMark (2 ^ 21 + 8 * i + j)) else .wait (.barrier (8 * i + j) (BitVec.ofNat 16 n))) := by
    rw [exec_barw, execBarw, row, Res.andThen_ok, offWord_eq, weight]
  refine ⟨⟨_, barv, s.onlyScratch_arrive i j n, by simp, fun k _ other => ?_, ?_⟩, fun reached => ?_, fun before => ?_⟩
  · rw [State.sp_setSp, Scratch.row_arrive]
    exact (extract_setRowWord _ _ _ _ hj).trans (if_neg other)
  · have new : word ((s.setSp (s.sp.arrive i j n)).sp.row i) j = barrierArrive (rowWord (s.sp.row i) j) n := by
      rw [State.sp_setSp, Scratch.row_arrive]
      exact (extract_setRowWord _ _ _ _ hj).trans (if_pos rfl)
    rw [new]
    exact barrierArrive_fields _ n
  · have reached : phaseReached (rowWord (s.sp.row i) j) n = true := (phaseReached_iff _ _).2 reached
    rw [barw, if_pos reached, issue_ok g s _ guard]
    exact ⟨_, rfl, s.observeMark_cores _, s.observeMark_iss _, Mem.byte_congr (s.observeMark_cells _)⟩
  · have waits : ¬ phaseReached (rowWord (s.sp.row i) j) n = true := fun reached =>
      absurd ((phaseReached_iff _ _).1 reached) (Nat.not_lt.2 before)
    rw [barw, if_neg waits]
    exact issue_wait g s _ guard

/-- Settles O19, claim by claim. -/
theorem tilesAndBarriers : Obligations.TilesAndBarriers := ⟨tileStates, barrierWords⟩

end Sys2Proof.Machine
end

section
/-! SUPPORT. Proof of the statement on the registers that reach the whole module (O50). -/

namespace Sys2Proof.Machine

/-! ## Firmware requests, the ramp word and the tweak keys (R324, R397, R439) -/

/-- R397: a new request word, and event 0x25 where it was zero. -/
theorem State.setFreq_core (s : State) (c : Nat) (v : Word) :
    Tab.get 0 (s.setFreq c v).hub.freq c = v ∧ ((s.setFreq c v).core c).fx.events =
      if Tab.get 0 s.hub.freq c = 0 ∧ v ≠ 0 then (s.core c).fx.events ++ [⟨0x25, v.setWidth 32, 0⟩]
      else (s.core c).fx.events := by
  unfold State.setFreq
  dsimp only
  split
  · exact ⟨by simp [State.raiseAsync], by rw [State.raiseAsync, State.core_setCore]; rfl⟩
  · exact ⟨by simp, rfl⟩

theorem firmwareRequest_ors (s : State) (c : Nat) (v cmp : Word) (hc : c < 200) :
    let old := Tab.get 0 s.hub.freq c
    ∃ u, exec (.firmwareRequestWord c .store v cmp) s = .next u ∧ Tab.get 0 u.hub.freq c = old ||| v ∧
      (u.core c).fx.events = if old = 0 ∧ v ≠ 0 then (s.core c).fx.events ++ [⟨0x25, v.setWidth 32, 0⟩]
        else (s.core c).fx.events := by
  intro old
  obtain ⟨word, events⟩ := s.setFreq_core c (old ||| v)
  refine ⟨_, if_pos hc, word, events.trans ?_⟩
  by_cases zero : old = 0
  · have same : old ||| v = v := by rw [zero]; exact BitVec.zero_or
    rw [same]
  · rw [if_neg (fun h => zero h.1), if_neg (fun h => zero h.1)]

theorem clampRamp_eq (x : Nat) : clampRamp x = max 1 (min 400 x) := by
  unfold clampRamp
  split <;> omega

/-- R441: while no adjustment is due, none is made. -/
theorem Hub.caughtUp_cap (h : Hub) (early : h.gtime / 1000 ≤ h.capAt) : h.caughtUp.cap = h.cap := by
  rw [Hub.caughtUp, Nat.sub_eq_zero_of_le early]
  rfl

/-- R324: the write of tkey7 installs both keys under tkix, or nothing while that is 0. -/
theorem tkey7_installs (s : State) (c : Nat) (v : Word) :
    let x := (s.core c).fx
    let w (j : Nat) : Word := Tab.get 0 x.tkeys j
    (x.tkix ≠ 0 → ∃ u, exec (.tkey7Write c v) s = .next u ∧
      Tab.get (0, 0) u.mem.keys x.tkix.toNat = (w 3 ++ w 2 ++ w 1 ++ w 0, v ++ w 6 ++ w 5 ++ w 4) ∧
      ∀ k, k ≠ x.tkix.toNat → Tab.get (0, 0) u.mem.keys k = Tab.get (0, 0) s.mem.keys k) ∧
    (x.tkix = 0 → ∃ u, exec (.tkey7Write c v) s = .next u ∧ u.mem = s.mem ∧ (u.core c).fx.tkeys = []) := by
  intro x w
  refine ⟨fun some_ => ?_, fun none_ => ?_⟩
  · have run : s.tkey7 c v = _ := if_neg some_
    exact ⟨_, congrArg Host.Outcome.next run, Tab.get_put_self .., fun k other => Tab.get_put_ne _ _ _ _ _ other⟩
  · have run : s.tkey7 c v = _ := if_pos none_
    exact ⟨_, congrArg Host.Outcome.next run, rfl, congrArg (fun k : Core => k.fx.tkeys) (s.core_setCore ..)⟩

/-! ## A region table refused or begun (R324, R332) -/

theorem tregWrite_checks (s : State) (c : Nat) (v : Word) :
    let pa := (v &&& 0xFFFFFFFFE00).toNat
    let es := (List.range 32).map fun i => regionOf (s.mem.word (pa + 16 * i)) (s.mem.word (pa + 16 * i + 8))
    let refused := (∃ e ∈ es, e.2 = true) ∨ regionsApart (es.map fun e => e.1) = false
    (refused → ∃ u, exec (.tregWrite c v) s = .next u ∧ u.mem = { s.mem with treg := u.mem.treg, tregErr := true }) ∧
    (¬ refused → ∃ u, exec (.tregWrite c v) s = .next u ∧ u.mem.tregErr = false ∧
      u.mem.regionsIn = some (es.map fun e => e.1) ∧ u.mem.cells = s.mem.cells) := by
  intro pa es refused
  have test : (es.any (fun e => e.2) || !regionsApart (es.map fun e => e.1)) = true ↔ refused := by
    simp only [refused, Bool.or_eq_true, List.any_eq_true, Bool.not_eq_true']
  refine ⟨fun yes => ?_, fun no => ?_⟩
  · have run : s.tregLoad v = _ := if_pos (test.2 yes)
    exact ⟨_, congrArg Host.Outcome.next run, rfl⟩
  · have run : s.tregLoad v = _ := if_neg (mt test.1 no)
    exact ⟨_, congrArg Host.Outcome.next run, rfl, rfl, rfl⟩

/-! ## Tables of bytes filtered and moved -/

/-- A table from which keys have been dropped reads their default. -/
theorem Tab.get_filter_key {α : Type} (d : α) (p : Nat → Bool) (t : Tab α) (i : Nat) :
    Tab.get d (t.filter fun e => p e.1) i = if p i then Tab.get d t i else d := by
  induction t with
  | nil => simp [Tab.get]
  | cons e t ih =>
    obtain ⟨k, v⟩ := e
    rw [List.filter_cons]
    by_cases same : i = k
    · subst same
      cases keep : p i <;> simp [Tab.get, ih, keep]
    · split <;> simp [Tab.get, ih, same]

/-- A key that is not listed reads the default. -/
theorem Tab.get_unlisted {α : Type} (d : α) (t : Tab α) (i : Nat) (h : ∀ e ∈ t, e.1 ≠ i) : Tab.get d t i = d := by
  induction t with
  | nil => rfl
  | cons e t ih =>
    rw [Tab.get, if_neg (Ne.symm (h e (List.mem_cons_self ..)))]
    exact ih fun x member => h x (List.mem_cons_of_mem _ member)

/-- The key of the first entry of a rising table is not listed again. -/
theorem Tab.get_head_of_rising {α : Type} (d : α) {e : Nat × α} {t : Tab α} (h : Tab.rising (e :: t) = true) :
    Tab.get d t e.1 = d :=
  Tab.get_unlisted d t _ fun x member => Nat.ne_of_gt (((Tab.rising_cons e t).1 h).1 x member)

/-- What stands at `a` after each byte listed has been put at the address that `f` gives it: the last that goes to `a`. -/
theorem get_foldl_set (f : Nat → Nat) (t acc : List Host.Cell) (a : Nat) :
    Tab.get 0 (t.foldl (fun acc e => Tab.set 0 acc (f e.1) e.2) acc) a =
      t.foldl (fun v e => if f e.1 = a then e.2 else v) (Tab.get 0 acc a) := by
  induction t generalizing acc with
  | nil => rfl
  | cons e t ih =>
    simp only [List.foldl_cons, ih, Tab.get_set]
    congr 1
    simp only [eq_comm]

/-- What stands at `a` after each byte listed has been added, without carry, to the one at the address that `f` gives it. -/
theorem get_foldl_xor (f : Nat → Nat) (t acc : List Host.Cell) (a : Nat) :
    Tab.get 0 (t.foldl (fun acc e => Tab.set 0 acc (f e.1) (Tab.get 0 acc (f e.1) ^^^ e.2)) acc) a =
      t.foldl (fun v e => if f e.1 = a then v ^^^ e.2 else v) (Tab.get 0 acc a) := by
  induction t generalizing acc with
  | nil => rfl
  | cons e t ih =>
    simp only [List.foldl_cons, ih, Tab.get_set]
    congr 1
    by_cases same : f e.1 = a
    · simp [same]
    · simp [same, Ne.symm same]

/-- Entries of other keys add nothing. -/
theorem foldl_if_none {α β : Type} (f : α → β → α) (p : β → Prop) [DecidablePred p] (t : List β) (v : α)
    (none_ : ∀ e ∈ t, ¬ p e) : t.foldl (fun v e => if p e then f v e else v) v = v := by
  induction t with
  | nil => rfl
  | cons e t ih =>
    rw [List.foldl_cons, if_neg (none_ e (List.mem_cons_self ..))]
    exact ih fun x member => none_ x (List.mem_cons_of_mem _ member)

/-- Where the one key `x` goes to `a`, what goes there is what the table reads at `x`. -/
theorem foldl_pick (p : Nat → Prop) [DecidablePred p] (t : List Host.Cell) (x : Nat) (rising : Tab.rising t = true)
    (one : ∀ e ∈ t, p e.1 ↔ e.1 = x) : t.foldl (fun v e => if p e.1 then e.2 else v) 0 = Tab.get 0 t x := by
  induction t with
  | nil => rfl
  | cons e t ih =>
    obtain ⟨above, rest⟩ := (Tab.rising_cons e t).1 rising
    have one' := fun y member => one y (List.mem_cons_of_mem e member)
    rw [List.foldl_cons, Tab.get]
    by_cases here : e.1 = x
    · rw [if_pos ((one e (List.mem_cons_self ..)).2 here), if_pos here.symm]
      exact foldl_if_none (fun _ e => e.2) (fun e => p e.1) t _ fun y member goes =>
        absurd ((one' y member).1 goes) (here ▸ Nat.ne_of_gt (above y member))
    · rw [if_neg (mt (one e (List.mem_cons_self ..)).1 here), if_neg (Ne.symm here)]
      exact ih rest one'

theorem foldl_xor_ite {n : Nat} (f : Nat → BitVec n) (k : Nat) (b : BitVec n) (l : List Nat) (v : BitVec n) (distinct : l.Nodup) :
    l.foldl (fun v x => v ^^^ if x = k then b else f x) v =
      if k ∈ l then l.foldl (fun v x => v ^^^ if x = k then 0#n else f x) (v ^^^ b) else l.foldl (fun v x => v ^^^ f x) v := by
  induction l generalizing v with
  | nil => rfl
  | cons y l ih =>
    obtain ⟨fresh, distinct⟩ := List.nodup_cons.1 distinct
    simp only [List.foldl_cons, List.mem_cons]
    by_cases same : y = k
    · subst same
      rw [ih _ distinct, if_neg fresh, if_pos rfl, if_pos (.inl rfl), if_pos rfl, BitVec.xor_zero]
      exact List.foldl_ext _ _ _ fun v x member => by rw [if_neg (ne_of_mem_of_not_mem member fresh)]
    · rw [ih _ distinct, if_neg same, if_neg same]
      simp only [Ne.symm same, false_or]
      split
      · congr 1
        rw [BitVec.xor_assoc, BitVec.xor_assoc, BitVec.xor_comm b]
      · rfl

/-- The bytes whose keys go to one place add up to what the table reads at all the keys that go there. -/
theorem foldl_gather (p : Nat → Prop) [DecidablePred p] (t : List Host.Cell) (keys : List Nat) (v : Byte)
    (rising : Tab.rising t = true) (distinct : keys.Nodup) (all : ∀ e ∈ t, p e.1 ↔ e.1 ∈ keys) :
    t.foldl (fun v e => if p e.1 then v ^^^ e.2 else v) v = keys.foldl (fun v x => v ^^^ Tab.get 0 t x) v := by
  induction t generalizing v with
  | nil => exact (List.foldl_fixed' (fun _ => BitVec.xor_zero) keys).symm
  | cons e t ih =>
    obtain ⟨-, rest⟩ := (Tab.rising_cons e t).1 rising
    have all' := fun y member => all y (List.mem_cons_of_mem e member)
    have split : keys.foldl (fun v x => v ^^^ Tab.get 0 (e :: t) x) v =
        if e.1 ∈ keys then keys.foldl (fun v x => v ^^^ Tab.get 0 t x) (v ^^^ e.2)
        else keys.foldl (fun v x => v ^^^ Tab.get 0 t x) v := by
      refine (foldl_xor_ite (Tab.get 0 t) e.1 e.2 keys v distinct).trans ?_
      congr 1
      refine List.foldl_ext _ _ _ fun v x _ => ?_
      by_cases same : x = e.1
      · rw [if_pos same, same, Tab.get_head_of_rising 0 rising]
        rfl
      · rw [if_neg same]
    rw [split, List.foldl_cons]
    by_cases here : p e.1
    · rw [if_pos here, if_pos ((all e (List.mem_cons_self ..)).1 here), ih _ rest all']
    · rw [if_neg here, if_neg (mt (all e (List.mem_cons_self ..)).2 here), ih _ rest all']

/-! ## The fill of a region (R333, R335) -/

/-- The bytes of a range cleared. -/
theorem get_cleared (c : List Host.Cell) (lo hi a : Nat) :
    Tab.get 0 (c.filter fun e => !(decide (lo ≤ e.1) && decide (e.1 < hi))) a =
      if lo ≤ a ∧ a < hi then 0 else Tab.get 0 c a := by
  rw [Tab.get_filter_key 0 (fun k => !(decide (lo ≤ k) && decide (k < hi)))]
  by_cases inside : lo ≤ a ∧ a < hi
  · simp [inside]
  · have kept : (!(decide (lo ≤ a) && decide (a < hi))) = true := by simpa [-not_and, not_and_or] using inside
    rw [if_neg inside, if_pos kept]

/-- The bytes of a range alone. -/
theorem get_range (c : List Host.Cell) (lo hi a : Nat) (inside : lo ≤ a ∧ a < hi) :
    Tab.get 0 (c.filter fun e => decide (lo ≤ e.1) && decide (e.1 < hi)) a = Tab.get 0 c a := by
  rw [Tab.get_filter_key 0 (fun k => decide (lo ≤ k) && decide (k < hi)), if_pos (by simpa using inside)]

theorem mem_range_filter {c : List Host.Cell} {lo hi : Nat} {e : Host.Cell}
    (member : e ∈ c.filter fun e => decide (lo ≤ e.1) && decide (e.1 < hi)) : lo ≤ e.1 ∧ e.1 < hi := by
  simpa using (List.mem_filter.1 member).2

/-- R335: a range filled from another. -/
theorem get_moveCells (c : List Host.Cell) (src dst n a : Nat) (rising : Tab.rising c = true) :
    Tab.get 0 (moveCells c src dst n) a =
      if dst ≤ a ∧ a < dst + n then Tab.get 0 c (src + (a - dst)) else Tab.get 0 c a := by
  rw [moveCells, get_foldl_set (fun k => k - src + dst), get_cleared]
  by_cases inside : dst ≤ a ∧ a < dst + n
  · rw [if_pos inside, if_pos inside, ← get_range c src (src + n) (src + (a - dst)) (by omega)]
    refine foldl_pick (fun k => k - src + dst = a) _ _ (Tab.rising_filter _ _ rising) fun e member => ?_
    have := mem_range_filter member
    omega
  · rw [if_neg inside, if_neg inside]
    refine foldl_if_none (fun _ e => e.2) (fun e : Host.Cell => e.1 - src + dst = a) _ _ fun e member => ?_
    have := mem_range_filter member
    omega

/-- The offsets of a region's data that belong to offset `k` of its parity. -/
theorem mod_eq_iff_mem {o S k : Nat} (below : o < 7 * S) (hk : k < S) :
    o % S = k ↔ o ∈ (List.range 7).map fun i => i * S + k := by
  have positive : 0 < S := by omega
  constructor
  · intro h
    refine List.mem_map.2 ⟨o / S, List.mem_range.2 (Nat.div_lt_of_lt_mul (by rwa [Nat.mul_comm])), ?_⟩
    rw [← h, Nat.mul_comm]
    exact Nat.div_add_mod o S
  · intro member
    obtain ⟨i, -, rfl⟩ := List.mem_map.1 member
    rw [Nat.mul_comm, Nat.mul_add_mod, Nat.mod_eq_of_lt hk]

/-- R333: the parity part of a region is the exclusive or of its groups. -/
theorem get_setParity (c : List Host.Cell) (base S a : Nat) (rising : Tab.rising c = true) :
    Tab.get 0 (setParity c base S) a =
      if base + 7 * S ≤ a ∧ a < base + 7 * S + S then
        (List.range 7).foldl (fun v i => v ^^^ Tab.get 0 c (base + i * S + (a - (base + 7 * S)))) 0
      else Tab.get 0 c a := by
  rw [setParity, get_foldl_xor (fun k => base + 7 * S + (k - base) % S), get_cleared]
  by_cases inside : base + 7 * S ≤ a ∧ a < base + 7 * S + S
  · obtain ⟨k, rfl⟩ : ∃ k, a = base + 7 * S + k := ⟨a - (base + 7 * S), by omega⟩
    have hk : k < S := by omega
    let keys := (List.range 7).map fun i => base + (i * S + k)
    have distinct : keys.Nodup := by
      refine List.Nodup.map (fun i j same => ?_) List.nodup_range
      exact Nat.eq_of_mul_eq_mul_right (by omega : 0 < S) (by simpa using same)
    rw [if_pos inside, if_pos inside, foldl_gather (fun x => base + 7 * S + (x - base) % S = base + 7 * S + k) _ keys 0
      (Tab.rising_filter _ _ rising) distinct, List.foldl_map]
    · refine List.foldl_ext _ _ _ fun v i member => ?_
      have below : i * S ≤ 6 * S := Nat.mul_le_mul_right S (by have := List.mem_range.1 member; omega)
      rw [get_range _ _ _ _ (by omega), Nat.add_sub_cancel_left, Nat.add_assoc]
    · intro e member
      obtain ⟨low, high⟩ := mem_range_filter member
      obtain ⟨o, ho⟩ : ∃ o, e.1 = base + o := ⟨e.1 - base, by omega⟩
      rw [ho, Nat.add_sub_cancel_left, Nat.add_left_cancel_iff, mod_eq_iff_mem (by omega) hk]
      simp only [keys, List.mem_map, Nat.add_left_cancel_iff]
  · rw [if_neg inside, if_neg inside]
    refine foldl_if_none (fun v e => v ^^^ e.2) (fun e : Host.Cell => base + 7 * S + (e.1 - base) % S = a) _ _ fun e member => ?_
    obtain ⟨low, high⟩ := mem_range_filter member
    have := Nat.mod_lt (e.1 - base) (by omega : 0 < S)
    omega

/-- R333, R335: the cells after the fill of a region. -/
theorem Mem.cells_fillRegion (m : Mem) (e : RegionEnt) : (m.fillRegion e).cells =
    if e.kind = 1 then setParity m.cells e.base (e.size * 0x200000)
    else if e.kind = 2 then moveCells m.cells e.copy e.base (regionSpan e) else m.cells := by
  have poisoned : ((m.uncorr.filter fun r => (e.spoils r).isSome).foldl Mem.poison m).cells = m.cells :=
    Mem.foldl_keeps Mem.cells Mem.poison (fun _ _ => rfl) _ m
  rw [Mem.fillRegion]
  dsimp only
  rw [poisoned]

theorem regionLoad_ends (s : State) (l : List RegionEnt) (loading : s.mem.regionsIn = some l) :
    ∃ u, exec .regionTableLoadComplete s = .next u ∧ u.mem.regionsIn = none ∧
      u.mem.regions = l.filter (fun e => e.kind ≠ 0) ∧ u.cores = s.cores ∧ u.mem.cells = (l.foldl Mem.fillRegion s.mem).cells := by
  refine ⟨s.tregDone, rfl, ?_⟩
  rw [State.tregDone, Mem.loadRegions, loading]
  exact ⟨rfl, rfl, rfl, rfl⟩

/-- Settles O50: the parts above, and the fill of the one region of a table. -/
theorem moduleRegisters : Obligations.ModuleRegisters := by
  intro s c v
  refine ⟨fun hc cmp => firmwareRequest_ors s c v cmp hc, ?ramp, tkey7_installs s c v, tregWrite_checks s c v, ?idle, ?load⟩
  case ramp =>
    refine ⟨s.setRamp v, rfl, ?_, ?_, s.hub.caughtUp_cap, rfl, rfl⟩
    · rw [← fld_eq_bitsOf, ← clampRamp_eq]
      rfl
    · rw [← fld_eq_bitsOf, ← clampRamp_eq]
      rfl
  case idle =>
    intro none_
    rw [exec_regionTableLoadComplete, execRegionTableLoadComplete, State.tregDone, Mem.loadRegions, none_]
  case load =>
    intro l loading
    obtain ⟨u, run, ended, regions, cores, cells⟩ := regionLoad_ends s l loading
    refine ⟨u, run, ended, regions, cores, ?_⟩
    rintro e rfl canonical S
    have rising : Tab.rising s.mem.cells = true := ((Tab.canonical_iff _ _).1 ((Mem.wf_iff _).1 canonical).1).1
    have cells : u.mem.cells = _ := cells.trans (s.mem.cells_fillRegion e)
    refine ⟨fun parity => ?_, fun copy => ?_⟩
    · have at_ (a : Nat) := (congrArg (fun c => Tab.get 0 c a) (cells.trans (if_pos parity))).trans
        (get_setParity s.mem.cells e.base S a rising)
      refine ⟨fun k hk => ?_, fun a outside => (at_ a).trans (if_neg (by omega))⟩
      have byte := (at_ (e.base + 7 * S + k)).trans (if_pos (by omega))
      rwa [Nat.add_sub_cancel_left] at byte
    · have span : regionSpan e = S := if_neg (by rw [copy]; decide)
      have at_ (a : Nat) := (congrArg (fun c => Tab.get 0 c a) (cells.trans ((if_neg (by rw [copy]; decide)).trans
        (if_pos copy)))).trans (get_moveCells s.mem.cells e.copy e.base (regionSpan e) a rising)
      rw [span] at at_
      refine ⟨fun k hk => ?_, fun a outside => (at_ a).trans (if_neg outside)⟩
      have byte := (at_ (e.base + k)).trans (if_pos (by omega))
      rwa [Nat.add_sub_cancel_left] at byte

end Sys2Proof.Machine
end


section
/-! SUPPORT. Proof of the statement on phase (O23): what the work at the homes leaves, and what a write-back, a publication
and a snapshot make of one write of the log. -/

namespace Sys2Proof.Machine

/-! ## What the work at the homes leaves (R334, R343, R344) -/

/-- Memory after work at the homes: its bytes and what concerns their errors may be new, and no more rows are uncorrectable. -/
structure Mem.HomeOnly (m n : Mem) : Prop where
  rest : n = { m with
    cells := n.cells, bad := n.bad, uncorr := n.uncorr, diffs := n.diffs, reports := n.reports, recoveries := n.recoveries,
    remapM := n.remapM, remapA := n.remapA, remapB := n.remapB, corrected := n.corrected }
  uncorr : ∀ x ∈ n.uncorr, x ∈ m.uncorr

theorem Mem.HomeOnly.refl (m : Mem) : m.HomeOnly m := ⟨rfl, fun _ => id⟩

theorem Mem.HomeOnly.trans {m n k : Mem} (h : m.HomeOnly n) (h' : n.HomeOnly k) : m.HomeOnly k :=
  ⟨by rw [h'.rest, h.rest], fun x member => h.uncorr x (h'.uncorr x member)⟩

theorem mem_removeNat {l : List Nat} {i x : Nat} (h : x ∈ removeNat l i) : x ∈ l := List.mem_of_mem_filter h

theorem Mem.homeOnly_remap (m : Mem) (c p b d : Nat) : m.HomeOnly (m.remap c p b d) := by
  unfold Mem.remap
  dsimp only
  split <;> exact ⟨rfl, fun _ => id⟩

theorem Mem.homeOnly_recovered (m : Mem) (r : Nat) (v : Row) : m.HomeOnly (m.recovered r v) :=
  Mem.HomeOnly.trans (n := { m.setHome r v with bad := removeNat m.bad r, recoveries := m.recoveries + 1 })
    ⟨rfl, fun _ => id⟩ (Mem.homeOnly_remap _ _ _ _ _)

theorem Mem.homeOnly_foldl {α : Type} (f : Mem → α → Mem) (h : ∀ (m : Mem) x, m.HomeOnly (f m x)) (l : List α) (m : Mem) :
    m.HomeOnly (l.foldl f m) := by
  induction l generalizing m with
  | nil => exact .refl m
  | cons x t ih => exact (h m x).trans (ih (f m x))

theorem Mem.homeOnly_settleGroup (m : Mem) (g : List Nat) : m.HomeOnly (m.settleGroup g) :=
  Mem.HomeOnly.trans (n := { m with diffs := m.diffs.filter fun d => !g.contains d.1 })
    ⟨rfl, fun _ => id⟩ (Mem.homeOnly_foldl Mem.applyDiff (fun _ _ => ⟨rfl, fun _ => id⟩) _ _)

/-- R343: a recovery, in whichever way. -/
theorem Mem.homeOnly_recover (m : Mem) (r : Nat) : m.HomeOnly (m.recover r) := by
  have begun : m.HomeOnly { m with uncorr := removeNat m.uncorr r } := ⟨rfl, fun _ => mem_removeNat⟩
  have poisoned (n : Mem) : n.HomeOnly (n.poison r) := ⟨rfl, fun _ => id⟩
  unfold Mem.recover
  dsimp only
  split
  · split
    · exact begun.trans ((Mem.homeOnly_settleGroup _ _).trans (poisoned _))
    · exact begun.trans ((Mem.homeOnly_settleGroup _ _).trans (Mem.homeOnly_recovered _ _ _))
  · split
    · split
      · exact begun.trans (poisoned _)
      · exact begun.trans (Mem.homeOnly_recovered _ _ _)
    · exact begun.trans (poisoned _)

/-- R334: a row performed at its home. -/
theorem Mem.homeOnly_perform (m : Mem) (r : Nat) (v : Row) : m.HomeOnly (m.perform r v) := by
  unfold Mem.perform
  split
  · dsimp only
    split
    · exact (m.homeOnly_recover r).trans ⟨rfl, fun _ => id⟩
    · exact ⟨rfl, fun _ => id⟩
  · exact ⟨rfl, fun _ => mem_removeNat⟩

/-! ## One write through a write-back (R251, R378) -/

/-- A write is the dirty line of its row that is written back next. -/
def Mem.NextBack (m : Mem) (x : WriteRec) : Prop := (m.recs x.row).find? (fun w => w.dirty) = some x

/-- The write y of n is the write x of m later, the same but for being clean. -/
structure Mem.Carries (m n : Mem) (x y : WriteRec) : Prop where
  member : y ∈ n.log
  same : y = { x with dirty := y.dirty, homed := y.homed }
  clean : x.dirty = false → y.dirty = false
  next : m.NextBack x → y.dirty = false ∨ n.NextBack y

theorem Mem.Carries.trans {m n k : Mem} {x y z : WriteRec} (h : m.Carries n x y) (h' : n.Carries k y z)
    (stays : y.dirty = false → z.dirty = false) : m.Carries k x z where
  member := h'.member
  same := by rw [h'.same, h.same]
  clean := fun c => stays (h.clean c)
  next := fun first => (h.next first).elim (fun c => .inl (stays c)) h'.next

/-- The first element with a property stays the first under a change that gives no earlier element the property. -/
theorem find?_map_append {α : Type} (p : α → Bool) (f : α → α) (l k : List α) (x : α) (found : l.find? p = some x)
    (none_ : ∀ y, p y = false → p (f y) = false) (holds : p (f x) = true) : (l.map f ++ k).find? p = some (f x) := by
  obtain ⟨-, before, after, rfl, clean⟩ := List.find?_eq_some_iff_append.1 found
  refine List.find?_eq_some_iff_append.2 ⟨holds, before.map f, after.map f ++ k, by simp, fun y member => ?_⟩
  obtain ⟨z, hz, rfl⟩ := List.mem_map.1 member
  simpa using none_ z (by simpa using clean z hz)

/-- A log of which the writes are changed alike, and to which others are added. -/
theorem Mem.carries_map {m n : Mem} (f : WriteRec → WriteRec) (k : List WriteRec) (log : n.log = m.log.map f ++ k)
    (same : ∀ w, f w = { w with dirty := (f w).dirty, homed := (f w).homed }) (clean : ∀ w, w.dirty = false → (f w).dirty = false)
    {x : WriteRec} (member : x ∈ m.log) : m.Carries n x (f x) := by
  have row (w : WriteRec) : (f w).row = w.row := by rw [same]
  refine ⟨by rw [log]; exact List.mem_append_left _ (List.mem_map_of_mem member), same x, clean x, fun first => ?_⟩
  cases dirty : (f x).dirty with
  | false => exact .inl rfl
  | true =>
    have recs : n.recs x.row = (m.recs x.row).map f ++ k.filter fun w => w.row = x.row := by
      simp [Mem.recs, log, List.filter_map, Function.comp_def, row]
    right
    rw [Mem.NextBack, row, recs]
    exact find?_map_append _ f _ _ x first clean dirty

/-- The log after a write-back: its line clean, and behind the others once more where a later write had been performed. -/
theorem Mem.writeBack_log {m : Mem} {r : Nat} {w : WriteRec} (line : (m.recs r).find? (fun w => w.dirty) = some w) :
    ∃ (late : Bool) (k : List WriteRec), (m.writeBack r).log = m.log.map (fun x =>
      if x.ident = w.ident then { x with dirty := false, homed := x.homed || !late } else x) ++ k := by
  rw [Mem.writeBack, line]
  dsimp only
  split
  · exact ⟨_, _, rfl⟩
  · exact ⟨_, [], (List.append_nil _).symm⟩

/-- A write-back carries each write on, and leaves the next one of its row clean. -/
theorem Mem.carries_writeBack (m : Mem) (r : Nat) {x : WriteRec} (member : x ∈ m.log) :
    ∃ y, m.Carries (m.writeBack r) x y ∧ (m.NextBack x → x.row = r → y.dirty = false) := by
  cases line : (m.recs r).find? (fun w => w.dirty) with
  | none =>
    refine ⟨x, ?_, fun first here => ?_⟩
    · have stays : m.writeBack r = m := by rw [Mem.writeBack, line]
      rw [stays]
      exact ⟨member, rfl, id, .inr⟩
    · rw [Mem.NextBack, here, line] at first
      cases first
  | some w =>
    obtain ⟨late, k, log⟩ := Mem.writeBack_log line
    refine ⟨_, Mem.carries_map _ k log (fun w => by split <;> rfl) (fun w clean => ?_) member, fun first here => ?_⟩
    · split
      · rfl
      · exact clean
    · rw [Mem.NextBack, here, line] at first
      cases first
      rw [if_pos rfl]

/-- So do the write-backs of a list of rows. -/
theorem Mem.carries_writeBacks (rows : List Nat) (m : Mem) {x : WriteRec} (member : x ∈ m.log) :
    ∃ y, m.Carries (rows.foldl Mem.writeBack m) x y ∧ (m.NextBack x → x.row ∈ rows → y.dirty = false) := by
  induction rows generalizing m x with
  | nil => exact ⟨x, ⟨member, rfl, id, .inr⟩, fun _ none_ => absurd none_ List.not_mem_nil⟩
  | cons r rows ih =>
    obtain ⟨y, back, cleans⟩ := m.carries_writeBack r member
    obtain ⟨z, rest, later⟩ := ih (m.writeBack r) back.member
    have row : y.row = x.row := by rw [back.same]
    refine ⟨z, back.trans rest rest.clean, fun first listed => ?_⟩
    rcases List.mem_cons.1 listed with here | listed
    · exact rest.clean (cleans first here)
    · rcases back.next first with clean | first'
      · exact rest.clean clean
      · exact later first' (row ▸ listed)

/-- A write-back leaves what is on its way, and what is durable. -/
theorem Mem.posted_writeBack (m : Mem) (r : Nat) : (m.writeBack r).posted = m.posted := by
  unfold Mem.writeBack
  split
  · rfl
  next w _ =>
    have kept : (m.perform r w.val).posted = m.posted := by rw [(m.homeOnly_perform r w.val).rest]
    exact kept

/-! ## A publication (R235, R250, R251) -/

/-- Memory with a publication recorded: what is published is marked, and so is what its publisher has posted. -/
def Mem.marked (m : Mem) (a : Agent) (sc : Scope) : Mem :=
  let mark (b : Agent) (p : Option Nat) : Option Nat := if b = sc.who ∧ p = none then some m.nextId else p
  { m with
    nextId := m.nextId + 1,
    posted := m.posted.map (fun p => { p with pub := mark p.by_ p.pub }),
    adds := m.adds.map (fun p => { p with pub := mark p.by_ p.pub }),
    log := m.log.map fun w => if w.inView a then { w with pub := w.pub ++ [(sc, m.nextId)] } else w }

/-- Then, at PKG or wider, its lines are written back. -/
def Mem.cleaned (m : Mem) (a : Agent) (sc : Scope) : Mem :=
  if wideScope sc.code then ((m.marked a sc).dirtySeen a).foldl Mem.writeBack (m.marked a sc) else m.marked a sc

/-- Then, at TIER, its rows of the capacity tier become durable. -/
theorem Mem.publish_eq (m : Mem) (a : Agent) (sc : Scope) : m.publish a sc =
    if sc.code = 11 then ((m.cleaned a sc).tierRows a).foldl Mem.harden (m.cleaned a sc) else m.cleaned a sc := rfl

theorem Mem.log_hardens (rows : List Nat) (m : Mem) : (rows.foldl Mem.harden m).log = m.log :=
  Mem.foldl_keeps Mem.log Mem.harden (fun _ _ => rfl) rows m

theorem Mem.cells_hardens (rows : List Nat) (m : Mem) : (rows.foldl Mem.harden m).cells = m.cells :=
  Mem.foldl_keeps Mem.cells Mem.harden (fun _ _ => rfl) rows m

theorem Mem.log_publish (m : Mem) (a : Agent) (sc : Scope) : (m.publish a sc).log = (m.cleaned a sc).log := by
  rw [Mem.publish_eq]
  split
  · exact Mem.log_hardens _ _
  · rfl

theorem Mem.cells_publish (m : Mem) (a : Agent) (sc : Scope) : (m.publish a sc).cells = (m.cleaned a sc).cells := by
  rw [Mem.publish_eq]
  split
  · exact Mem.cells_hardens _ _
  · rfl

theorem Mem.posted_publish (m : Mem) (a : Agent) (sc : Scope) : (m.publish a sc).posted = (m.marked a sc).posted := by
  have cleaned : (m.cleaned a sc).posted = (m.marked a sc).posted := by
    unfold Mem.cleaned
    split
    · exact Mem.foldl_keeps Mem.posted Mem.writeBack Mem.posted_writeBack _ _
    · rfl
  rw [Mem.publish_eq, ← cleaned]
  split
  · exact Mem.foldl_keeps Mem.posted Mem.harden (fun _ _ => rfl) _ _
  · rfl

/-- R152: an operation that its publisher has posted is marked. -/
theorem Mem.publish_marks (m : Mem) (a : Agent) (sc : Scope) {p : Posted} (member : p ∈ m.posted) :
    ∃ q ∈ (m.publish a sc).posted, q = { p with pub := if p.by_ = sc.who ∧ p.pub = none then some m.nextId else p.pub } := by
  rw [Mem.posted_publish]
  exact ⟨_, List.mem_map_of_mem member, rfl⟩

/-- R235: a write in the agent's view is in the log after the publication, published, and at PKG or wider the dirty line of
its row is clean. -/
theorem Mem.publish_carries (m : Mem) (a : Agent) (sc : Scope) {e : WriteRec} (member : e ∈ m.log) (seen : e.inView a = true) :
    ∃ y ∈ (m.publish a sc).log, y.ident = e.ident ∧ y.row = e.row ∧ y.inView a = true ∧ (sc, m.nextId) ∈ y.pub ∧
      (wideScope sc.code = true → m.NextBack e → y.dirty = false) := by
  let mark (w : WriteRec) : WriteRec := if w.inView a then { w with pub := w.pub ++ [(sc, m.nextId)] } else w
  have marked : mark e = { e with pub := e.pub ++ [(sc, m.nextId)] } := if_pos seen
  have row (w : WriteRec) : (mark w).row = w.row := by unfold mark; split <;> rfl
  have dirty (w : WriteRec) : (mark w).dirty = w.dirty := by unfold mark; split <;> rfl
  have member1 : mark e ∈ (m.marked a sc).log := List.mem_map_of_mem member
  have first1 (first : m.NextBack e) : (m.marked a sc).NextBack (mark e) := by
    have recs : (m.marked a sc).recs e.row = (m.recs e.row).map mark ++ [] := by
      rw [List.append_nil, Mem.recs, Mem.recs, Mem.marked, List.filter_map]
      congr 2
      funext w
      exact congrArg (fun r => decide (r = e.row)) (row w)
    rw [Mem.NextBack, row, recs]
    refine find?_map_append _ mark _ _ e first (fun w clean => (dirty w).trans clean) ?_
    rw [dirty]
    exact (List.find?_eq_some_iff_append.1 first).1
  rw [Mem.log_publish, Mem.cleaned]
  cases wide : wideScope sc.code with
  | false =>
    rw [if_neg Bool.false_ne_true]
    exact ⟨mark e, member1, by rw [marked], row e, by rw [marked]; exact seen, by rw [marked]; simp, fun h => absurd h Bool.false_ne_true⟩
  | true =>
    rw [if_pos rfl]
    obtain ⟨y, carries, cleans⟩ := Mem.carries_writeBacks ((m.marked a sc).dirtySeen a) _ member1
    have same : y = { e with pub := e.pub ++ [(sc, m.nextId)], dirty := y.dirty, homed := y.homed } := by
      rw [carries.same, marked]
    refine ⟨y, carries.member, by rw [same], by rw [same], by rw [same]; exact seen, by rw [same]; simp, fun _ first => ?_⟩
    refine cleans (first1 first) (List.mem_map.2 ⟨mark e, List.mem_filter.2 ⟨member1, ?_⟩, rfl⟩)
    have isDirty : (mark e).dirty = true := (dirty e).trans (List.find?_eq_some_iff_append.1 first).1
    rw [isDirty, marked]
    exact seen

/-! ## What is made durable (R250) -/

/-- A lane of a number laid out in lanes. -/
theorem lanesNat_lane (w : Nat) (l : List Nat) (i : Nat) : lanesNat w l / 2 ^ (w * i) % 2 ^ w = l.getD i 0 % 2 ^ w := by
  induction l generalizing i with
  | nil => simp [lanesNat]
  | cons x t ih =>
    cases i with
    | zero => simp [lanesNat]
    | succ i =>
      have shifted : lanesNat w (x :: t) / 2 ^ w = lanesNat w t := by
        rw [lanesNat, Nat.add_mul_div_left _ _ (Nat.two_pow_pos w), Nat.div_eq_of_lt (Nat.mod_lt _ (Nat.two_pow_pos w)),
          Nat.zero_add]
      rw [Nat.mul_succ, Nat.add_comm, Nat.pow_add, ← Nat.div_div_eq_div_mul, shifted, ih, List.getD_cons_succ]

/-- A lane of a row given by its lanes. -/
theorem extract_ofLanes (w : Nat) (l : List Nat) (i : Nat) (inside : w * i + w ≤ 512) :
    ((ofLanes w l).extractLsb' (w * i) w).toNat = l.getD i 0 % 2 ^ w := by
  rw [BitVec.extractLsb'_toNat, ofLanes, BitVec.toNat_ofNat, Nat.shiftRight_eq_div_pow, ← lanesNat_lane]
  obtain ⟨k, hk⟩ := Nat.exists_eq_add_of_le inside
  rw [hk, Nat.add_assoc, Nat.pow_add, Nat.mod_mul_right_div_self, Nat.pow_add, Nat.mod_mul_right_mod]

/-- A byte of a row at its home. -/
theorem Mem.extract_home (m : Mem) (r i : Nat) (hi : i < 64) : (m.home r).extractLsb' (8 * i) 8 = m.byte (64 * r + i) := by
  apply BitVec.eq_of_toNat_eq
  rw [Mem.home, extract_ofLanes 8 _ i (by omega), List.getD_eq_getElem _ _ (by simpa using hi), List.getElem_map,
    List.getElem_range]
  exact Nat.mod_eq_of_lt (m.byte _).isLt

/-- R250: a row made durable. -/
theorem Mem.durable_harden (m : Mem) (r a : Nat) :
    Tab.get 0 (m.harden r).durable a = if a / 64 = r then m.byte a else Tab.get 0 m.durable a := by
  simp only [Mem.harden, get_putBytes, rowByteList_length]
  by_cases here : a / 64 = r
  · have inside : 64 * r ≤ a ∧ a < 64 * r + 64 := by omega
    have byte := m.extract_home r (a - 64 * r) (by omega)
    rw [dif_pos inside, if_pos here]
    simp only [rowByteList, List.getElem_map, List.getElem_range, byte]
    rw [Nat.add_sub_cancel' inside.1]
  · rw [dif_neg (by omega), if_neg here]

/-- The rows listed are durable as they stand, whatever was durable before. -/
theorem Mem.durable_hardens (rows : List Nat) (m : Mem) (a : Nat)
    (h : a / 64 ∈ rows ∨ Tab.get 0 m.durable a = m.byte a) : Tab.get 0 (rows.foldl Mem.harden m).durable a = m.byte a := by
  induction rows generalizing m with
  | nil => exact h.resolve_left List.not_mem_nil
  | cons r rows ih =>
    refine ih (m.harden r) ?_
    rw [Mem.durable_harden]
    by_cases here : a / 64 = r
    · rw [if_pos here]
      exact .inr rfl
    · rw [if_neg here]
      exact h.imp_left fun listed => (List.mem_cons.1 listed).resolve_left here

theorem Mem.durable_publish (m : Mem) (a : Agent) (sc : Scope) (tier : sc.code = 11) {y : WriteRec}
    (member : y ∈ (m.publish a sc).log) (seen : y.inView a = true) (durable : inTier (64 * y.row) 64 = true) (i : Nat)
    (hi : i < 64) : Tab.get 0 (m.publish a sc).durable (64 * y.row + i) = (m.publish a sc).byte (64 * y.row + i) := by
  rw [Mem.log_publish] at member
  have listed : (64 * y.row + i) / 64 ∈ (m.cleaned a sc).tierRows a := by
    rw [show (64 * y.row + i) / 64 = y.row by omega]
    exact List.mem_map.2 ⟨y, List.mem_filter.2 ⟨member, by simp [seen, durable]⟩, rfl⟩
  have hardened : m.publish a sc = ((m.cleaned a sc).tierRows a).foldl Mem.harden (m.cleaned a sc) :=
    (m.publish_eq a sc).trans (if_pos tier)
  rw [Mem.byte_congr (m.cells_publish a sc), hardened]
  exact Mem.durable_hardens _ _ _ (.inl listed)

/-! ## The instruction (R152, R237) -/

theorem WriteRec.inView_addView {w : WriteRec} {a : Agent} (b : Agent) (seen : w.inView a = true) :
    (w.addView b).inView a = true := by
  unfold WriteRec.addView
  split
  · exact seen
  · simp only [WriteRec.inView, Bool.or_eq_true, List.contains_cons] at seen ⊢
    exact seen.imp_left Or.inr

theorem WriteRec.viewed_addView (w : WriteRec) (a : Agent) : (w.addView a).viewed.contains a = true := by
  unfold WriteRec.addView
  split
  · assumption
  · simp

/-- A write with an agent added to those that have it in view, or as it was. -/
theorem WriteRec.addView_same (w : WriteRec) (a : Agent) : w.addView a = { w with viewed := (w.addView a).viewed } := by
  unfold WriteRec.addView
  split <;> rfl

/-- R237: what a snapshot makes of each write. -/
def State.taken (s : State) (a : Agent) (sc : Scope) (w : WriteRec) : WriteRec :=
  if s.reaches w a && (s.member sc w.row w.by_ w.rank || w.pub.any fun p => s.member sc w.row p.1.who p.1.rank) then w.addView a
  else w

theorem State.taken_same (s : State) (a : Agent) (sc : Scope) (w : WriteRec) :
    s.taken a sc w = { w with viewed := (s.taken a sc w).viewed } := by
  unfold State.taken
  split
  · exact w.addView_same a
  · rfl

theorem State.taken_inView (s : State) (a : Agent) (sc : Scope) {w : WriteRec} (seen : w.inView a = true) :
    (s.taken a sc w).inView a = true := by
  unfold State.taken
  split
  · exact w.inView_addView a seen
  · exact seen

@[simp] theorem State.cover_log (s : State) (a : Agent) (scope : Nat) : (s.cover a scope).mem.log = s.mem.log := by
  unfold State.cover
  split <;> rfl

@[simp] theorem State.cover_cells (s : State) (a : Agent) (scope : Nat) : (s.cover a scope).mem.cells = s.mem.cells := by
  unfold State.cover
  split <;> rfl

@[simp] theorem State.cover_durable (s : State) (a : Agent) (scope : Nat) : (s.cover a scope).mem.durable = s.mem.durable := by
  unfold State.cover
  split <;> rfl

/-- R251: a posted operation that a phase covers is marked as wide alone. -/
theorem State.cover_posted (s : State) (a : Agent) (scope : Nat) {p : Posted} (member : p ∈ s.mem.posted) :
    ∃ q ∈ (s.cover a scope).mem.posted, q = { p with wide := q.wide } := by
  unfold State.cover
  split
  · refine ⟨_, List.mem_map_of_mem member, ?_⟩
    split <;> rfl
  · exact ⟨p, member, rfl⟩

theorem State.cover_rest (s : State) (a : Agent) (scope : Nat) : s.cover a scope = { s with mem := (s.cover a scope).mem } := by
  unfold State.cover
  split <;> rfl

theorem wideScope_iff (sc : BitVec 4) : wideScope sc.toNat = true ↔ sc = 4 ∨ sc = 10 ∨ sc = 11 := by
  revert sc
  decide

/-- Settles O23: a phase publishes, snapshots and covers, in this order. -/
theorem phase : Obligations.Phase := by
  intro s g sc guard s1 x
  let u := (s1.snapshot s.agent s.agent sc.toNat).cover s.agent sc.toNat
  have log : u.mem.log = s1.mem.log.map (s1.taken s.agent x) := State.cover_log _ _ _
  have cells : u.mem.cells = s1.mem.cells := State.cover_cells _ _ _
  refine ⟨u, issue_ok g s _ guard, State.cover_rest _ _ _, ?taken, ?published, ?posted, ?narrow, ?durable⟩
  case taken =>
    intro e member reaches within
    refine ⟨s1.taken s.agent x e, log ▸ List.mem_map_of_mem member, by rw [State.taken_same], ?_⟩
    have test : (s1.reaches e s.agent && (s1.member x e.row e.by_ e.rank ||
        e.pub.any fun p => s1.member x e.row p.1.who p.1.rank)) = true := by
      rw [reaches, Bool.true_and, Bool.or_eq_true, List.any_eq_true]
      exact within
    rw [State.taken, if_pos test]
    exact e.viewed_addView s.agent
  case published =>
    intro e member seen
    obtain ⟨y, listed, ident, -, viewed, pub, clean⟩ := s.mem.publish_carries s.agent (s.scopeOf sc.toNat s.agent) member seen
    have same := s1.taken_same s.agent x y
    refine ⟨s1.taken s.agent x y, log ▸ List.mem_map_of_mem listed, by rw [same]; exact ident,
      s1.taken_inView _ _ viewed, ⟨_, by rw [same]; exact pub, rfl, rfl⟩, fun wide first => ?_⟩
    rw [same]
    exact clean ((wideScope_iff sc).2 wide) first
  case posted =>
    intro p member mine
    obtain ⟨q, listed, marked⟩ := s.mem.publish_marks s.agent (s.scopeOf sc.toNat s.agent) member
    obtain ⟨r, listed, same⟩ := State.cover_posted (s1.snapshot s.agent s.agent sc.toNat) s.agent sc.toNat listed
    refine ⟨r, listed, by rw [same, marked], by rw [same, marked]; exact mine, ?_⟩
    have pub : r.pub = if p.by_ = s.agent ∧ p.pub = none then some s.mem.nextId else p.pub := by rw [same, marked]; rfl
    rw [pub]
    split
    · exact Option.some_ne_none _
    next old => exact fun none_ => old ⟨mine, none_⟩
  case narrow =>
    intro notPkg notHost notTier
    have narrow : wideScope sc.toNat = false := Bool.eq_false_iff.2 fun wide =>
      ((wideScope_iff sc).1 wide).elim notPkg fun wide => wide.elim notHost notTier
    have published := s.mem.sameRows_publish s.agent (s.scopeOf sc.toNat s.agent) narrow
    have taken := s1.mem.sameRows_mapLog (s1.taken s.agent x) fun w => by rw [State.taken_same]; exact ⟨rfl, rfl⟩
    have uncovered : u = s1.snapshot s.agent s.agent sc.toNat := if_neg (by simp [narrow])
    rw [uncovered]
    exact ⟨(published.trans taken).byte, (published.trans taken).newest⟩
  case durable =>
    intro tier e member seen inside i hi
    obtain ⟨y, listed, -, row, viewed, -, -⟩ := s.mem.publish_carries s.agent (s.scopeOf sc.toNat s.agent) member seen
    have durable := s.mem.durable_publish s.agent (s.scopeOf sc.toNat s.agent) (by rw [tier]; rfl) listed viewed
      (row ▸ inside) i hi
    rw [row] at durable
    have kept : u.mem.durable = s1.mem.durable := State.cover_durable _ _ _
    rw [kept, Mem.byte_congr cells]
    exact durable

end Sys2Proof.Machine
end

section
/-! SUPPORT. What no operation of the hub, of a queue or of a base die changes in memory: the blocks of the reduction engines
stay, and no further row becomes uncorrectable. -/

namespace Sys2Proof.Machine

/-! ## What memory keeps -/

/-- Memory with the same reduction blocks and no further uncorrectable row. -/
structure Mem.Kept (m n : Mem) : Prop where
  red : n.red = m.red
  uncorr : ∀ x ∈ n.uncorr, x ∈ m.uncorr

theorem Mem.Kept.refl (m : Mem) : m.Kept m := ⟨rfl, fun _ => id⟩

theorem Mem.Kept.of_eq {m n : Mem} (h : n = m) : m.Kept n := h ▸ .refl m

theorem Mem.Kept.trans {m n k : Mem} (h : m.Kept n) (h' : n.Kept k) : m.Kept k :=
  ⟨h'.red.trans h.red, fun x member => h.uncorr x (h'.uncorr x member)⟩

theorem Mem.HomeOnly.kept {m n : Mem} (h : m.HomeOnly n) : m.Kept n := ⟨by rw [h.rest], h.uncorr⟩

theorem Mem.SameRows.kept {m n : Mem} (h : m.SameRows n) : m.Kept n := ⟨by rw [h.rest], fun x member => h.uncorr ▸ member⟩

theorem Mem.kept_foldl {α : Type} (f : Mem → α → Mem) (h : ∀ (m : Mem) x, m.Kept (f m x)) (l : List α) (m : Mem) :
    m.Kept (l.foldl f m) := by
  induction l generalizing m with
  | nil => exact .refl m
  | cons x t ih => exact (h m x).trans (ih (f m x))

theorem State.kept_foldl {α : Type} (f : State → α → State) (h : ∀ (s : State) x, s.mem.Kept (f s x).mem) (l : List α)
    (s : State) : s.mem.Kept (l.foldl f s).mem := by
  induction l generalizing s with
  | nil => exact .refl _
  | cons x t ih => exact (h s x).trans (ih (f s x))

/-! ## Regions, remap tables and rows opened (R332, R343, R345) -/

theorem Mem.kept_fillRegion (m : Mem) (e : RegionEnt) : m.Kept (m.fillRegion e) := by
  have red : ((m.uncorr.filter fun r => (e.spoils r).isSome).foldl Mem.poison m).red = m.red :=
    Mem.foldl_keeps Mem.red Mem.poison (fun _ _ => rfl) _ m
  exact ⟨red, fun x member => List.mem_of_mem_filter member⟩

theorem Mem.kept_loadRegions (m : Mem) : m.Kept m.loadRegions := by
  unfold Mem.loadRegions
  split
  · exact .refl m
  next l _ =>
    have filled := Mem.kept_foldl Mem.fillRegion Mem.kept_fillRegion l m
    exact ⟨filled.red, filled.uncorr⟩

theorem Mem.kept_opened (m : Mem) (pa : Nat) : m.Kept (m.opened pa) := by
  unfold Mem.opened
  extract_lets m1 m2
  have loaded : m.Kept m1 := by
    unfold m1
    split
    · exact m.kept_loadRegions
    · exact .refl m
  have reloaded : m1.Kept m2 := by
    unfold m2
    split
    · exact ⟨rfl, fun _ => id⟩
    · exact .refl m1
  refine loaded.trans (reloaded.trans ?_)
  split
  · exact (m2.homeOnly_recover _).kept
  · exact .refl m2

theorem State.opened_keeps (s : State) (pa : Nat) : s.mem.Kept (s.opened pa).mem := s.mem.kept_opened pa

/-- What is done for a rank keeps of memory what it keeps for none. -/
theorem State.serving_keeps (s : State) (v : Option (BitVec 16)) (k : State → State) (h : ∀ t : State, t.mem.Kept (k t).mem) :
    s.mem.Kept (s.serving v k).mem :=
  h (s.actFor v)

/-! ## Writes at the homes -/

theorem Mem.kept_storeHome (m : Mem) (a : Agent) (k : Option (BitVec 16)) (c : Bool) (r : Nat) (v : Row) :
    m.Kept (m.storeHome a k c r v) := by
  have performed := (m.homeOnly_perform r v).kept
  exact ⟨performed.red, performed.uncorr⟩

theorem Mem.kept_writeBack (m : Mem) (r : Nat) : m.Kept (m.writeBack r) := by
  unfold Mem.writeBack
  split
  · exact .refl m
  next w _ =>
    have performed := (m.homeOnly_perform r w.val).kept
    exact ⟨performed.red, performed.uncorr⟩

theorem Mem.kept_evict (m : Mem) (line : Option (Nat × Nat)) (r : Nat) : m.Kept (m.evict line r) := by
  unfold Mem.evict
  split
  · exact .refl m
  · exact Mem.kept_foldl Mem.writeBack Mem.kept_writeBack _ m

theorem State.writeHome_keeps (s : State) (a : Agent) (c : Bool) (r : Nat) (v : Row) :
    s.mem.Kept (s.writeHome a c r v).mem :=
  (s.sameRows_flushPubs a).kept.trans (Mem.kept_storeHome ..)

theorem State.load_keeps (s : State) (a : Agent) (acc : Acc) (n : Nat) : s.mem.Kept (s.load a acc n).2.2.mem := by
  unfold State.load
  dsimp only
  split
  · exact .refl _
  · split
    · exact (s.mem.sameRows_seeHome _ _).kept
    · exact (s.mem.sameRows_see _ _ _).kept

theorem State.put_keeps (s : State) (a : Agent) (acc : Acc) (v : Row) : s.mem.Kept (s.put a acc v).mem := by
  unfold State.put
  split
  · exact .refl _
  · exact s.writeHome_keeps _ _ _ _

theorem State.putPart_keeps (s : State) (a : Agent) (acc : Acc) (v : Row) : s.mem.Kept (s.putPart a acc v).mem := by
  unfold State.putPart
  split
  · exact ⟨rfl, fun _ => id⟩
  · exact s.put_keeps _ _ _

/-! ## The hub's accesses and flits -/

theorem State.sendFlit_mem (s : State) (dst cls : Nat) (f : Flit) : (s.sendFlit dst cls f).mem = s.mem :=
  (s.sendFlit_kept dst cls f).1

theorem State.askHub_mem (s : State) (acc : Acc) : (s.askHub acc).mem = s.mem := by
  unfold State.askHub
  split
  · rfl
  · exact State.sendFlit_mem ..

theorem State.askHubOnce_mem (s : State) (acc : Acc) (f : Flit) : (s.askHubOnce acc f).mem = s.mem := by
  unfold State.askHubOnce
  dsimp only
  split
  · rfl
  · exact State.sendFlit_mem ..

theorem State.openWalk_keeps (s : State) (k : AccKind) (asid : BitVec 16) (va : Word) (n : Nat) :
    s.mem.Kept (s.openWalk k asid va n).mem := by
  induction n generalizing s with
  | zero => exact .refl _
  | succ n ih =>
    unfold State.openWalk
    split
    next pa _ => exact (s.opened_keeps pa).trans (ih _)
    · exact .refl _

theorem State.openedAt_keeps (s : State) (asid : BitVec 16) (k : AccKind) (va : Word) :
    s.mem.Kept (s.openedAt asid k va).mem := by
  have walked := s.openWalk_keeps k asid va 4
  unfold State.openedAt
  dsimp only
  split
  · split
    · exact walked
    · exact walked.trans (State.opened_keeps _ _)
  · exact walked

theorem State.touch_keeps (s : State) (asid : BitVec 16) (va : Word) : s.mem.Kept (s.touch asid va).mem := by
  have walked := s.openWalk_keeps .read asid va 4
  unfold State.touch State.touchAs
  dsimp only
  split
  · split
    · exact walked.trans (.of_eq (State.askHub_mem _ _))
    next acc _ _ => exact walked.trans ((State.opened_keeps _ acc.pa).trans (State.load_keeps _ _ _ _))
  · exact ⟨walked.red, walked.uncorr⟩
  · exact walked

theorem State.rowsRead_keeps (s : State) (l : List (BitVec 16 × Word)) : s.mem.Kept (s.rowsRead l).mem :=
  State.kept_foldl (fun s (e : BitVec 16 × Word) => s.touch e.1 e.2) (fun s e => s.touch_keeps e.1 e.2) l s

theorem State.rewriteFar_mem (s : State) (acc : Acc) (old new : Row) : (s.rewriteFar acc old new).mem = s.mem := by
  unfold State.rewriteFar
  dsimp only
  split
  · exact State.sendFlit_mem ..
  · refine State.foldl_keeps State.mem _ (fun s j => ?_) _ _
    split
    · rfl
    · exact State.sendFlit_mem ..

theorem State.rewriteAs_keeps (s : State) (a : Agent) (v : Option (BitVec 16)) (asid : BitVec 16) (va : Addr)
    (f : Row → Row) : s.mem.Kept (s.rewriteAs a v asid va f).mem := by
  unfold State.rewriteAs
  split
  · split
    · split
      · exact s.serving_keeps v _ fun t => .of_eq (t.rewriteFar_mem ..)
      · exact .refl _
    next acc _ _ => exact (s.opened_keeps acc.pa).trans (State.serving_keeps _ v _ fun t => t.putPart_keeps ..)
  · exact ⟨rfl, fun _ => id⟩
  · exact .refl _

theorem State.hubRewrite_keeps (s : State) (asid : BitVec 16) (va : Addr) (f : Row → Row) :
    s.mem.Kept (s.hubRewrite asid va f).mem := by
  unfold State.hubRewrite
  split
  · exact .refl _
  · exact s.rewriteAs_keeps _ _ _ _ _

/-! ## Appends and machine checks (R223, R391) -/

theorem State.noteApp_keeps (s : State) (asid : BitVec 16) (e : App) : s.mem.Kept (s.noteApp asid e).mem := by
  unfold State.noteApp
  split
  · exact ⟨rfl, fun _ => id⟩
  · exact .refl _

theorem State.headerOf_mem (s : State) (node : Nat) (asid : BitVec 16) (va : Addr) (row : Row) :
    (s.headerOf node asid va row).2.mem = s.mem := by
  unfold State.headerOf
  dsimp only
  split
  · rfl
  · split <;> rfl

theorem State.queueHdr_keeps (s : State) (asid : BitVec 16) (va : Addr) (acc : Acc) :
    s.mem.Kept (s.queueHdr asid va acc).2.mem :=
  (s.load_keeps _ _ _).trans (.of_eq (State.headerOf_mem ..))

theorem State.putSlot_keeps (s : State) (a : Agent) (slot : Acc) (v : Row) : s.mem.Kept (s.putSlot a slot v).mem := by
  unfold State.putSlot
  split
  · exact (s.sameRows_flushPubs a).kept.trans (.of_eq (State.sendFlit_mem ..))
  · exact s.put_keeps _ _ _

theorem State.noteFirst_mem (s : State) (asid : BitVec 16) (va own : Addr) : (s.noteFirst asid va own).mem = s.mem := by
  unfold State.noteFirst
  split <;> rfl

theorem State.claim_keeps (s : State) (a : Agent) (asid : BitVec 16) (va : Addr) (acc : Acc) (h : QHdr) (ri : Word) :
    s.mem.Kept (s.claim a asid va acc h ri).2.mem := by
  unfold State.claim
  split
  · exact .refl _
  · exact (Mem.Kept.of_eq (s.noteFirst_mem asid va h.own)).trans (State.putPart_keeps _ _ _ _)

theorem State.appendFar_keeps (s : State) (a : Agent) (asid : BitVec 16) (va : Addr) (acc : Acc) (v : Row) :
    s.mem.Kept (s.appendFar a asid va acc v).2.mem := by
  unfold State.appendFar
  dsimp only
  split
  · exact .refl _
  split
  · exact .of_eq (State.askHub_mem _ _)
  next row _ =>
  have header := State.headerOf_mem s acc.leaf.home asid va row
  split
  · exact .of_eq header
  split
  · exact .of_eq header
  split
  · exact .of_eq ((State.askHubOnce_mem _ _ _).trans header)
  split
  · exact (Mem.Kept.of_eq header).trans (State.putSlot_keeps (State.forgetHub _ _) _ _ _)
  · exact .of_eq header

theorem State.appendHere_keeps (s : State) (a : Agent) (asid : BitVec 16) (va : Addr) (acc : Acc) (v : Row)
    (ri : Option Word) (who : Option PortMsg) : s.mem.Kept (s.appendHere a asid va acc v ri who).2.mem := by
  have header := s.queueHdr_keeps asid va acc
  unfold State.appendHere
  dsimp only
  split
  · exact header
  split
  · exact header
  have opened := header.trans ((s.queueHdr asid va acc).2.openedAt_keeps asid .write
    ((s.queueHdr asid va acc).1.slot (s.queueHdr asid va acc).1.wi.toNat))
  split
  · exact opened
  split
  · exact opened.trans (State.touch_keeps _ _ _)
  next ri _ =>
  have claimed := opened.trans (State.claim_keeps _ a asid va acc (s.queueHdr asid va acc).1 ri)
  split
  next found =>
    rw [found] at claimed
    exact claimed
  next slot _ _ _ _ i s1 found =>
    rw [found] at claimed
    exact claimed.trans ((s1.putSlot_keeps a slot _).trans (.of_eq (State.mirror_mem ..)))

theorem State.append_keeps (s : State) (a : Agent) (asid : BitVec 16) (va : Addr) (v : Row) (who : Option PortMsg) :
    s.mem.Kept (s.append a asid va v who).2.mem := by
  let t := (s.openedAt asid .atomic (va.setWidth 64)).actFor (s.asidRank asid)
  have opened : s.mem.Kept t.mem := s.openedAt_keeps asid .atomic (va.setWidth 64)
  have back (u : State) (h : s.mem.Kept u.mem) : s.mem.Kept (u.actFor s.iss.acting).mem := h
  unfold State.append
  dsimp only
  split
  · exact back t opened
  · split
    · exact back _ (opened.trans (t.appendFar_keeps ..))
    · exact back _ (opened.trans (t.appendHere_keeps ..))

theorem State.raiseMc_keeps (s : State) (m : McReport) : s.mem.Kept (s.raiseMc m).mem := by
  unfold State.raiseMc
  extract_lets m s1
  have raised : s1.mem = s.mem := by
    unfold s1
    split <;> rfl
  have appended := (Mem.Kept.of_eq raised).trans
    (s1.append_keeps .queueController 0 mcQueueVa (mcRecord m s.hub.gtime s.hub.mcLost) none)
  split <;> rename_i found <;> rw [found] at appended
  · exact appended
  next _ e s2 _ =>
    have lost := (s2.noteApp_keeps 0 e).trans (.of_eq ((s2.noteApp 0 e).bumpModule_mem 2 false))
    exact appended.trans lost

/-! ## Readiness (R450) -/

theorem State.appendReady_keeps (s : State) (asid : BitVec 16) (rcb rec : Addr) :
    s.mem.Kept (s.appendReady asid rcb rec).2.mem := by
  unfold State.appendReady
  extract_lets rows t pkt
  have read : s.mem.Kept t.mem := s.rowsRead_keeps rows
  split
  · exact read
  next q _ =>
    split
    · exact read
    · have appended := read.trans (t.append_keeps .queueController asid q pkt none)
      split <;> rename_i found <;> rw [found] at appended
      · exact appended.trans (State.hubRewrite_keeps ..)
      · exact appended
      · exact appended
      · exact appended
      next _ e s1 _ _ _ _ =>
        exact appended.trans ((s1.noteApp_keeps asid e).trans (State.hubRewrite_keeps ((s1.noteApp asid e).holdReady asid q pkt) ..))

theorem State.makeReady_keeps (s : State) (die : Nat) (asid : BitVec 16) (rcb rec : Addr) :
    s.mem.Kept (s.makeReady die asid rcb rec).mem := by
  have appended := s.appendReady_keeps asid rcb rec
  unfold State.makeReady
  dsimp only
  split
  · exact appended.trans (State.raiseMc_keeps _ _)
  · exact appended

theorem State.wakeStrand_keeps (s : State) (c : Nat) : s.mem.Kept (s.wakeStrand c).mem := by
  unfold State.wakeStrand
  dsimp only
  split
  · split
    · split
      · exact State.makeReady_keeps (State.setCore s c _) ..
      · exact .refl _
    · exact .refl _
  · exact .refl _

/-! ## Stores, atomics and posted operations -/

theorem State.store_keeps (s : State) (a : Agent) (acc : Acc) (v : Row) : s.mem.Kept (s.store a acc v).mem := by
  unfold State.store
  dsimp only
  split
  · exact .of_eq (State.foldl_mem _ (fun s j => s.hubPut_mem _ _ _) _ _)
  split
  · exact s.writeHome_keeps _ _ _ _
  · have evicted := s.mem.kept_evict (s.lineFor a acc.row) acc.row
    exact ⟨evicted.red, evicted.uncorr⟩

theorem State.storeWord_keeps (s : State) (a : Agent) (acc : Acc) (v : Word) : s.mem.Kept (s.storeWord a acc v).1.mem := by
  unfold State.storeWord
  dsimp only
  split
  · exact .of_eq (s.hubPut_mem _ _ _)
  split
  · exact .refl _
  · exact s.store_keeps _ _ _

theorem State.atomic_keeps (s : State) (a : Agent) (acc : Acc) (op : MemOp) (w32 : Bool) (x cmp : Nat) :
    s.mem.Kept (s.atomic a acc op w32 x cmp).2.2.mem := by
  unfold State.atomic
  dsimp only
  split
  · split
    · exact .refl _
    · split
      · exact .of_eq (s.setFreq_mem _ _)
      · exact .of_eq (s.hubStore_mem _ _ _)
  · split
    · exact .refl _
    · exact s.writeHome_keeps _ _ _ _

theorem State.performAs_keeps (s : State) (p : Posted) : s.mem.Kept (s.performAs p).mem := by
  unfold State.performAs
  extract_lets acc
  split
  · exact s.store_keeps _ _ _
  split
  · split
    · exact s.raiseMc_keeps _
    · exact s.storeWord_keeps _ _ _
  · split
    · exact s.raiseMc_keeps _
    · exact s.atomic_keeps _ _ _ _ _ _

theorem State.perform_keeps (s : State) (p : Posted) : s.mem.Kept (s.perform p).mem := by
  have performed := (s.mem.kept_opened (64 * p.row)).trans (State.performAs_keeps (s.opened (64 * p.row)) p)
  exact ⟨performed.red, performed.uncorr⟩

/-! ## Ordered adds (R148, R149, R315, R337) -/

theorem State.touchSpill_keeps (s : State) (v : BitVec 16) (i : Nat) : s.mem.Kept (s.touchSpill v i).mem := by
  unfold State.touchSpill
  dsimp only
  split
  · exact .refl _
  · exact s.touch_keeps _ _

theorem State.spillWrite_keeps (s : State) (v : BitVec 16) (i : Nat) (ws : List Word) (used : Nat) :
    s.mem.Kept (s.spillWrite v i ws used).mem :=
  (s.rewriteAs_keeps _ _ _ _ _).trans (State.rewriteAs_keeps _ _ _ _ _ _)

theorem State.unspill_keeps (s : State) (v : BitVec 16) (i : Nat) : s.mem.Kept (s.unspill v i).mem := by
  unfold State.unspill
  split
  · exact s.spillWrite_keeps _ _ _ _
  · exact .refl _

theorem State.freeRecord_keeps (s : State) (q : OrdSeq) (i : Nat) : s.mem.Kept (s.freeRecord q i).mem := by
  unfold State.freeRecord
  split
  · exact s.unspill_keeps _ _
  · split
    · exact .refl _
    · exact .of_eq (State.sendFlit_mem ..)

theorem State.spillScan_keeps (v : BitVec 16) (n i left : Nat) (s : State) :
    s.mem.Kept (State.spillScan v n i left s).2.mem := by
  induction n generalizing i left s with
  | zero => exact .refl _
  | succ n ih =>
    cases left with
    | zero => exact .refl _
    | succ left =>
      have touched := s.touchSpill_keeps v (1 + i / 2)
      unfold State.spillScan
      dsimp only
      split
      · exact touched.trans (ih _ _ _)
      · exact touched.trans (ih _ _ _)

theorem State.reloadSeqs_keeps (s : State) (v : BitVec 16) : s.mem.Kept (s.reloadSeqs v).mem := by
  have touched := s.touchSpill_keeps v 0
  unfold State.reloadSeqs
  dsimp only
  split
  · exact touched
  split
  · exact touched
  · refine (touched.trans (State.spillScan_keeps v _ 0 _ _)).trans (State.kept_foldl _ (fun s e => ?_) _ _)
    split
    · have freed := s.unspill_keeps v e.1
      exact ⟨freed.red, freed.uncorr⟩
    · exact .refl _

theorem State.spill_keeps {s u : State} {v : BitVec 16} {q : OrdSeq} {n i : Nat} {op : Word}
    (h : s.spill v q n op = some (i, u)) : s.mem.Kept u.mem := by
  unfold State.spill State.spillPut at h
  split at h
  · cases h
  · split at h
    · cases h
    · obtain ⟨j, _, e⟩ := Option.map_eq_some_iff.1 h
      cases e
      exact s.spillWrite_keeps _ _ _ _

theorem State.applyAdd_keeps (s : State) (q : OrdSeq) (n : Nat) (op : Word) : s.mem.Kept (s.applyAdd q n op).mem := by
  unfold State.applyAdd
  extract_lets r
  split
  · exact s.raiseMc_keeps _
  · exact (s.mem.kept_opened q.pa).trans (State.atomic_keeps ((s.opened q.pa).actFor (some q.vrank)) ..)

theorem State.applyHeld_keeps (s : State) (n : Nat) (q : OrdSeq) : s.mem.Kept (s.applyHeld n q).1.mem := by
  induction n generalizing s q with
  | zero => exact .refl _
  | succ n ih =>
    unfold State.applyHeld
    split
    · exact .refl _
    · refine Mem.Kept.trans ?_ (ih _ _)
      refine Mem.Kept.trans ?_ (State.applyAdd_keeps _ _ _ _)
      split
      · exact s.freeRecord_keeps _ _
      · exact .refl _

theorem State.arriveAdd_keeps (s : State) (x : OrdAdd) : s.mem.Kept (s.arriveAdd x).mem := by
  unfold State.arriveAdd
  extract_lets t q keep q1 more
  have reloaded : s.mem.Kept t.mem := by
    unfold t
    split
    · exact s.reloadSeqs_keeps _
    · exact .refl _
  have kept (u : State) (q : OrdSeq) (h : s.mem.Kept u.mem) : s.mem.Kept (keep u q).mem := ⟨h.red, h.uncorr⟩
  split
  · exact reloaded.trans (State.raiseMc_keeps _ _)
  split
  · exact kept t _ reloaded
  split
  · split
    next r found => exact kept r.2 _ (reloaded.trans (State.spill_keeps found))
    · exact kept t _ reloaded
  split
  · exact (kept t _ reloaded).trans (.of_eq (State.sendFlit_mem ..))
  · exact kept _ _ (reloaded.trans (State.applyHeld_keeps ..))

/-! ## What comes before an access (R141, R245) -/

theorem State.performAll_keeps (s : State) (need : Way → Bool) : s.mem.Kept (s.performAll need).mem := by
  unfold State.performAll
  extract_lets mine adds m s1
  have taken : s.mem.Kept s1.mem := ⟨rfl, fun _ => id⟩
  refine taken.trans (State.kept_foldl _ (fun s x => ?_) _ s1)
  split
  · exact s.perform_keeps _
  · exact s.arriveAdd_keeps _

theorem State.drain_keeps {s u : State} {a : Agent} {hit : Way → Bool} {write : Bool} (h : s.drain a hit write = some u) :
    s.mem.Kept u.mem := by
  unfold State.drain at h
  dsimp only at h
  split at h
  · cases h
  · cases h
    exact s.performAll_keeps _

end Sys2Proof.Machine
end

section
/-! SUPPORT. Proof of the statement on the operations of the base dies (O48). -/

namespace Sys2Proof.Machine

/-! ## One row performed at its home (R244, R245) -/

/-- The row r has been performed at its home with the value v, and nothing else of memory's rows has changed; what is on its
way is as it was. -/
structure State.Performed (s u : State) (r : Nat) (v : Row) : Prop where
  home : u.mem.home r = v
  latest : u.mem.latest r = v
  kept : MemoryKeptBut r s u
  clean : r ∉ u.mem.bad
  posted : u.mem.posted = s.mem.posted
  adds : u.mem.adds = s.mem.adds

theorem Mem.not_mem_bad_perform (m : Mem) (r : Nat) (v : Row) : r ∉ (m.perform r v).bad := by
  have removed (l : List Nat) : r ∉ removeNat l r := by simp [removeNat]
  unfold Mem.perform
  split
  · dsimp only
    split <;> exact removed _
  · exact removed _

theorem Mem.correct_of_ready {m : Mem} {pa : Nat} (ready : m.stalls pa = false) : m.uncorr.contains (pa / 64) = false := by
  simp only [Mem.stalls, Bool.or_eq_false_iff] at ready
  exact ready.1.2

theorem State.performed_writeHome (s : State) (a : Agent) (c : Bool) {r : Nat} (v : Row)
    (correct : s.mem.uncorr.contains r = false) : s.Performed (s.writeHome a c r v) r v := by
  have put := s.rowPut_writeHome a c r v correct
  have same := s.sameRows_flushPubs a
  have correct : (s.flushPubs a).mem.uncorr.contains r = false := correct
  have rest := ((s.flushPubs a).mem.homeOnly_perform r v).rest
  have posted : ((s.flushPubs a).mem.perform r v).posted = s.mem.posted := by rw [rest]; rfl
  have adds : ((s.flushPubs a).mem.perform r v).adds = s.mem.adds := by rw [rest]; rfl
  refine ⟨put.home, put.latest, fun x other => ⟨put.byte x other, ?_⟩, Mem.not_mem_bad_perform _ r v, posted, adds⟩
  exact (Mem.newest_storeHome_ne _ _ _ _ _ _ correct x other).trans (same.newest x)

/-- The log's writes changed in what is recorded of them, but for their rows and values. -/
theorem State.Performed.mapLog {s u : State} {r : Nat} {v : Row} (h : s.Performed u r v) (f : WriteRec → WriteRec)
    (hf : ∀ w, (f w).row = w.row ∧ (f w).val = w.val) : s.Performed (u.mapLog f) r v := by
  have same : u.mem.SameRows (u.mapLog f).mem := u.mem.sameRows_mapLog f hf
  refine ⟨(same.home r).trans h.home, (same.latest r).trans h.latest, fun x other => ?_, h.clean, h.posted, h.adds⟩
  obtain ⟨byte, newest⟩ := h.kept x other
  exact ⟨(same.byte x).trans byte, (same.newest x).trans newest⟩

/-- R144: an atomic at a readable row of this module. -/
theorem State.atomic_home (s : State) (a : Agent) (acc : Acc) (op : MemOp) (w32 : Bool) (x cmp : Nat)
    (hub : isHubRow acc.row = false) (good : s.mem.bad.contains acc.row = false) :
    let old := rowElem w32 (s.mem.home acc.row) acc.pa
    s.atomic a acc op w32 x cmp = (old, false, s.writeHome a false acc.row
      (setRowElem w32 (s.mem.home acc.row) acc.pa (atomicOp op (elemBits w32) old x cmp))) := by
  intro old
  unfold State.atomic
  dsimp only
  rw [if_neg (by rw [hub]; exact Bool.false_ne_true), if_neg (by rw [good]; exact Bool.false_ne_true)]

@[simp] theorem msAcc_row (r pa ek : Nat) : (msAcc r pa ek).row = r := by
  have := Nat.mod_lt pa (by decide : 0 < 64)
  simp only [msAcc, Acc.row]
  omega

/-! ## Posted operations (R141, R245) -/

/-- The bytes of an element begin where its number says. -/
def Posted.at_ (p : Posted) : Nat := (if p.w32 then 4 else 8) * p.word

/-- What a posted operation makes of its row. -/
def State.postedRow (s : State) (p : Posted) : Row :=
  if p.word = 16 ∧ p.w32 = false then s.mem.encipher p.ek p.row p.rowVal
  else if p.op = .store then
    s.mem.encipher p.ek p.row (setRowWord (s.mem.decipher p.ek p.row (s.mem.home p.row)) (p.at_ / 8 % 8) p.val)
  else setRowElem p.w32 (s.mem.home p.row) p.at_
    (atomicOp p.op (elemBits p.w32) (rowElem p.w32 (s.mem.home p.row) p.at_) p.val.toNat p.rowVal.toNat)

/-- The place of an element within its row does not depend on the row. -/
theorem rowElem_msAcc (w32 : Bool) (v : Row) (r pa ek : Nat) : rowElem w32 v (msAcc r pa ek).pa = rowElem w32 v pa := by
  simp only [rowElem, msAcc, show (64 * r + pa % 64) / 4 % 16 = pa / 4 % 16 by omega,
    show (64 * r + pa % 64) / 8 % 8 = pa / 8 % 8 by omega]

theorem setRowElem_msAcc (w32 : Bool) (v : Row) (r pa ek x : Nat) :
    setRowElem w32 v (msAcc r pa ek).pa x = setRowElem w32 v pa x := by
  simp only [setRowElem, msAcc, show (64 * r + pa % 64) / 4 % 16 = pa / 4 % 16 by omega,
    show (64 * r + pa % 64) / 8 % 8 = pa / 8 % 8 by omega]

theorem State.performAs_home (s : State) (p : Posted) (hub : isHubRow p.row = false) (good : s.mem.bad.contains p.row = false) :
    s.performAs p = s.writeHome p.by_ false p.row (s.postedRow p) := by
  have place : (if p.w32 = true then 4 * p.word else 8 * p.word) = p.at_ := by
    unfold Posted.at_
    split <;> rfl
  have store (pa : Nat) (v : Row) : s.store p.by_ (msAcc p.row pa p.ek) v =
      s.writeHome p.by_ false p.row (s.mem.encipher p.ek p.row v) := by
    have home := s.store_home p.by_ (msAcc p.row pa p.ek) v (by rwa [msAcc_row]) rfl
    rwa [msAcc_row] at home
  unfold State.performAs State.postedRow
  rw [place]
  dsimp only
  split
  · exact store 0 p.rowVal
  split
  · have peek : s.peek (msAcc p.row p.at_ p.ek) = s.mem.decipher p.ek p.row (s.mem.home p.row) := by
      have home := s.peek_home (msAcc p.row p.at_ p.ek) (by rwa [msAcc_row]) (.inl rfl)
      rwa [msAcc_row] at home
    have word : (msAcc p.row p.at_ p.ek).pa / 8 % 8 = p.at_ / 8 % 8 := by
      simp only [msAcc]
      omega
    have stored : s.storeWord p.by_ (msAcc p.row p.at_ p.ek) p.val = (s.store p.by_ (msAcc p.row p.at_ p.ek)
        (setRowWord (s.mem.decipher p.ek p.row (s.mem.home p.row)) (p.at_ / 8 % 8) p.val), false) := by
      unfold State.storeWord
      dsimp only
      rw [msAcc_row, if_neg (by rw [hub]; exact Bool.false_ne_true), if_neg (by rw [good]; exact Bool.false_ne_true), peek, word]
    rw [stored]
    exact store _ _
  · rw [s.atomic_home _ _ _ _ _ _ (by rwa [msAcc_row]) (by rwa [msAcc_row]), msAcc_row, rowElem_msAcc, setRowElem_msAcc]
    rfl

/-- R245, R336: a posted operation at a readable row that nothing holds back. -/
theorem State.performed_perform (s : State) (p : Posted) (hub : isHubRow p.row = false)
    (good : s.mem.bad.contains p.row = false) (ready : s.mem.stalls (64 * p.row) = false) :
    s.Performed (s.perform p) p.row (s.postedRow p) := by
  have opened : s.opened (64 * p.row) = s := by rw [State.opened, Mem.opened_self _ _ ready]
  have correct : s.mem.uncorr.contains p.row = false := by
    have uncorr := Mem.correct_of_ready ready
    rwa [Nat.mul_div_cancel_left _ (by decide : 0 < 64)] at uncorr
  unfold State.perform
  rw [opened, s.performAs_home p hub good]
  refine (s.performed_writeHome _ _ _ correct).mapLog _ fun w => ?_
  split
  · dsimp only
    split
    · rw [WriteRec.addView_same]
      exact ⟨rfl, rfl⟩
    · exact ⟨rfl, rfl⟩
  · exact ⟨rfl, rfl⟩

theorem Posted.merges_iff (p : Posted) : p.merges = true ↔ p.op = .store ∧ p.ek ≠ 0 ∧ (p.word ≠ 16 ∨ p.mask ≠ 0) := by
  simp [Posted.merges, and_assoc]

/-- R141, R322: an operation of another module's row on its way there. -/
theorem State.sendPosted_kept (s : State) (i : Nat) (p : Posted) (node : Nat) (f : Flit) :
    MemoryKept s (s.sendPosted i p node f) ∧ (s.sendPosted i p node f).mem.posted = s.mem.posted.set i
      { p with stage := if p.op = .store ∧ p.ek ≠ 0 ∧ (p.word ≠ 16 ∨ p.mask ≠ 0) then 1 else 2 } := by
  have same := s.sameRows_flushPubs p.by_
  have mem : (s.sendPosted i p node f).mem = { (s.flushPubs p.by_).mem with
      posted := s.mem.posted.set i { p with stage := if p.merges then 1 else 2 } } := State.sendFlit_mem ..
  have sameMem : s.mem.SameRows (s.sendPosted i p node f).mem := by
    rw [mem]
    exact ⟨by rw [same.rest], same.rows⟩
  refine ⟨⟨sameMem.byte, sameMem.newest⟩, ?_⟩
  rw [mem]
  simp only [p.merges_iff]

section PerformAt
variable {s : State} {i : Nat} {p : Posted} (found : s.mem.posted[i]? = some p)
include found

theorem State.performAt_held (held : s.mem.wayFree p.way = false) : s.performAt i = s := by
  simp [State.performAt, found, held]

/-- An operation that has left is not sent again. -/
theorem State.performAt_left {o : Nat × Flit} (away : p.out = some o) (gone : p.stage ≠ 0) : s.performAt i = s := by
  simp [State.performAt, found, away, gone]

theorem State.performAt_leaves {o : Nat × Flit} (away : p.out = some o) (first : p.stage = 0)
    (free : s.mem.wayFree p.way = true) : s.performAt i = s.sendPosted i p o.1 o.2 := by
  simp [State.performAt, found, away, first, free]

theorem State.performAt_here (near : p.out = none) (free : s.mem.wayFree p.way = true) :
    s.performAt i = { s with mem := { s.mem with posted := s.mem.posted.eraseIdx i } }.perform p := by
  simp [State.performAt, found, near, free]

end PerformAt

theorem postedOperation (s : State) (i : Nat) (p : Posted) (found : s.mem.posted[i]? = some p) :
    (s.mem.wayFree p.way = false → exec (.memsideOperation i) s = .next s) ∧
    (∀ o, p.out = some o → s.mem.wayFree p.way = true →
      (p.stage ≠ 0 → exec (.memsideOperation i) s = .next s) ∧
      (p.stage = 0 → ∃ u, exec (.memsideOperation i) s = .next u ∧ MemoryKept s u ∧
        u.mem.posted = s.mem.posted.set i
          { p with stage := if p.op = .store ∧ p.ek ≠ 0 ∧ (p.word ≠ 16 ∨ p.mask ≠ 0) then 1 else 2 })) ∧
    (p.out = none → s.mem.wayFree p.way = true → isHubRow p.row = false → s.mem.bad.contains p.row = false →
      s.mem.stalls (64 * p.row) = false →
      ∃ u, exec (.memsideOperation i) s = .next u ∧ u.mem.posted = s.mem.posted.eraseIdx i ∧
        u.mem.latest p.row = s.postedRow p ∧ u.mem.home p.row = s.postedRow p ∧ MemoryKeptBut p.row s u) := by
  have run : exec (.memsideOperation i) s = .next (s.performAt i) := rfl
  refine ⟨fun held => ?_, fun o away free => ⟨fun gone => ?_, fun first => ?_⟩, fun near free hub good ready => ?_⟩
  · rw [run, State.performAt_held found held]
  · rw [run, State.performAt_left found away gone]
  · obtain ⟨kept, posted⟩ := s.sendPosted_kept i p o.1 o.2
    exact ⟨_, run.trans (congrArg _ (State.performAt_leaves found away first free)), kept, posted⟩
  · have done := State.performed_perform { s with mem := { s.mem with posted := s.mem.posted.eraseIdx i } } p hub good ready
    exact ⟨_, run.trans (congrArg _ (State.performAt_here found near free)), done.posted, done.latest, done.home, done.kept⟩

/-! ## Ordered adds (R148, R149, R337) -/

/-- The state in which an add arrives: what its rank has left in its spill area is here again. -/
def State.arriving (s : State) (x : OrdAdd) : State := if s.resident x.vrank then s.reloadSeqs x.vrank else s

/-- The sequence that an add belongs to: one held here, or a new one. -/
def State.seqFor (s : State) (x : OrdAdd) : OrdSeq :=
  match s.mem.seqs.find? fun q => q.same x with
  | some q => q
  | none => { stack := x.stack, vrank := x.vrank, va := x.va, pa := x.pa, w := x.w, k := x.k, next := 0,
              err := false, held := [], spilled := [], node := x.node }

/-- A sequence in place of the one that an add belongs to. -/
def State.keepSeq (s : State) (x : OrdAdd) (q : OrdSeq) : State :=
  { s with mem := { s.mem with seqs := (s.mem.seqs.filter fun y => !y.same x) ++ [q] } }

/-- A sequence with an add among those held. -/
def OrdSeq.holding (q : OrdSeq) (x : OrdAdd) : OrdSeq :=
  { q with held := q.held ++ [(x.q, x.op)], cores := q.cores ++ [(x.q, issuerCore x.by_)] }

theorem State.mem_keepSeq (s : State) (x : OrdAdd) (q : OrdSeq) : q ∈ (s.keepSeq x q).mem.seqs :=
  List.mem_append_right _ (List.mem_singleton_self q)

theorem State.seqFor_eq {s : State} {x : OrdAdd} {q : OrdSeq}
    (h : s.mem.seqs.find? (fun q => q.same x) = some q ∨ ((∀ q ∈ s.mem.seqs, q.same x = false) ∧ q =
      { stack := x.stack, vrank := x.vrank, va := x.va, pa := x.pa, w := x.w, k := x.k, next := 0, err := false,
        held := [], spilled := [], node := x.node })) : s.seqFor x = q := by
  unfold State.seqFor
  rcases h with found | ⟨none_, rfl⟩
  · rw [found]
  · rw [List.find?_eq_none.2 fun q member => by simp [none_ q member]]

/-- With nothing in turn, nothing is applied. -/
theorem State.applyHeld_stops (s : State) (n : Nat) {q : OrdSeq} (none_ : ∀ e ∈ q.held, e.1 ≠ q.next) :
    s.applyHeld n q = (s, q) := by
  cases n with
  | zero => rfl
  | succ n =>
    have nothing : q.held.find? (fun e => e.1 = q.next) = none := List.find?_eq_none.2 fun e member => by simpa using none_ e member
    rw [State.applyHeld, nothing]

/-- An add in turn that has no record in the spill area is applied. -/
theorem State.applyHeld_applies (s : State) (n : Nat) {q : OrdSeq} {e : Nat × Word}
    (found : q.held.find? (fun e => e.1 = q.next) = some e) (own : ∀ e ∈ q.spilled, e.1 ≠ q.next) :
    s.applyHeld (n + 1) q = (s.applyAdd q q.next e.2).applyHeld n
      { q with next := q.next + 1, held := q.held.filter (fun x => x.1 ≠ q.next),
               spilled := q.spilled.filter (fun x => x.1 ≠ q.next), cores := q.cores.filter (fun x => x.1 ≠ q.next) } := by
  have nothing : q.spilled.find? (fun x => x.1 = q.next) = none := List.find?_eq_none.2 fun e member => by simpa using own e member
  rw [State.applyHeld, found]
  dsimp only
  rw [nothing]

section Arrival
variable {s : State} {x : OrdAdd}

/-- R150: an add of a closed step. -/
theorem State.arriveAdd_late (late : x.stepNo ≠ (s.arriving x).openStep x.vrank) :
    s.arriveAdd x = (s.arriving x).orderedMc x.stack x.vrank x.va 0 := if_pos late

variable {t : State} {q : OrdSeq} (arrives : s.arriving x = t) (now : x.stepNo = t.openStep x.vrank) (seq : t.seqFor x = q)
include arrives now seq

/-- An add of the open step, by its number. -/
theorem State.arriveAdd_open :
    let more := x.q ≠ q.next ∧ 4096 ≤ t.mem.heldAdds x.stack
    s.arriveAdd x =
      if x.q < q.next ∨ q.held.any (fun e => e.1 = x.q) = true then t.keepSeq x { q with err := true }
      else if more ∧ t.resident x.vrank = true then
        match t.spill x.vrank q x.q x.op with
        | some r => r.2.keepSeq x { q.holding x with spilled := q.spilled ++ [(x.q, r.1)] }
        | none => t.keepSeq x { q with err := true }
      else
        match if more then x.node else none with
        | some d => (t.keepSeq x { q.holding x with spilled := q.spilled ++ [(x.q, 2 ^ 32)] }).sendFlit d 1
            (spillFlit x.vrank 0 (spillRecord 2 q x.q x.op))
        | none => (t.applyHeld ((q.holding x).held.length + 1) (q.holding x)).1.keepSeq x
            (t.applyHeld ((q.holding x).held.length + 1) (q.holding x)).2 := by
  subst arrives seq
  exact if_neg (not_not_intro now)

/-- One whose number has come before. -/
theorem State.arriveAdd_repeated (wrong : x.q < q.next ∨ q.held.any (fun e => e.1 = x.q) = true) :
    s.arriveAdd x = t.keepSeq x { q with err := true } :=
  (State.arriveAdd_open arrives now seq).trans (if_pos wrong)

/-- One ahead of its turn where its stack has no room: with its record in the spill area, or lost. -/
theorem State.arriveAdd_full (ahead : q.next < x.q) (new : q.held.any (fun e => e.1 = x.q) = false)
    (full : 4096 ≤ t.mem.heldAdds x.stack) (here : t.resident x.vrank = true) :
    s.arriveAdd x = match t.spill x.vrank q x.q x.op with
      | some r => r.2.keepSeq x { q.holding x with spilled := q.spilled ++ [(x.q, r.1)] }
      | none => t.keepSeq x { q with err := true } := by
  have order : ¬ (x.q < q.next ∨ q.held.any (fun e => e.1 = x.q) = true) := by
    rw [new]
    simp
    omega
  exact (State.arriveAdd_open arrives now seq).trans ((if_neg order).trans (if_pos ⟨⟨Nat.ne_of_gt ahead, full⟩, here⟩))

/-- One that its stack has room for is held, and what is then in turn applied. -/
theorem State.arriveAdd_room (order : q.next ≤ x.q) (new : q.held.any (fun e => e.1 = x.q) = false)
    (room : x.q = q.next ∨ t.mem.heldAdds x.stack < 4096) :
    s.arriveAdd x = (t.applyHeld ((q.holding x).held.length + 1) (q.holding x)).1.keepSeq x
      (t.applyHeld ((q.holding x).held.length + 1) (q.holding x)).2 := by
  have order : ¬ (x.q < q.next ∨ q.held.any (fun e => e.1 = x.q) = true) := by
    rw [new]
    simp
    omega
  have fits : ¬ (x.q ≠ q.next ∧ 4096 ≤ t.mem.heldAdds x.stack) := fun ⟨ahead, full⟩ =>
    room.elim ahead (Nat.not_lt.2 full)
  refine (State.arriveAdd_open arrives now seq).trans ((if_neg order).trans ((if_neg fun h => fits h.1).trans ?_))
  rw [if_neg fits]

/-- One ahead of its turn is held. -/
theorem State.arriveAdd_ahead (ahead : q.next < x.q) (new : q.held.any (fun e => e.1 = x.q) = false)
    (notNext : q.held.any (fun e => e.1 = q.next) = false) (room : t.mem.heldAdds x.stack < 4096) :
    s.arriveAdd x = t.keepSeq x (q.holding x) := by
  have stops := t.applyHeld_stops ((q.holding x).held.length + 1) (q := q.holding x) fun e member => by
    rcases List.mem_append.1 member with old | mine
    · have other : ¬ e.1 = q.next := by simpa using List.any_eq_false.1 notNext e old
      exact other
    · rw [List.mem_singleton.1 mine]
      exact Nat.ne_of_gt ahead
  rw [State.arriveAdd_room arrives now seq (Nat.le_of_lt ahead) new (.inr room), stops]

/-- R149: one in turn is applied, and its sequence moves on. -/
theorem State.arriveAdd_turn (turn : x.q = q.next) (others : ∀ e ∈ q.held, e.1 ≠ x.q ∧ e.1 ≠ x.q + 1)
    (own : ∀ e ∈ q.spilled, e.1 ≠ x.q) :
    ∃ r : OrdSeq, r.next = q.next + 1 ∧ r.held = q.held ∧
      s.arriveAdd x = (t.applyAdd (q.holding x) q.next x.op).keepSeq x r := by
  have different (e : Nat × Word) (member : e ∈ q.held) : e.1 ≠ q.next := turn ▸ (others e member).1
  have new : q.held.any (fun e => e.1 = x.q) = false := List.any_eq_false.2 fun e member => by simpa using (others e member).1
  have mine : (q.holding x).held.find? (fun e => e.1 = (q.holding x).next) = some (x.q, x.op) := by
    have none_ : q.held.find? (fun e => e.1 = q.next) = none :=
      List.find?_eq_none.2 fun e member => by simpa using different e member
    show (q.held ++ [(x.q, x.op)]).find? (fun e => e.1 = q.next) = _
    rw [List.find?_append, none_]
    simp [turn]
  have rest : (q.holding x).held.filter (fun e => e.1 ≠ (q.holding x).next) = q.held := by
    show (q.held ++ [(x.q, x.op)]).filter (fun e => e.1 ≠ q.next) = _
    rw [List.filter_append, List.filter_eq_self.2 fun e member => by simpa using different e member]
    simp [turn]
  have applies := t.applyHeld_applies (q.holding x).held.length mine fun e member => turn ▸ own e member
  rw [rest] at applies
  have applies := applies.trans (State.applyHeld_stops _ _ fun e member => turn ▸ (others e member).2)
  refine ⟨{ q.holding x with
    next := q.next + 1, held := q.held, spilled := q.spilled.filter (fun x => x.1 ≠ q.next),
    cores := (q.holding x).cores.filter (fun x => x.1 ≠ q.next) }, rfl, rfl, ?_⟩
  rw [State.arriveAdd_room arrives now seq (Nat.le_of_eq turn.symm) new (.inl turn), applies]
  rfl

end Arrival

/-- R149: the add itself. -/
theorem State.performed_applyAdd (s : State) (q : OrdSeq) (n : Nat) (op : Word) (hub : isHubRow (q.pa / 64) = false)
    (good : s.mem.bad.contains (q.pa / 64) = false) (ready : s.mem.stalls q.pa = false) :
    s.Performed (s.applyAdd q n op) (q.pa / 64) (setRowElem q.w (s.mem.home (q.pa / 64)) q.pa
      (atomicOp (if q.k then .afadd else .aadd) (elemBits q.w) (rowElem q.w (s.mem.home (q.pa / 64)) q.pa) op.toNat 0)) := by
  have opened : s.opened q.pa = s := by rw [State.opened, Mem.opened_self _ _ ready]
  have atomic := (s.actFor (some q.vrank)).atomic_home (.baseDie q.stack) (msAcc (q.pa / 64) q.pa 0)
    (if q.k then .afadd else .aadd) q.w op.toNat 0 (by rwa [msAcc_row]) (by rwa [msAcc_row])
  dsimp only at atomic
  rw [msAcc_row, rowElem_msAcc, setRowElem_msAcc] at atomic
  unfold State.applyAdd
  rw [opened, atomic]
  have done := (s.actFor (some q.vrank)).performed_writeHome (.baseDie q.stack) false
    (setRowElem q.w (s.mem.home (q.pa / 64)) q.pa
      (atomicOp (if q.k then .afadd else .aadd) (elemBits q.w) (rowElem q.w (s.mem.home (q.pa / 64)) q.pa) op.toNat 0))
    (Mem.correct_of_ready ready)
  exact ⟨done.home, done.latest, done.kept, done.clean, done.posted, done.adds⟩

theorem State.forRank_unread {s : State} {v : BitVec 16} {k : State → State}
    (unread : (s.rowsRead (s.rankRows v)).rankHere v = false) : s.forRank v k = s.rowsRead (s.rankRows v) :=
  if_neg (by rw [show State.rankHere (List.foldl _ s _) v = false from unread]; exact Bool.false_ne_true)

theorem State.forRank_read {s : State} {v : BitVec 16} {k : State → State}
    (here : (s.rowsRead (s.rankRows v)).rankHere v = true) :
    s.forRank v k = (k (s.rowsRead (s.rankRows v))).dropAnswers (s.rankRows v) :=
  if_pos here

theorem postedOperations : Claims.PostedOperations := by
  intro s i
  refine ⟨fun p found => postedOperation s i p found, fun x found => ?_⟩
  have run : exec (.orderedAddArrival i) s = .next (if s.mem.wayFree x.way then s.forRank x.vrank fun s =>
      { s with mem := { s.mem with adds := s.mem.adds.eraseIdx i } }.arriveAdd x else s) := by
    rw [exec_orderedAddArrival, execOrderedAddArrival, State.arriveAt, found]
  refine ⟨fun held => by rw [run, if_neg (by rw [held]; exact Bool.false_ne_true)], fun free => ?_⟩
  intro l s1 t0 t
  rw [if_pos free] at run
  refine ⟨fun unread => by rw [run, State.forRank_unread unread], fun here late => ?_, fun here now q found => ?_⟩
  · rw [run, State.forRank_read here]
    exact congrArg (fun u : State => Host.Outcome.next (u.dropAnswers l)) (State.arriveAdd_late (s := t0) late)
  rw [State.forRank_read here] at run
  have arrives : t0.arriving x = t := rfl
  have seq : t.seqFor x = q := State.seqFor_eq found
  have ends {u : State} (h : t0.arriveAdd x = u) : exec (.orderedAddArrival i) s = .next (u.dropAnswers l) :=
    run.trans (congrArg (fun u : State => Host.Outcome.next (u.dropAnswers l)) h)
  refine ⟨fun wrong => ?repeated, fun ahead new notNext room => ?ahead, fun ahead new full here => ?full,
    fun turn others own hub good ready => ?turn⟩
  case repeated =>
    exact ⟨_, ends (State.arriveAdd_repeated arrives now seq wrong), ⟨fun _ => rfl, fun _ => rfl⟩, State.mem_keepSeq ..⟩
  case ahead =>
    exact ⟨_, q.holding x, ends (State.arriveAdd_ahead arrives now seq ahead new notNext room), rfl,
      ⟨fun _ => rfl, fun _ => rfl⟩, State.mem_keepSeq .., rfl, rfl, rfl, rfl⟩
  case full =>
    have spills := State.arriveAdd_full arrives now seq ahead new full here
    refine ⟨fun noRoom => ?_, fun n t' record => ?_⟩
    · rw [noRoom] at spills
      exact ⟨_, ends spills, ⟨fun _ => rfl, fun _ => rfl⟩, State.mem_keepSeq ..⟩
    · rw [record] at spills
      exact ⟨_, _, ends spills, ⟨fun _ => rfl, fun _ => rfl⟩, State.mem_keepSeq .., rfl, rfl, rfl⟩
  case turn =>
    obtain ⟨r, next, held, applied⟩ := State.arriveAdd_turn arrives now seq turn others own
    have done := t.performed_applyAdd (q.holding x) q.next x.op hub good ready
    exact ⟨_, r, ends applied, done.adds, done.latest, done.kept, State.mem_keepSeq .., next, held⟩

end Sys2Proof.Machine
end

section
/-! SUPPORT. Proof of the claim on the reduction engines (R209, R338 to R340), with what makes a strand ready leaves of the
engine commands of every core. -/

namespace Sys2Proof.Machine

/-! ## What readiness leaves of the engine commands -/

/-- The engine commands of a core: its outstanding transfers, and the channels of its two contexts. -/
def Core.commands (k : Core) : List Xfer × Tab Chan × Tab Chan := (k.xfers, k.prog.chans, k.fw.chans)

theorem State.setCore_commands (s : State) (c d : Nat) (k : Core) (h : k.commands = (s.core c).commands) :
    ((s.setCore c k).core d).commands = (s.core d).commands := by
  by_cases own : d = c
  · rw [own, State.core_setCore, h]
  · rw [State.core_setCore_ne _ _ _ _ own]

theorem State.raiseAsync_commands (s : State) (c d : Nat) (e : Async) :
    ((s.raiseAsync c e).core d).commands = (s.core d).commands := s.setCore_commands c d _ rfl

/-- R390: a machine check concerns the events and the sleep of a firmware context alone. -/
theorem State.raiseMc_commands (s : State) (m : McReport) (d : Nat) :
    ((s.raiseMc m).core d).commands = (s.core d).commands := by
  unfold State.raiseMc
  extract_lets m s1
  have raised : (s1.core d).commands = (s.core d).commands := by
    unfold s1
    split
    · exact s.raiseAsync_commands _ d _
    · rfl
  have appended := s1.append_cores .queueController 0 mcQueueVa (mcRecord m s.hub.gtime s.hub.mcLost) none
  split <;> rename_i found <;> rw [found] at appended
  · exact (congrArg Core.commands (State.core_congr appended d)).trans raised
  · refine (congrArg Core.commands (State.core_congr ?_ d)).trans raised
    exact ((State.bumpModule_cores _ 2 false).trans (State.noteApp_cores _ _ _)).trans appended

theorem State.makeReady_commands (s : State) (die : Nat) (asid : BitVec 16) (rcb rec : Addr) (d : Nat) :
    ((s.makeReady die asid rcb rec).core d).commands = (s.core d).commands := by
  have appended : ((s.appendReady asid rcb rec).2.core d).commands = (s.core d).commands :=
    congrArg Core.commands (State.core_congr (s.appendReady_cores asid rcb rec) d)
  unfold State.makeReady
  dsimp only
  split
  · exact (State.raiseMc_commands _ _ _).trans appended
  · exact appended

theorem State.wakeStrand_commands (s : State) (c d : Nat) : ((s.wakeStrand c).core d).commands = (s.core d).commands := by
  unfold State.wakeStrand
  dsimp only
  split
  · split
    · split
      · exact (State.makeReady_commands _ _ _ _ _ d).trans (s.setCore_commands c d _ rfl)
      · rfl
    · rfl
  · rfl

theorem Core.chans_of_commands {k l : Core} (h : k.commands = l.commands) (fw : Bool) : (k.ctx fw).chans = (l.ctx fw).chans := by
  cases fw
  · exact congrArg (fun x => x.2.1) h
  · exact congrArg (fun x => x.2.2) h

/-! ## The end of an identifier without triggers (R209, R270) -/

theorem Tab.get_of_all {α : Type} (p : α → Prop) (d : α) (t : Tab α) (i : Nat) (hd : p d) (all : ∀ e ∈ t, p e.2) :
    p (Tab.get d t i) := by
  induction t with
  | nil => exact hd
  | cons e t ih =>
    rw [Tab.get]
    split
    · exact all e (List.mem_cons_self ..)
    · exact ih fun x member => all x (List.mem_cons_of_mem _ member)

theorem Tab.all_put {α : Type} (p : α → Prop) (t : Tab α) (i : Nat) (v : α) (hv : p v) (all : ∀ e ∈ t, p e.2) :
    ∀ e ∈ Tab.put t i v, p e.2 := by
  intro e member
  rcases (Tab.mem_insert _ _ _ _).1 member with rfl | old
  · exact hv
  · exact all e (Tab.erase_sub t i e old)

/-- With no triggers on its channels, nothing fires at a context. -/
theorem State.fireAll_quiet (s : State) (c : Nat) (fw : Bool) (quiet : ∀ e ∈ ((s.core c).ctx fw).chans, e.2.trigs = []) :
    s.fireAll c fw = s := by
  have none_ (l : List (Nat × Chan)) (h : ∀ e ∈ l, e.2.trigs = []) (n : Nat) : l.foldl (fun n e => n + e.2.trigs.length) n = n := by
    induction l with
    | nil => rfl
    | cons e l ih =>
      rw [List.foldl_cons, h e (List.mem_cons_self ..)]
      exact ih fun x member => h x (List.mem_cons_of_mem _ member)
  rw [State.fireAll, none_ _ quiet]
  rfl

/-- What an identifier's end leaves: the transfers of its core, channels without triggers as they were without, and memory's
reduction blocks. -/
theorem State.endId_leaves (s : State) (c : Nat) (fw : Bool) (chan ident : Nat)
    (quiet : ∀ e ∈ ((s.core c).ctx fw).chans, e.2.trigs = []) :
    ((s.endId c fw chan ident).core c).xfers = (s.core c).xfers ∧
      (∀ e ∈ (((s.endId c fw chan ident).core c).ctx fw).chans, e.2.trigs = []) ∧
      (s.endId c fw chan ident).mem.red = s.mem.red := by
  let k := (s.core c).setCtx fw { (s.core c).ctx fw with
    chans := Tab.put ((s.core c).ctx fw).chans chan ((Tab.get {} ((s.core c).ctx fw).chans chan).complete ident) }
  have commands : ((s.endId c fw chan ident).core c).commands = k.commands :=
    (State.wakeStrand_commands (s.setCore c k) c c).trans (congrArg Core.commands (s.core_setCore c k))
  have xfers : k.xfers = (s.core c).xfers := by cases fw <;> rfl
  have chans : (k.ctx fw).chans = Tab.put ((s.core c).ctx fw).chans chan
      ((Tab.get {} ((s.core c).ctx fw).chans chan).complete ident) := congrArg Ctx.chans (Core.ctx_setCtx ..)
  refine ⟨(congrArg Prod.fst commands).trans xfers, ?_, (State.wakeStrand_keeps (s.setCore c k) c).red⟩
  rw [Core.chans_of_commands commands, chans]
  exact Tab.all_put (fun ch : Chan => ch.trigs = []) _ _ _
    (Tab.get_of_all (fun ch : Chan => ch.trigs = []) {} _ chan rfl quiet) quiet

/-! ## A block's run and its end (R209, R339, R340) -/

/-- A transfer that is dropped is no longer found. -/
theorem State.findXfer_dropXfer (s : State) (c : Nat) (x : Xfer) :
    (s.dropXfer c x).findXfer c x.fw x.chan x.ident = none := by
  rw [State.findXfer, State.dropXfer, State.core_setCore]
  refine List.find?_eq_none.2 fun y member => ?_
  have other := (List.mem_filter.1 member).2
  simpa only [decide_eq_true_eq, Bool.not_eq_true', decide_eq_false_iff_not] using other

/-- R209: at the end of a block nothing of it is left. -/
theorem State.completeId_ends (s : State) {b : RedBlock} {x : Xfer} (found : s.findXfer b.core b.fw b.chan b.ident = some x)
    (quiet : ∀ e ∈ ((s.core b.core).ctx b.fw).chans, e.2.trigs = []) :
    let t : State := { s with mem := { s.mem with red := s.mem.red.filter fun y => y ≠ b } }
    let u := (t.dropXfer b.core x).completeId b.core x.fw x.chan x.ident
    b ∉ u.mem.red ∧ u.findXfer b.core b.fw b.chan b.ident = none := by
  intro t u
  have named : x.fw = b.fw ∧ x.chan = b.chan ∧ x.ident = b.ident := by simpa using List.find?_some found
  obtain ⟨fw, chan, ident⟩ := named
  have dropped : ((t.dropXfer b.core x).core b.core).ctx x.fw = (s.core b.core).ctx b.fw := by
    rw [State.dropXfer, State.core_setCore, fw]
    rfl
  obtain ⟨xfers, quiet', red⟩ := (t.dropXfer b.core x).endId_leaves b.core x.fw x.chan x.ident (by rw [dropped]; exact quiet)
  have ends : u = (t.dropXfer b.core x).endId b.core x.fw x.chan x.ident := State.fireAll_quiet _ _ _ quiet'
  refine ⟨?_, ?_⟩
  · rw [ends, red]
    show b ∉ s.mem.red.filter fun y => y ≠ b
    simp
  · rw [ends, ← fw, ← chan, ← ident, State.findXfer, xfers]
    exact t.findXfer_dropXfer b.core x

theorem reductionBlock (s : State) (stack : Nat) (b : RedBlock) (x : Xfer)
    (block : s.mem.red.find? (fun b => b.stack = stack) = some b) (found : s.findXfer b.core b.fw b.chan b.ident = some x) :
    (s.held b.core x = true → exec (.reductionBlockRun stack) s = .next s) ∧
    (s.held b.core x = false →
      let n := bitsOf (dw b.words 0).toNat 0 26
      (x.pos < n → exec (.reductionBlockRun stack) s = .next (s.reduceOne b x)) ∧
      (n ≤ x.pos → x.posted ≠ 0 → exec (.reductionBlockRun stack) s = .next s) ∧
      (n ≤ x.pos → x.posted = 0 → x.index = [] → b.rl = false → dw b.words 2 = 0 →
        exec (.reductionBlockRun stack) s = .next (s.setXfer b.core { x with index := [1] })) ∧
      (n ≤ x.pos → x.posted = 0 → x.index ≠ [] → b.rl = false →
        (∀ e ∈ ((s.core b.core).ctx b.fw).chans, e.2.trigs = []) →
        ∃ u, exec (.reductionBlockRun stack) s = .next u ∧ b ∉ u.mem.red ∧
          u.findXfer b.core b.fw b.chan b.ident = none)) := by
  have found' : s.blockXfer b = some x := found
  rw [exec_reductionBlockRun, execReductionBlockRun, block]
  dsimp only
  rw [found']
  dsimp only
  rw [fld_eq_bitsOf]
  refine ⟨fun held => if_pos held, fun free => ?_⟩
  rw [if_neg (by rw [free]; exact Bool.false_ne_true)]
  refine ⟨fun more => if_pos more, fun all posted => ?_, fun all posted first rl none_ => ?_, fun all posted later rl quiet => ?_⟩
  · rw [if_neg (Nat.not_lt.2 all), if_pos posted]
  · rw [if_neg (Nat.not_lt.2 all), if_neg (not_not_intro posted), if_pos first, rl, if_neg Bool.false_ne_true]
    have nothing : s.reduceWord b x = some (x, s) := by
      unfold State.reduceWord
      dsimp only
      rw [none_]
      rfl
    rw [nothing]
  · rw [if_neg (Nat.not_lt.2 all), if_neg (not_not_intro posted), if_neg later, rl, if_neg Bool.false_ne_true]
    exact ⟨_, rfl, s.completeId_ends found quiet⟩

/-! ## The sum that a reduction tree makes (R172) -/

/-- The sum of the values that are present. -/
def sumPresent (l : List (Option Nat)) : Nat := (l.map fun x => x.getD 0).sum

section Tree
variable {f : Nat → Nat → Nat × Flags} {M : Nat} (adds : ∀ x y, (f x y).1 % M = (x + y) % M)
include adds

theorem redNode_sum (x y : Option Nat) : (redNode f x y).1.getD 0 % M = (x.getD 0 + y.getD 0) % M := by
  cases x with
  | none => cases y <;> simp [redNode]
  | some x =>
    cases y with
    | none => simp [redNode]
    | some y => exact adds x y

/-- A level keeps the sum, modulo M, and halves the list. -/
theorem redLevel_sum (l : List (Option Nat)) :
    sumPresent (redLevel f l).1 % M = sumPresent l % M ∧ 2 * (redLevel f l).1.length ≤ l.length + 1 := by
  induction l using redLevel.induct (f := f) with
  | case1 x y t ih =>
    obtain ⟨sum, length⟩ := ih
    refine ⟨?_, ?_⟩
    · show ((redNode f x y).1.getD 0 + sumPresent (redLevel f t).1) % M = (x.getD 0 + (y.getD 0 + sumPresent t)) % M
      rw [Nat.add_mod, redNode_sum adds, sum, ← Nat.add_mod, Nat.add_assoc]
    · simp only [redLevel, List.length_cons]
      omega
  | case2 l short =>
    match l, short with
    | [], _ => exact ⟨rfl, by simp [redLevel]⟩
    | [x], _ => exact ⟨rfl, by simp [redLevel]⟩
    | x :: y :: t, short => exact absurd rfl (short x y t)

/-- A tree of enough levels ends with the sum. -/
theorem redTree_sum (n : Nat) (l : List (Option Nat)) (fits : l.length ≤ 2 ^ n) :
    (redTree f n l).1.getD 0 % M = sumPresent l % M := by
  induction n generalizing l with
  | zero =>
    match l, fits with
    | [], _ => rfl
    | [x], _ => simp [redTree, sumPresent]
  | succ n ih =>
    obtain ⟨sum, length⟩ := redLevel_sum adds l
    have half : (redLevel f l).1.length ≤ 2 ^ n := by
      rw [Nat.pow_succ] at fits
      omega
    exact (ih _ half).trans sum

end Tree

theorem sumPresent_range (g : Row → Nat) (rows : List Row) (n : Nat) (fits : rows.length ≤ n) :
    sumPresent ((List.range n).map fun j => (rows[j]?).map g) = (rows.map g).sum := by
  induction rows generalizing n with
  | nil => simp [sumPresent]
  | cons v rows ih =>
    obtain ⟨m, rfl⟩ : ∃ m, n = m + 1 := ⟨n - 1, by simp at fits; omega⟩
    have rest := ih m (by simpa using fits)
    simp only [sumPresent, List.map_map, Function.comp_def] at rest
    simp [sumPresent, List.range_succ_eq_map, Function.comp_def, rest]

/-! ## Lanes of a reduced row (R339) -/

theorem elemOf_int {el w : Nat} {signed : Bool} (h : elemOf el = .int signed w) : 0 < w := by
  unfold elemOf at h
  split at h
  · injection h with _ width
    have := Nat.two_pow_pos (el % 4)
    omega
  · split_ifs at h

/-- A number read as signed is the number, modulo the width. -/
theorem signNat_emod (x : Nat) {w : Nat} (h : 0 < w) : signNat x w % ((2 ^ w : Nat) : Int) = (x : Int) % ((2 ^ w : Nat) : Int) := by
  unfold signNat
  dsimp only
  rw [if_neg (Nat.ne_of_gt h)]
  split <;> simp

/-- R45: addition wraps, in either reading of the operands. -/
theorem combineElem_adds {el w : Nat} {signed : Bool} (h : elemOf el = .int signed w) (x y : Nat) :
    (combineElem el 0 false x y).1 % 2 ^ w = (x + y) % 2 ^ w := by
  let v (z : Nat) : Int := if signed then signNat z w else (z : Int)
  have value (z : Nat) : v z % ((2 ^ w : Nat) : Int) = (z : Int) % ((2 ^ w : Nat) : Int) := by
    unfold v
    split
    · exact signNat_emod z (elemOf_int h)
    · rfl
  have sum : (combineElem el 0 false x y).1 = wrapNat w (v x + v y) := by
    rw [combineElem, h]
    rfl
  have total : (v x + v y) % ((2 ^ w : Nat) : Int) = (((x + y) % 2 ^ w : Nat) : Int) := by
    rw [Int.add_emod, value, value, ← Int.add_emod]
    norm_cast
  rw [sum, wrapNat, total, Int.toNat_natCast, Nat.mod_mod]

theorem lane_ofLanes (w : Nat) (l : List Nat) (i : Nat) (inside : w * i + w ≤ 512) :
    lane w (ofLanes w l) i = l.getD i 0 % 2 ^ w := by
  rw [← extract_ofLanes w l i inside, BitVec.extractLsb'_toNat, Nat.shiftRight_eq_div_pow, lane]

theorem reduceRow_adds (el w : Nat) (signed : Bool) (rows : List Row) (int : elemOf el = .int signed w) (few : rows.length ≤ 8) :
    LanesAre w (512 / w) (reduceRow el 0 rows).1 fun i => (rows.map fun v => lane w v i).sum % 2 ^ w := by
  intro i hi
  have width : (elemOf el).width = w := by rw [int]; rfl
  have inside : w * i + w ≤ 512 := (Nat.mul_le_mul_left w hi).trans (Nat.mul_div_le 512 w)
  rw [reduceRow, width]
  dsimp only
  rw [lane_ofLanes _ _ _ inside, List.getD_eq_getElem _ _ (by simpa using hi)]
  simp only [List.getElem_map, List.getElem_range]
  rw [redTree_sum (combineElem_adds int) 3 _ (by simp), sumPresent_range _ _ _ few]

theorem reductionRun : Claims.ReductionRun :=
  ⟨fun s stack b x block found => reductionBlock s stack b x block found,
    fun el w signed rows int _ few => reduceRow_adds el w signed rows int few⟩

/-- Settles O48, claim by claim. -/
theorem baseDieOperations : Obligations.BaseDieOperations := ⟨postedOperations, reductionRun⟩

end Sys2Proof.Machine
end

section
/-! SUPPORT. Proof of the first claim of the statement on device memory (O21): what a load delivers, whence, and what it
does where it finds poison. -/

namespace Sys2Proof.Machine

/-! ## What a load of a local row returns (R238, R251) -/

theorem seenFrom_ne_nil (init : Row) (got viewed : WriteRec → Bool) (l : List WriteRec) : seenFrom init got viewed l ≠ [] := by
  induction l with
  | nil => simp [seenFrom]
  | cons w t ih =>
    unfold seenFrom
    split
    · simp
    · split
      · simp
      · exact ih

theorem pickFrom_mem {l : List (Nat × Row)} (some_ : l ≠ []) (pick : Nat) (d : Nat × Row) : pickFrom l pick d ∈ l := by
  have inside : min pick (l.length - 1) < l.length := by
    have := List.length_pos_iff.2 some_
    omega
  rw [pickFrom, List.getD_eq_getElem _ _ inside]
  exact List.getElem_mem _

/-- A row that the issuing context may read through a mapping: the home's where the mapping is not cached, else one of the
writes that have reached it. -/
def State.Legal (s : State) (acc : Acc) (r : Row) : Prop :=
  if acc.leaf.ms = true ∨ acc.leaf.c = false then r = s.mem.decipher acc.leaf.ek acc.row (s.mem.home acc.row)
  else ∃ e ∈ s.candidates s.agent acc.row, r = s.mem.decipher acc.leaf.ek acc.row e.2

theorem State.load_hub (s : State) (a : Agent) {acc : Acc} (n : Nat) (hub : isHubRow acc.row = true) :
    s.load a acc n = (s.hubRow acc.row, false, s) := by
  simp [State.load, hub]

/-- A load of memory changes the reader's view alone. -/
theorem State.load_memory (s : State) {acc : Acc} (n : Nat) (hub : isHubRow acc.row = false) :
    ∃ r m, s.load s.agent acc n = (r, s.mem.bad.contains acc.row, { s with mem := m }) ∧ s.mem.SameRows m ∧ s.Legal acc r := by
  have memory : ¬ isHubRow acc.row = true := by rw [hub]; exact Bool.false_ne_true
  unfold State.load
  dsimp only
  rw [if_neg memory]
  by_cases home : acc.leaf.ms = true ∨ acc.leaf.c = false
  · rw [if_pos (by simpa using home)]
    exact ⟨_, _, rfl, s.mem.sameRows_seeHome _ _, (if_pos home).mpr rfl⟩
  · rw [if_neg (by simpa using home)]
    have candidate := pickFrom_mem (seenFrom_ne_nil (s.mem.initial acc.row) (fun w => s.reaches w s.agent)
      (fun w => w.viewed.contains s.agent) (s.mem.recs acc.row).reverse) n (0, s.mem.initial acc.row)
    exact ⟨_, _, rfl, s.mem.sameRows_see _ _ _, (if_neg home).mpr ⟨_, candidate, rfl⟩⟩

/-! ## Loads of the issuing context (R140 to R142, R341) -/

/-- The context has no operation of its own on its way. -/
def State.Idle (s : State) : Prop := (∀ p ∈ s.mem.posted, p.by_ ≠ s.agent) ∧ ∀ x ∈ s.mem.adds, x.by_ ≠ s.agent

/-- An access to this module that waits for nothing. -/
def State.Here (s : State) (k : AccKind) (va : Word) (acc : Acc) : Prop :=
  s.xlate k va = .ok acc ∧ s.mem.stalls acc.pa = false ∧ s.isRemote acc = false

/-- An access to another module. -/
def State.Afar (s : State) (k : AccKind) (va : Word) (acc : Acc) : Prop := s.xlate k va = .ok acc ∧ s.isRemote acc = true

/-- The answer that has come to a request for an access's row. -/
def State.answerOf (s : State) (acc : Acc) : Option (Nat × Row) := s.ctx.answers.find? fun e => e.1 = acc.key

/-- Whether that answer came as poisoned. -/
def State.answerSpoilt (s : State) (acc : Acc) : Bool := s.ctx.answers.any fun e => e.1 = poisonKey acc.key

theorem State.Here.ready {s : State} {k : AccKind} {va : Word} {acc : Acc} (h : s.Here k va acc) :
    s.mem.stalls acc.pa = false := h.2.1

theorem State.Here.near {s : State} {k : AccKind} {va : Word} {acc : Acc} (h : s.Here k va acc) :
    s.isRemote acc = false := h.2.2

theorem State.Afar.far {s : State} {k : AccKind} {va : Word} {acc : Acc} (h : s.Afar k va acc) :
    s.isRemote acc = true := h.2

theorem State.Here.dataAcc {s : State} {k : AccKind} {va : Word} {acc : Acc} (h : s.Here k va acc) (info : Nat) :
    s.dataAcc k va info = .ok acc := by
  obtain ⟨found, ready, -⟩ := h
  exact s.dataAcc_ok k va info acc found ready

theorem State.Afar.dataAcc {s : State} {k : AccKind} {va : Word} {acc : Acc} (h : s.Afar k va acc) (info : Nat) :
    s.dataAcc k va info = .ok acc := State.dataAcc_remote info h.1 h.far

theorem State.Here.loadAt {s : State} {va : Word} {acc : Acc} (h : s.Here .read va acc) (idle : s.Idle) :
    s.loadAt va acc = .ok (s.load s.agent acc s.iss.pick) := by
  have near : ¬ s.isRemote acc = true := by rw [h.near]; exact Bool.false_ne_true
  rw [State.loadAt, if_neg near, s.drain_none _ _ _ idle.1 idle.2]
  exact if_neg near

theorem State.Afar.loadAt {s : State} {va : Word} {acc : Acc} (h : s.Afar .read va acc) (idle : s.Idle) :
    s.loadAt va acc = s.ctxLoad .read va acc := by
  obtain ⟨posted, adds⟩ := idle
  have none_ : (s.mem.ways.any fun p => p.by_ == s.agent && p.page == acc.page && !p.sent) = false := by
    refine List.any_eq_false.2 fun w member => ?_
    have other : w.by_ ≠ s.agent := by
      obtain member | member := List.mem_append.1 member
      · obtain ⟨p, hp, rfl⟩ := List.mem_map.1 member
        exact posted p hp
      · obtain ⟨x, hx, rfl⟩ := List.mem_map.1 member
        exact adds x hx
    simp [other]
  rw [State.loadAt, if_pos h.far, if_neg (by rw [none_]; exact Bool.false_ne_true)]

/-- R322: what an answer of another module gives. -/
theorem State.ctxLoad_answered {s : State} {acc : Acc} {e : Nat × Row} (k : AccKind) (va : Word) (far : s.isRemote acc = true)
    (come : s.answerOf acc = some e) :
    s.ctxLoad k va acc = .ok (s.mem.decipher acc.leaf.ek acc.row e.2, s.answerSpoilt acc, s) := by
  unfold State.answerOf at come
  simp [State.ctxLoad, far, come, State.answerSpoilt]

/-- R142: a row that has been loaded is given, or its poison traps with the address of its line. -/
theorem State.loadRow_of_loadAt {s u : State} {va : Word} {acc : Acc} {r : Row} {bad : Bool}
    (found : s.dataAcc .read va 0 = .ok acc) (loaded : s.loadAt va acc = .ok (r, bad, u)) :
    s.loadRow va = if bad && !s.ctx.acted then .error (s.fault 0x09 0 (va &&& ~~~63#64)) else .ok (r, u) := by
  have found : s.dataAccAs s.ctxAsid .read va 0 = .ok acc := found
  rw [State.loadRow, State.loadFor, State.loadForAs, found]
  dsimp only
  rw [loaded]

theorem State.loadRow_clean {s u : State} {va : Word} {acc : Acc} {r : Row}
    (found : s.dataAcc .read va 0 = .ok acc) (loaded : s.loadAt va acc = .ok (r, false, u)) : s.loadRow va = .ok (r, u) :=
  State.loadRow_of_loadAt found loaded

theorem State.loadRow_spoilt {s u : State} {va : Word} {acc : Acc} {r : Row}
    (found : s.dataAcc .read va 0 = .ok acc) (loaded : s.loadAt va acc = .ok (r, true, u)) (first : s.ctx.acted = false) :
    s.loadRow va = .error (s.fault 0x09 0 (va &&& ~~~63#64)) :=
  (State.loadRow_of_loadAt found loaded).trans (by rw [first]; rfl)

theorem State.loadRow_of_error {s : State} {va : Word} {acc : Acc} {x : Res}
    (found : s.dataAcc .read va 0 = .ok acc) (failed : s.loadAt va acc = .error x) : s.loadRow va = .error x := by
  have found : s.dataAccAs s.ctxAsid .read va 0 = .ok acc := found
  rw [State.loadRow, State.loadFor, State.loadForAs, found]
  dsimp only
  rw [failed]

/-! ## The loads, ordinary and speculative -/

/-- What an instruction that loads the row at an address does where it finds no poison. -/
def State.Loads (s : State) (i : Instr) (va : Word) (gives : Row → State) : Prop :=
  (∀ acc, s.Here .read va acc ∧ isHubRow acc.row = false ∧ acc.row ∉ s.mem.bad → ∃ r u, s.Legal acc r ∧ exec i s = .next u ∧
    u.ctx = (gives r).ctx ∧ ∀ x, u.mem.byte x = s.mem.byte x) ∧
  (∀ acc, s.Here .read va acc → isHubRow acc.row = true → acc.row ∉ s.mem.bad →
    exec i s = .next (gives (s.hubRow acc.row))) ∧
  (∀ acc, s.Afar .read va acc → s.answerOf acc = none →
    exec i s = .next (s.waiting (.remote .read va acc .load 0 false 0 0 none))) ∧
  ∀ acc e, s.Afar .read va acc → s.answerOf acc = some e → s.answerSpoilt acc = false →
    exec i s = .next (gives (s.mem.decipher acc.leaf.ek acc.row e.2))

/-- What it does where it finds poison, in a bundle that has changed nothing at another module yet. -/
def State.Spoilt (s : State) (i : Instr) (va : Word) (u : State) : Prop := s.ctx.acted = false →
  (∀ acc, s.Here .read va acc → isHubRow acc.row = false → acc.row ∈ s.mem.bad → exec i s = .next u) ∧
  ∀ acc e, s.Afar .read va acc → s.answerOf acc = some e → s.answerSpoilt acc = true → exec i s = .next u

section Load
variable {s : State} {i : Instr} {va : Word} (idle : s.Idle)
include idle

/-- An instruction that gives the row it loads, in a way that rests on the registers alone, and waits where the load does. -/
theorem State.loads_of (gives : State → Row → State)
    (delivers : ∀ r u, s.loadRow va = .ok (r, u) → exec i s = .next (gives u r))
    (waits : ∀ w, s.loadRow va = .error (.wait w) → exec i s = .next (s.waiting w))
    (ctx : ∀ r u, u.cores = s.cores → u.iss = s.iss → (gives u r).ctx = (gives s r).ctx)
    (mem : ∀ r u, (gives u r).mem = u.mem) : s.Loads i va (gives s) := by
  refine ⟨fun acc here => ?plain, fun acc here hub _ => ?hub, fun acc afar none_ => ?asks, fun acc e afar come good => ?comes⟩
  case plain =>
    obtain ⟨here, hub, good⟩ := here
    obtain ⟨r, m, loaded, same, legal⟩ := s.load_memory s.iss.pick hub
    rw [show s.mem.bad.contains acc.row = false by simpa using good] at loaded
    have row := State.loadRow_clean (here.dataAcc 0) ((here.loadAt idle).trans (congrArg Except.ok loaded))
    exact ⟨r, _, legal, delivers r _ row, ctx r _ rfl rfl, fun x => by rw [mem]; exact same.byte x⟩
  case hub =>
    have loaded := s.load_hub s.agent s.iss.pick hub
    exact delivers _ _ (State.loadRow_clean (here.dataAcc 0) ((here.loadAt idle).trans (congrArg Except.ok loaded)))
  case asks =>
    have new : ∀ e ∈ s.ctx.answers, e.1 ≠ acc.key := fun e member => by simpa using List.find?_eq_none.1 none_ e member
    have asks := State.ctxLoad_asks .read va afar.far new
    exact waits _ (State.loadRow_of_error (afar.dataAcc 0) ((afar.loadAt idle).trans asks))
  case comes =>
    have comes := State.ctxLoad_answered .read va afar.far come
    rw [good] at comes
    exact delivers _ _ (State.loadRow_clean (afar.dataAcc 0) ((afar.loadAt idle).trans comes))

theorem State.spoilt_of {u : State} (ends : s.loadRow va = .error (s.fault 0x09 0 (va &&& ~~~63#64)) → exec i s = .next u) :
    s.Spoilt i va u := by
  refine fun first => ⟨fun acc here hub bad => ?_, fun acc e afar come bad => ?_⟩
  · obtain ⟨r, m, loaded, -, -⟩ := s.load_memory s.iss.pick hub
    rw [show s.mem.bad.contains acc.row = true by simpa using bad] at loaded
    exact ends (State.loadRow_spoilt (here.dataAcc 0) ((here.loadAt idle).trans (congrArg Except.ok loaded)) first)
  · have comes := State.ctxLoad_answered .read va afar.far come
    rw [bad] at comes
    exact ends (State.loadRow_spoilt (afar.dataAcc 0) ((afar.loadAt idle).trans comes) first)

end Load

/-! ## What a speculative load finds (R143) -/

section Spec
variable {s : State} {va : Word}

theorem State.specRow_ok {r : Row} {u : State} (h : s.loadRow va = .ok (r, u)) : s.specRow va = .ok (some r, u) := by
  rw [State.specRow, h]

theorem State.specRow_wait {w : Wait} (h : s.loadRow va = .error (.wait w)) : s.specRow va = .error (.wait w) := by
  rw [State.specRow, h]

theorem State.specRow_fault {code info : Nat} {faddr : Word} (h : s.loadRow va = .error (s.fault code info faddr)) :
    s.specRow va = .ok (none, s) := by
  rw [State.specRow, h]
  rfl

end Spec

/-! ## The four instructions -/

section Instructions
variable {s : State} (g : BitVec 4) (t b : BitVec 6) (d : BitVec 10) (guard : s.readP g = true)

/-- A word delivered to a scalar register. -/
def wordTo (t : BitVec 6) (va : Word) (s : State) (r : Row) : State :=
  s.issueS t (r.extractLsb' (64 * bitsOf va.toNat 3 3) 64) 1

/-- A row delivered to a vector register. -/
def rowTo (t : BitVec 6) (s : State) (r : Row) : State := s.issueRow t.toNat r 1 0

theorem rowWord_fld (r : Row) (va : Word) : rowWord r (fld va 3 3) = r.extractLsb' (64 * bitsOf va.toNat 3 3) 64 := by
  rw [fld_eq_bitsOf]
  rfl

theorem ctx_wordTo (t : BitVec 6) (va : Word) {s u : State} (r : Row) (cores : u.cores = s.cores) (iss : u.iss = s.iss) :
    (wordTo t va u r).ctx = (wordTo t va s r).ctx :=
  State.ctx_congr (State.issueS_congr _ _ _ cores iss) (by simp [wordTo, iss])

theorem ctx_rowTo (t : BitVec 6) {s u : State} (r : Row) (cores : u.cores = s.cores) (iss : u.iss = s.iss) :
    (rowTo t u r).ctx = (rowTo t s r).ctx :=
  State.ctx_congr (State.issueBits_congr _ _ _ _ _ _ cores iss) (by simp [rowTo, State.issueRow, State.issueV, iss])

include guard

theorem exec_gldw_ok {r : Row} {u : State} (h : s.loadRow (s.gAddr b d 8) = .ok (r, u)) :
    exec (.gldw g t b d) s = .next (wordTo t (s.gAddr b d 8) u r) := by
  rw [exec_gldw, execGldw]
  rw [h, Res.andThen_ok, issue_ok _ _ _ guard, rowWord_fld]
  rfl

theorem exec_gldw_wait {w : Wait} (h : s.loadRow (s.gAddr b d 8) = .error (.wait w)) :
    exec (.gldw g t b d) s = .next (s.waiting w) := by
  rw [exec_gldw, execGldw]
  rw [h, Res.andThen_error, issue_wait _ _ _ guard]

theorem exec_gldw_fault {code info : Nat} {x : Word} (h : s.loadRow (s.gAddr b d 8) = .error (s.fault code info x)) :
    exec (.gldw g t b d) s = .next (s.trapped (s.trapOf code info x) []) := by
  rw [exec_gldw, execGldw]
  rw [h, Res.andThen_error, State.fault, issue_trap _ _ _ _ guard]

theorem exec_gldr_ok {r : Row} {u : State} (h : s.loadRow (s.gAddr b d 64) = .ok (r, u)) :
    exec (.gldr g t b d) s = .next (rowTo t u r) := by
  rw [exec_gldr, execGldr, h, Res.andThen_ok, issue_ok _ _ _ guard]
  rfl

theorem exec_gldr_wait {w : Wait} (h : s.loadRow (s.gAddr b d 64) = .error (.wait w)) :
    exec (.gldr g t b d) s = .next (s.waiting w) := by
  rw [exec_gldr, execGldr, h, Res.andThen_error, issue_wait _ _ _ guard]

theorem exec_gldr_fault {code info : Nat} {x : Word} (h : s.loadRow (s.gAddr b d 64) = .error (s.fault code info x)) :
    exec (.gldr g t b d) s = .next (s.trapped (s.trapOf code info x) []) := by
  rw [exec_gldr, execGldr, h, Res.andThen_error, State.fault, issue_trap _ _ _ _ guard]

theorem exec_gldrs_ok {r : Row} {u : State} (h : s.loadRow (s.gAddr b d 64) = .ok (r, u)) :
    exec (.gldrs g t b d) s = .next (rowTo t u r) := by
  rw [exec_gldrs, execGldrs, State.specRow_ok h, Res.andThen_ok, issue_ok _ _ _ guard]
  rfl

theorem exec_gldrs_wait {w : Wait} (h : s.loadRow (s.gAddr b d 64) = .error (.wait w)) :
    exec (.gldrs g t b d) s = .next (s.waiting w) := by
  rw [exec_gldrs, execGldrs, State.specRow_wait h, Res.andThen_error, issue_wait _ _ _ guard]

theorem exec_gldrs_fault {code info : Nat} {x : Word} (h : s.loadRow (s.gAddr b d 64) = .error (s.fault code info x)) :
    exec (.gldrs g t b d) s = .next (s.issueBits (.v t.toNat) 0 (~~~0) 1 0 true) := by
  rw [exec_gldrs, execGldrs, State.specRow_fault h, Res.andThen_ok, issue_ok _ _ _ guard]

/-- R143: into s0 nothing is loaded. -/
theorem exec_gldws_prefetch {acc : Acc} (found : s.translate s.ctxAsid .read (s.gAddr b d 8) = .ok acc) :
    exec (.gldws g 0 b d) s = .next s := by
  rw [exec_gldws, execGldws, found]
  exact issue_ok _ _ _ guard

variable (dest : t ≠ 0)
include dest

theorem exec_gldws_ok {r : Row} {u : State} (h : s.loadRow (s.gAddr b d 8) = .ok (r, u)) :
    exec (.gldws g t b d) s = .next (wordTo t (s.gAddr b d 8) u r) := by
  rw [exec_gldws, execGldws]
  rw [if_neg dest, State.specRow_ok h, Res.andThen_ok, issue_ok _ _ _ guard, rowWord_fld]
  rfl

theorem exec_gldws_wait {w : Wait} (h : s.loadRow (s.gAddr b d 8) = .error (.wait w)) :
    exec (.gldws g t b d) s = .next (s.waiting w) := by
  rw [exec_gldws, execGldws]
  rw [if_neg dest, State.specRow_wait h, Res.andThen_error, issue_wait _ _ _ guard]

theorem exec_gldws_fault {code info : Nat} {x : Word} (h : s.loadRow (s.gAddr b d 8) = .error (s.fault code info x)) :
    exec (.gldws g t b d) s = .next (s.issueDeferred t) := by
  rw [exec_gldws, execGldws]
  rw [if_neg dest, State.specRow_fault h, Res.andThen_ok, issue_ok _ _ _ guard]

end Instructions

theorem deviceLoads : Claims.DeviceLoads := by
  intro s g t b d guard posted adds
  have idle : s.Idle := ⟨posted, adds⟩
  have word (u : State) (r : Row) : (wordTo t (s.gAddr b d 8) u r).mem = u.mem := State.issueS_mem ..
  refine ⟨?gldw, ?gldwTraps, ?gldr, ?gldrTraps, fun dest => ?gldws, fun dest => ?gldwsDefers, ?gldrsDefers, ?prefetch, ?gldrs⟩
  case gldw =>
    exact State.loads_of idle (wordTo t (s.gAddr b d 8)) (fun _ _ => exec_gldw_ok g t b d guard)
      (fun _ => exec_gldw_wait g t b d guard) (fun r _ => ctx_wordTo t _ r) fun r u => word u r
  case gldwTraps => exact State.spoilt_of idle (exec_gldw_fault g t b d guard)
  case gldr =>
    exact State.loads_of idle (rowTo t) (fun _ _ => exec_gldr_ok g t b d guard) (fun _ => exec_gldr_wait g t b d guard)
      (fun r _ => ctx_rowTo t r) fun _ _ => rfl
  case gldrTraps => exact State.spoilt_of idle (exec_gldr_fault g t b d guard)
  case gldws =>
    exact State.loads_of idle (wordTo t (s.gAddr b d 8)) (fun _ _ => exec_gldws_ok g t b d guard dest)
      (fun _ => exec_gldws_wait g t b d guard dest) (fun r _ => ctx_wordTo t _ r) fun r u => word u r
  case gldwsDefers => exact State.spoilt_of idle (exec_gldws_fault g t b d guard dest)
  case gldrsDefers => exact State.spoilt_of idle (exec_gldrs_fault g t b d guard)
  case prefetch =>
    rintro rfl acc found
    exact exec_gldws_prefetch g b d guard found
  case gldrs =>
    exact State.loads_of idle (rowTo t) (fun _ _ => exec_gldrs_ok g t b d guard) (fun _ => exec_gldrs_wait g t b d guard)
      (fun r _ => ctx_rowTo t r) fun _ _ => rfl

end Sys2Proof.Machine
end

section
/-! SUPPORT. Proof of the second claim of the statement on device memory (O21): which way a store goes, and what it leaves
where it is performed at once. -/

namespace Sys2Proof.Machine

/-! ## A store that is posted (R141, R245) -/

/-- One more operation on its way, none of which has left yet. -/
def State.queued (s : State) (p : Posted) : State :=
  { s with mem := { s.mem with nextId := s.mem.nextId + 1, posted := s.mem.posted ++ [p] } }

theorem State.post_near (s : State) {p : Posted} (near : p.out = none) : s.post p = s.queued p := by
  rw [State.post, near]
  rfl

/-- One to another module leaves at once where its way is free. -/
theorem State.post_afar (s : State) {p : Posted} {node : Nat} {f : Flit} (afar : p.out = some (node, f)) (first : p.stage = 0) :
    s.post p = if (s.queued p).mem.wayFree p.way = true then (s.queued p).sendPosted s.mem.posted.length p node f
      else s.queued p := by
  have last : (s.queued p).mem.posted[s.mem.posted.length]? = some p := by simp [State.queued]
  have post : s.post p = (s.queued p).performAt s.mem.posted.length := by
    rw [State.post, afar]
    rfl
  rw [post]
  by_cases free : (s.queued p).mem.wayFree p.way = true
  · rw [if_pos free]
    exact State.performAt_leaves (o := (node, f)) last afar first free
  · rw [if_neg free]
    exact State.performAt_held last (Bool.eq_false_iff.2 free)

/-! ## A row stored at once (R230, R244, R251, R378) -/

@[simp] theorem Mem.keys_writeBack (m : Mem) (r : Nat) : (m.writeBack r).keys = m.keys := by
  unfold Mem.writeBack
  split
  · rfl
  next w _ =>
    have kept : (m.perform r w.val).keys = m.keys := by rw [(m.homeOnly_perform r w.val).rest]
    exact kept

@[simp] theorem Mem.keys_evict (m : Mem) (line : Option (Nat × Nat)) (r : Nat) : (m.evict line r).keys = m.keys := by
  unfold Mem.evict
  split
  · rfl
  · exact Mem.foldl_keeps Mem.keys Mem.writeBack Mem.keys_writeBack _ m

/-- With no dirty line of another row at the place nothing is written back. -/
theorem Mem.evict_free (m : Mem) {line : Option (Nat × Nat)} {r : Nat}
    (free : ∀ w ∈ m.log, w.dirty = true → w.row ≠ r → w.line ≠ line) : m.evict line r = m := by
  cases line with
  | none => rfl
  | some l =>
    have none_ : (m.log.filter fun w => w.dirty && w.row != r && w.line == some l) = [] := by
      refine List.filter_eq_nil_iff.2 fun w member => ?_
      have other := free w member
      simp only [Bool.and_eq_true, bne_iff_ne, beq_iff_eq, and_imp, not_and]
      exact other
    rw [Mem.evict, none_]
    rfl

section Cached
variable (m : Mem) (a : Agent) (k : Option (BitVec 16)) (l : Option (Nat × Nat)) (r : Nat) (v : Row)

/-- A cached store adds its write to its row's order. -/
theorem Mem.rows_storeCached : ((m.storeCached a k l r v).log.map fun w => (w.row, w.val)) =
    (m.log.map fun w => (w.row, w.val)) ++ [(r, v)] := by
  rw [Mem.storeCached, List.map_append, List.map_map]
  refine congrArg (· ++ [(r, v)]) (List.map_congr_left fun w _ => ?_)
  simp only [Function.comp_apply]
  split <;> rfl

theorem Mem.latest_storeCached : (m.storeCached a k l r v).latest r = v := by
  rw [Mem.latest_eq, Mem.rows_storeCached, lastWrite_append]
  rfl

theorem Mem.newest_storeCached_ne {x : Nat} (other : x / 64 ≠ r) : (m.storeCached a k l r v).newest x = m.newest x := by
  rw [Mem.newest, Mem.newest, Mem.latest_eq, Mem.latest_eq, Mem.rows_storeCached, lastWrite_append_ne _ _ _ _ other]
  rfl

theorem Mem.not_mem_bad_storeCached : r ∉ (m.storeCached a k l r v).bad := by
  simp [Mem.storeCached, removeNat]

end Cached

/-- The state in which a store finds the place of its line free. -/
def State.madeRoom (s : State) (a : Agent) (acc : Acc) : State :=
  if acc.leaf.c = true then { s with mem := s.mem.evict (s.lineFor a acc.row) acc.row } else s

theorem State.madeRoom_free {s : State} {a : Agent} {acc : Acc}
    (free : ∀ w ∈ s.mem.log, w.dirty = true → w.row ≠ acc.row → w.line ≠ s.lineFor a acc.row) : s.madeRoom a acc = s := by
  unfold State.madeRoom
  split
  · rw [s.mem.evict_free free]
  · rfl

section Store
variable {s : State} {acc : Acc} (a : Agent) (v : Row) (hub : isHubRow acc.row = false)
include hub

/-- A row stored through a cached mapping. -/
theorem State.store_cached_leaves (ms : acc.leaf.ms = false) (cached : acc.leaf.c = true) :
    (s.store a acc v).cores = s.cores ∧ MemoryKeptBut acc.row (s.madeRoom a acc) (s.store a acc v) ∧
      (s.store a acc v).peek acc = v ∧ acc.row ∉ (s.store a acc v).mem.bad := by
  have kind : (acc.leaf.ms || !acc.leaf.c) = false := by simp [ms, cached]
  rw [s.store_cached a acc v hub kind, State.madeRoom, if_pos cached]
  refine ⟨rfl, fun x other => ⟨rfl, Mem.newest_storeCached_ne _ _ _ _ _ _ other⟩, ?_, Mem.not_mem_bad_storeCached _ _ _ _ _ _⟩
  rw [State.peek_memory hub, kind, if_neg Bool.false_ne_true, Mem.latest_storeCached]
  exact Mem.decipher_encipher _ _ _ _ _ (s.mem.keys_evict _ _)

/-- A row stored through a mapping that is not cached. -/
theorem State.store_home_leaves (uncached : acc.leaf.c = false) (correct : s.mem.uncorr.contains acc.row = false) :
    (s.store a acc v).cores = s.cores ∧ MemoryKeptBut acc.row (s.madeRoom a acc) (s.store a acc v) ∧
      (s.store a acc v).peek acc = v ∧ acc.row ∉ (s.store a acc v).mem.bad := by
  have room : s.madeRoom a acc = s := if_neg (by rw [uncached]; exact Bool.false_ne_true)
  have done := s.performed_writeHome a false (s.mem.encipher acc.leaf.ek acc.row v) correct
  rw [s.store_home a acc v hub (by simp [uncached]), room]
  exact ⟨rfl, done.kept, State.peek_put (s.rowPut_writeHome a false _ _ correct) hub, done.clean⟩

theorem State.store_leaves (ms : acc.leaf.ms = false) (correct : s.mem.uncorr.contains acc.row = false) :
    (s.store a acc v).cores = s.cores ∧ MemoryKeptBut acc.row (s.madeRoom a acc) (s.store a acc v) ∧
      (s.store a acc v).peek acc = v ∧ acc.row ∉ (s.store a acc v).mem.bad := by
  cases cached : acc.leaf.c with
  | true => exact State.store_cached_leaves a v hub ms cached
  | false => exact State.store_home_leaves a v hub cached correct

theorem State.storeWord_bad (x : Word) (bad : acc.row ∈ s.mem.bad) : s.storeWord a acc x = (s, true) := by
  simp [State.storeWord, hub, bad]

theorem State.storeWord_good (x : Word) (good : acc.row ∉ s.mem.bad) :
    s.storeWord a acc x = (s.store a acc (setRowWord (s.peek acc) (acc.pa / 8 % 8) x), false) := by
  simp [State.storeWord, hub, good]

end Store

/-! ## The two instructions -/

/-- Which way a store goes: as a request to another module, to its memory-side page, or performed at once unless it must
follow what is still on its way. -/
def State.storing (s : State) (acc : Acc) (p : Posted) (f : Flit) (perform : State → State) : State :=
  if s.isRemote acc then s.post (p.to acc f)
  else if acc.leaf.ms then s.post p
  else
    match s.beforeStore acc with
    | none => s.post { p with wide := true }
    | some s1 => perform s1

/-- A word store performed, or dropped on a poisoned row. -/
def State.wordStored (s : State) (a : Agent) (acc : Acc) (v : Word) : State :=
  if (s.storeWord a acc v).2 then s.dropReport acc.row a else (s.storeWord a acc v).1

section Storing
variable {s : State} {acc : Acc} {p : Posted} {f : Flit} {perform : State → State}

theorem State.storing_afar (far : s.isRemote acc = true) (first : p.stage = 0) : s.storing acc p f perform =
    if (s.queued (p.to acc f)).mem.wayFree (p.to acc f).way = true then
      (s.queued (p.to acc f)).sendPosted s.mem.posted.length (p.to acc f) acc.leaf.home f
    else s.queued (p.to acc f) := by
  rw [State.storing, if_pos far]
  exact s.post_afar rfl first

theorem State.storing_ms (near : s.isRemote acc = false) (ms : acc.leaf.ms = true) (out : p.out = none) :
    s.storing acc p f perform = s.queued p := by
  rw [State.storing, if_neg (by rw [near]; exact Bool.false_ne_true), if_pos ms]
  exact s.post_near out

theorem State.storing_behind (near : s.isRemote acc = false) (ms : acc.leaf.ms = false) (out : p.out = none)
    (held : s.beforeStore acc = none) : s.storing acc p f perform = s.queued { p with wide := true } := by
  rw [State.storing, if_neg (by rw [near]; exact Bool.false_ne_true), if_neg (by rw [ms]; exact Bool.false_ne_true), held]
  exact s.post_near out

theorem State.storing_once {s1 : State} (near : s.isRemote acc = false) (ms : acc.leaf.ms = false)
    (ready : s.beforeStore acc = some s1) : s.storing acc p f perform = perform s1 := by
  rw [State.storing, if_neg (by rw [near]; exact Bool.false_ne_true), if_neg (by rw [ms]; exact Bool.false_ne_true), ready]

end Storing

section Instructions
variable {s : State} {acc : Acc} (g : BitVec 4) (t b : BitVec 6) (d : BitVec 10) (guard : s.readP g = true)
include guard

theorem exec_gstw_storing (found : s.dataAcc .write (s.gAddr b d 8) 1 = .ok acc) : exec (.gstw g t b d) s =
    .next (s.storing acc (s.posted acc (s.gAddr b d 8) .store (acc.pa / 8 % 8) false (s.readS t) 0)
      (acc.wordFlit s.postTag (s.readS t)) fun s1 => s1.wordStored s.agent acc (s.readS t)) := by
  rw [exec_gstw, execGstw, found, Res.andThen_ok, ← issue_ok g s _ guard]
  refine congrArg (issue g s) ?_
  unfold State.storing
  split
  · rfl
  split
  · rfl
  cases s.beforeStore acc with
  | none => rfl
  | some s1 => rfl

theorem exec_gstr_storing (found : s.dataAcc .write (s.gAddr b d 64) 1 = .ok acc) : exec (.gstr g t b d) s =
    .next (s.storing acc (s.posted acc (s.gAddr b d 64) .store 16 false 0 (s.readV t.toNat))
      (s.rowFlit acc 0 s.postTag (s.readV t.toNat)) fun s1 => s1.store s.agent acc (s.readV t.toNat)) := by
  rw [exec_gstr, execGstr, found, Res.andThen_ok, ← issue_ok g s _ guard]
  refine congrArg (issue g s) ?_
  unfold State.storing
  split
  · rfl
  split
  · rfl
  cases s.beforeStore acc with
  | none => rfl
  | some s1 => rfl

end Instructions

/-- A row that can be read stays so while the operations that come before a store of it are performed. -/
theorem State.beforeStore_correct {s s1 : State} {acc : Acc} (ready : s.mem.stalls acc.pa = false)
    (before : s.beforeStore acc = some s1) : s1.mem.uncorr.contains acc.row = false := by
  have readable : s.mem.uncorr.contains acc.row = false := Mem.correct_of_ready ready
  have correct : acc.row ∉ s.mem.uncorr := by simpa using readable
  simpa using fun member => correct ((State.drain_keeps before).uncorr _ member)

theorem deviceStores : Claims.DeviceStores := by
  intro s g t b d acc guard addr here afar word j operation posts sends wordFlit rowFlit
  have gstw (found : s.dataAcc .write (addr 8) 1 = .ok acc) := exec_gstw_storing g t b d guard found
  have gstr (found : s.dataAcc .write (addr 64) 1 = .ok acc) := exec_gstr_storing g t b d guard found
  have gstwHere (h : here 8) := gstw (State.Here.dataAcc h 1)
  have gstrHere (h : here 64) := gstr (State.Here.dataAcc h 1)
  refine ⟨fun far => ?_, fun far => ?_, fun h ms => ?_, fun h ms => ?_, fun posted adds => s.drain_none _ _ _ posted adds,
    fun ms held => ⟨fun h => ?_, fun h => ?_⟩, fun s1 ms hub before => ⟨fun h => ?hubWord, fun h => ?hubRow⟩,
    fun s1 ms hub before => ?memory⟩
  · exact (gstw (State.Afar.dataAcc far 1)).trans (congrArg _ (State.storing_afar (State.Afar.far far) rfl))
  · exact (gstr (State.Afar.dataAcc far 1)).trans (congrArg _ (State.storing_afar (State.Afar.far far) rfl))
  · exact (gstwHere h).trans (congrArg _ (State.storing_ms (State.Here.near h) ms rfl))
  · exact (gstrHere h).trans (congrArg _ (State.storing_ms (State.Here.near h) ms rfl))
  · exact (gstwHere h).trans (congrArg _ (State.storing_behind (State.Here.near h) ms rfl held))
  · exact (gstrHere h).trans (congrArg _ (State.storing_behind (State.Here.near h) ms rfl held))
  case hubWord =>
    rw [gstwHere h, State.storing_once (State.Here.near h) ms before]
    simp [State.wordStored, State.storeWord, hub]
  case hubRow =>
    rw [gstrHere h, State.storing_once (State.Here.near h) ms before]
    exact ⟨_, rfl, s1.store_hub_mem _ _ _ hub⟩
  case memory =>
    intro line s2
    refine ⟨fun free => State.madeRoom_free free, fun h bad => ?dropped, fun h good => ?word, fun h => ?row⟩
    case dropped =>
      rw [gstwHere h, State.storing_once (State.Here.near h) ms before, State.wordStored, State.storeWord_bad _ hub _ bad, if_pos rfl]
    case word =>
      rw [gstwHere h, State.storing_once (State.Here.near h) ms before, State.wordStored, State.storeWord_good _ hub _ good]
      obtain ⟨cores, kept, peek, -⟩ := State.store_leaves s.agent (setRowWord (s1.peek acc) (acc.pa / 8 % 8) (s.readS t)) hub ms
        (State.beforeStore_correct (State.Here.ready h) before)
      refine ⟨_, rfl, cores, kept, fun n _ => ?_⟩
      exact (congrArg (word · n) peek).trans (extract_setRowWord _ _ n _ (Nat.mod_lt _ (by decide)))
    case row =>
      rw [gstrHere h, State.storing_once (State.Here.near h) ms before]
      obtain ⟨cores, kept, peek, clean⟩ := State.store_leaves s.agent (s.readV t.toNat) hub ms
        (State.beforeStore_correct (State.Here.ready h) before)
      exact ⟨_, rfl, cores, kept, peek, clean⟩

/-- Settles O21, claim by claim. -/
theorem deviceAccess : Obligations.DeviceAccess := ⟨deviceLoads, deviceStores⟩

end Sys2Proof.Machine
end
